-- ==== Sys2Proof/Word.lean ====
section
/-! DEFINITION. The words of the block and their plainest arithmetic. -/

namespace Sys2Proof

/-- A 32-bit word: packet words, SRAM words, binary32 patterns. -/
abbrev Word := BitVec 32

/-- A byte as it crosses the host port, the SRAM or a network port. -/
abbrev Byte := BitVec 8

/-- An instant or a span in 125 ps taps (R15, R311). -/
abbrev Taps := Nat

/-- Taps in a microsecond: 8,000 taps of 125 ps. -/
def usTaps : Nat := 8000

/-- Taps in a millisecond. -/
def msTaps : Nat := 8000000

/-- Taps in a second. -/
def secTaps : Nat := 8000000000

/-- A number as a word, modulo 2^32. -/
def toWord (n : Nat) : Word := BitVec.ofNat 32 n

/-- Bits [hi:lo] of a number (R8). -/
def bitsOf (v hi lo : Nat) : Nat := v / 2 ^ lo % 2 ^ (hi + 1 - lo)

/-- A number read as two's complement of w bits. -/
def toSigned (w n : Nat) : Int := if n < 2 ^ (w - 1) then n else (n : Int) - 2 ^ w

/-- An integer as two's complement of w bits. -/
def ofSigned (w : Nat) (i : Int) : Nat := (i % 2 ^ w).toNat

/-- 0 or 1 as a bit. -/
def bit (b : Bool) : Nat := if b then 1 else 0

/-- a / b rounded up (R25). -/
def ceilDiv (a b : Nat) : Nat := (a + b - 1) / b

/-- A number saturated at the maximum of w bits (R88). -/
def satN (w n : Nat) : Nat := min n (2 ^ w - 1)

/-- The Nats below n, ascending. -/
def upTo (n : Nat) : List Nat := List.range n

/-- Numbers of the bits that are 1 in v, below n, ascending. -/
def setBits (n v : Nat) : List Nat := (List.range n).filter (fun i => v.testBit i)

/-- The number whose bits listed are 1. -/
def ofBits (l : List Nat) : Nat := l.foldl (fun a i => a ||| 2 ^ i) 0

/-- v with bit i set to b. -/
def putBit (v i : Nat) (b : Bool) : Nat := if b then v ||| 2 ^ i else v - (v &&& 2 ^ i)

end Sys2Proof
end

