-- ==== Sys2Proof/Syntax.lean ====
section
/-! DEFINITION. The commands the block takes: one constructor per row of the table of operations and events, with the
operands that the outside world supplies. -/

namespace Sys2Proof

/-- Which conversion of a group a result belongs to: a CONT or interleave slot, a tick-set entry or a sequence entry of
ADC.SEQ (0 to 15 within the group). -/
inductive ConvKind where
  | cont (slot : Nat)
  | tick (entry : Nat)
  | seq (entry : Nat)
  deriving DecidableEq, Repr

/-- Kinds of PTP message (R323). -/
inductive PtpKind where
  | announce | sync | followUp | pdelayReq | pdelayResp | pdelayRespFollowUp | other
  deriving DecidableEq, Repr

/-- A PTP message received: kind, domain, sequence number, sourcePortIdentity, correctionField in 2^-16 ns, timestamp it carries in ns,
twoStepFlag, logMessageInterval, whether it names this port as requester, and an Announce's data (priority1, clockClass,
clockAccuracy, variance, priority2, grandmasterIdentity, stepsRemoved, currentUtcOffset, leap59, leap61, timeTraceable). -/
structure PtpMsg where
  kind : PtpKind
  domain : Nat
  seq : Nat
  src : Nat
  corr : Int
  ts : Int
  twoStep : Bool
  logInt : Int
  toMe : Bool
  ann : List Nat
  deriving DecidableEq, Repr

/-- A sample of the three Plume streams at one strobe: VALUEs and all three valid (R404). -/
structure TwSample where
  a : Int
  b : Int
  c : Int
  ok : Bool
  deriving DecidableEq, Repr

/-- An edge at a time stamp input: rising or falling, and for how many picoseconds the input stays at its new level (R339). -/
structure PinEdge where
  rise : Bool
  ps : Nat
  deriving DecidableEq, Repr

/-- A rising edge at PPS_IN or SYNC_IN: its instant, and for how many picoseconds the pin stays high (R339). -/
structure Pulse where
  t : Nat
  ps : Nat
  deriving DecidableEq, Repr

/-- A frequency window of a reference input: REFCLKB or REFCLKA, and how far from 125 MHz it is, in thousandths of a ppm (R320). -/
structure Drift where
  b : Bool
  ppb : Nat
  deriving DecidableEq, Repr

/-- A service of the TRIG slots: its instant, and how many POST slots have ended their evaluation since the last one (R358). -/
structure TrigTurn where
  t : Nat
  posts : Nat
  deriving DecidableEq, Repr

/-- The commands: one constructor per row of the table of operations and events. Instants are in taps of 125 ps. -/
inductive Instr where
  /-- TRANSACTION: HPSEL_N falls, `edges` HPCK rising edges carry the host's bytes `data`; with `hold` the host leaves
  HPSEL_N low (R44). -/
  | transaction (t : Nat) (edges : Nat) (data : List Byte) (hold : Bool)
  /-- IDLE_TIMEOUT: the idle time of an open transaction runs out (R48). -/
  | idleTimeout (t : Nat)
  /-- NOP: a NOP packet with LEN 0: its TAG, FLG and final word (R46). -/
  | nop (t : Nat) (tag : Nat) (flg : Nat) (crc : Word)
  /-- PEEK: a PEEK packet with LEN 0; FLG is the slot (R57). -/
  | peek (t : Nat) (tag : Nat) (flg : Nat) (crc : Word)
  /-- FETCH: a FETCH packet with LEN 0 and the rising edges of its whole transaction (R66). -/
  | fetch (t : Nat) (tag : Nat) (flg : Nat) (crc : Word) (edges : Nat)
  /-- UNASSIGNED_OPCODE: the interpreter starts the oldest packet, of this opcode, at instant t (R94). -/
  | unassignedOpcode (t : Nat)
  /-- GET: the interpreter starts the oldest packet, of this opcode, at instant t (R95). -/
  | getAttr (t : Nat)
  /-- SET: the interpreter starts the oldest packet, of this opcode, at instant t (R96). -/
  | setAttr (t : Nat)
  /-- GET_BLOCK: the interpreter starts the oldest packet, of this opcode, at instant t (R97). -/
  | getBlock (t : Nat)
  /-- SET_BLOCK: the interpreter starts the oldest packet, of this opcode, at instant t (R97). -/
  | setBlock (t : Nat)
  /-- MODIFY: the interpreter starts the oldest packet, of this opcode, at instant t (R98). -/
  | modify (t : Nat)
  /-- MODIFY_STEP: the coming tick reference of a waiting MODIFY (R98). -/
  | modifyStep
  /-- STAGED_WRITES_APPLY: the coming tick reference for the oldest staged packet (R33). -/
  | stagedWritesApply
  /-- COMMIT_CONFIG: the interpreter starts the oldest packet, of this opcode, at instant t (R103). -/
  | commitConfig (t : Nat)
  /-- CONFIG_CHECK: the interpreter starts the oldest packet, of this opcode, at instant t (R102). -/
  | configCheck (t : Nat)
  /-- ARM_MAP: the interpreter starts the oldest packet, of this opcode, at instant t (R101). -/
  | armMap (t : Nat)
  /-- LANE_ADMIT: the interpreter starts the oldest packet, of this opcode, at instant t (R104). -/
  | laneAdmit (t : Nat)
  /-- LANE_ADMIT_START: the coming tick reference of a waiting LANE_ADMIT (R104). -/
  | laneAdmitStart
  /-- LANE_RETIRE: the interpreter starts the oldest packet, of this opcode, at instant t (R150). -/
  | laneRetire (t : Nat)
  /-- CAPTURE_ARM: the interpreter starts the oldest packet, of this opcode, at instant t (R302). -/
  | captureArm (t : Nat)
  /-- CAPTURE_RELEASE: the interpreter starts the oldest packet, of this opcode, at instant t (R306). -/
  | captureRelease (t : Nat)
  /-- READ_PAGE: the interpreter starts the oldest packet, of this opcode; `errs`: 64-bit words of the page found in
  error, true where uncorrectable (R308) (R107). -/
  | readPage (t : Nat) (errs : List (Nat × Bool))
  /-- TIME_GET: the interpreter starts the oldest packet, of this opcode, at instant t (R108). -/
  | timeGet (t : Nat)
  /-- TIME_STEP: the interpreter starts the oldest packet, of this opcode, at instant t (R313). -/
  | timeStep (t : Nat)
  /-- TIME_RATE: the interpreter starts the oldest packet, of this opcode, at instant t (R313). -/
  | timeRate (t : Nat)
  /-- TRIP_CLEAR: the interpreter starts the oldest packet, of this opcode, at instant t (R111). -/
  | tripClear (t : Nat)
  /-- FAULT_ACK: the interpreter starts the oldest packet, of this opcode, at instant t (R483). -/
  | faultAck (t : Nat)
  /-- RESET: the interpreter starts the oldest packet, of this opcode, at instant t (R114). -/
  | resetCmd (t : Nat)
  /-- RESET_BEGIN: an accepted RESET begins (R115). -/
  | resetBegin (t : Nat)
  /-- SELFTEST: the interpreter starts the oldest packet, of this opcode, at instant t (R544). -/
  | selftest (t : Nat)
  /-- COMMIT_NV: the interpreter starts the oldest packet, of this opcode, at instant t; the VSTORE sample in mV of
  the energy test (R529) (R532). -/
  | commitNv (t : Nat) (vst : Nat)
  /-- IDENTIFY: the interpreter starts the oldest packet, of this opcode, at instant t (R118). -/
  | identify (t : Nat)
  /-- PATCH_BEGIN: PATCH_LOAD, phase BEGIN, at instant t (R120). -/
  | patchBegin (t : Nat)
  /-- PATCH_DATA: PATCH_LOAD, phase DATA, at instant t (R120). -/
  | patchData (t : Nat)
  /-- PATCH_FINISH: PATCH_LOAD, phase FINISH, at instant t (R121). -/
  | patchFinish (t : Nat)
  /-- TICK: At the tick reference the fabric latches the uplink snapshot and runs the tick's sequence of engine,
  Cascade and edge placement work; results of steps 2 to 6 complete `place` taps after the reference (none: not before
  the next), `slots` due slots end their evaluation before the next, and with `stall` a block does not acknowledge
  before it (R27, R30, R31) (R24). -/
  | tick (place : Option Nat) (slots : Nat) (stall : Bool)
  /-- TICK_STROBE: At T0(k) - 1.0 us the tick-set sampling strobes fire on their slots (R274). -/
  | tickStrobe
  /-- LAUNCH: At T0(k) + t_launch each lane in use sends its downlink frame and the direct ports take over the new
  compares (R137). -/
  | launch
  /-- UPLINK_FRAME: A complete uplink frame arrives on a lane and is checked for CRC, lock, continuity and driver
  reports; lane n, the code groups received on it since its last frame: those before the frame, the frame's comma and
  its ten others, in order, each of ten bits with bit a the most significant (R126, R134) (R138). -/
  | uplinkFrame (t : Nat) (n : Nat) (before : List Nat) (comma : Nat) (frame : List Nat)
  /-- SYNC_LOSS: Eight uplink slot times pass without a CRC-valid frame, so LOCK clears and the lane may be blocked or
  dropped to DOWN; lane n (R139). -/
  | syncLoss (t : Nat) (n : Nat)
  /-- LOSS_OF_LIGHT: No valid code group arrives for t_lol, so LOCK clears and the lane may be blocked or dropped to
  DOWN; lane n (R139). -/
  | lossOfLight (t : Nat) (n : Nat)
  /-- ADMISSION_TIMEOUT: t_admit runs out during admission, so the lane enters BLOCKED with ADM_TIME; lane n (R157).
  -/
  | admissionTimeout (t : Nat) (n : Nat)
  /-- SELF_TEST_TIMEOUT: DONE is not reported within 1 ms of the self-test acknowledgement, so admission fails with
  ADM_TEST; lane n (R154). -/
  | selfTestTimeout (t : Nat) (n : Nat)
  /-- AUTO_ADMISSION_START: A lane with AUTO set starts admission by itself once its state, cause, fail count and 100
  ms wait allow it; lane n (R158). -/
  | autoAdmissionStart (n : Nat)
  /-- LANE_RESUME_DOWN: After an LNK reset in RUN, the mapped lanes re-enter DOWN at the next tick reference (R163).
  -/
  | laneResumeDown
  /-- ODIAG_REQUEST: A write of GPR.ODG.REQ starts an off-state check of a blocked or standby lane; lane n (R239). -/
  | odiagRequest (t : Nat) (n : Nat)
  /-- ODIAG_TIMEOUT: No MODE 10 snapshot arrives within 2 ms of the request, so the result is TIMEOUT; lane n (R241).
  -/
  | odiagTimeout (t : Nat) (n : Nat)
  /-- CARRIER_EVENT: A direct-port carrier event falls and the edge-pair procedure executes, moves or suppresses the
  change; carrier i, of the lane carriers or of the port carriers (R199). -/
  | carrierEvent (t : Nat) (lane : Bool) (i : Nat)
  /-- BOOTSTRAP_REFRESH_END: t_bref after the lower switch turned on it turns off and the upper turn-on follows; port
  p (R214). -/
  | bootstrapRefreshEnd (t : Nat) (p : Nat)
  /-- MTRIG_DELIVERY: DELAY x 8 ns after a firing the trigger reaches the sequencers and the engine (R204). -/
  | mtrigDelivery (t : Nat)
  /-- DHB_TURN_ON: A switch turns on at the first tap at which the command, dead time, acknowledge and hold conditions
  all hold; port p, its upper switch or its lower (R207). -/
  | dhbTurnOn (t : Nat) (p : Nat) (up : Bool)
  /-- DHB_HANDSHAKE_TIMEOUT: An acknowledge does not change within t_hs after an ON edge, so the port enters FAULT;
  port p, switch (R209). -/
  | dhbHandshakeTimeout (t : Nat) (p : Nat) (up : Bool)
  /-- DHB_ACK_CHANGE: A recognised acknowledge input changes and may release a gated turn-on or detect a DRVOFF fault;
  port p, switch, new level; `held`: it has held as long as the rule asks (R209). -/
  | dhbAckChange (t : Nat) (p : Nat) (up : Bool) (level : Bool) (held : Bool)
  /-- DHB_RESUME: A write of DHB.CTL.RESUME takes a port out of FAULT when both acknowledges are high and no trip
  holds it; port p (R210). -/
  | dhbResume (t : Nat) (p : Nat)
  /-- DHB_FORCE: A write of DHB.FORCE sets or ends a host force at priority 4, refusing both switches on; port p,
  value written (R213). -/
  | dhbForce (t : Nat) (p : Nat) (v : Nat)
  /-- COMPARATOR_DECISION: A comparator's input crosses its threshold and its decision turns active or inactive;
  comparator k: input, threshold and hysteresis voltages (R245). -/
  | comparatorDecision (t : Nat) (k : Nat) (vd : Int) (th : Int) (h : Int)
  /-- TRIP_INPUT: A TRIPn_N pin goes low or high; input n is now low or not, edge at `ps` within the tap (R251). -/
  | tripInput (t : Nat) (n : Nat) (low : Bool) (ps : Nat)
  /-- TRIP_HOLD_END: At the first tick reference after its last latch is cleared, a target's hold ends and lanes,
  ports and SDO demands are released (R258). -/
  | tripHoldEnd
  /-- COMPARATOR_FIRST_DECISION: At the end of t_set after enable the comparator takes its first decision without
  hysteresis and sets INBAND; comparator k: input, threshold and hysteresis voltages (R249). -/
  | comparatorFirstDecision (t : Nat) (k : Nat) (vd : Int) (th : Int) (h : Int)
  /-- COMPARATOR_SELF_TEST: A comparator's threshold is moved across its input and back with the decision held,
  yielding PASS, FAIL_ON, FAIL_OFF or MOVED; none: the next visit starts; else the open window closes, with the raw
  decision active at step 3, still active at step 5, and the sample of step 5a in nV (R262). -/
  | comparatorSelfTest (t : Nat) (res : Option (Bool × Bool × Int))
  /-- THRESHOLD_READBACK: A service conversion of a threshold DAC is compared with its expected value and RBFAIL is
  set or cleared; the differential voltage in nV (R266). -/
  | thresholdReadback (t : Nat) (vd : Int)
  /-- CONVERSION_RESULT: a conversion of group g ends at t: differential voltage in nV, and whether it completed
  (R270). -/
  | conversionResult (t : Nat) (g : Nat) (kind : ConvKind) (vd : Int) (done : Bool)
  /-- SEQUENCE_TRIGGER: the oldest trigger at the sequencers is handled (R276). -/
  | sequenceTrigger (t : Nat)
  /-- ADC_HOST_TRIGGER: ADC.QSTART is written with `go` (R277). -/
  | adcHostTrigger (t : Nat) (go : Nat)
  /-- SEQUENCE_END: the running sequence of group g ends (R275). -/
  | sequenceEnd (t : Nat) (g : Nat)
  /-- SEQUENCE_RECORD: the last results of the oldest ended sequence of group g are ready (R275). -/
  | sequenceRecord (t : Nat) (g : Nat)
  /-- FOREGROUND_CALIBRATION_DONE: group g's foreground calibration ends with gain and offset corrections by slice
  (R282). -/
  | foregroundCalibrationDone (t : Nat) (g : Nat) (errs : List (Int × Int))
  /-- SLICE_CALIBRATION_END: the out-of-service slice's calibration ends (R283). -/
  | sliceCalibrationEnd (t : Nat) (g : Nat) (gerr : Int) (oerr : Int)
  /-- SLICE_HANDOVER: the calibrated slice takes over; mean shadow difference in converter steps (R284). -/
  | sliceHandover (t : Nat) (g : Nat) (sum : Int)
  /-- SLICE_FAIL: slice s of group g fails (R285). -/
  | sliceFail (t : Nat) (g : Nat) (s_ : Nat)
  /-- SERVICE_CONVERSION: a service conversion of channel ch, in nV (R287). -/
  | serviceConversion (t : Nat) (g : Nat) (ch : Nat) (vd : Int)
  /-- PAGE_REQUEST: the page manager serves its first request (R298). -/
  | pageRequest (t : Nat)
  /-- CAPTURE_TRIGGER: the oldest trigger in flight is recognised (R304). -/
  | captureTrigger (t : Nat)
  /-- PGM_HOST_TRIGGER: PGM.HTRIG is written with `go` (R303). -/
  | pgmHostTrigger (t : Nat) (go : Nat)
  /-- PAGE_RETIRE: page p is retired (R308); page p. -/
  | pageRetire (t : Nat) (p : Nat)
  /-- REFCLK_LOSS: No REFCLK edge arrives within 12 ns, so the input is in LOSS; input REFCLKB or REFCLKA (R320). -/
  | refclkLoss (t : Nat) (b : Bool)
  /-- REFCLK_DRIFT: A 64 ms frequency window shows an input beyond FTOL; the window (R320). -/
  | refclkDrift (t : Nat) (w : Drift)
  /-- REFCLK_GOOD: An input has shown neither LOSS nor DRIFT for 100 ms and becomes GOOD; input REFCLKB or REFCLKA
  (R320). -/
  | refclkGood (t : Nat) (b : Bool)
  /-- REFCLK_REVERT: With REVERT set, the preferred input has been GOOD for 10 s and the device switches back (R321).
  -/
  | refclkRevert (t : Nat)
  /-- REFCLK_PREF_WRITE: A host write of TIM.CLK.PREF with both inputs GOOD switches the selected input; the value of
  PREF written (R321). -/
  | refclkPrefWrite (t : Nat) (b : Bool)
  /-- DLL_LOCK: The DLL completes band search, harmonic check and lock (R316). -/
  | dllLock (t : Nat)
  /-- DLL_CHAIN_SWITCH: The shadow chain, locked in the adjacent band and aligned within 10 ps, replaces the active
  chain (R318). -/
  | dllChainSwitch (t : Nat)
  /-- DLL_UNLOCK: The DLL loses lock, freezes its active chain and restarts the search on the shadow chain (R319). -/
  | dllUnlock (t : Nat)
  /-- DLL_RELOCK_TIMEOUT: The shadow chain has not locked within 1 ms, so the device resets (R319). -/
  | dllRelockTimeout (t : Nat)
  /-- PTP_MESSAGE: A PTP message is received, stamped and processed or dropped; port i, the message (R323). -/
  | ptpMessage (t : Nat) (i : Nat) (m : PtpMsg)
  /-- PTP_TRANSMIT: A PTP event or general message is sent with its timestamp inserted or deferred to a follow-up;
  port i, the kind of message (R325). -/
  | ptpTransmit (t : Nat) (i : Nat) (k : PtpKind)
  /-- PTP_ANNOUNCE_TIMEOUT: The slave port misses three announce intervals and the servo moves to the other port; port
  i (R327). -/
  | ptpAnnounceTimeout (t : Nat) (i : Nat)
  /-- PTP_SYNC_TIMEOUT: The slave port misses three Sync intervals and the servo moves to the other port; port i
  (R327). -/
  | ptpSyncTimeout (t : Nat) (i : Nat)
  /-- HOLDOVER_TIMEOUT: HOLDMAX seconds into holdover TVALID becomes 0 (R330). -/
  | holdoverTimeout (t : Nat)
  /-- PPS_IN_EDGE: A PPS_IN rising edge is stamped and disciplines the time base or is discarded as bad (R333). -/
  | ppsInEdge (p : Pulse)
  /-- PPS_IN_MISSING: Three consecutive expected PPS_IN edges are missing and holdover begins (R330). -/
  | ppsInMissing (t : Nat)
  /-- PPS_OUT_PULSE: Corrected time reaches a whole second and PPS_OUT rises (R332). -/
  | ppsOutPulse (t : Nat)
  /-- PPS_OUT_END: WIDTH ms after the rise PPS_OUT falls (R332). -/
  | ppsOutEnd (t : Nat)
  /-- SYNC_IN_EDGE: A SYNC_IN edge places a follower's first tick, or is checked against the predicted instant (R335).
  -/
  | syncInEdge (p : Pulse)
  /-- TIMESTAMP_INPUT: A TSI edge is stamped, converted and written to TIM.TSV and optionally to a ring; input u and
  its edge (R339). -/
  | timestampInput (t : Nat) (u : Nat) (e : PinEdge)
  /-- RTC_WRITE: Once per second while TVALID is 1, corrected time is written to the keeper RTC and RTCV is set
  (R519). -/
  | rtcWrite (t : Nat)
  /-- TRIG_SLOT_EVALUATION: A TRIG slot is evaluated on delivery of its generator's firing, or the firing is discarded
  if one is pending (R358). -/
  | trigSlotEvaluation (w : TrigTurn)
  /-- GRD_TRIP_CLEAR: A write of GRD.CTL.CLR moves the ride-through state from TRIP to CESS with the ENTD return time
  (R381). -/
  | grdTripClear (t : Nat)
  /-- GRD_ISLAND_CLEAR: A write of GRD.CTL.ISLCLR clears ISL when no passive condition holds (R385). -/
  | grdIslandClear (t : Nat)
  /-- PMU_REPORT: At a reporting instant the estimator forms phasors, frequency and ROCOF and writes a data frame to
  its queue; reporting instant k of corrected second `sec` (R391). -/
  | pmuReport (t : Nat) (sec : Int) (k : Nat)
  /-- TURN_OFF_TRANSMISSION: Command frame 0x0001 clears TXON (R403). -/
  | turnOffTransmission (t : Nat)
  /-- TURN_ON_TRANSMISSION: Command frame 0x0002 sets TXON (R403). -/
  | turnOnTransmission (t : Nat)
  /-- SEND_CFG1: Command frame 0x0004 queues a CFG-1 frame to the requester (R402). -/
  | sendCfg1 (t : Nat)
  /-- SEND_CFG2: Command frame 0x0005 queues a CFG-2 frame to the requester (R402). -/
  | sendCfg2 (t : Nat)
  /-- PMU_COMMAND_IGNORED: An unsupported command frame is ignored and counted in CMDX (R390). -/
  | pmuCommandIgnored (t : Nat)
  /-- TW_ARRIVAL: A travelling-wave detection is interpolated into an arrival, opening a record or joining the
  collection; raw instant x of sample n and samples n - 5 to n + 20 of the three streams (R405). -/
  | twArrival (t : Nat) (x : Nat) (l : List TwSample)
  /-- TW_COLLECTION_END: Collection stops at its window end or after eight arrivals and the single-ended distance is
  computed (R406). -/
  | twCollectionEnd (t : Nat)
  /-- PMU_FLTRIG: A write of PMU.CTL.FLTRIG opens a fault record (R412). -/
  | pmuFltrig (t : Nat)
  /-- FAULT_RECORD_COMPLETE: The record completes at the later of collection end and the impedance estimate, and
  PMU_FLREC is raised (R412). -/
  | faultRecordComplete (t : Nat)
  /-- TWREM_WRITE: A write of PMU.TWREM supplies the remote arrival and computes the double-ended distance; the record
  number and the remote arrival time written (R408). -/
  | twremWrite (t : Nat) (num : Nat) (time : Nat) (tap : Nat) (fine : Nat)
  /-- POWER_SAMPLE: Every 125 us each element's P, Q and S are formed over the window and added to its accumulators
  and pulse residues (R421). -/
  | powerSample (t : Nat)
  /-- PULSE_START: A queued pulse starts on its PLS pin once the preceding inactive time has passed; output k (R429).
  -/
  | pulseStart (t : Nat) (k : Nat)
  /-- PULSE_END: PW ms after its start the pulse ends; output k (R429). -/
  | pulseEnd (t : Nat) (k : Nat)
  /-- METER_SNAPSHOT: A write of MTR.CTL.SNAP latches all 28 accumulators with wrap counts (R425). -/
  | meterSnapshot (t : Nat)
  /-- METER_ZERO: A write of MTR.CTL.ZERO outside RUN sets every accumulator, residue and pending count to zero
  (R427). -/
  | meterZero (t : Nat)
  /-- METER_RECORD_COPY: Every ECPER seconds the meter copies a PERIODIC record to retention RAM (R430). -/
  | meterRecordCopy (t : Nat)
  /-- METER_INPUT_INVALID: A channel's NaN replacement lasts 100 ms and its elements' power samples become 0; channel
  ch (R419). -/
  | meterInputInvalid (t : Nat) (ch : Nat)
  /-- ETH_FRAME_RX: A received Ethernet frame is checked, filtered, de-duplicated and passed to ARP, PTP, PMU or
  safety; port i, the octets without the FCS, whether the FCS checks, whether the receive pages are full (R441)
  (R439). -/
  | ethFrameRx (t : Nat) (i : Nat) (f : List Byte) (fcs : Bool) (full : Bool)
  /-- DISCARD_ENTRY_EXPIRE: A discard table entry is removed FORGET ms after it was made (R445). -/
  | discardEntryExpire (t : Nat)
  /-- ETH_FRAME_TX: A port sends the highest-priority queued frame once the frame in transmission completes; port i
  (R441). -/
  | ethFrameTx (t : Nat) (i : Nat)
  /-- PRP_SUPERVISION_TX: Every LIFE seconds a PRP supervision frame is sent on both LANs (R442). -/
  | prpSupervisionTx (t : Nat)
  /-- LAN_SILENT: A port receives no valid frame for LANTO seconds and the LAN is declared silent; port i (R446). -/
  | lanSilent (t : Nat) (i : Nat)
  /-- LINK_POLL: Every 10 ms the PHY status register is read and a change of LINK is raised; port i, the link bit read
  (R437). -/
  | linkPoll (t : Nat) (i : Nat) (up : Bool)
  /-- MDIO_ACCESS: A write of NET.MDIO with GO starts a Clause 22 read or write, after any poll in progress; the word
  written (R437). -/
  | mdioAccess (t : Nat) (v : Nat)
  /-- MDIO_ACCESS_DONE: A management access completes, BUSY clears and read data is stored; the data read (R437). -/
  | mdioAccessDone (t : Nat) (d : Nat)
  /-- SAFETY_PAIR_TIMEOUT: WIN expires with one copy only and it is delivered SINGLE (R447). -/
  | safetyPairTimeout (t : Nat)
  /-- SAFETY_FRAME_RX: A delivered safety frame is checked and accepted by a receiver, restarting its watchdog and
  updating remote demands (R466). -/
  | safetyFrameRx (t : Nat)
  /-- SAFETY_FRAME_TX: A safety frame is sent every FPER ms or on a change of status bytes, duplicated on both LANs
  (R465). -/
  | safetyFrameTx (t : Nat)
  /-- REMOTE_WATCHDOG_EXPIRY: A receiver accepts no frame for RXTO ms and places a remote demand; association m
  (R467). -/
  | remoteWatchdogExpiry (t : Nat) (m : Nat)
  /-- SAFETY_INPUT_CHANGE: A filtered safety input channel changes level and the input enters or leaves demand; input
  k, channel ch is now `level` (R451). -/
  | safetyInputChange (t : Nat) (k : Nat) (ch : Nat) (level : Bool)
  /-- DISCREPANCY_TIMEOUT: The two channels of an input disagree for t_disc and the input enters FAULT; input k
  (R452). -/
  | discrepancyTimeout (t : Nat) (k : Nat)
  /-- SI_FAULT_ACK: A write of SIO.SICTL.ACK clears an input's FAULT when both channels are not OK; the word written
  (R453). -/
  | siFaultAck (t : Nat) (mask : Nat)
  /-- SDO_ON: A write of SIO.SDOCTL.ON requests energising or de-energises an output; output j, the bit written
  (R457). -/
  | sdoOn (t : Nat) (j : Nat) (on : Bool)
  /-- SDO_FAULT_ACK: A write of SIO.SDOCTL.ACK takes an output out of FAULT when both readbacks read low; output j
  (R460). -/
  | sdoFaultAck (t : Nat) (j : Nat)
  /-- SDO_READBACK_CHANGE: A recognised readback level changes and is checked against the driven level; output j,
  channel ch reads back `level` (R459). -/
  | sdoReadbackChange (t : Nat) (j : Nat) (ch : Nat) (level : Bool)
  /-- SDO_READBACK_DEADLINE: RBT x 10 us after a channel change the readback must agree, otherwise the output enters
  FAULT; output j, channel ch (R459). -/
  | sdoReadbackDeadline (t : Nat) (j : Nat) (ch : Nat)
  /-- TEST_PULSE: A dark or bright test pulse starts on one channel of an output; output j, channel ch (R461). -/
  | testPulse (t : Nat) (j : Nat) (ch : Nat)
  /-- TEST_PULSE_END: A test pulse ends and the readback is judged for reaching the pulsed level; output j (R462). -/
  | testPulseEnd (t : Nat) (j : Nat)
  /-- TEST_RETURN_TIMEOUT: The readback does not return within RBT after the pulse and the test fails; output j
  (R463). -/
  | testReturnTimeout (t : Nat) (j : Nat)
  /-- FAULT_EVENT: An event reaches the collector, is classified, latched in the status word and merged into or opens
  a record with its reaction; the first n events in flight arrive at one instant, with an FW_FAULT event when `fw`
  (R481). -/
  | faultEvent (t : Nat) (n : Nat) (fw : Bool)
  /-- FATAL_ENTRY: When every block burst is complete the device leaves RUN, enters FATAL and commits the record
  (R479). -/
  | fatalEntry (t : Nat)
  /-- REACTION_DONE: The last action of a reaction reaches its output stage and the record stops merging events
  (R480). -/
  | reactionDone (t : Nat)
  /-- FAULT_WINDOW_CLOSE: WIN ms after it opened a source's window closes and the source returns to its base class;
  source j (R474). -/
  | faultWindowClose (t : Nat) (j : Nat)
  /-- FAULT_HOLD_END: At the tick reference after the last record naming a target is acknowledged, its fault hold ends
  (R478). -/
  | faultHoldEnd
  /-- MAIN_POR: VIN33 below V_PORF or loss of VCORE or VANA power-good resets the whole main domain; `vin`: VIN33 is
  below V_PORF; else VCORE or VANA power-good is lost (R492). -/
  | mainPor (t : Nat) (vin : Bool)
  /-- RST_N_ASSERT: RST_N is recognised low and a reset of the fused level begins; `long`: the pulse lasts 1 us or
  more (R493). -/
  | rstNAssert (t : Nat) (long : Bool)
  /-- RST_N_RELEASE: RST_N rises and the waiting reset sequence proceeds (R506). -/
  | rstNRelease (t : Nat)
  /-- RST_N_LOG: RST_N has been low for 100 ms and the keeper writes a log entry, updated once per second (R507). -/
  | rstNLog (t : Nat)
  /-- VIOH_LOSS: VIOH power-good is lost and the HPP block is reset (R492). -/
  | viohLoss (t : Nat)
  /-- BLOCK_RESET: An L3 reset of one block acts at its instant or at the next tick reference in RUN; block code b
  (R508). -/
  | blockReset (b : Nat)
  /-- FUSE_LOAD_DONE: A fuse load ends and its CRC passes, or it fails and is retried, with defaults applied after the
  third failure; the 32 words read (R499). -/
  | fuseLoadDone (t : Nat) (words : List Nat)
  /-- DOMAIN_RELEASE: After its gap and clock-good condition a timed domain is released from reset; 4,096 edges shown
  at REFCLKA, at REFCLKB; VIOH power-good (R501). -/
  | domainRelease (t : Nat) (refA : Bool) (refB : Bool) (vioh : Bool)
  /-- CLOCK_GOOD_TIMEOUT: A domain lacks clock-good 1 ms after its gap and is held in reset with CLK_START raised
  (R502). -/
  | clockGoodTimeout (t : Nat)
  /-- INTERPRETER_START: The interpreter starts from ROM, sets RDY and leaves BOOT for CONFIG, DIAG or FATAL (R504).
  -/
  | interpreterStart (t : Nat)
  /-- SUPPLY_WARNING: VIN33 falls through V_WARN, the keeper rail moves to VSTORE, SUPPLY_WARN is raised and the meter
  copies its record (R516). -/
  | supplyWarning (t : Nat)
  /-- SUPPLY_RESTORED: VIN33 rises through the rising V_WARN before POR and the keeper rail returns to VIN33 (R516).
  -/
  | supplyRestored (t : Nat)
  /-- KEEPER_POR: The keeper rail rises after losing supply and clears the RTC, retention RAM and keeper state (R518).
  -/
  | keeperPor (t : Nat)
  /-- LOAD_CUT: VSTORE falls through load cut while the rail is on VSTORE and the keeper sheds its loads (R523). -/
  | loadCut (t : Nat)
  /-- CELL_DISCONNECT: VSTORE falls through cell disconnect, the cell switch opens and the keeper rail loses supply
  (R524). -/
  | cellDisconnect (t : Nat)
  /-- CELL_RECONNECT: VSTORE rises to reconnect, the cell switch closes and any load cut ends (R522). -/
  | cellReconnect (t : Nat)
  /-- CHARGE_END: VSTORE reaches charge end and charging stops (R522). -/
  | chargeEnd (t : Nat)
  /-- CHARGE_RESTART: VSTORE falls below charge restart and charging resumes (R522). -/
  | chargeRestart (t : Nat)
  /-- CHARGE_TIMEOUT: VIN33 has fed the charger for 24 h without reaching charge end and KPR_STORE is raised (R526).
  -/
  | chargeTimeout (t : Nat)
  /-- MPPSET_SAMPLE: Every 64 s the keeper samples MPPSET to set the harvester's regulation voltage; resistance in
  ohms at MPPSET, the harvester's input in 0.1 mV (R525). -/
  | mppsetSample (t : Nat) (ohms : Nat) (vteg : Nat)
  /-- NV_JUDGE: Once per second and after each burst the keeper judges pending records for admission and starts a
  burst or refuses it; the VSTORE sample in mV (R531). -/
  | nvJudge (t : Nat) (vst : Nat)
  /-- NV_BURST_DONE: A burst writes its commit block and the set's new record becomes valid; the VSTORE sample in mV
  of the next judgement (R528). -/
  | nvBurstDone (t : Nat) (vst : Nat)
  /-- NV_BURST_ABORT: VSTORE falls below VABT during a burst, which stops after the block in progress; the VSTORE
  sample in mV of the next judgement (R530). -/
  | nvBurstAbort (t : Nat) (vst : Nat)
  /-- KPR_SLEEP: A write of KPR.CTL.SLEEP in CONFIG bursts admitted records, resets the main domain and turns off
  VCORE and VANA; the VSTORE sample in mV (R534). -/
  | kprSleep (t : Nat) (vst : Nat)
  /-- RTC_ALARM: The RTC reaches the armed alarm second and wakes the device with a main POR (R535). -/
  | rtcAlarm (t : Nat)
  /-- IST_PASS_START: The scheduler starts a background pass of an enabled check at its pacing instant; check k;
  `done`: a background pass is complete with this command; the result and the words in error with `true` for
  uncorrectable ones (R540). -/
  | istPassStart (t : Nat) (k : Nat) (done : Bool) (ok : Bool) (errs : List (Nat × Nat × Bool))
  /-- IST_PASS_LATE: A pass has not completed when the next one falls due, setting LATE and raising IST_FAIL; check k
  (R543). -/
  | istPassLate (t : Nat) (k : Nat)
  /-- LANE_WINDOW_END: At the end of each LWIN window each active lane's error count is judged against LERR (R538). -/
  | laneWindowEnd (t : Nat)
  /-- TAP_BYPASS: The BYPASS instruction selects the one-bit bypass register; the instruction code (R547). -/
  | tapBypass (t : Nat) (code : Nat)
  /-- TAP_IDCODE: The IDCODE instruction selects the device identification register (R547). -/
  | tapIdcode (t : Nat)
  /-- TAP_SAMPLE_PRELOAD: SAMPLE/PRELOAD samples the boundary register without affecting pins; the levels at the pins,
  the levels shifted in (R547). -/
  | tapSamplePreload (t : Nat) (pins : List Bool) (load : List Bool)
  /-- TAP_EXTEST: EXTEST drives digital outputs from the boundary register while RST_N holds reset and debug is
  unlocked (R548). -/
  | tapExtest (t : Nat)
  /-- TAP_PTEST: PTEST scans the trip latches, routing, output stages and TRIP path while RST_N holds reset and debug
  is unlocked (R548). -/
  | tapPtest (t : Nat)
  /-- MAIN_POR_RELEASE: VIN33 rises through V_PORR, main POR is released and the core buck and VANA regulator start
  (R494). -/
  | mainPorRelease (t : Nat)
  /-- POWER_GOOD: VCORE and VANA both reach power-good, and the fuse load and the REFCLK edge count start (R498). -/
  | powerGood (t : Nat)
  /-- CRYSTAL_OSCILLATOR_START: The 32.768 kHz crystal oscillator starts, the KEEP domain leaves keeper POR and the
  RTC starts counting at the first KEEP edge (R562). -/
  | crystalOscillatorStart (t : Nat)
  /-- PRE_CHARGE_END: VSTORE rises through 3.00 V, and the charger moves from pre-charge at 0.1 mA to full charge
  current (R522). -/
  | preChargeEnd (t : Nat)
  /-- HARVESTER_COLD_START: With the cell switch open and no VIN33, the TEG input reaches the cold-start voltage and
  the harvester starts charging the cell (R525). -/
  | harvesterColdStart (t : Nat)
  /-- TEST_LOGIC_RESET: TRST_N goes low and holds the test access port in Test-Logic-Reset with IDCODE selected
  (R547). -/
  | testLogicReset (t : Nat)
  deriving DecidableEq, Repr

end Sys2Proof
end

