-- ==== Sys2Proof/Machine/Line.lean ====
section
/-! DEFINITION. The line code of the lanes (R125 to R127, R141): the parts of IEEE 802.3 Clause 36 that R125 names. A code group is a
number of ten bits, bit a the most significant, which is sent first. Running disparity: true is positive. The code tables are those of
the standard that R125 names (PRESUMED, log entry 91). -/

namespace Sys2Proof.Machine

/-! Encoding -/

/-- abcdei of D0 to D31 for negative running disparity. -/
def sixTable : List Nat :=
  [0b100111, 0b011101, 0b101101, 0b110001, 0b110101, 0b101001, 0b011001, 0b111000] ++
  [0b111001, 0b100101, 0b010101, 0b110100, 0b001101, 0b101100, 0b011100, 0b010111] ++
  [0b011011, 0b100011, 0b010011, 0b110010, 0b001011, 0b101010, 0b011010, 0b111010] ++
  [0b110011, 0b100110, 0b010110, 0b110110, 0b001110, 0b101110, 0b011110, 0b101011]

/-- fghj of .0 to .7 for negative running disparity. -/
def fourTable : List Nat := [0b1011, 0b1001, 0b0101, 0b1100, 0b1101, 0b1010, 0b0110, 0b1110]

/-- Bits of v that are 1, below n. -/
def ones (n v : Nat) : Nat := (setBits n v).length

/-- Running disparity after a sub-block of n bits; `up` and `down` are the balanced ones that set it. -/
def rdSub (n up down v : Nat) (rd : Bool) : Bool :=
  if v = up ∨ n < 2 * ones n v then true else if v = down ∨ 2 * ones n v < n then false else rd

/-- Running disparity after abcdei. -/
def rdSix (v : Nat) (rd : Bool) : Bool := rdSub 6 0b000111 0b111000 v rd

/-- Running disparity after a code group. -/
def rdAfter (rd : Bool) (g : Nat) : Bool := rdSub 4 0b0011 0b1100 (g % 16) (rdSix (g / 16) rd)

/-- A sub-block of n bits for running disparity rd, from its form for negative disparity. -/
def subBlock (n alt v : Nat) (rd : Bool) : Nat := if rd && (2 * ones n v != n || v == alt) then 2 ^ n - 1 - v else v

/-- The data code group D x.y of a byte: x in [4:0], y in [7:5]. -/
def dataGroup (rd : Bool) (b : Nat) : Nat :=
  let x := b % 32
  let y := b / 32 % 8
  let six := subBlock 6 0b111000 (sixTable.getD x 0) rd
  let mid := rdSix six rd
  let a7 := y == 7 && (if mid then [11, 13, 14] else [17, 18, 20]).contains x
  16 * six + (if a7 then (if mid then 0b1000 else 0b0111) else subBlock 4 0b1100 (fourTable.getD y 0) mid)

/-- K28.0, K28.5 and K28.7, the special code groups of R125. -/
def specialGroup (rd : Bool) (y : Nat) : Nat :=
  let g := if y = 0 then 0b0011110100 else if y = 5 then 0b0011111010 else 0b0011111000
  if rd then 1023 - g else g

/-- Code groups of data bytes in turn, and the running disparity after them. -/
def dataGroups : Bool → List Nat → List Nat × Bool
  | rd, [] => ([], rd)
  | rd, b :: l =>
    let g := dataGroup rd b
    let r := dataGroups (rdAfter rd g) l
    (g :: r.1, r.2)

/-- The code groups of a frame: K28.5, then its bytes (R128, R134), and the running disparity after them. -/
def frameGroups (rd : Bool) (bytes : List Nat) : List Nat × Bool :=
  let k := specialGroup rd 5
  let r := dataGroups (rdAfter rd k) bytes
  (k :: r.1, r.2)

/-! Decoding -/

/-- What a code group stands for. -/
inductive Symbol where
  | data (b : Nat)
  | special (y : Nat)     -- K28.y
  deriving DecidableEq, Repr

/-- A code group read for running disparity rd: none is a code error (R126). -/
def readGroup (rd : Bool) (g : Nat) : Option Symbol :=
  match [0, 5, 7].find? (fun y => specialGroup rd y == g) with
  | some y => some (.special y)
  | none =>
    match (upTo 32).find? (fun x => subBlock 6 0b111000 (sixTable.getD x 0) rd == g / 16) with
    | some x => ((upTo 8).find? (fun y => dataGroup rd (x + 32 * y) == g)).map (fun y => .data (x + 32 * y))
    | none => none

/-- The disparity for which a receiver reads a code group: the one it has, and before any code group one for which the group exists. -/
def readRd (rd : Option Bool) (g : Nat) : Bool := rd.getD ((readGroup false g).isNone && (readGroup true g).isSome)

/-- Code groups received in turn, from running disparity rd (none: not known yet): the symbols, and the disparity after them. -/
def readGroups : Option Bool → List Nat → List (Option Symbol) × Option Bool
  | rd, [] => ([], rd)
  | rd, g :: l =>
    let d := readRd rd g
    let r := readGroups (some (rdAfter d g)) l
    (readGroup d g :: r.1, r.2)

/-- The byte of a symbol; 0 for one that carries none. -/
def symByte : Option Symbol → Nat
  | some (.data b) => b
  | _ => 0

/-! Bits -/

/-- Level of a symbol's bit at a tap of its 8 ns: bits are 0.8 ns long, bit a first. -/
def groupBit (g tap : Nat) : Bool := g.testBit (9 - tap % 64 * 10 / 64)

end Sys2Proof.Machine
end

