-- ==== Sys2Proof/Config.lean ====
section
/-! DEFINITION. What the manual leaves open and the block nevertheless produces: free values. None has a body, so no
proof can know its value; a statement about one holds for every value. -/

namespace Sys2Proof.Config

/-- The bits of a NaN result that IEEE 754 leaves open: sign and payload (log entry 6). -/
opaque nanBits : Word

/-- Error of the cosine of the angle with this pattern, in units of 10^-9; only the part inside the bound of R374 is used
(log entry 7). -/
opaque cosError : Word → Int

/-- Error of the sine, likewise (log entry 7). -/
opaque sinError : Word → Int

/-- Error of an arc tangent, square-root scaling or filter response that the manual states as mathematics and gives no
rounding for, in last places; only -1, 0 and 1 are used (log entry 7). -/
opaque ulpError : Nat → Int

/-- A free bit for the n-th open choice met (R251, R493, R247; log entry 8). -/
opaque freeBit : Nat → Bool

/-- A free number for the n-th open value met (log entry 8). -/
opaque freeNat : Nat → Nat

/-- The rate that the servo's proportional-integral law gives (R328 states bandwidth and clamp, no gains): old rate,
offset from master in taps, bandwidth code, number of corrections (log entry 9). -/
opaque servoRate : Int → Int → Nat → Nat → Int

/-- The ROM verification key selected by KEYIDX, as a point of P-256 (R120; log entry 10). -/
opaque patchKey : Nat → Nat × Nat

/-- A word of the firmware and packet pages, whose layout R293 does not give: page, word, n-th read (log entry 11). -/
opaque firmwareWord : Nat → Nat → Nat → Word

/-- A byte of a stored energy record: record contents as numbers, byte index (R527; log entry 11). -/
opaque energyByte : List Nat → Nat → Byte

/-- A byte of the stored fault set, likewise (R527; log entry 11). -/
opaque faultByte : List Nat → Nat → Byte

/-- A byte of a commit block, whose layout R528 does not give: set, SEQ, block count, byte index (log entry 11). -/
opaque commitByte : Nat → Nat → Nat → Nat → Byte

/-- The syndrome that the SECDED code gives: R308 names no code; page, word (log entry 11). -/
opaque syndrome : Nat → Nat → Nat

/-- Coefficient of a decimation filter in units of 2^-40, which R288 does not give: kind, distance from the nearer end. Taking the
nearer end makes the filter symmetric, which is what linear phase asks for (log entry 12). -/
opaque decTap : Nat → Nat → Int

/-- The Hilbert filter's output (R420 gives length and delay, no coefficients): inputs newest first (log entry 12). -/
opaque hilbert : List Word → Word

/-- The inverse response of the Rogowski integrator at nominal frequency (R417): leak, nominal, inputs (log entry 12). -/
opaque rogowskiInverse : Nat → Nat → List Word → Word

/-- The best-master choice of IEEE 1588 default BMCA: data set of the port's master, own priorities (R323, R327): true
when the foreign master is better (log entry 9). -/
opaque bmcaBetter : List Nat → List Nat → Bool

/-- Edges of the TB domain beyond the two that R17 asks for at least before an update takes effect there (log entry 99). -/
opaque crossEdges : Nat

/-- Words of a producer's staging buffer beyond the 64 that R296 asks for at least (log entry 100). -/
opaque stagingExtra : Nat

/-- The fixed pad delay of a lane's output stage with its wait for the tap boundary, in taps (R141, R259): at most 7, since R259 bounds
the delay by 0.775 ns. -/
opaque padDelay : Nat

/-- The pad delay in its range. -/
def padTaps : Nat := padDelay % 8

end Sys2Proof.Config
end

