-- ==== Sys2Proof/Machine/F32.lean ====
section
/-! DEFINITION. Binary32 arithmetic as the engine does it (R344): every operation rounded once to nearest, ties to even;
a subnormal operand is a zero of its sign; a result that is subnormal after rounding is a zero of its sign; nothing fused.
Values are patterns of 32 bits; the exact value of a finite pattern is mantissa × 2^exponent. -/

namespace Sys2Proof.Machine.F32

/-- Sign bit. -/
def sign (w : Word) : Bool := w.toNat.testBit 31
/-- Biased exponent. -/
def bexp (w : Word) : Nat := w.toNat / 2 ^ 23 % 256
/-- Fraction. -/
def frac (w : Word) : Nat := w.toNat % 2 ^ 23

/-- NaN. -/
def isNaN (w : Word) : Bool := bexp w == 255 && frac w != 0
/-- Plus or minus infinity. -/
def isInf (w : Word) : Bool := bexp w == 255 && frac w == 0
/-- Neither NaN nor infinite (R345). -/
def isFinite (w : Word) : Bool := bexp w != 255

/-- The NaN that an operation gives; its sign and payload are open (Config.nanBits, log entry 6). -/
def nan : Word := 0x7FC00000#32 ||| (Config.nanBits &&& 0x803FFFFF#32)
/-- +0. -/
def zeroP : Word := 0#32
/-- ±∞. -/
def inf (neg : Bool) : Word := if neg then 0xFF800000#32 else 0x7F800000#32
/-- Zero of a sign. -/
def zero (neg : Bool) : Word := if neg then 0x80000000#32 else 0#32
/-- 1.0. -/
def one : Word := 0x3F800000#32

/-- Mantissa of a finite pattern; a subnormal operand counts as zero (R344). -/
def mant (w : Word) : Nat := if bexp w = 0 then 0 else 2 ^ 23 + frac w
/-- Exponent of the mantissa's last bit. -/
def expo (w : Word) : Int := (bexp w : Int) - 150
/-- Signed mantissa. -/
def smant (w : Word) : Int := if sign w then -(mant w : Int) else mant w
/-- Value zero, of either sign. -/
def isZero (w : Word) : Bool := bexp w == 0

/-- m × 2^-sh rounded to nearest, ties to even; `more` says the exact value lies above m × 2^-sh by less than one unit. -/
def shiftRound (m sh : Nat) (more : Bool) : Nat :=
  if sh = 0 then m
  else
    let q := m / 2 ^ sh
    let r := m % 2 ^ sh
    let h := 2 ^ (sh - 1)
    if h < r ∨ (r = h ∧ (more = true ∨ q % 2 = 1)) then q + 1 else q

/-- The pattern nearest to ± m × 2^x (a little more when `more`), under R344. -/
def round (neg : Bool) (m : Nat) (x : Int) (more : Bool) : Word :=
  if m = 0 then zero neg
  else
    let n := Nat.log2 m + 1
    let e := x + (n : Int) - 1
    if e < -126 then
      let sh := (-149 - x).toNat
      let q := if -149 ≤ x then m * 2 ^ (x + 149).toNat else shiftRound m sh more
      if 2 ^ 23 ≤ q then toWord (2 ^ 23 + (if neg then 2 ^ 31 else 0)) else zero neg
    else
      let q := if n ≤ 24 then m * 2 ^ (24 - n) else shiftRound m (n - 24) more
      let e' := if 2 ^ 24 ≤ q then e + 1 else e
      let q' := if 2 ^ 24 ≤ q then q / 2 else q
      if 127 < e' then inf neg
      else toWord ((if neg then 2 ^ 31 else 0) + (e' + 127).toNat * 2 ^ 23 + (q' - 2 ^ 23))

/-- The pattern nearest to the integer i × 2^x. -/
def ofDyadic (i : Int) (x : Int) : Word := round (decide (i < 0)) i.natAbs x false
/-- The pattern nearest to a natural number. -/
def ofNat (n : Nat) : Word := round false n 0 false
/-- The pattern nearest to an integer. -/
def ofInt (i : Int) : Word := ofDyadic i 0
/-- The pattern nearest to a/b, b > 0: the exact quotient rounded once. -/
def ofRat (a : Int) (b : Nat) : Word :=
  let m := a.natAbs * 2 ^ 200
  round (decide (a < 0)) (m / b) (-200) (decide (m % b ≠ 0))

/-- Change of sign. -/
def neg (a : Word) : Word := a ^^^ 0x80000000#32
/-- Magnitude. -/
def abs (a : Word) : Word := a &&& 0x7FFFFFFF#32

/-- Sum. -/
def add (a b : Word) : Word :=
  if isNaN a || isNaN b then nan
  else if isInf a && isInf b then (if sign a == sign b then inf (sign a) else nan)
  else if isInf a then inf (sign a)
  else if isInf b then inf (sign b)
  else
    let x := min (expo a) (expo b)
    let s := smant a * 2 ^ (expo a - x).toNat + smant b * 2 ^ (expo b - x).toNat
    if s = 0 then zero (sign a && sign b) else ofDyadic s x

/-- Difference. -/
def sub (a b : Word) : Word := if isNaN b then nan else add a (neg b)

/-- Product. -/
def mul (a b : Word) : Word :=
  let ng := sign a != sign b
  if isNaN a || isNaN b then nan
  else if isInf a || isInf b then
    (if (isInf a && isZero b) || (isInf b && isZero a) then nan else inf ng)
  else round ng (mant a * mant b) (expo a + expo b) false

/-- Quotient, correctly rounded. -/
def div (a b : Word) : Word :=
  let ng := sign a != sign b
  if isNaN a || isNaN b then nan
  else if isInf a then (if isInf b then nan else inf ng)
  else if isInf b then zero ng
  else if isZero b then (if isZero a then nan else inf ng)
  else
    let m := mant a * 2 ^ 60
    round ng (m / mant b) (expo a - expo b - 60) (decide (m % mant b ≠ 0))

/-- Integer square root by bits: the greatest r < 2^k + acc bits with r² ≤ n. -/
def isqrtFrom (n : Nat) : Nat → Nat → Nat
  | 0, r => if (r + 1) * (r + 1) ≤ n then r + 1 else r
  | k + 1, r =>
    let c := r + 2 ^ (k + 1)
    isqrtFrom n k (if c * c ≤ n then c else r)

/-- Integer square root. -/
def isqrt (n : Nat) : Nat := isqrtFrom n (Nat.log2 n / 2 + 1) 0

/-- Square root, correctly rounded; of a negative value a NaN. -/
def sqrt (a : Word) : Word :=
  if isNaN a then nan
  else if isZero a then zero (sign a)
  else if sign a then nan
  else if isInf a then a
  else
    let odd := (expo a) % 2 = 1
    let m := mant a * (if odd then 2 else 1) * 2 ^ 60
    let x := ((if odd then expo a - 1 else expo a) - 60) / 2
    let r := isqrt m
    round false r x (decide (r * r ≠ m))

/-- A finite or infinite value as an integer that orders as the value does. -/
def order (a : Word) : Int :=
  let k : Nat := if isZero a then 0 else a.toNat % 2 ^ 31
  if sign a then -(k : Int) else k

/-- a < b; false when either is NaN. -/
def lt (a b : Word) : Bool := !isNaN a && !isNaN b && decide (order a < order b)
/-- a ≤ b; false when either is NaN. -/
def le (a b : Word) : Bool := !isNaN a && !isNaN b && decide (order a ≤ order b)
/-- The comparison of IEEE 754 as R582 applies it to a written value: −0 equals +0, a subnormal value is not 0. -/
def ieeeOrder (a : Word) : Int :=
  let k : Nat := a.toNat % 2 ^ 31
  if sign a then -(k : Int) else k

/-- a < b as IEEE 754 compares them; false when either is NaN. -/
def ieeeLt (a b : Word) : Bool := !isNaN a && !isNaN b && decide (ieeeOrder a < ieeeOrder b)
/-- a ≤ b as IEEE 754 compares them; false when either is NaN. -/
def ieeeLe (a b : Word) : Bool := !isNaN a && !isNaN b && decide (ieeeOrder a ≤ ieeeOrder b)
/-- An operand as an operation takes it: a subnormal one is a zero of its sign (R344). -/
def flush (a : Word) : Word := if bexp a = 0 then zero (sign a) else a
/-- The lesser, the first when equal. -/
def min (a b : Word) : Word := flush (if lt b a then b else a)
/-- The greater, the first when equal. -/
def max (a b : Word) : Word := flush (if lt a b then b else a)
/-- min(max(v, lo), hi), in the order of the manual's formulas. -/
def clamp (v lo hi : Word) : Word := min (max v lo) hi

/-- floor of a finite value times a/b, exactly (b > 0). -/
def floorMul (w : Word) (a b : Nat) : Int :=
  if 0 ≤ expo w then (smant w * 2 ^ (expo w).toNat * a) / (b : Int)
  else (smant w * a) / ((b * 2 ^ (-expo w).toNat : Nat) : Int)

/-- floor(w + 1/2) of a finite value, exactly (R167). -/
def floorHalf (w : Word) : Int :=
  if 0 ≤ expo w then smant w * 2 ^ (expo w).toNat
  else (2 * smant w + 2 ^ (-expo w).toNat) / ((2 ^ ((-expo w).toNat + 1) : Nat) : Int)

/-- round(w × n / 2) to the nearest integer, ties upward, for a finite value (R196). -/
def roundHalfMul (w : Word) (n : Nat) : Int :=
  if 0 ≤ expo w then (smant w * 2 ^ (expo w).toNat * n + 1) / 2
  else (smant w * n + 2 ^ (-expo w).toNat) / ((2 ^ ((-expo w).toNat + 1) : Nat) : Int)

/-- The value of a finite pattern in units of 2^-149. -/
def units (w : Word) : Int := if 0 ≤ expo w + 149 then smant w * 2 ^ (expo w + 149).toNat else 0

/-- The exact sum of finite values, rounded once. -/
def sumExact (l : List Word) : Word := ofDyadic (l.foldl (fun a w => a + units w) 0) (-149)

/-! Cosine and sine. The manual bounds their error by 10^-6 (R374): the model takes a rational within 10^-9 of the exact
value and adds a free error that keeps the result inside the bound (log entry 7). -/

/-- 2π in units of 2^-60. -/
def twoPi60 : Nat := 7244019458077122842

/-- π in units of 2^-60. -/
def pi60 : Nat := 3622009729038561421

/-- Terms of the cosine series from x^(2k)/(2k)! on, in units of 2^-60; x2 is x² in those units. -/
def cosTerms : Nat → Nat → Int → Int → Int
  | 0, _, _, _ => 0
  | fuel + 1, k, x2, term =>
    term + cosTerms fuel (k + 1) x2 (-(term * x2) / ((2 ^ 60 * ((2 * k + 1) * (2 * k + 2)) : Nat) : Int))

/-- cos of x (in units of 2^-60), |x| at most π, in units of 2^-60, within 2^-50. -/
def cos60 (x : Int) : Int := cosTerms 16 0 (x * x / 2 ^ 60) (2 ^ 60)

/-- The value of a finite pattern in units of 2^-60, floored, reduced into (−π, π]. -/
def angle60 (w : Word) : Int :=
  let v := floorMul w (2 ^ 60) 1
  let r := v % (twoPi60 : Int)
  if (pi60 : Int) < r then r - twoPi60 else r

/-- A free error limited to ±9 × 10^-7, in units of 2^-60. -/
def trigError (e : Int) : Int := (Max.max (-900) (Min.min 900 e)) * 1152921504

/-- cos of a finite angle, a value within the bound of R374. -/
def cos (w : Word) : Word :=
  if isFinite w then ofDyadic (cos60 (angle60 w) + trigError (Config.cosError w)) (-60) else nan

/-- sin of a finite angle, a value within the bound of R374. -/
def sin (w : Word) : Word :=
  if isFinite w then
    let x := angle60 w - (pi60 : Int) / 2
    let y := if x < -(pi60 : Int) then x + twoPi60 else x
    ofDyadic (cos60 y + trigError (Config.sinError w)) (-60)
  else nan

/-! Arc tangent. The manual gives no error bound for atan2: the model takes the nearest pattern of a value within 2^-50 and a free
error of at most one last place (log entry 7). -/

/-- Terms of the arc tangent series from z^(2k+1)/(2k+1) on, in units of 2^-60; pw is ±z^(2k+1). -/
def atanTerms : Nat → Nat → Int → Int → Int
  | 0, _, _, _ => 0
  | fuel + 1, k, z2, pw => pw / ((2 * k + 1 : Nat) : Int) + atanTerms fuel (k + 1) z2 (-(pw * z2 / 2 ^ 60))

/-- z / (1 + sqrt(1 + z²)), the tangent of half the angle, in units of 2^-60. -/
def halfTan (z : Nat) : Nat := z * 2 ^ 60 / (2 ^ 60 + isqrt (2 ^ 120 + z * z))

/-- atan of z, 0 ≤ z ≤ 1, in units of 2^-60. -/
def atan60 (z : Nat) : Int :=
  let q : Int := halfTan (halfTan z)
  4 * atanTerms 16 0 (q * q / 2 ^ 60) q

/-- atan2 of two integers of one scale, in units of 2^-60, in (−π, π]. -/
def atan2Int (y x : Int) : Int :=
  let a := y.natAbs
  let b := x.natAbs
  let r : Int := if a = 0 ∧ b = 0 then 0
    else if a ≤ b then atan60 (a * 2 ^ 60 / b)
    else (pi60 : Int) / 2 - atan60 (b * 2 ^ 60 / a)
  let r := if x < 0 then (pi60 : Int) - r else r
  if y < 0 then -r else r

/-- A pattern moved by a free error of at most one last place. -/
def nudge (w : Word) : Word :=
  if isZero w || !isFinite w then w
  else w + BitVec.ofInt 32 (Max.max (-1) (Min.min 1 (Config.ulpError w.toNat)))

/-- atan2 of finite values. -/
def atan2 (y x : Word) : Word :=
  if isFinite y && isFinite x then
    let m := Min.min (expo y) (expo x)
    nudge (ofDyadic (atan2Int (smant y * 2 ^ (expo y - m).toNat) (smant x * 2 ^ (expo x - m).toNat)) (-60))
  else nan

/-- An angle reduced into [0, 2π): unchanged when it is there, else the exact remainder rounded once (log entry 15). -/
def wrap (w : Word) : Word :=
  let twoPi : Word := 0x40C90FDB#32
  if !isFinite w then nan
  else if le 0 w && lt w twoPi then w
  else
    let r := ofDyadic (floorMul w (2 ^ 60) 1 % (twoPi60 : Int)) (-60)
    if lt r twoPi then r else 0

/-- An angle reduced into (−π, π], likewise. -/
def wrapSym (w : Word) : Word :=
  let pi : Word := 0x40490FDB#32
  if !isFinite w then nan
  else if lt (neg pi) w && le w pi then w
  else ofDyadic (angle60 w) (-60)

end Sys2Proof.Machine.F32
end

