-- ==== Sys2Proof/Machine/Crc.lean ====
section
/-! DEFINITION. The cyclic codes of the block's frames, and the hash and signature check of PATCH_LOAD. -/

namespace Sys2Proof.Machine

/-- The bits of a byte, most significant first. -/
def msbBits (b : Nat) : List Bool := [7, 6, 5, 4, 3, 2, 1, 0].map (fun i => b.testBit i)

/-- The bits of a byte, least significant first. -/
def lsbBits (b : Nat) : List Bool := [0, 1, 2, 3, 4, 5, 6, 7].map (fun i => b.testBit i)

/-- A CRC register of w bits fed most significant bit first with polynomial poly. -/
def crcFeed (w poly : Nat) (crc : Nat) (bits : List Bool) : Nat :=
  bits.foldl
    (fun r b =>
      let top := r.testBit (w - 1)
      let s := r * 2 % 2 ^ w
      if top != b then Nat.xor s poly else s)
    crc

/-- CRC-16-CCITT of R49 over bytes in transmission order. -/
def crc16 (bytes : List Nat) : Nat := crcFeed 16 0x1021 0xFFFF (bytes.flatMap msbBits)

/-- v with its w bits in reverse order. -/
def reflect (w v : Nat) : Nat := (List.range w).foldl (fun a i => if v.testBit i then a + 2 ^ (w - 1 - i) else a) 0

/-- CRC-32C, reflected, initial value and final XOR all ones (R465, R498). -/
def crc32c (bytes : List Nat) : Nat :=
  Nat.xor (reflect 32 (crcFeed 32 0x1EDC6F41 0xFFFFFFFF (bytes.flatMap lsbBits))) 0xFFFFFFFF

/-- The bytes of a 32-bit word, most significant first. -/
def wordBytes (w : Nat) : List Nat := [w / 2 ^ 24 % 256, w / 2 ^ 16 % 256, w / 2 ^ 8 % 256, w % 256]

/-- A number from bytes, most significant first. -/
def ofBytes (l : List Nat) : Nat := l.foldl (fun a b => a * 256 + b) 0

/-! SHA-256 (FIPS 180-4), the hash of R121. -/

/-- Rotation of a 32-bit word to the right. -/
def ror (w : Word) (n : Nat) : Word := w.rotateRight n

/-- Round constants, first half. -/
def shaKa : List Word := [
  0x428a2f98#32, 0x71374491#32, 0xb5c0fbcf#32, 0xe9b5dba5#32, 0x3956c25b#32, 0x59f111f1#32, 0x923f82a4#32, 0xab1c5ed5#32,
  0xd807aa98#32, 0x12835b01#32, 0x243185be#32, 0x550c7dc3#32, 0x72be5d74#32, 0x80deb1fe#32, 0x9bdc06a7#32, 0xc19bf174#32,
  0xe49b69c1#32, 0xefbe4786#32, 0x0fc19dc6#32, 0x240ca1cc#32, 0x2de92c6f#32, 0x4a7484aa#32, 0x5cb0a9dc#32, 0x76f988da#32,
  0x983e5152#32, 0xa831c66d#32, 0xb00327c8#32, 0xbf597fc7#32, 0xc6e00bf3#32, 0xd5a79147#32, 0x06ca6351#32, 0x14292967#32]

/-- Round constants, second half. -/
def shaKb : List Word := [
  0x27b70a85#32, 0x2e1b2138#32, 0x4d2c6dfc#32, 0x53380d13#32, 0x650a7354#32, 0x766a0abb#32, 0x81c2c92e#32, 0x92722c85#32,
  0xa2bfe8a1#32, 0xa81a664b#32, 0xc24b8b70#32, 0xc76c51a3#32, 0xd192e819#32, 0xd6990624#32, 0xf40e3585#32, 0x106aa070#32,
  0x19a4c116#32, 0x1e376c08#32, 0x2748774c#32, 0x34b0bcb5#32, 0x391c0cb3#32, 0x4ed8aa4a#32, 0x5b9cca4f#32, 0x682e6ff3#32,
  0x748f82ee#32, 0x78a5636f#32, 0x84c87814#32, 0x8cc70208#32, 0x90befffa#32, 0xa4506ceb#32, 0xbef9a3f7#32, 0xc67178f2#32]

/-- Initial hash value. -/
def shaInit : List Word := [
  0x6a09e667#32, 0xbb67ae85#32, 0x3c6ef372#32, 0xa54ff53a#32, 0x510e527f#32, 0x9b05688c#32, 0x1f83d9ab#32, 0x5be0cd19#32]

/-- The message schedule, newest word first: n further words. -/
def shaSchedule : Nat → List Word → List Word
  | 0, w => w
  | n + 1, w =>
    let g := fun i => w.getD i 0
    let s0 := ror (g 14) 7 ^^^ ror (g 14) 18 ^^^ (g 14 >>> 3)
    let s1 := ror (g 1) 17 ^^^ ror (g 1) 19 ^^^ (g 1 >>> 10)
    shaSchedule n ((g 15 + s0 + g 6 + s1) :: w)

/-- One round on the eight working variables. -/
def shaRound (v : List Word) (kw : Word × Word) : List Word :=
  let g := fun i => v.getD i 0
  let s1 := ror (g 4) 6 ^^^ ror (g 4) 11 ^^^ ror (g 4) 25
  let ch := (g 4 &&& g 5) ^^^ (~~~(g 4) &&& g 6)
  let t1 := g 7 + s1 + ch + kw.1 + kw.2
  let s0 := ror (g 0) 2 ^^^ ror (g 0) 13 ^^^ ror (g 0) 22
  let mj := (g 0 &&& g 1) ^^^ (g 0 &&& g 2) ^^^ (g 1 &&& g 2)
  [t1 + s0 + mj, g 0, g 1, g 2, g 3 + t1, g 4, g 5, g 6]

/-- One block of sixteen words. -/
def shaBlock (h block : List Word) : List Word :=
  let w := (shaSchedule 48 block.reverse).reverse
  let v := ((shaKa ++ shaKb).zip w).foldl shaRound h
  List.zipWith (· + ·) h v

/-- Blocks of sixteen words, n of them. -/
def shaBlocks : Nat → List Word → List Word → List Word
  | 0, h, _ => h
  | n + 1, h, m => shaBlocks n (shaBlock h (m.take 16)) (m.drop 16)

/-- SHA-256 of a message of whole words, each taken most significant byte first, as a number. -/
def sha256 (m : List Word) : Nat :=
  let bits := 32 * m.length
  let pad := (13 + 16 - m.length % 16) % 16
  let full := m ++ 0x80000000#32 :: (List.replicate pad 0#32 ++ [toWord (bits / 2 ^ 32), toWord bits])
  (shaBlocks (full.length / 16) shaInit full).foldl (fun a w => a * 2 ^ 32 + w.toNat) 0

/-! ECDSA on P-256 (FIPS 186-4), the signature check of R121. -/

/-- The field prime. -/
def p256 : Nat := 0xffffffff00000001000000000000000000000000ffffffffffffffffffffffff
/-- The group order. -/
def n256 : Nat := 0xffffffff00000000ffffffffffffffffbce6faada7179e84f3b9cac2fc632551
/-- The base point. -/
def g256 : Nat × Nat :=
  (0x6b17d1f2e12c4247f8bce6e563a440f277037d812deb33a0f4a13945d898c296,
   0x4fe342e2fe1a7f9b8ee7eb4a7c0f9e162bce33576b315ececbb6406837bf51f5)

/-- b^e mod m, over the lowest k bits of e. -/
def powMod : Nat → Nat → Nat → Nat → Nat
  | 0, _, _, m => 1 % m
  | k + 1, b, e, m =>
    let r := powMod k (b * b % m) (e / 2) m
    if e % 2 = 1 then b * r % m else r

/-- Inverse modulo a prime of 256 bits. -/
def invMod (a m : Nat) : Nat := powMod 256 (a % m) (m - 2) m

/-- a − b mod p. -/
def subMod (a b m : Nat) : Nat := (a % m + (m - b % m)) % m

/-- A point: none is infinity. -/
abbrev Point := Option (Nat × Nat)

/-- Sum of two points of the curve. -/
def ecAdd (a b : Point) : Point :=
  match a, b with
  | none, q => q
  | q, none => q
  | some (x1, y1), some (x2, y2) =>
    if x1 = x2 ∧ (y1 + y2) % p256 = 0 then none
    else
      let l :=
        if x1 = x2 then (3 * x1 * x1 + (p256 - 3)) % p256 * invMod (2 * y1) p256 % p256
        else subMod y2 y1 p256 * invMod (subMod x2 x1 p256) p256 % p256
      let x := subMod (l * l) (x1 + x2) p256
      some (x, subMod (l * subMod x1 x p256) y1 p256)

/-- k times a point, over the lowest `fuel` bits of k. -/
def ecMul : Nat → Nat → Point → Point
  | 0, _, _ => none
  | fuel + 1, k, q =>
    let r := ecMul fuel (k / 2) (ecAdd q q)
    if k % 2 = 1 then ecAdd q r else r

/-- The signature (r, s) of hash h verifies under key q; r and s in 1 to n − 1. -/
def ecdsaVerify (q : Nat × Nat) (h r s : Nat) : Bool :=
  if r = 0 ∨ s = 0 ∨ n256 ≤ r ∨ n256 ≤ s then false
  else
    let w := invMod s n256
    match ecAdd (ecMul 256 (h * w % n256) (some g256)) (ecMul 256 (r * w % n256) (some q)) with
    | none => false
    | some (x, _) => x % n256 == r

end Sys2Proof.Machine
end

