-- ==== Sys2Proof/Machine/Tab.lean ====
section
/-! DEFINITION. A table: key and value pairs in one canonical form, keys rising by their code, no entry equal to what an
unlisted key reads as. Registers, SRAM bytes and the records of lanes, ports and rings are kept so, which makes the state
plain data that can be written out and compared. -/

namespace Sys2Proof.Machine

/-- A table from κ to α; what an unlisted key reads as is an argument of each operation. -/
abbrev Tab (κ α : Type) := List (κ × α)

/-- The value at key k, d when it is not listed. -/
def tabGet {κ α : Type} [DecidableEq κ] (d : α) : Tab κ α → κ → α
  | [], _ => d
  | (j, v) :: m, k => if j = k then v else tabGet d m k

/-- The table without key k. -/
def tabDrop {κ α : Type} [DecidableEq κ] (k : κ) : Tab κ α → Tab κ α
  | [] => []
  | (j, v) :: m => if j = k then tabDrop k m else (j, v) :: tabDrop k m

/-- Key k entered before the first key of greater code. -/
def tabPut {κ α : Type} (code : κ → Nat) (k : κ) (v : α) : Tab κ α → Tab κ α
  | [] => [(k, v)]
  | (j, w) :: m => if code k < code j then (k, v) :: (j, w) :: m else (j, w) :: tabPut code k v m

/-- Write v at key k: a value equal to what an unlisted key reads as removes the entry. -/
def tabSet {κ α : Type} [DecidableEq κ] [DecidableEq α] (code : κ → Nat) (d : α) (m : Tab κ α) (k : κ) (v : α) :
    Tab κ α :=
  if v = d then tabDrop k m else tabPut code k v (tabDrop k m)

/-- Codes strictly rising. -/
def tabRising {κ α : Type} (code : κ → Nat) : Tab κ α → Bool
  | [] => true
  | [_] => true
  | a :: b :: m => decide (code a.1 < code b.1) && tabRising code (b :: m)

/-- A table keyed by numbers. -/
abbrev NTab (α : Type) := Tab Nat α

/-- Read of a table keyed by numbers. -/
def nget {α : Type} (d : α) (m : NTab α) (k : Nat) : α := tabGet d m k

/-- Write of a table keyed by numbers. -/
def nset {α : Type} [DecidableEq α] (d : α) (m : NTab α) (k : Nat) (v : α) : NTab α := tabSet id d m k v

/-- The SRAM: byte cells; an unlisted byte reads 0 (DESIGN CHOICE, log entry 2). -/
abbrev Memory := List Host.Cell

/-- What an unlisted byte of SRAM reads as. -/
def Memory.unlisted : Byte := 0

/-- One byte of SRAM. -/
def Memory.readByte (m : Memory) (a : Nat) : Byte := nget Memory.unlisted m a

/-- Write one byte of SRAM. -/
def Memory.writeByte (m : Memory) (a : Nat) (b : Byte) : Memory := nset Memory.unlisted m a b

/-- The canonical form: addresses strictly rising, no entry equal to what an unlisted address reads as. -/
def Memory.wf (m : Memory) : Bool := tabRising id m && m.all (fun c => c.2 != Memory.unlisted)

/-- A 32-bit word at byte address a, least significant byte first (DEDUCED, log entry 3). -/
def Memory.readWord (m : Memory) (a : Nat) : Word :=
  toWord ((m.readByte a).toNat + 2 ^ 8 * (m.readByte (a + 1)).toNat + 2 ^ 16 * (m.readByte (a + 2)).toNat
    + 2 ^ 24 * (m.readByte (a + 3)).toNat)

/-- Write a 32-bit word at byte address a. -/
def Memory.writeWord (m : Memory) (a : Nat) (w : Word) : Memory :=
  (((m.writeByte a (BitVec.ofNat 8 w.toNat)).writeByte (a + 1) (BitVec.ofNat 8 (w.toNat / 2 ^ 8))).writeByte (a + 2)
    (BitVec.ofNat 8 (w.toNat / 2 ^ 16))).writeByte (a + 3) (BitVec.ofNat 8 (w.toNat / 2 ^ 24))

end Sys2Proof.Machine
end

