-- ==== Sys2Proof/Machine/Regs.lean ====
section
/-! DEFINITION. The register map: every attribute and every field of the field maps of spec/, under the manual's own
names, with its bits, access code (R12) and reset value. Reserved bits have no row: they read 0 and discard writes (R13).
`Reg.LNK.STATE.STATE` is the field STATE of LNK.STATE. A field whose reset the manual gives per instance has its value in
`instReset`; a field marked "fuse" has the hard-wired default of R500 and one marked "keeper" 0 (DESIGN CHOICE, log entry 4). -/

namespace Sys2Proof.Machine

/-- Access codes of R12. -/
inductive Access where
  | ro | rw | w1c | wo | rwl
  deriving DecidableEq, Repr

/-- One field of an attribute: attribute ID (R78), most and least significant bit (R8). -/
structure Fld where
  id : Nat
  hi : Nat
  lo : Nat
  deriving DecidableEq, Repr

/-- Width of a field in bits. -/
def Fld.width (f : Fld) : Nat := f.hi + 1 - f.lo

/-- A row of a field map. -/
structure FieldRow where
  fld : Fld
  access : Access
  reset : Nat
  deriving DecidableEq, Repr

/-- A row of an attribute table: ID, width in words (R79), number of instances (R80), fields. -/
structure AttrRow where
  id : Nat
  words : Nat
  insts : Nat
  fields : List FieldRow
  deriving DecidableEq, Repr

namespace Reg

/-! DEV: 03_command_set.md -/
def DEV.STATE.DBGLOCK : Fld := ⟨0x0000, 10, 10⟩
def DEV.STATE.PATCHED : Fld := ⟨0x0000, 9, 9⟩
def DEV.STATE.LOADOPEN : Fld := ⟨0x0000, 8, 8⟩
def DEV.STATE.STATE : Fld := ⟨0x0000, 2, 0⟩
def DEV.ID.FAMILY : Fld := ⟨0x0001, 31, 16⟩
def DEV.ID.STEP : Fld := ⟨0x0001, 15, 8⟩
def DEV.ID.GRADE : Fld := ⟨0x0001, 7, 0⟩
def DEV.ROM.ROMVER : Fld := ⟨0x0002, 31, 16⟩
def DEV.ROM.PATCHVER : Fld := ⟨0x0002, 15, 0⟩
def DEV.UID.UID : Fld := ⟨0x0003, 63, 0⟩
def DEV.TICK.PERIOD : Fld := ⟨0x0010, 13, 0⟩
def DEV.LAUNCH.LAUNCH : Fld := ⟨0x0011, 13, 0⟩
def DEV.APPLY.APPLY : Fld := ⟨0x0012, 14, 0⟩
def DEV.CFGRES.RESULT : Fld := ⟨0x0013, 31, 24⟩
def DEV.CFGRES.BLOCK : Fld := ⟨0x0013, 21, 16⟩
def DEV.FOPS.F : Fld := ⟨0x0014, 23, 0⟩

/-! HPP: 02_host_packet_port.md -/
def HPP.CFG.IDLETO : Fld := ⟨0x0400, 15, 8⟩
def HPP.CFG.IRQOD : Fld := ⟨0x0400, 1, 1⟩
def HPP.CFG.QUAD : Fld := ⟨0x0400, 0, 0⟩
def HPP.STAT.BEMPTY : Fld := ⟨0x0401, 10, 10⟩
def HPP.STAT.AEMPTY : Fld := ⟨0x0401, 9, 9⟩
def HPP.STAT.FILL : Fld := ⟨0x0401, 8, 8⟩
def HPP.STAT.HDRLOST : Fld := ⟨0x0401, 5, 5⟩
def HPP.STAT.LVL : Fld := ⟨0x0401, 4, 4⟩
def HPP.STAT.HTO : Fld := ⟨0x0401, 3, 3⟩
def HPP.STAT.OVF : Fld := ⟨0x0401, 2, 2⟩
def HPP.STAT.LENE : Fld := ⟨0x0401, 1, 1⟩
def HPP.STAT.CRCE : Fld := ⟨0x0401, 0, 0⟩
def HPP.IRQEN.TIME : Fld := ⟨0x0402, 5, 5⟩
def HPP.IRQEN.OVF : Fld := ⟨0x0402, 4, 4⟩
def HPP.IRQEN.HERR : Fld := ⟨0x0402, 3, 3⟩
def HPP.IRQEN.TRIP : Fld := ⟨0x0402, 2, 2⟩
def HPP.IRQEN.FLT : Fld := ⟨0x0402, 1, 1⟩
def HPP.IRQEN.RPQ : Fld := ⟨0x0402, 0, 0⟩
def HPP.LEVEL.LEVEL : Fld := ⟨0x0403, 8, 0⟩
def HPP.MIRSEL.ID : Fld := ⟨0x0404, 31, 16⟩
def HPP.MIRSEL.INST : Fld := ⟨0x0404, 15, 8⟩
def HPP.CNTCRC.COUNT : Fld := ⟨0x0405, 31, 0⟩
def HPP.CNTLEN.COUNT : Fld := ⟨0x0406, 31, 0⟩
def HPP.CNTOVF.COUNT : Fld := ⟨0x0407, 31, 0⟩
def HPP.CNTHTO.COUNT : Fld := ⟨0x0408, 31, 0⟩
def HPP.CNTTXN.COUNT : Fld := ⟨0x0409, 31, 0⟩

/-! FLT: 18_fault_collection.md -/
def FLT.CFG.NVMIN : Fld := ⟨0x0800, 17, 16⟩
def FLT.CFG.QUIET : Fld := ⟨0x0800, 15, 0⟩
def FLT.SCFG.CLASS : Fld := ⟨0x0801, 31, 30⟩
def FLT.SCFG.ESC : Fld := ⟨0x0801, 29, 28⟩
def FLT.SCFG.NESC : Fld := ⟨0x0801, 27, 20⟩
def FLT.SCFG.WIN : Fld := ⟨0x0801, 19, 8⟩
def FLT.SCFG.PROF : Fld := ⟨0x0801, 7, 6⟩
def FLT.PROF.SDO : Fld := ⟨0x0802, 21, 18⟩
def FLT.PROF.DHB : Fld := ⟨0x0802, 17, 6⟩
def FLT.PROF.ARM : Fld := ⟨0x0802, 5, 0⟩
def FLT.STATUS.STATUS : Fld := ⟨0x0810, 63, 0⟩
def FLT.STAT.GRAVE : Fld := ⟨0x0811, 31, 29⟩
def FLT.STAT.REACTING : Fld := ⟨0x0811, 28, 28⟩
def FLT.STAT.DEVOK : Fld := ⟨0x0811, 27, 27⟩
def FLT.STAT.FATSRC : Fld := ⟨0x0811, 26, 21⟩
def FLT.STAT.LOSTU : Fld := ⟨0x0811, 14, 14⟩
def FLT.STAT.NUNACK : Fld := ⟨0x0811, 13, 8⟩
def FLT.HOLD.HELD : Fld := ⟨0x0812, 21, 0⟩
def FLT.SRC.CUR : Fld := ⟨0x0813, 31, 30⟩
def FLT.SRC.WOPEN : Fld := ⟨0x0813, 29, 29⟩
def FLT.SRC.WCNT : Fld := ⟨0x0813, 28, 21⟩
def FLT.SRC.EVENTS : Fld := ⟨0x0813, 15, 0⟩
def FLT.REC.NUM : Fld := ⟨0x0814, 255, 240⟩
def FLT.REC.VALID : Fld := ⟨0x0814, 239, 239⟩
def FLT.REC.ACKD : Fld := ⟨0x0814, 238, 238⟩
def FLT.REC.CLASS : Fld := ⟨0x0814, 237, 236⟩
def FLT.REC.FIRST : Fld := ⟨0x0814, 235, 230⟩
def FLT.REC.PROFS : Fld := ⟨0x0814, 227, 224⟩
def FLT.REC.COUNT : Fld := ⟨0x0814, 223, 208⟩
def FLT.REC.DETAIL : Fld := ⟨0x0814, 199, 198⟩
def FLT.REC.TAP : Fld := ⟨0x0814, 197, 192⟩
def FLT.REC.TIME : Fld := ⟨0x0814, 191, 128⟩
def FLT.REC.PEND : Fld := ⟨0x0814, 127, 64⟩
def FLT.REC.SRC : Fld := ⟨0x0814, 63, 0⟩
def FLT.CNT.RECORDS : Fld := ⟨0x0815, 63, 32⟩
def FLT.CNT.MERGED : Fld := ⟨0x0815, 31, 16⟩
def FLT.CNT.RLOST : Fld := ⟨0x0815, 15, 0⟩

/-! RST: 19_reset_and_fuses.md -/
def RST.STAT.LASTSRC : Fld := ⟨0x0C00, 31, 28⟩
def RST.STAT.LASTLVL : Fld := ⟨0x0C00, 27, 26⟩
def RST.STAT.LASTBLK : Fld := ⟨0x0C00, 25, 20⟩
def RST.STAT.FATAL : Fld := ⟨0x0C00, 19, 19⟩
def RST.STAT.DEFAULTS : Fld := ⟨0x0C00, 18, 18⟩
def RST.STAT.FUSEOK : Fld := ⟨0x0C00, 17, 17⟩
def RST.STAT.FAILS : Fld := ⟨0x0C00, 16, 15⟩
def RST.DOM.KEEP : Fld := ⟨0x0C01, 16, 16⟩
def RST.DOM.HELD : Fld := ⟨0x0C01, 15, 8⟩
def RST.DOM.REL : Fld := ⟨0x0C01, 7, 0⟩
def RST.FLVL.DLLL : Fld := ⟨0x0C02, 2, 2⟩
def RST.FLVL.CLKL : Fld := ⟨0x0C02, 1, 1⟩
def RST.FLVL.RSTNL : Fld := ⟨0x0C02, 0, 0⟩
def RST.FGAP.GAP : Fld := ⟨0x0C03, 55, 0⟩
def RST.FPIN.ETHRS : Fld := ⟨0x0C04, 4, 4⟩
def RST.FPIN.TIMRS : Fld := ⟨0x0C04, 3, 3⟩
def RST.FPIN.PLSRS : Fld := ⟨0x0C04, 2, 1⟩
def RST.FPIN.IRQRS : Fld := ⟨0x0C04, 0, 0⟩
def RST.FSEC.FUSEREV : Fld := ⟨0x0C05, 63, 56⟩
def RST.FSEC.GRADE : Fld := ⟨0x0C05, 55, 48⟩
def RST.FSEC.PATCHMIN : Fld := ⟨0x0C05, 47, 32⟩
def RST.FSEC.KEYREV : Fld := ⟨0x0C05, 31, 28⟩
def RST.FSEC.PLOCK : Fld := ⟨0x0C05, 27, 27⟩
def RST.FSEC.DBGLOCK : Fld := ⟨0x0C05, 26, 26⟩
def RST.FSEC.CHGEND : Fld := ⟨0x0C05, 25, 24⟩
def RST.LOG.START : Fld := ⟨0x0C06, 95, 32⟩
def RST.LOG.OPEN : Fld := ⟨0x0C06, 31, 31⟩
def RST.LOG.DUR : Fld := ⟨0x0C06, 30, 0⟩
def RST.CNT.RSTN : Fld := ⟨0x0C07, 63, 48⟩
def RST.CNT.CMD : Fld := ⟨0x0C07, 47, 32⟩
def RST.CNT.CLK : Fld := ⟨0x0C07, 31, 24⟩
def RST.CNT.FUSEF : Fld := ⟨0x0C07, 23, 16⟩
def RST.CNT.MERGED : Fld := ⟨0x0C07, 15, 8⟩
def RST.CNT.CGFAIL : Fld := ⟨0x0C07, 7, 0⟩
def RST.EVT.CLKSTART : Fld := ⟨0x0C08, 2, 2⟩
def RST.EVT.FUSEF : Fld := ⟨0x0C08, 1, 1⟩
def RST.EVT.RSTLOG : Fld := ⟨0x0C08, 0, 0⟩

/-! KPR: 20_keeper_and_power.md -/
def KPR.CFG.VABT : Fld := ⟨0x1000, 43, 32⟩
def KPR.CFG.NVPER : Fld := ⟨0x1000, 23, 16⟩
def KPR.CFG.KCELL : Fld := ⟨0x1000, 15, 0⟩
def KPR.SERVO.FIX : Fld := ⟨0x1001, 55, 55⟩
def KPR.SERVO.VFIX : Fld := ⟨0x1001, 54, 49⟩
def KPR.SERVO.VFLOOR : Fld := ⟨0x1001, 48, 43⟩
def KPR.SERVO.VSTEP : Fld := ⟨0x1001, 42, 40⟩
def KPR.SERVO.SWIN : Fld := ⟨0x1001, 39, 32⟩
def KPR.SERVO.SHI : Fld := ⟨0x1001, 31, 16⟩
def KPR.SERVO.SLO : Fld := ⟨0x1001, 15, 0⟩
def KPR.ALARM.EN : Fld := ⟨0x1002, 63, 63⟩
def KPR.ALARM.SEC : Fld := ⟨0x1002, 48, 0⟩
def KPR.CTL.SLEEP : Fld := ⟨0x1003, 0, 0⟩
def KPR.NVSEL.SET : Fld := ⟨0x1004, 31, 30⟩
def KPR.NVSEL.OFS : Fld := ⟨0x1004, 10, 0⟩
def KPR.STAT.VSET : Fld := ⟨0x1010, 31, 26⟩
def KPR.STAT.SMODE : Fld := ⟨0x1010, 25, 24⟩
def KPR.STAT.WAKE : Fld := ⟨0x1010, 23, 22⟩
def KPR.STAT.CHG : Fld := ⟨0x1010, 21, 20⟩
def KPR.STAT.CONN : Fld := ⟨0x1010, 19, 19⟩
def KPR.STAT.RAIL : Fld := ⟨0x1010, 18, 18⟩
def KPR.STAT.HARV : Fld := ⟨0x1010, 17, 17⟩
def KPR.STAT.RTCV : Fld := ⟨0x1010, 16, 16⟩
def KPR.STAT.BURST : Fld := ⟨0x1010, 15, 15⟩
def KPR.STAT.BSET : Fld := ⟨0x1010, 14, 13⟩
def KPR.VMON.VST : Fld := ⟨0x1011, 31, 16⟩
def KPR.VMON.VTEG : Fld := ⟨0x1011, 15, 0⟩
def KPR.SLACK.MIN : Fld := ⟨0x1012, 31, 16⟩
def KPR.SLACK.LAST : Fld := ⟨0x1012, 15, 0⟩
def KPR.RTC.SEC : Fld := ⟨0x1013, 63, 15⟩
def KPR.RTC.FRAC : Fld := ⟨0x1013, 14, 0⟩
def KPR.NVS.SEQ : Fld := ⟨0x1014, 63, 32⟩
def KPR.NVS.VALID : Fld := ⟨0x1014, 31, 31⟩
def KPR.NVS.PEND : Fld := ⟨0x1014, 30, 30⟩
def KPR.NVS.LAST : Fld := ⟨0x1014, 29, 28⟩
def KPR.NVS.BLKS : Fld := ⟨0x1014, 23, 16⟩
def KPR.NVS.PBLKS : Fld := ⟨0x1014, 15, 8⟩
def KPR.NVDATA.DATA : Fld := ⟨0x1015, 255, 0⟩
def KPR.EVT.KPOR : Fld := ⟨0x1016, 4, 4⟩
def KPR.EVT.LCUT : Fld := ⟨0x1016, 3, 3⟩
def KPR.EVT.ABORT : Fld := ⟨0x1016, 2, 2⟩
def KPR.EVT.REFUSE : Fld := ⟨0x1016, 1, 1⟩
def KPR.EVT.WARN : Fld := ⟨0x1016, 0, 0⟩
def KPR.CNT.COMMITS : Fld := ⟨0x1017, 63, 48⟩
def KPR.CNT.REFUSED : Fld := ⟨0x1017, 47, 32⟩
def KPR.CNT.ABORTED : Fld := ⟨0x1017, 31, 24⟩
def KPR.CNT.WARN : Fld := ⟨0x1017, 23, 16⟩
def KPR.CNT.EMERG : Fld := ⟨0x1017, 15, 8⟩
def KPR.CNT.LCUT : Fld := ⟨0x1017, 7, 0⟩

/-! TIM: 11_time_base.md -/
def TIM.CFG.SRC : Fld := ⟨0x1400, 31, 30⟩
def TIM.CFG.TICKSRC : Fld := ⟨0x1400, 29, 28⟩
def TIM.CFG.GMVAL : Fld := ⟨0x1400, 27, 27⟩
def TIM.CFG.HOLDMAX : Fld := ⟨0x1400, 15, 0⟩
def TIM.CLK.FTOL : Fld := ⟨0x1401, 9, 2⟩
def TIM.CLK.REVERT : Fld := ⟨0x1401, 1, 1⟩
def TIM.CLK.PREF : Fld := ⟨0x1401, 0, 0⟩
def TIM.PTP.VID : Fld := ⟨0x1402, 63, 52⟩
def TIM.PTP.PCP : Fld := ⟨0x1402, 51, 49⟩
def TIM.PTP.VTAG : Fld := ⟨0x1402, 48, 48⟩
def TIM.PTP.PRIO1 : Fld := ⟨0x1402, 47, 40⟩
def TIM.PTP.PRIO2 : Fld := ⟨0x1402, 39, 32⟩
def TIM.PTP.CLASS : Fld := ⟨0x1402, 31, 24⟩
def TIM.PTP.DOMAIN : Fld := ⟨0x1402, 23, 16⟩
def TIM.PTP.RCT : Fld := ⟨0x1402, 3, 3⟩
def TIM.PTP.TWOSTEP : Fld := ⟨0x1402, 2, 2⟩
def TIM.PTP.SONLY : Fld := ⟨0x1402, 1, 1⟩
def TIM.SERVO.BW : Fld := ⟨0x1403, 31, 30⟩
def TIM.SERVO.TVCNT : Fld := ⟨0x1403, 29, 24⟩
def TIM.SERVO.TVTHR : Fld := ⟨0x1403, 23, 12⟩
def TIM.SERVO.STEPTH : Fld := ⟨0x1403, 11, 0⟩
def TIM.PORT.PEN : Fld := ⟨0x1404, 63, 63⟩
def TIM.PORT.ASYM : Fld := ⟨0x1404, 47, 32⟩
def TIM.PORT.RXLAT : Fld := ⟨0x1404, 31, 16⟩
def TIM.PORT.TXLAT : Fld := ⟨0x1404, 15, 0⟩
def TIM.PPS.OEN : Fld := ⟨0x1405, 31, 31⟩
def TIM.PPS.FREE : Fld := ⟨0x1405, 30, 30⟩
def TIM.PPS.WIDTH : Fld := ⟨0x1405, 29, 20⟩
def TIM.PPS.INDLY : Fld := ⟨0x1405, 19, 0⟩
def TIM.SYNC.OEN : Fld := ⟨0x1406, 31, 31⟩
def TIM.SYNC.SDIV : Fld := ⟨0x1406, 30, 20⟩
def TIM.SYNC.STOL : Fld := ⟨0x1406, 19, 12⟩
def TIM.SYNC.SDLY : Fld := ⟨0x1406, 11, 0⟩
def TIM.GRID.GOFS : Fld := ⟨0x1407, 13, 0⟩
def TIM.TSI.EDGE : Fld := ⟨0x1408, 31, 30⟩
def TIM.TSI.RINGEN : Fld := ⟨0x1408, 29, 29⟩
def TIM.TSI.RING : Fld := ⟨0x1408, 28, 24⟩
def TIM.STAT.TPHERR : Fld := ⟨0x1410, 31, 16⟩
def TIM.STAT.PHI : Fld := ⟨0x1410, 15, 10⟩
def TIM.STAT.WAITSYNC : Fld := ⟨0x1410, 9, 9⟩
def TIM.STAT.RTCBAD : Fld := ⟨0x1410, 8, 8⟩
def TIM.STAT.CLKB : Fld := ⟨0x1410, 7, 6⟩
def TIM.STAT.CLKA : Fld := ⟨0x1410, 5, 4⟩
def TIM.STAT.SEL : Fld := ⟨0x1410, 3, 3⟩
def TIM.STAT.DLLOCK : Fld := ⟨0x1410, 2, 2⟩
def TIM.STAT.HOLD : Fld := ⟨0x1410, 1, 1⟩
def TIM.STAT.TVALID : Fld := ⟨0x1410, 0, 0⟩
def TIM.OFS.OFS : Fld := ⟨0x1411, 95, 0⟩
def TIM.RATE.RATE : Fld := ⟨0x1412, 31, 0⟩
def TIM.PSTAT.OFFSET : Fld := ⟨0x1413, 63, 32⟩
def TIM.PSTAT.MPD : Fld := ⟨0x1413, 31, 8⟩
def TIM.PSTAT.PSTATE : Fld := ⟨0x1413, 3, 0⟩
def TIM.PARENT.GMID : Fld := ⟨0x1414, 127, 64⟩
def TIM.PARENT.GMPRIO1 : Fld := ⟨0x1414, 63, 56⟩
def TIM.PARENT.GMCLASS : Fld := ⟨0x1414, 55, 48⟩
def TIM.PARENT.GMACC : Fld := ⟨0x1414, 47, 40⟩
def TIM.PARENT.STEPS : Fld := ⟨0x1414, 39, 24⟩
def TIM.PARENT.UTCOFS : Fld := ⟨0x1414, 23, 8⟩
def TIM.PARENT.TRACE : Fld := ⟨0x1414, 2, 2⟩
def TIM.PARENT.LEAP61 : Fld := ⟨0x1414, 1, 1⟩
def TIM.PARENT.LEAP59 : Fld := ⟨0x1414, 0, 0⟩
def TIM.TSV.NUM : Fld := ⟨0x1415, 95, 80⟩
def TIM.TSV.RISE : Fld := ⟨0x1415, 79, 79⟩
def TIM.TSV.TAP : Fld := ⟨0x1415, 69, 64⟩
def TIM.TSV.TIME : Fld := ⟨0x1415, 63, 0⟩
def TIM.EVT.TSIOVR : Fld := ⟨0x1416, 5, 5⟩
def TIM.EVT.SYNCERR : Fld := ⟨0x1416, 4, 4⟩
def TIM.EVT.HOLDIN : Fld := ⟨0x1416, 3, 3⟩
def TIM.EVT.STEP : Fld := ⟨0x1416, 2, 2⟩
def TIM.EVT.DLLUL : Fld := ⟨0x1416, 1, 1⟩
def TIM.EVT.CLKSW : Fld := ⟨0x1416, 0, 0⟩
def TIM.CNT.TSIOVR : Fld := ⟨0x1417, 63, 48⟩
def TIM.CNT.PDROP : Fld := ⟨0x1417, 47, 32⟩
def TIM.CNT.PPSBAD : Fld := ⟨0x1417, 31, 16⟩
def TIM.CNT.HOLD : Fld := ⟨0x1417, 15, 8⟩
def TIM.CNT.CLKSW : Fld := ⟨0x1417, 7, 0⟩

/-! NET: 16_ethernet_and_prp.md -/
def NET.CFG.MODE : Fld := ⟨0x1800, 31, 31⟩
def NET.CFG.LIFE : Fld := ⟨0x1800, 30, 24⟩
def NET.CFG.LANTO : Fld := ⟨0x1800, 23, 16⟩
def NET.CFG.FORGET : Fld := ⟨0x1800, 15, 0⟩
def NET.MAC.ADDR : Fld := ⟨0x1801, 47, 0⟩
def NET.IP.VID : Fld := ⟨0x1802, 63, 52⟩
def NET.IP.PCP : Fld := ⟨0x1802, 51, 49⟩
def NET.IP.VTAG : Fld := ⟨0x1802, 48, 48⟩
def NET.IP.TTL : Fld := ⟨0x1802, 47, 40⟩
def NET.IP.DSCP : Fld := ⟨0x1802, 39, 34⟩
def NET.IP.IPA : Fld := ⟨0x1802, 31, 0⟩
def NET.DMAC.ADDR : Fld := ⟨0x1803, 47, 0⟩
def NET.PORT.EN : Fld := ⟨0x1804, 31, 31⟩
def NET.PORT.SPEED : Fld := ⟨0x1804, 30, 29⟩
def NET.PORT.TXDLY : Fld := ⟨0x1804, 28, 28⟩
def NET.PORT.RXDLY : Fld := ⟨0x1804, 27, 27⟩
def NET.PORT.PHYAD : Fld := ⟨0x1804, 26, 22⟩
def NET.SAFE.WIN : Fld := ⟨0x1805, 79, 64⟩
def NET.SAFE.SMC : Fld := ⟨0x1805, 63, 16⟩
def NET.SAFE.ETYPE : Fld := ⟨0x1805, 15, 0⟩
def NET.MDIO.GO : Fld := ⟨0x1806, 31, 31⟩
def NET.MDIO.BUSY : Fld := ⟨0x1806, 30, 30⟩
def NET.MDIO.OP : Fld := ⟨0x1806, 29, 29⟩
def NET.MDIO.PHYAD : Fld := ⟨0x1806, 28, 24⟩
def NET.MDIO.REG : Fld := ⟨0x1806, 20, 16⟩
def NET.MDIO.DATA : Fld := ⟨0x1806, 15, 0⟩
def NET.PSTAT.SILENT : Fld := ⟨0x1810, 1, 1⟩
def NET.PSTAT.LINK : Fld := ⟨0x1810, 0, 0⟩
def NET.PCNT.RXOK : Fld := ⟨0x1811, 127, 96⟩
def NET.PCNT.TXOK : Fld := ⟨0x1811, 95, 64⟩
def NET.PCNT.RXCRC : Fld := ⟨0x1811, 63, 48⟩
def NET.PCNT.RXDROP : Fld := ⟨0x1811, 47, 32⟩
def NET.PCNT.TXDROP : Fld := ⟨0x1811, 31, 16⟩
def NET.PCNT.RXOVR : Fld := ⟨0x1811, 15, 8⟩
def NET.PCNT.WRONGLAN : Fld := ⟨0x1811, 7, 0⟩
def NET.PRPCNT.DUPL : Fld := ⟨0x1812, 127, 96⟩
def NET.PRPCNT.UNIQA : Fld := ⟨0x1812, 95, 80⟩
def NET.PRPCNT.UNIQB : Fld := ⟨0x1812, 79, 64⟩
def NET.PRPCNT.REPEAT : Fld := ⟨0x1812, 63, 48⟩
def NET.PRPCNT.TBLFULL : Fld := ⟨0x1812, 47, 40⟩
def NET.PRPCNT.SUPRX : Fld := ⟨0x1812, 39, 32⟩
def NET.PRPCNT.SSINGLE : Fld := ⟨0x1812, 31, 16⟩
def NET.PRPCNT.SMISM : Fld := ⟨0x1812, 15, 8⟩
def NET.PRPCNT.SLATE : Fld := ⟨0x1812, 7, 0⟩
def NET.EVT.SMISM : Fld := ⟨0x1813, 2, 2⟩
def NET.EVT.LANSIL : Fld := ⟨0x1813, 1, 1⟩
def NET.EVT.LINK : Fld := ⟨0x1813, 0, 0⟩

/-! SIO: 17_safety_io.md -/
def SIO.SICFG.MODE : Fld := ⟨0x1C00, 31, 30⟩
def SIO.SICFG.FILT : Fld := ⟨0x1C00, 29, 26⟩
def SIO.SICFG.TDISC : Fld := ⟨0x1C00, 25, 17⟩
def SIO.SICFG.SDO : Fld := ⟨0x1C00, 16, 13⟩
def SIO.SICFG.EVEN : Fld := ⟨0x1C00, 12, 12⟩
def SIO.SDOCFG.EN : Fld := ⟨0x1C01, 31, 31⟩
def SIO.SDOCFG.RESTART : Fld := ⟨0x1C01, 30, 30⟩
def SIO.SDOCFG.TEN : Fld := ⟨0x1C01, 29, 29⟩
def SIO.SDOCFG.TPER : Fld := ⟨0x1C01, 28, 23⟩
def SIO.SDOCFG.TPW : Fld := ⟨0x1C01, 22, 18⟩
def SIO.SDOCFG.RBT : Fld := ⟨0x1C01, 17, 10⟩
def SIO.FCFG.TXEN : Fld := ⟨0x1C02, 31, 31⟩
def SIO.FCFG.NODE : Fld := ⟨0x1C02, 30, 23⟩
def SIO.FCFG.FPER : Fld := ⟨0x1C02, 22, 16⟩
def SIO.RXCFG.EN : Fld := ⟨0x1C03, 31, 31⟩
def SIO.RXCFG.NODE : Fld := ⟨0x1C03, 30, 23⟩
def SIO.RXCFG.REQBOTH : Fld := ⟨0x1C03, 22, 22⟩
def SIO.RXCFG.TRIPM : Fld := ⟨0x1C03, 21, 21⟩
def SIO.RXCFG.RXTO : Fld := ⟨0x1C03, 20, 12⟩
def SIO.RXCFG.SIMASK : Fld := ⟨0x1C03, 11, 4⟩
def SIO.RXCFG.SDO : Fld := ⟨0x1C03, 3, 0⟩
def SIO.SDOCTL.ACK : Fld := ⟨0x1C04, 1, 1⟩
def SIO.SDOCTL.ON : Fld := ⟨0x1C04, 0, 0⟩
def SIO.SICTL.ACK : Fld := ⟨0x1C05, 7, 0⟩
def SIO.SISTAT.DEMAND : Fld := ⟨0x1C10, 3, 3⟩
def SIO.SISTAT.FAULT : Fld := ⟨0x1C10, 2, 2⟩
def SIO.SISTAT.A : Fld := ⟨0x1C10, 1, 1⟩
def SIO.SISTAT.B : Fld := ⟨0x1C10, 0, 0⟩
def SIO.SDOSTAT.PSTATE : Fld := ⟨0x1C11, 31, 28⟩
def SIO.SDOSTAT.FCAUSE : Fld := ⟨0x1C11, 27, 24⟩
def SIO.SDOSTAT.TRESA : Fld := ⟨0x1C11, 23, 21⟩
def SIO.SDOSTAT.TRESB : Fld := ⟨0x1C11, 20, 18⟩
def SIO.SDOSTAT.NOTRUN : Fld := ⟨0x1C11, 17, 17⟩
def SIO.SDOSTAT.FAULT : Fld := ⟨0x1C11, 16, 16⟩
def SIO.SDOSTAT.HOST : Fld := ⟨0x1C11, 15, 15⟩
def SIO.SDOSTAT.TRIP : Fld := ⟨0x1C11, 14, 14⟩
def SIO.SDOSTAT.SI : Fld := ⟨0x1C11, 13, 13⟩
def SIO.SDOSTAT.REMOTE : Fld := ⟨0x1C11, 12, 12⟩
def SIO.SDOSTAT.FLT : Fld := ⟨0x1C11, 11, 11⟩
def SIO.SDOSTAT.FA : Fld := ⟨0x1C11, 10, 10⟩
def SIO.SDOSTAT.FB : Fld := ⟨0x1C11, 9, 9⟩
def SIO.RXSTAT.FCNT : Fld := ⟨0x1C12, 31, 16⟩
def SIO.RXSTAT.SIDEM : Fld := ⟨0x1C12, 15, 8⟩
def SIO.RXSTAT.LIVE : Fld := ⟨0x1C12, 7, 7⟩
def SIO.RXSTAT.BOTH : Fld := ⟨0x1C12, 6, 6⟩
def SIO.EVT.RXBAD : Fld := ⟨0x1C13, 5, 5⟩
def SIO.EVT.REMTO : Fld := ⟨0x1C13, 4, 4⟩
def SIO.EVT.TFAIL : Fld := ⟨0x1C13, 3, 3⟩
def SIO.EVT.SDOF : Fld := ⟨0x1C13, 2, 2⟩
def SIO.EVT.DISC : Fld := ⟨0x1C13, 1, 1⟩
def SIO.EVT.SIDEM : Fld := ⟨0x1C13, 0, 0⟩
def SIO.CNT.TESTS : Fld := ⟨0x1C14, 63, 48⟩
def SIO.CNT.RXBAD : Fld := ⟨0x1C14, 47, 32⟩
def SIO.CNT.REMTO : Fld := ⟨0x1C14, 31, 24⟩
def SIO.CNT.TFAIL : Fld := ⟨0x1C14, 23, 16⟩
def SIO.CNT.DISCARD : Fld := ⟨0x1C14, 15, 8⟩
def SIO.CNT.DISC : Fld := ⟨0x1C14, 7, 0⟩

/-! LNK: 04_submodule_links.md -/
def LNK.CFG.DMAX : Fld := ⟨0x2000, 30, 16⟩
def LNK.CFG.LOLT : Fld := ⟨0x2000, 15, 8⟩
def LNK.CFG.ADMTO : Fld := ⟨0x2000, 7, 2⟩
def LNK.DRV.DTYPE : Fld := ⟨0x2001, 31, 24⟩
def LNK.DRV.TTURN : Fld := ⟨0x2001, 23, 12⟩
def LNK.DRV.TDRV : Fld := ⟨0x2001, 11, 0⟩
def LNK.VPL.VMIN : Fld := ⟨0x2002, 31, 20⟩
def LNK.VPL.VMAX : Fld := ⟨0x2002, 19, 8⟩
def LNK.VPL.VDEV : Fld := ⟨0x2002, 7, 0⟩
def LNK.LCFG.IDLOCK : Fld := ⟨0x2010, 1, 1⟩
def LNK.LCFG.AUTO : Fld := ⟨0x2010, 0, 0⟩
def LNK.STATE.AUTOFAIL : Fld := ⟨0x2011, 27, 24⟩
def LNK.STATE.CAUSE : Fld := ⟨0x2011, 23, 16⟩
def LNK.STATE.ARM : Fld := ⟨0x2011, 15, 8⟩
def LNK.STATE.STEP : Fld := ⟨0x2011, 7, 4⟩
def LNK.STATE.STATE : Fld := ⟨0x2011, 3, 0⟩
def LNK.STAT.LOCK : Fld := ⟨0x2012, 15, 15⟩
def LNK.STAT.BYPST : Fld := ⟨0x2012, 14, 14⟩
def LNK.STAT.TRIPHOLD : Fld := ⟨0x2012, 13, 13⟩
def LNK.STAT.ADMFAIL : Fld := ⟨0x2012, 8, 8⟩
def LNK.STAT.ADMDONE : Fld := ⟨0x2012, 7, 7⟩
def LNK.STAT.RETIRED : Fld := ⟨0x2012, 6, 6⟩
def LNK.STAT.DSTEP : Fld := ⟨0x2012, 5, 5⟩
def LNK.STAT.STALE : Fld := ⟨0x2012, 4, 4⟩
def LNK.STAT.DISC : Fld := ⟨0x2012, 3, 3⟩
def LNK.STAT.LOL : Fld := ⟨0x2012, 2, 2⟩
def LNK.STAT.CODE : Fld := ⟨0x2012, 1, 1⟩
def LNK.STAT.CRC : Fld := ⟨0x2012, 0, 0⟩
def LNK.UPL.TEMP : Fld := ⟨0x2013, 63, 56⟩
def LNK.UPL.SEQ : Fld := ⟨0x2013, 55, 48⟩
def LNK.UPL.ECHO : Fld := ⟨0x2013, 47, 32⟩
def LNK.UPL.VCAP : Fld := ⟨0x2013, 31, 16⟩
def LNK.UPL.STAT : Fld := ⟨0x2013, 15, 0⟩
def LNK.RTT.DLY : Fld := ⟨0x2014, 31, 16⟩
def LNK.RTT.LAST : Fld := ⟨0x2014, 15, 0⟩
def LNK.DRVID.DTYPE : Fld := ⟨0x2015, 63, 56⟩
def LNK.DRVID.DFW : Fld := ⟨0x2015, 55, 48⟩
def LNK.DRVID.DRVID : Fld := ⟨0x2015, 47, 0⟩
def LNK.CNT.CRC : Fld := ⟨0x2016, 63, 48⟩
def LNK.CNT.CODE : Fld := ⟨0x2016, 47, 32⟩
def LNK.CNT.LOL : Fld := ⟨0x2016, 31, 24⟩
def LNK.CNT.STALE : Fld := ⟨0x2016, 23, 16⟩
def LNK.CNT.DISC : Fld := ⟨0x2016, 15, 8⟩
def LNK.CNT.ADMFAIL : Fld := ⟨0x2016, 7, 0⟩

/-! ARM: 05_arm_scheduler.md -/
def ARM.CFG.MODE : Fld := ⟨0x2400, 31, 30⟩
def ARM.CFG.CRET : Fld := ⟨0x2400, 29, 29⟩
def ARM.CFG.LMAX : Fld := ⟨0x2400, 28, 22⟩
def ARM.CFG.TREF : Fld := ⟨0x2400, 21, 10⟩
def ARM.CFG.WARM : Fld := ⟨0x2400, 9, 6⟩
def ARM.XOFF.XOFF : Fld := ⟨0x2401, 19, 0⟩
def ARM.BAND.RB : Fld := ⟨0x2402, 15, 0⟩
def ARM.IDB.IDB : Fld := ⟨0x2403, 31, 0⟩
def ARM.VRET.VRHI : Fld := ⟨0x2404, 31, 16⟩
def ARM.VRET.VRLO : Fld := ⟨0x2404, 15, 0⟩
def ARM.STAT.NMAP : Fld := ⟨0x2410, 31, 25⟩
def ARM.STAT.LREQ : Fld := ⟨0x2410, 24, 18⟩
def ARM.STAT.LDEL : Fld := ⟨0x2410, 17, 11⟩
def ARM.STAT.NEDGE : Fld := ⟨0x2410, 10, 4⟩
def ARM.STAT.DIR : Fld := ⟨0x2410, 3, 2⟩
def ARM.STAT.AUTO : Fld := ⟨0x2410, 1, 1⟩
def ARM.ACCT.SPARE : Fld := ⟨0x2411, 31, 24⟩
def ARM.ACCT.NACT : Fld := ⟨0x2411, 23, 17⟩
def ARM.ACCT.NELIG : Fld := ⟨0x2411, 16, 10⟩
def ARM.ACCT.NSTRV : Fld := ⟨0x2411, 9, 3⟩
def ARM.EVT.LBAD : Fld := ⟨0x2412, 7, 7⟩
def ARM.EVT.LCLAMP : Fld := ⟨0x2412, 6, 6⟩
def ARM.EVT.RPT : Fld := ⟨0x2412, 5, 5⟩
def ARM.EVT.CRET : Fld := ⟨0x2412, 4, 4⟩
def ARM.EVT.RMISS : Fld := ⟨0x2412, 3, 3⟩
def ARM.EVT.STARVE : Fld := ⟨0x2412, 2, 2⟩
def ARM.EVT.SHORT : Fld := ⟨0x2412, 1, 1⟩
def ARM.EVT.NOSPARE : Fld := ⟨0x2412, 0, 0⟩
def ARM.CNT.EDGES : Fld := ⟨0x2413, 63, 32⟩
def ARM.CNT.SHORT : Fld := ⟨0x2413, 31, 16⟩
def ARM.CNT.RMISS : Fld := ⟨0x2413, 15, 8⟩
def ARM.CNT.STARVE : Fld := ⟨0x2413, 7, 0⟩
def ARM.LST.CMD : Fld := ⟨0x2420, 31, 30⟩
def ARM.LST.ELIG : Fld := ⟨0x2420, 29, 29⟩
def ARM.LST.RDUE : Fld := ⟨0x2420, 28, 28⟩
def ARM.LST.STRV : Fld := ⟨0x2420, 27, 27⟩
def ARM.LST.SKEPT : Fld := ⟨0x2420, 26, 26⟩
def ARM.LST.WARM : Fld := ⟨0x2420, 25, 25⟩
def ARM.LST.RPTV : Fld := ⟨0x2420, 24, 24⟩
def ARM.LST.RPTE : Fld := ⟨0x2420, 23, 23⟩
def ARM.LST.POS : Fld := ⟨0x2420, 22, 16⟩
def ARM.LST.AGE : Fld := ⟨0x2420, 15, 0⟩

/-! MOD: 06_modulation_and_direct_ports.md -/
def MOD.ACFG.MINPW : Fld := ⟨0x2800, 51, 32⟩
def MOD.ACFG.PER : Fld := ⟨0x2800, 31, 0⟩
def MOD.LPH.PH : Fld := ⟨0x2801, 31, 0⟩
def MOD.CMT.SRC : Fld := ⟨0x2802, 31, 31⟩
def MOD.CMT.MB2 : Fld := ⟨0x2802, 30, 24⟩
def MOD.CMT.MB1 : Fld := ⟨0x2802, 23, 17⟩
def MOD.CMT.MB0 : Fld := ⟨0x2802, 16, 10⟩
def MOD.CMT.CODE : Fld := ⟨0x2802, 2, 0⟩
def MOD.MASK.OVR : Fld := ⟨0x2803, 23, 0⟩
def MOD.TRG.EN : Fld := ⟨0x2804, 31, 31⟩
def MOD.TRG.KIND : Fld := ⟨0x2804, 30, 29⟩
def MOD.TRG.SRC : Fld := ⟨0x2804, 28, 21⟩
def MOD.TRG.EVT : Fld := ⟨0x2804, 20, 19⟩
def MOD.TRG.PRESC : Fld := ⟨0x2804, 18, 15⟩
def MOD.TRG.PHASE : Fld := ⟨0x2804, 14, 11⟩
def MOD.TRG.DELAY : Fld := ⟨0x2804, 10, 0⟩
def MOD.LCMP.CMPB : Fld := ⟨0x2810, 63, 32⟩
def MOD.LCMP.CMPA : Fld := ⟨0x2810, 31, 0⟩
def MOD.LST.TRK : Fld := ⟨0x2811, 31, 30⟩
def MOD.LST.EDGE : Fld := ⟨0x2811, 29, 29⟩
def MOD.LST.CARRY : Fld := ⟨0x2811, 28, 28⟩
def MOD.LST.X : Fld := ⟨0x2811, 19, 0⟩
def MOD.EVT.CMPBAD : Fld := ⟨0x2812, 3, 3⟩
def MOD.EVT.CARRY : Fld := ⟨0x2812, 2, 2⟩
def MOD.EVT.CLAMP : Fld := ⟨0x2812, 1, 1⟩
def MOD.EVT.SUPPR : Fld := ⟨0x2812, 0, 0⟩
def MOD.CNT.SUPPR : Fld := ⟨0x2813, 63, 32⟩
def MOD.CNT.CLAMP : Fld := ⟨0x2813, 31, 16⟩
def MOD.CNT.CARRY : Fld := ⟨0x2813, 15, 0⟩

/-! DHB: 06_modulation_and_direct_ports.md -/
def DHB.CFG.DEAD : Fld := ⟨0x2C00, 63, 48⟩
def DHB.CFG.MINPW : Fld := ⟨0x2C00, 47, 32⟩
def DHB.CFG.BREF : Fld := ⟨0x2C00, 31, 16⟩
def DHB.CFG.MODE : Fld := ⟨0x2C00, 15, 14⟩
def DHB.CFG.BREFEN : Fld := ⟨0x2C00, 13, 13⟩
def DHB.CFG.CSRC : Fld := ⟨0x2C00, 12, 12⟩
def DHB.CFG.HS : Fld := ⟨0x2C00, 11, 7⟩
def DHB.CAR.PH : Fld := ⟨0x2C01, 63, 32⟩
def DHB.CAR.PER : Fld := ⟨0x2C01, 31, 0⟩
def DHB.CMP.CMPB : Fld := ⟨0x2C02, 63, 32⟩
def DHB.CMP.CMPA : Fld := ⟨0x2C02, 31, 0⟩
def DHB.FORCE.EN : Fld := ⟨0x2C03, 2, 2⟩
def DHB.FORCE.FU : Fld := ⟨0x2C03, 1, 1⟩
def DHB.FORCE.FL : Fld := ⟨0x2C03, 0, 0⟩
def DHB.CTL.RESUME : Fld := ⟨0x2C04, 0, 0⟩
def DHB.STAT.PSTATE : Fld := ⟨0x2C10, 31, 28⟩
def DHB.STAT.FCAUSE : Fld := ⟨0x2C10, 27, 24⟩
def DHB.STAT.GATEW : Fld := ⟨0x2C10, 5, 5⟩
def DHB.STAT.TRK : Fld := ⟨0x2C10, 4, 4⟩
def DHB.STAT.UON : Fld := ⟨0x2C10, 3, 3⟩
def DHB.STAT.LON : Fld := ⟨0x2C10, 2, 2⟩
def DHB.STAT.UAK : Fld := ⟨0x2C10, 1, 1⟩
def DHB.STAT.LAK : Fld := ⟨0x2C10, 0, 0⟩
def DHB.EVT.FAULT : Fld := ⟨0x2C11, 6, 6⟩
def DHB.EVT.TRIPDT : Fld := ⟨0x2C11, 5, 5⟩
def DHB.EVT.BREF : Fld := ⟨0x2C11, 4, 4⟩
def DHB.EVT.CANCEL : Fld := ⟨0x2C11, 3, 3⟩
def DHB.EVT.CMPBAD : Fld := ⟨0x2C11, 2, 2⟩
def DHB.EVT.CLAMP : Fld := ⟨0x2C11, 1, 1⟩
def DHB.EVT.SUPPR : Fld := ⟨0x2C11, 0, 0⟩
def DHB.CNT.SUPPR : Fld := ⟨0x2C12, 63, 32⟩
def DHB.CNT.BREF : Fld := ⟨0x2C12, 31, 16⟩
def DHB.CNT.CLAMP : Fld := ⟨0x2C12, 15, 8⟩
def DHB.CNT.FAULT : Fld := ⟨0x2C12, 7, 0⟩

/-! GPR: 07_gate_profiles.md -/
def GPR.IBIN.ITH3 : Fld := ⟨0x3000, 47, 32⟩
def GPR.IBIN.ITH2 : Fld := ⟨0x3000, 31, 16⟩
def GPR.IBIN.ITH1 : Fld := ⟨0x3000, 15, 0⟩
def GPR.TBIN.THYS : Fld := ⟨0x3001, 31, 28⟩
def GPR.TBIN.TTH3 : Fld := ⟨0x3001, 23, 16⟩
def GPR.TBIN.TTH2 : Fld := ⟨0x3001, 15, 8⟩
def GPR.TBIN.TTH1 : Fld := ⟨0x3001, 7, 0⟩
def GPR.PTAB.CINS : Fld := ⟨0x3002, 31, 16⟩
def GPR.PTAB.CBYP : Fld := ⟨0x3002, 15, 0⟩
def GPR.DCFG.OTN : Fld := ⟨0x3003, 7, 4⟩
def GPR.DCFG.OTR : Fld := ⟨0x3003, 2, 2⟩
def GPR.DCFG.SBR : Fld := ⟨0x3003, 1, 1⟩
def GPR.DCFG.DSR : Fld := ⟨0x3003, 0, 0⟩
def GPR.PPROF.LHOLDS : Fld := ⟨0x3004, 57, 57⟩
def GPR.PPROF.LOFFF : Fld := ⟨0x3004, 56, 56⟩
def GPR.PPROF.LTSTR : Fld := ⟨0x3004, 55, 44⟩
def GPR.PPROF.LTWK : Fld := ⟨0x3004, 43, 28⟩
def GPR.PPROF.UHOLDS : Fld := ⟨0x3004, 25, 25⟩
def GPR.PPROF.UOFFF : Fld := ⟨0x3004, 24, 24⟩
def GPR.PPROF.UTSTR : Fld := ⟨0x3004, 23, 12⟩
def GPR.PPROF.UTWK : Fld := ⟨0x3004, 11, 0⟩
def GPR.ODG.REQ : Fld := ⟨0x3005, 0, 0⟩
def GPR.LST.CODE : Fld := ⟨0x3010, 31, 16⟩
def GPR.LST.ENTRY : Fld := ⟨0x3010, 12, 8⟩
def GPR.LST.IB : Fld := ⟨0x3010, 7, 5⟩
def GPR.LST.TB : Fld := ⟨0x3010, 1, 0⟩
def GPR.LDIAG.ODRES : Fld := ⟨0x3011, 18, 16⟩
def GPR.LDIAG.ROT : Fld := ⟨0x3011, 2, 2⟩
def GPR.LDIAG.RSB : Fld := ⟨0x3011, 1, 1⟩
def GPR.LDIAG.RDS : Fld := ⟨0x3011, 0, 0⟩
def GPR.EVT.ODFAIL : Fld := ⟨0x3012, 3, 3⟩
def GPR.EVT.DRPT : Fld := ⟨0x3012, 2, 2⟩
def GPR.EVT.DFLT : Fld := ⟨0x3012, 1, 1⟩
def GPR.EVT.IBAD : Fld := ⟨0x3012, 0, 0⟩
def GPR.CNT.DESAT : Fld := ⟨0x3013, 63, 48⟩
def GPR.CNT.SELFB : Fld := ⟨0x3013, 47, 32⟩
def GPR.CNT.OTEMP : Fld := ⟨0x3013, 31, 16⟩
def GPR.CNT.ODFAIL : Fld := ⟨0x3013, 15, 0⟩

/-! MON: 08_window_monitors_and_trips.md -/
def MON.CFG.MODE : Fld := ⟨0x3400, 31, 29⟩
def MON.CFG.HYST : Fld := ⟨0x3400, 28, 27⟩
def MON.CFG.FAILTRIP : Fld := ⟨0x3400, 26, 26⟩
def MON.CFG.CODE : Fld := ⟨0x3400, 9, 0⟩
def MON.ROUTE.LEN : Fld := ⟨0x3401, 31, 31⟩
def MON.ROUTE.SDO : Fld := ⟨0x3401, 21, 18⟩
def MON.ROUTE.DHB : Fld := ⟨0x3401, 17, 6⟩
def MON.ROUTE.ARM : Fld := ⟨0x3401, 5, 0⟩
def MON.TST.RBTOL : Fld := ⟨0x3402, 31, 24⟩
def MON.TST.GUARD : Fld := ⟨0x3402, 23, 16⟩
def MON.TST.MARGIN : Fld := ⟨0x3402, 15, 8⟩
def MON.TST.TSTEN : Fld := ⟨0x3402, 0, 0⟩
def MON.DEC.PIN : Fld := ⟨0x3410, 103, 96⟩
def MON.DEC.CMP : Fld := ⟨0x3410, 95, 0⟩
def MON.LATCH.LATCH : Fld := ⟨0x3411, 103, 0⟩
def MON.HOLD.HELD : Fld := ⟨0x3412, 21, 0⟩
def MON.FIRST.SRC : Fld := ⟨0x3413, 95, 88⟩
def MON.FIRST.TAP : Fld := ⟨0x3413, 69, 64⟩
def MON.FIRST.TIME : Fld := ⟨0x3413, 63, 0⟩
def MON.STAT.ACTIVE : Fld := ⟨0x3414, 7, 7⟩
def MON.STAT.SETTLE : Fld := ⟨0x3414, 6, 6⟩
def MON.STAT.INBAND : Fld := ⟨0x3414, 5, 5⟩
def MON.STAT.TESTING : Fld := ⟨0x3414, 4, 4⟩
def MON.STAT.TRES : Fld := ⟨0x3414, 3, 1⟩
def MON.STAT.RBFAIL : Fld := ⟨0x3414, 0, 0⟩
def MON.RB.EXP : Fld := ⟨0x3415, 31, 16⟩
def MON.RB.MEAS : Fld := ⟨0x3415, 15, 0⟩
def MON.EVT.TEXT : Fld := ⟨0x3416, 5, 5⟩
def MON.EVT.TCOMP : Fld := ⟨0x3416, 4, 4⟩
def MON.EVT.RBFAIL : Fld := ⟨0x3416, 3, 3⟩
def MON.EVT.TFAIL : Fld := ⟨0x3416, 2, 2⟩
def MON.EVT.INBAND : Fld := ⟨0x3416, 1, 1⟩
def MON.EVT.CLRREF : Fld := ⟨0x3416, 0, 0⟩
def MON.CNT.ACT : Fld := ⟨0x3417, 63, 48⟩
def MON.CNT.LATCH : Fld := ⟨0x3417, 47, 32⟩
def MON.CNT.TPASS : Fld := ⟨0x3417, 31, 16⟩
def MON.CNT.TFAIL : Fld := ⟨0x3417, 15, 8⟩
def MON.CNT.RBFAIL : Fld := ⟨0x3417, 7, 0⟩

/-! ADC: 09_conversion.md -/
def ADC.GCFG.ILV : Fld := ⟨0x3800, 31, 30⟩
def ADC.GCFG.ILVIN : Fld := ⟨0x3800, 27, 24⟩
def ADC.GCFG.CALEN : Fld := ⟨0x3800, 23, 23⟩
def ADC.GCFG.SHTOL : Fld := ⟨0x3800, 7, 0⟩
def ADC.SLOT.MODE : Fld := ⟨0x3801, 31, 30⟩
def ADC.SLOT.CH : Fld := ⟨0x3801, 29, 24⟩
def ADC.SLOT.RINGEN : Fld := ⟨0x3801, 23, 23⟩
def ADC.SLOT.RING : Fld := ⟨0x3801, 22, 18⟩
def ADC.SLOT.PHASE : Fld := ⟨0x3801, 12, 0⟩
def ADC.SEQ.EN : Fld := ⟨0x3802, 31, 31⟩
def ADC.SEQ.TRG : Fld := ⟨0x3802, 30, 28⟩
def ADC.SEQ.SLOT : Fld := ⟨0x3802, 27, 25⟩
def ADC.SEQ.ROUND : Fld := ⟨0x3802, 24, 22⟩
def ADC.SEQ.CH : Fld := ⟨0x3802, 21, 16⟩
def ADC.QCFG.EN : Fld := ⟨0x3803, 31, 31⟩
def ADC.QCFG.SRC : Fld := ⟨0x3803, 30, 26⟩
def ADC.QCFG.ENG : Fld := ⟨0x3803, 25, 25⟩
def ADC.QCFG.RINGEN : Fld := ⟨0x3803, 24, 24⟩
def ADC.QCFG.RING : Fld := ⟨0x3803, 23, 19⟩
def ADC.DEC.EN : Fld := ⟨0x3804, 31, 31⟩
def ADC.DEC.G : Fld := ⟨0x3804, 30, 29⟩
def ADC.DEC.SLOT : Fld := ⟨0x3804, 28, 26⟩
def ADC.QSTART.GO : Fld := ⟨0x3805, 15, 0⟩
def ADC.GSTAT.READY : Fld := ⟨0x3810, 8, 8⟩
def ADC.GSTAT.RUNNING : Fld := ⟨0x3810, 7, 7⟩
def ADC.GSTAT.RUNQ : Fld := ⟨0x3810, 6, 5⟩
def ADC.GSTAT.PEND : Fld := ⟨0x3810, 4, 4⟩
def ADC.GSTAT.PENDQ : Fld := ⟨0x3810, 3, 2⟩
def ADC.GSTAT.NFAIL : Fld := ⟨0x3810, 1, 0⟩
def ADC.MAP.ASSIGN : Fld := ⟨0x3811, 35, 0⟩
def ADC.CAL.GERR : Fld := ⟨0x3812, 31, 16⟩
def ADC.CAL.OERR : Fld := ⟨0x3812, 15, 4⟩
def ADC.CAL.AGE : Fld := ⟨0x3812, 3, 0⟩
def ADC.RES.VALID : Fld := ⟨0x3813, 31, 31⟩
def ADC.RES.CLIP : Fld := ⟨0x3813, 30, 30⟩
def ADC.RES.SWAP : Fld := ⟨0x3813, 29, 29⟩
def ADC.RES.CH : Fld := ⟨0x3813, 28, 23⟩
def ADC.RES.SLOT : Fld := ⟨0x3813, 22, 20⟩
def ADC.RES.ROUND : Fld := ⟨0x3813, 19, 17⟩
def ADC.RES.VALUE : Fld := ⟨0x3813, 15, 0⟩
def ADC.EVT.NOCAL : Fld := ⟨0x3814, 4, 4⟩
def ADC.EVT.SLFAIL : Fld := ⟨0x3814, 3, 3⟩
def ADC.EVT.SHDIFF : Fld := ⟨0x3814, 2, 2⟩
def ADC.EVT.CLIP : Fld := ⟨0x3814, 1, 1⟩
def ADC.EVT.OVR : Fld := ⟨0x3814, 0, 0⟩
def ADC.CNT.LOST : Fld := ⟨0x3815, 63, 48⟩
def ADC.CNT.SWAPS : Fld := ⟨0x3815, 47, 32⟩
def ADC.CNT.RUNS : Fld := ⟨0x3815, 31, 0⟩

/-! PGM: 10_pages_and_capture.md -/
def PGM.CFG.RETEN : Fld := ⟨0x3C00, 0, 0⟩
def PGM.RCFG.EN : Fld := ⟨0x3C01, 31, 31⟩
def PGM.RCFG.MODE : Fld := ⟨0x3C01, 30, 30⟩
def PGM.RCFG.PRIO : Fld := ⟨0x3C01, 29, 28⟩
def PGM.RCFG.MAXP : Fld := ⟨0x3C01, 21, 11⟩
def PGM.RCFG.MINP : Fld := ⟨0x3C01, 10, 0⟩
def PGM.HTRIG.GO : Fld := ⟨0x3C02, 31, 0⟩
def PGM.POOL.FREE : Fld := ⟨0x3C10, 21, 11⟩
def PGM.POOL.RETIRED : Fld := ⟨0x3C10, 10, 0⟩
def PGM.CAP.TIME : Fld := ⟨0x3C11, 127, 64⟩
def PGM.CAP.TAP : Fld := ⟨0x3C11, 63, 58⟩
def PGM.CAP.TPAGE : Fld := ⟨0x3C11, 55, 44⟩
def PGM.CAP.FIRST : Fld := ⟨0x3C11, 43, 32⟩
def PGM.CAP.SHORT : Fld := ⟨0x3C11, 31, 31⟩
def PGM.CAP.TRIG : Fld := ⟨0x3C11, 30, 24⟩
def PGM.CAP.POST : Fld := ⟨0x3C11, 23, 16⟩
def PGM.CAP.PRE : Fld := ⟨0x3C11, 15, 8⟩
def PGM.CAP.STATE : Fld := ⟨0x3C11, 3, 0⟩
def PGM.RSTAT.NPAGE : Fld := ⟨0x3C12, 21, 11⟩
def PGM.RSTAT.NFROZ : Fld := ⟨0x3C12, 10, 0⟩
def PGM.RCNT.LOST : Fld := ⟨0x3C13, 63, 32⟩
def PGM.RCNT.HELD : Fld := ⟨0x3C13, 31, 24⟩
def PGM.RCNT.TRIGX : Fld := ⟨0x3C13, 23, 16⟩
def PGM.RCNT.THEFT : Fld := ⟨0x3C13, 15, 8⟩
def PGM.RCNT.STOLEN : Fld := ⟨0x3C13, 7, 0⟩
def PGM.ECC.CE : Fld := ⟨0x3C14, 63, 40⟩
def PGM.ECC.UE : Fld := ⟨0x3C14, 39, 32⟩
def PGM.ECC.LASTUE : Fld := ⟨0x3C14, 31, 31⟩
def PGM.ECC.SYN : Fld := ⟨0x3C14, 30, 23⟩
def PGM.ECC.PAGE : Fld := ⟨0x3C14, 22, 11⟩
def PGM.ECC.WORD : Fld := ⟨0x3C14, 10, 2⟩
def PGM.EVT.RESVCUT : Fld := ⟨0x3C15, 4, 4⟩
def PGM.EVT.UE : Fld := ⟨0x3C15, 3, 3⟩
def PGM.EVT.CE : Fld := ⟨0x3C15, 2, 2⟩
def PGM.EVT.FROZEN : Fld := ⟨0x3C15, 1, 1⟩
def PGM.EVT.LOST : Fld := ⟨0x3C15, 0, 0⟩
def PGM.PDSC.SEQ : Fld := ⟨0x3C40, 63, 48⟩
def PGM.PDSC.CE : Fld := ⟨0x3C40, 34, 34⟩
def PGM.PDSC.UE : Fld := ⟨0x3C40, 33, 33⟩
def PGM.PDSC.TRG : Fld := ⟨0x3C40, 32, 32⟩
def PGM.PDSC.RING : Fld := ⟨0x3C40, 31, 27⟩
def PGM.PDSC.PST : Fld := ⟨0x3C40, 26, 24⟩
def PGM.PDSC.NEXT : Fld := ⟨0x3C40, 23, 12⟩
def PGM.PDSC.FILL : Fld := ⟨0x3C40, 10, 0⟩

/-! CTL: 12_control_engine.md -/
def CTL.SCFG.EN : Fld := ⟨0x4000, 31, 31⟩
def CTL.SCFG.PHASE : Fld := ⟨0x4000, 30, 29⟩
def CTL.SCFG.DIV : Fld := ⟨0x4000, 28, 24⟩
def CTL.SCFG.DOFS : Fld := ⟨0x4000, 23, 19⟩
def CTL.SCFG.NSEC : Fld := ⟨0x4000, 18, 16⟩
def CTL.SCFG.WEIR : Fld := ⟨0x4000, 15, 13⟩
def CTL.SCFG.TSRC : Fld := ⟨0x4000, 12, 9⟩
def CTL.SIO.KFF : Fld := ⟨0x4001, 127, 96⟩
def CTL.SIO.KMEAS : Fld := ⟨0x4001, 95, 64⟩
def CTL.SIO.KREF : Fld := ⟨0x4001, 63, 32⟩
def CTL.SIO.REFSRC : Fld := ⟨0x4001, 31, 24⟩
def CTL.SIO.MEASSRC : Fld := ⟨0x4001, 23, 16⟩
def CTL.SIO.FFSRC : Fld := ⟨0x4001, 15, 8⟩
def CTL.SIO.DEST : Fld := ⟨0x4001, 7, 0⟩
def CTL.SEC.C6 : Fld := ⟨0x4002, 223, 192⟩
def CTL.SEC.C5 : Fld := ⟨0x4002, 191, 160⟩
def CTL.SEC.C4 : Fld := ⟨0x4002, 159, 128⟩
def CTL.SEC.C3 : Fld := ⟨0x4002, 127, 96⟩
def CTL.SEC.C2 : Fld := ⟨0x4002, 95, 64⟩
def CTL.SEC.C1 : Fld := ⟨0x4002, 63, 32⟩
def CTL.SEC.TYPE : Fld := ⟨0x4002, 31, 30⟩
def CTL.LIM.YHI : Fld := ⟨0x4003, 63, 32⟩
def CTL.LIM.YLO : Fld := ⟨0x4003, 31, 0⟩
def CTL.SCTL.PRESET : Fld := ⟨0x4004, 1, 1⟩
def CTL.SCTL.HOLD : Fld := ⟨0x4004, 0, 0⟩
def CTL.REF.VALUE : Fld := ⟨0x4005, 31, 0⟩
def CTL.WEIR.WHYS : Fld := ⟨0x4006, 63, 32⟩
def CTL.WEIR.EN : Fld := ⟨0x4006, 31, 31⟩
def CTL.WEIR.SEL : Fld := ⟨0x4006, 30, 30⟩
def CTL.WEIR.DEST : Fld := ⟨0x4006, 7, 0⟩
def CTL.PSC.KB : Fld := ⟨0x4007, 31, 0⟩
def CTL.PRB.EN : Fld := ⟨0x4008, 31, 31⟩
def CTL.PRB.SLOT : Fld := ⟨0x4008, 30, 26⟩
def CTL.PRB.NODE : Fld := ⟨0x4008, 25, 21⟩
def CTL.PRB.RING : Fld := ⟨0x4008, 20, 16⟩
def CTL.PRB.PDIV : Fld := ⟨0x4008, 15, 8⟩
def CTL.STAT.FPT : Fld := ⟨0x4010, 23, 0⟩
def CTL.SST.SAT : Fld := ⟨0x4011, 31, 24⟩
def CTL.SST.PLACED : Fld := ⟨0x4011, 23, 22⟩
def CTL.SST.MIXED : Fld := ⟨0x4011, 4, 4⟩
def CTL.SST.WIN : Fld := ⟨0x4011, 3, 3⟩
def CTL.SST.HELD : Fld := ⟨0x4011, 2, 2⟩
def CTL.SST.NANH : Fld := ⟨0x4011, 1, 1⟩
def CTL.SST.SLIM : Fld := ⟨0x4011, 0, 0⟩
def CTL.OUT.Y : Fld := ⟨0x4012, 31, 0⟩
def CTL.ISTATE.X2 : Fld := ⟨0x4013, 63, 32⟩
def CTL.ISTATE.X1 : Fld := ⟨0x4013, 31, 0⟩
def CTL.WST.W : Fld := ⟨0x4014, 63, 32⟩
def CTL.WST.WINNER : Fld := ⟨0x4014, 7, 0⟩
def CTL.EVT.SLIM : Fld := ⟨0x4015, 3, 3⟩
def CTL.EVT.TRGLOST : Fld := ⟨0x4015, 2, 2⟩
def CTL.EVT.WNAN : Fld := ⟨0x4015, 1, 1⟩
def CTL.EVT.NAN : Fld := ⟨0x4015, 0, 0⟩
def CTL.CNT.EVALS : Fld := ⟨0x4016, 63, 32⟩
def CTL.CNT.NAN : Fld := ⟨0x4016, 31, 16⟩
def CTL.CNT.WSW : Fld := ⟨0x4016, 15, 8⟩
def CTL.CNT.TRGLOST : Fld := ⟨0x4016, 7, 0⟩

/-! GRD: 13_grid_functions.md -/
def GRD.CFG.VBASE : Fld := ⟨0x4400, 63, 32⟩
def GRD.CFG.EN : Fld := ⟨0x4400, 31, 31⟩
def GRD.CFG.FNOM : Fld := ⟨0x4400, 30, 30⟩
def GRD.IN.VA : Fld := ⟨0x4401, 127, 120⟩
def GRD.IN.VB : Fld := ⟨0x4401, 119, 112⟩
def GRD.IN.VC : Fld := ⟨0x4401, 111, 104⟩
def GRD.IN.IA : Fld := ⟨0x4401, 103, 96⟩
def GRD.IN.IB : Fld := ⟨0x4401, 95, 88⟩
def GRD.IN.IC : Fld := ⟨0x4401, 87, 80⟩
def GRD.IN.KI : Fld := ⟨0x4401, 63, 32⟩
def GRD.IN.KV : Fld := ⟨0x4401, 31, 0⟩
def GRD.PLL.DWMAX : Fld := ⟨0x4402, 95, 64⟩
def GRD.PLL.KIP : Fld := ⟨0x4402, 63, 32⟩
def GRD.PLL.KPP : Fld := ⟨0x4402, 31, 0⟩
def GRD.FILT.DSLEW : Fld := ⟨0x4403, 127, 96⟩
def GRD.FILT.AP : Fld := ⟨0x4403, 95, 64⟩
def GRD.FILT.AR : Fld := ⟨0x4403, 63, 32⟩
def GRD.FILT.AF : Fld := ⟨0x4403, 31, 0⟩
def GRD.FORM.MP : Fld := ⟨0x4404, 127, 96⟩
def GRD.FORM.PSET : Fld := ⟨0x4404, 95, 64⟩
def GRD.FORM.MQ : Fld := ⟨0x4404, 63, 32⟩
def GRD.FORM.QSET : Fld := ⟨0x4404, 31, 0⟩
def GRD.RTP.LEVEL : Fld := ⟨0x4405, 63, 32⟩
def GRD.RTP.ACT : Fld := ⟨0x4405, 31, 30⟩
def GRD.RTP.TIME : Fld := ⟨0x4405, 23, 0⟩
def GRD.RET.TRET : Fld := ⟨0x4406, 31, 16⟩
def GRD.RET.ENTD : Fld := ⟨0x4406, 15, 0⟩
def GRD.ISL.ROCTH : Fld := ⟨0x4407, 191, 160⟩
def GRD.ISL.PJTH : Fld := ⟨0x4407, 159, 128⟩
def GRD.ISL.AFDG : Fld := ⟨0x4407, 127, 96⟩
def GRD.ISL.AFD0 : Fld := ⟨0x4407, 95, 64⟩
def GRD.ISL.AFDMAX : Fld := ⟨0x4407, 63, 32⟩
def GRD.ISL.PASEN : Fld := ⟨0x4407, 31, 31⟩
def GRD.ISL.ACTEN : Fld := ⟨0x4407, 30, 30⟩
def GRD.ISL.ISLACT : Fld := ⟨0x4407, 29, 28⟩
def GRD.ISL.ROCT : Fld := ⟨0x4407, 15, 0⟩
def GRD.CTL.MODE : Fld := ⟨0x4408, 31, 30⟩
def GRD.CTL.ISLCLR : Fld := ⟨0x4408, 1, 1⟩
def GRD.CTL.CLR : Fld := ⟨0x4408, 0, 0⟩
def GRD.STAT.RTS : Fld := ⟨0x4410, 31, 30⟩
def GRD.STAT.MODEA : Fld := ⟨0x4410, 29, 29⟩
def GRD.STAT.ISL : Fld := ⟨0x4410, 28, 28⟩
def GRD.STAT.ICAUSE : Fld := ⟨0x4410, 27, 26⟩
def GRD.STAT.NANH : Fld := ⟨0x4410, 25, 25⟩
def GRD.STAT.LOCK : Fld := ⟨0x4410, 24, 24⟩
def GRD.STAT.CURVE : Fld := ⟨0x4410, 11, 8⟩
def GRD.STAT.POINT : Fld := ⟨0x4410, 7, 4⟩
def GRD.VAL.W : Fld := ⟨0x4411, 255, 224⟩
def GRD.VAL.TH : Fld := ⟨0x4411, 223, 192⟩
def GRD.VAL.Q : Fld := ⟨0x4411, 191, 160⟩
def GRD.VAL.P : Fld := ⟨0x4411, 159, 128⟩
def GRD.VAL.VMAX : Fld := ⟨0x4411, 127, 96⟩
def GRD.VAL.VMIN : Fld := ⟨0x4411, 95, 64⟩
def GRD.VAL.ROCOF : Fld := ⟨0x4411, 63, 32⟩
def GRD.VAL.F : Fld := ⟨0x4411, 31, 0⟩
def GRD.EVT.NAN : Fld := ⟨0x4412, 4, 4⟩
def GRD.EVT.ISL : Fld := ⟨0x4412, 3, 3⟩
def GRD.EVT.TRIP : Fld := ⟨0x4412, 2, 2⟩
def GRD.EVT.CESS : Fld := ⟨0x4412, 1, 1⟩
def GRD.EVT.RIDE : Fld := ⟨0x4412, 0, 0⟩
def GRD.CNT.RIDE : Fld := ⟨0x4413, 63, 48⟩
def GRD.CNT.CESS : Fld := ⟨0x4413, 47, 32⟩
def GRD.CNT.TRIP : Fld := ⟨0x4413, 31, 16⟩
def GRD.CNT.ISL : Fld := ⟨0x4413, 15, 8⟩
def GRD.CNT.NAN : Fld := ⟨0x4413, 7, 0⟩

/-! PMU: 14_synchrophasors_and_fault_location.md -/
def PMU.CFG.EN : Fld := ⟨0x4800, 31, 31⟩
def PMU.CFG.CLASS : Fld := ⟨0x4800, 30, 30⟩
def PMU.CFG.FNOM : Fld := ⟨0x4800, 29, 29⟩
def PMU.CFG.POLAR : Fld := ⟨0x4800, 28, 28⟩
def PMU.CFG.RATE : Fld := ⟨0x4800, 27, 20⟩
def PMU.CFG.RING : Fld := ⟨0x4800, 19, 15⟩
def PMU.CFG.TWEN : Fld := ⟨0x4800, 14, 14⟩
def PMU.CFG.IMPEN : Fld := ⟨0x4800, 13, 13⟩
def PMU.IN.VA : Fld := ⟨0x4801, 31, 28⟩
def PMU.IN.VB : Fld := ⟨0x4801, 27, 24⟩
def PMU.IN.VC : Fld := ⟨0x4801, 23, 20⟩
def PMU.IN.IA : Fld := ⟨0x4801, 19, 16⟩
def PMU.IN.IB : Fld := ⟨0x4801, 15, 12⟩
def PMU.IN.IC : Fld := ⟨0x4801, 11, 8⟩
def PMU.IN.IEN : Fld := ⟨0x4801, 7, 7⟩
def PMU.KSC.VNOM : Fld := ⟨0x4802, 95, 64⟩
def PMU.KSC.KI : Fld := ⟨0x4802, 63, 32⟩
def PMU.KSC.KV : Fld := ⟨0x4802, 31, 0⟩
def PMU.NET.DIP : Fld := ⟨0x4803, 127, 96⟩
def PMU.NET.DPORT : Fld := ⟨0x4803, 95, 80⟩
def PMU.NET.LPORT : Fld := ⟨0x4803, 79, 64⟩
def PMU.NET.IDCODE : Fld := ⟨0x4803, 63, 48⟩
def PMU.NET.UEN : Fld := ⟨0x4803, 47, 47⟩
def PMU.NET.TXON : Fld := ⟨0x4803, 46, 46⟩
def PMU.STN.STN : Fld := ⟨0x4804, 127, 0⟩
def PMU.CTL.CFGCHG : Fld := ⟨0x4805, 1, 1⟩
def PMU.CTL.FLTRIG : Fld := ⟨0x4805, 0, 0⟩
def PMU.TWCFG.LEN : Fld := ⟨0x4806, 95, 64⟩
def PMU.TWCFG.VEL : Fld := ⟨0x4806, 63, 32⟩
def PMU.TWCFG.GA : Fld := ⟨0x4806, 31, 30⟩
def PMU.TWCFG.GB : Fld := ⟨0x4806, 29, 28⟩
def PMU.TWCFG.GC : Fld := ⟨0x4806, 27, 26⟩
def PMU.TWCFG.TH : Fld := ⟨0x4806, 23, 12⟩
def PMU.LINE.X0 : Fld := ⟨0x4807, 127, 96⟩
def PMU.LINE.R0 : Fld := ⟨0x4807, 95, 64⟩
def PMU.LINE.X1 : Fld := ⟨0x4807, 63, 32⟩
def PMU.LINE.R1 : Fld := ⟨0x4807, 31, 0⟩
def PMU.FLCFG.I0TH : Fld := ⟨0x4808, 127, 96⟩
def PMU.FLCFG.IMIN : Fld := ⟨0x4808, 95, 64⟩
def PMU.FLCFG.KF : Fld := ⟨0x4808, 63, 32⟩
def PMU.FLCFG.FSRC : Fld := ⟨0x4808, 31, 25⟩
def PMU.FLCFG.PSET : Fld := ⟨0x4808, 15, 0⟩
def PMU.TWREM.NUM : Fld := ⟨0x4809, 95, 80⟩
def PMU.TWREM.FINE : Fld := ⟨0x4809, 73, 70⟩
def PMU.TWREM.TAP : Fld := ⟨0x4809, 69, 64⟩
def PMU.TWREM.TIME : Fld := ⟨0x4809, 63, 0⟩
def PMU.CFG2.UTCO : Fld := ⟨0x480A, 31, 16⟩
def PMU.CFG2.HTQ : Fld := ⟨0x480A, 7, 4⟩
def PMU.CFG2.HPTQ : Fld := ⟨0x480A, 2, 0⟩
def PMU.STAT.DERR : Fld := ⟨0x4810, 31, 30⟩
def PMU.STAT.SYNCB : Fld := ⟨0x4810, 29, 29⟩
def PMU.STAT.TRIGB : Fld := ⟨0x4810, 28, 28⟩
def PMU.STAT.REC : Fld := ⟨0x4810, 27, 27⟩
def PMU.STAT.LASTNUM : Fld := ⟨0x4810, 15, 0⟩
def PMU.TWARR.AMP : Fld := ⟨0x4811, 95, 80⟩
def PMU.TWARR.MODE : Fld := ⟨0x4811, 75, 75⟩
def PMU.TWARR.POL : Fld := ⟨0x4811, 74, 74⟩
def PMU.TWARR.FINE : Fld := ⟨0x4811, 73, 70⟩
def PMU.TWARR.TAP : Fld := ⟨0x4811, 69, 64⟩
def PMU.TWARR.TIME : Fld := ⟨0x4811, 63, 0⟩
def PMU.FREC.NUM : Fld := ⟨0x4812, 255, 240⟩
def PMU.FREC.CMPL : Fld := ⟨0x4812, 239, 239⟩
def PMU.FREC.TWV : Fld := ⟨0x4812, 238, 238⟩
def PMU.FREC.SEV : Fld := ⟨0x4812, 237, 237⟩
def PMU.FREC.DEV : Fld := ⟨0x4812, 236, 236⟩
def PMU.FREC.IMV : Fld := ⟨0x4812, 235, 235⟩
def PMU.FREC.FSJ : Fld := ⟨0x4812, 234, 234⟩
def PMU.FREC.PHS : Fld := ⟨0x4812, 233, 230⟩
def PMU.FREC.NARR : Fld := ⟨0x4812, 229, 226⟩
def PMU.FREC.DIMP : Fld := ⟨0x4812, 223, 192⟩
def PMU.FREC.DDE : Fld := ⟨0x4812, 191, 160⟩
def PMU.FREC.DSE : Fld := ⟨0x4812, 159, 128⟩
def PMU.FREC.TIME : Fld := ⟨0x4812, 127, 64⟩
def PMU.FREC.TAP : Fld := ⟨0x4812, 63, 58⟩
def PMU.FREC.FINE : Fld := ⟨0x4812, 57, 54⟩
def PMU.FREC.DT : Fld := ⟨0x4812, 31, 0⟩
def PMU.EVT.FLBUSY : Fld := ⟨0x4813, 4, 4⟩
def PMU.EVT.CMDX : Fld := ⟨0x4813, 3, 3⟩
def PMU.EVT.DERR : Fld := ⟨0x4813, 2, 2⟩
def PMU.EVT.FLREC : Fld := ⟨0x4813, 1, 1⟩
def PMU.EVT.TW : Fld := ⟨0x4813, 0, 0⟩
def PMU.CNT.FRAMES : Fld := ⟨0x4814, 63, 40⟩
def PMU.CNT.DERR : Fld := ⟨0x4814, 39, 24⟩
def PMU.CNT.CMDX : Fld := ⟨0x4814, 23, 16⟩
def PMU.CNT.FLBUSY : Fld := ⟨0x4814, 15, 8⟩
def PMU.CNT.TWBAD : Fld := ⟨0x4814, 7, 0⟩

/-! MTR: 15_metering.md -/
def MTR.CFG.EN : Fld := ⟨0x4C00, 31, 31⟩
def MTR.CFG.CREEP : Fld := ⟨0x4C00, 23, 8⟩
def MTR.CFG.ECPER : Fld := ⟨0x4C00, 7, 0⟩
def MTR.CH.K : Fld := ⟨0x4C01, 63, 32⟩
def MTR.CH.DEC : Fld := ⟨0x4C01, 31, 28⟩
def MTR.CH.SENS : Fld := ⟨0x4C01, 27, 26⟩
def MTR.CH.LEAK : Fld := ⟨0x4C01, 25, 24⟩
def MTR.CH.PHC : Fld := ⟨0x4C01, 23, 12⟩
def MTR.NOM.INOM : Fld := ⟨0x4C02, 63, 32⟩
def MTR.NOM.VNOM : Fld := ⟨0x4C02, 31, 1⟩
def MTR.NOM.FNOM : Fld := ⟨0x4C02, 0, 0⟩
def MTR.PLS.EPP : Fld := ⟨0x4C03, 63, 32⟩
def MTR.PLS.EN : Fld := ⟨0x4C03, 31, 31⟩
def MTR.PLS.POL : Fld := ⟨0x4C03, 30, 30⟩
def MTR.PLS.ELEM : Fld := ⟨0x4C03, 29, 28⟩
def MTR.PLS.QTY : Fld := ⟨0x4C03, 27, 25⟩
def MTR.PLS.PW : Fld := ⟨0x4C03, 15, 8⟩
def MTR.CTL.ZERO : Fld := ⟨0x4C04, 1, 1⟩
def MTR.CTL.SNAP : Fld := ⟨0x4C04, 0, 0⟩
def MTR.INST.PF : Fld := ⟨0x4C10, 191, 160⟩
def MTR.INST.IRMS : Fld := ⟨0x4C10, 159, 128⟩
def MTR.INST.VRMS : Fld := ⟨0x4C10, 127, 96⟩
def MTR.INST.S : Fld := ⟨0x4C10, 95, 64⟩
def MTR.INST.Q : Fld := ⟨0x4C10, 63, 32⟩
def MTR.INST.P : Fld := ⟨0x4C10, 31, 0⟩
def MTR.SNAPH.NUM : Fld := ⟨0x4C11, 95, 80⟩
def MTR.SNAPH.TAP : Fld := ⟨0x4C11, 69, 64⟩
def MTR.SNAPH.TIME : Fld := ⟨0x4C11, 63, 0⟩
def MTR.SNAP.OVF : Fld := ⟨0x4C12, 72, 72⟩
def MTR.SNAP.WRAP : Fld := ⟨0x4C12, 71, 64⟩
def MTR.SNAP.VALUE : Fld := ⟨0x4C12, 63, 0⟩
def MTR.PST.PEND : Fld := ⟨0x4C13, 79, 64⟩
def MTR.PST.RES : Fld := ⟨0x4C13, 63, 0⟩
def MTR.STAT.RSRC : Fld := ⟨0x4C14, 9, 8⟩
def MTR.STAT.SETTLE : Fld := ⟨0x4C14, 7, 7⟩
def MTR.STAT.INTERP : Fld := ⟨0x4C14, 6, 6⟩
def MTR.STAT.INVAL : Fld := ⟨0x4C14, 2, 0⟩
def MTR.EVT.RLOSS : Fld := ⟨0x4C15, 2, 2⟩
def MTR.EVT.PLSOVR : Fld := ⟨0x4C15, 1, 1⟩
def MTR.EVT.INPUT : Fld := ⟨0x4C15, 0, 0⟩
def MTR.CNT.SAMPLES : Fld := ⟨0x4C16, 63, 32⟩
def MTR.CNT.PLSLOST : Fld := ⟨0x4C16, 31, 16⟩
def MTR.CNT.INVAL : Fld := ⟨0x4C16, 15, 0⟩

/-! IST: 21_in_service_test.md -/
def IST.CFG.EN : Fld := ⟨0x5000, 31, 31⟩
def IST.CFG.CHKEN : Fld := ⟨0x5000, 30, 24⟩
def IST.CFG.CPER : Fld := ⟨0x5000, 23, 16⟩
def IST.CFG.RPER : Fld := ⟨0x5000, 15, 8⟩
def IST.PER.SCRPER : Fld := ⟨0x5001, 31, 24⟩
def IST.PER.ROMPER : Fld := ⟨0x5001, 23, 16⟩
def IST.PER.SCALMAX : Fld := ⟨0x5001, 15, 8⟩
def IST.PER.LWIN : Fld := ⟨0x5001, 7, 0⟩
def IST.LANE.LERR : Fld := ⟨0x5002, 15, 0⟩
def IST.STAT.HOST : Fld := ⟨0x5010, 10, 10⟩
def IST.STAT.HCHK : Fld := ⟨0x5010, 9, 7⟩
def IST.STAT.ACTIVE : Fld := ⟨0x5010, 6, 0⟩
def IST.RES.PASSES : Fld := ⟨0x5011, 63, 32⟩
def IST.RES.FAILS : Fld := ⟨0x5011, 31, 16⟩
def IST.RES.UNIT : Fld := ⟨0x5011, 15, 8⟩
def IST.RES.LAST : Fld := ⟨0x5011, 1, 0⟩
def IST.LFAIL.LANE : Fld := ⟨0x5012, 191, 0⟩
def IST.EVT.LATE : Fld := ⟨0x5013, 2, 2⟩
def IST.EVT.LANE : Fld := ⟨0x5013, 1, 1⟩
def IST.EVT.FAIL : Fld := ⟨0x5013, 0, 0⟩

end Reg

open Reg

/-- The attributes of block DEV. -/
def rowsDEV : List AttrRow := [
    ⟨0x0000, 1, 1, [⟨DEV.STATE.DBGLOCK, .ro, 1⟩, ⟨DEV.STATE.PATCHED, .ro, 0⟩, ⟨DEV.STATE.LOADOPEN, .ro, 0⟩,
    ⟨DEV.STATE.STATE, .ro, 0⟩]⟩,
    ⟨0x0001, 1, 1, [⟨DEV.ID.FAMILY, .ro, 0x7192⟩, ⟨DEV.ID.STEP, .ro, 0xB0⟩, ⟨DEV.ID.GRADE, .ro, 0⟩]⟩,
    ⟨0x0002, 1, 1, [⟨DEV.ROM.ROMVER, .ro, 0x0300⟩, ⟨DEV.ROM.PATCHVER, .ro, 0⟩]⟩,
    ⟨0x0003, 2, 1, [⟨DEV.UID.UID, .ro, 0⟩]⟩,
    ⟨0x0010, 1, 1, [⟨DEV.TICK.PERIOD, .rwl, 1250⟩]⟩,
    ⟨0x0011, 1, 1, [⟨DEV.LAUNCH.LAUNCH, .rwl, 0⟩]⟩,
    ⟨0x0012, 1, 1, [⟨DEV.APPLY.APPLY, .rwl, 0⟩]⟩,
    ⟨0x0013, 1, 1, [⟨DEV.CFGRES.RESULT, .ro, 0⟩, ⟨DEV.CFGRES.BLOCK, .ro, 0⟩]⟩,
    ⟨0x0014, 1, 1, [⟨DEV.FOPS.F, .ro, 0⟩]⟩]

/-- The attributes of block HPP. -/
def rowsHPP : List AttrRow := [
    ⟨0x0400, 1, 1, [⟨HPP.CFG.IDLETO, .rw, 10⟩, ⟨HPP.CFG.IRQOD, .rw, 0⟩, ⟨HPP.CFG.QUAD, .rw, 0⟩]⟩,
    ⟨0x0401, 1, 1, [⟨HPP.STAT.BEMPTY, .ro, 1⟩, ⟨HPP.STAT.AEMPTY, .ro, 1⟩, ⟨HPP.STAT.FILL, .ro, 0⟩, ⟨HPP.STAT.HDRLOST,
    .w1c, 0⟩, ⟨HPP.STAT.LVL, .w1c, 0⟩, ⟨HPP.STAT.HTO, .w1c, 0⟩, ⟨HPP.STAT.OVF, .w1c, 0⟩, ⟨HPP.STAT.LENE, .w1c, 0⟩,
    ⟨HPP.STAT.CRCE, .w1c, 0⟩]⟩,
    ⟨0x0402, 1, 1, [⟨HPP.IRQEN.TIME, .rw, 0⟩, ⟨HPP.IRQEN.OVF, .rw, 0⟩, ⟨HPP.IRQEN.HERR, .rw, 0⟩, ⟨HPP.IRQEN.TRIP, .rw,
    0⟩, ⟨HPP.IRQEN.FLT, .rw, 0⟩, ⟨HPP.IRQEN.RPQ, .rw, 0⟩]⟩,
    ⟨0x0403, 1, 1, [⟨HPP.LEVEL.LEVEL, .rw, 64⟩]⟩,
    ⟨0x0404, 1, 64, [⟨HPP.MIRSEL.ID, .rw, 0xFFFF⟩, ⟨HPP.MIRSEL.INST, .rw, 0⟩]⟩,
    ⟨0x0405, 1, 1, [⟨HPP.CNTCRC.COUNT, .ro, 0⟩]⟩,
    ⟨0x0406, 1, 1, [⟨HPP.CNTLEN.COUNT, .ro, 0⟩]⟩,
    ⟨0x0407, 1, 1, [⟨HPP.CNTOVF.COUNT, .ro, 0⟩]⟩,
    ⟨0x0408, 1, 1, [⟨HPP.CNTHTO.COUNT, .ro, 0⟩]⟩,
    ⟨0x0409, 1, 1, [⟨HPP.CNTTXN.COUNT, .ro, 0⟩]⟩]

/-- The attributes of block FLT. -/
def rowsFLT : List AttrRow := [
    ⟨0x0800, 1, 1, [⟨FLT.CFG.NVMIN, .rw, 2⟩, ⟨FLT.CFG.QUIET, .rw, 100⟩]⟩,
    ⟨0x0801, 1, 64, [⟨FLT.SCFG.CLASS, .rwl, 0⟩, ⟨FLT.SCFG.ESC, .rwl, 0⟩, ⟨FLT.SCFG.NESC, .rwl, 0⟩, ⟨FLT.SCFG.WIN,
    .rwl, 1000⟩, ⟨FLT.SCFG.PROF, .rwl, 0⟩]⟩,
    ⟨0x0802, 1, 4, [⟨FLT.PROF.SDO, .rwl, 0⟩, ⟨FLT.PROF.DHB, .rwl, 0⟩, ⟨FLT.PROF.ARM, .rwl, 0⟩]⟩,
    ⟨0x0810, 2, 1, [⟨FLT.STATUS.STATUS, .ro, 0⟩]⟩,
    ⟨0x0811, 1, 1, [⟨FLT.STAT.GRAVE, .ro, 0⟩, ⟨FLT.STAT.REACTING, .ro, 0⟩, ⟨FLT.STAT.DEVOK, .ro, 0⟩, ⟨FLT.STAT.FATSRC,
    .ro, 0⟩, ⟨FLT.STAT.LOSTU, .ro, 0⟩, ⟨FLT.STAT.NUNACK, .ro, 0⟩]⟩,
    ⟨0x0812, 1, 1, [⟨FLT.HOLD.HELD, .ro, 0⟩]⟩,
    ⟨0x0813, 1, 64, [⟨FLT.SRC.CUR, .ro, 0⟩, ⟨FLT.SRC.WOPEN, .ro, 0⟩, ⟨FLT.SRC.WCNT, .ro, 0⟩, ⟨FLT.SRC.EVENTS, .ro,
    0⟩]⟩,
    ⟨0x0814, 8, 32, [⟨FLT.REC.NUM, .ro, 0⟩, ⟨FLT.REC.VALID, .ro, 0⟩, ⟨FLT.REC.ACKD, .ro, 0⟩, ⟨FLT.REC.CLASS, .ro, 0⟩,
    ⟨FLT.REC.FIRST, .ro, 0⟩, ⟨FLT.REC.PROFS, .ro, 0⟩, ⟨FLT.REC.COUNT, .ro, 0⟩, ⟨FLT.REC.DETAIL, .ro, 0⟩, ⟨FLT.REC.TAP,
    .ro, 0⟩, ⟨FLT.REC.TIME, .ro, 0⟩, ⟨FLT.REC.PEND, .ro, 0⟩, ⟨FLT.REC.SRC, .ro, 0⟩]⟩,
    ⟨0x0815, 2, 1, [⟨FLT.CNT.RECORDS, .ro, 0⟩, ⟨FLT.CNT.MERGED, .ro, 0⟩, ⟨FLT.CNT.RLOST, .ro, 0⟩]⟩]

/-- The attributes of block RST. -/
def rowsRST : List AttrRow := [
    ⟨0x0C00, 1, 1, [⟨RST.STAT.LASTSRC, .ro, 1⟩, ⟨RST.STAT.LASTLVL, .ro, 0⟩, ⟨RST.STAT.LASTBLK, .ro, 0⟩,
    ⟨RST.STAT.FATAL, .ro, 0⟩, ⟨RST.STAT.DEFAULTS, .ro, 0⟩, ⟨RST.STAT.FUSEOK, .ro, 0⟩, ⟨RST.STAT.FAILS, .ro, 0⟩]⟩,
    ⟨0x0C01, 1, 1, [⟨RST.DOM.KEEP, .ro, 1⟩, ⟨RST.DOM.HELD, .ro, 0⟩, ⟨RST.DOM.REL, .ro, 0⟩]⟩,
    ⟨0x0C02, 1, 1, [⟨RST.FLVL.DLLL, .ro, 1⟩, ⟨RST.FLVL.CLKL, .ro, 1⟩, ⟨RST.FLVL.RSTNL, .ro, 0⟩]⟩,
    ⟨0x0C03, 2, 1, [⟨RST.FGAP.GAP, .ro, 72057594037927935⟩]⟩,
    ⟨0x0C04, 1, 1, [⟨RST.FPIN.ETHRS, .ro, 0⟩, ⟨RST.FPIN.TIMRS, .ro, 0⟩, ⟨RST.FPIN.PLSRS, .ro, 0⟩, ⟨RST.FPIN.IRQRS,
    .ro, 0⟩]⟩,
    ⟨0x0C05, 2, 1, [⟨RST.FSEC.FUSEREV, .ro, 0⟩, ⟨RST.FSEC.GRADE, .ro, 0⟩, ⟨RST.FSEC.PATCHMIN, .ro, 0xFFFF⟩,
    ⟨RST.FSEC.KEYREV, .ro, 0xF⟩, ⟨RST.FSEC.PLOCK, .ro, 1⟩, ⟨RST.FSEC.DBGLOCK, .ro, 1⟩, ⟨RST.FSEC.CHGEND, .ro, 0⟩]⟩,
    ⟨0x0C06, 3, 1, [⟨RST.LOG.START, .ro, 0⟩, ⟨RST.LOG.OPEN, .ro, 0⟩, ⟨RST.LOG.DUR, .ro, 0⟩]⟩,
    ⟨0x0C07, 2, 1, [⟨RST.CNT.RSTN, .ro, 0⟩, ⟨RST.CNT.CMD, .ro, 0⟩, ⟨RST.CNT.CLK, .ro, 0⟩, ⟨RST.CNT.FUSEF, .ro, 0⟩,
    ⟨RST.CNT.MERGED, .ro, 0⟩, ⟨RST.CNT.CGFAIL, .ro, 0⟩]⟩,
    ⟨0x0C08, 1, 1, [⟨RST.EVT.CLKSTART, .w1c, 0⟩, ⟨RST.EVT.FUSEF, .w1c, 0⟩, ⟨RST.EVT.RSTLOG, .w1c, 0⟩]⟩]

/-- The attributes of block KPR. -/
def rowsKPR : List AttrRow := [
    ⟨0x1000, 2, 1, [⟨KPR.CFG.VABT, .rw, 3150⟩, ⟨KPR.CFG.NVPER, .rw, 15⟩, ⟨KPR.CFG.KCELL, .rw, 0⟩]⟩,
    ⟨0x1001, 2, 1, [⟨KPR.SERVO.FIX, .rw, 0⟩, ⟨KPR.SERVO.VFIX, .rw, 60⟩, ⟨KPR.SERVO.VFLOOR, .rw, 0⟩, ⟨KPR.SERVO.VSTEP,
    .rw, 1⟩, ⟨KPR.SERVO.SWIN, .rw, 64⟩, ⟨KPR.SERVO.SHI, .rw, 125⟩, ⟨KPR.SERVO.SLO, .rw, 50⟩]⟩,
    ⟨0x1002, 2, 1, [⟨KPR.ALARM.EN, .rw, 0⟩, ⟨KPR.ALARM.SEC, .rw, 0⟩]⟩,
    ⟨0x1003, 1, 1, [⟨KPR.CTL.SLEEP, .wo, 0⟩]⟩,
    ⟨0x1004, 1, 1, [⟨KPR.NVSEL.SET, .rw, 0⟩, ⟨KPR.NVSEL.OFS, .rw, 0⟩]⟩,
    ⟨0x1010, 1, 1, [⟨KPR.STAT.VSET, .ro, 60⟩, ⟨KPR.STAT.SMODE, .ro, 3⟩, ⟨KPR.STAT.WAKE, .ro, 0⟩, ⟨KPR.STAT.CHG, .ro,
    0⟩, ⟨KPR.STAT.CONN, .ro, 0⟩, ⟨KPR.STAT.RAIL, .ro, 1⟩, ⟨KPR.STAT.HARV, .ro, 0⟩, ⟨KPR.STAT.RTCV, .ro, 0⟩,
    ⟨KPR.STAT.BURST, .ro, 0⟩, ⟨KPR.STAT.BSET, .ro, 0⟩]⟩,
    ⟨0x1011, 1, 1, [⟨KPR.VMON.VST, .ro, 0⟩, ⟨KPR.VMON.VTEG, .ro, 0⟩]⟩,
    ⟨0x1012, 1, 1, [⟨KPR.SLACK.MIN, .ro, 0xFFFF⟩, ⟨KPR.SLACK.LAST, .ro, 0⟩]⟩,
    ⟨0x1013, 2, 1, [⟨KPR.RTC.SEC, .ro, 0⟩, ⟨KPR.RTC.FRAC, .ro, 0⟩]⟩,
    ⟨0x1014, 2, 3, [⟨KPR.NVS.SEQ, .ro, 0⟩, ⟨KPR.NVS.VALID, .ro, 0⟩, ⟨KPR.NVS.PEND, .ro, 0⟩, ⟨KPR.NVS.LAST, .ro, 0⟩,
    ⟨KPR.NVS.BLKS, .ro, 0⟩, ⟨KPR.NVS.PBLKS, .ro, 0⟩]⟩,
    ⟨0x1015, 8, 1, [⟨KPR.NVDATA.DATA, .ro, 0⟩]⟩,
    ⟨0x1016, 1, 1, [⟨KPR.EVT.KPOR, .w1c, 0⟩, ⟨KPR.EVT.LCUT, .w1c, 0⟩, ⟨KPR.EVT.ABORT, .w1c, 0⟩, ⟨KPR.EVT.REFUSE, .w1c,
    0⟩, ⟨KPR.EVT.WARN, .w1c, 0⟩]⟩,
    ⟨0x1017, 2, 1, [⟨KPR.CNT.COMMITS, .ro, 0⟩, ⟨KPR.CNT.REFUSED, .ro, 0⟩, ⟨KPR.CNT.ABORTED, .ro, 0⟩, ⟨KPR.CNT.WARN,
    .ro, 0⟩, ⟨KPR.CNT.EMERG, .ro, 0⟩, ⟨KPR.CNT.LCUT, .ro, 0⟩]⟩]

/-- The attributes of block TIM. -/
def rowsTIM : List AttrRow := [
    ⟨0x1400, 1, 1, [⟨TIM.CFG.SRC, .rw, 0⟩, ⟨TIM.CFG.TICKSRC, .rwl, 0⟩, ⟨TIM.CFG.GMVAL, .rw, 0⟩, ⟨TIM.CFG.HOLDMAX, .rw,
    5⟩]⟩,
    ⟨0x1401, 1, 1, [⟨TIM.CLK.FTOL, .rw, 100⟩, ⟨TIM.CLK.REVERT, .rw, 0⟩, ⟨TIM.CLK.PREF, .rw, 0⟩]⟩,
    ⟨0x1402, 2, 1, [⟨TIM.PTP.VID, .rw, 0⟩, ⟨TIM.PTP.PCP, .rw, 4⟩, ⟨TIM.PTP.VTAG, .rw, 0⟩, ⟨TIM.PTP.PRIO1, .rw, 128⟩,
    ⟨TIM.PTP.PRIO2, .rw, 128⟩, ⟨TIM.PTP.CLASS, .rw, 248⟩, ⟨TIM.PTP.DOMAIN, .rw, 0⟩, ⟨TIM.PTP.RCT, .rw, 0⟩,
    ⟨TIM.PTP.TWOSTEP, .rw, 0⟩, ⟨TIM.PTP.SONLY, .rw, 1⟩]⟩,
    ⟨0x1403, 1, 1, [⟨TIM.SERVO.BW, .rw, 1⟩, ⟨TIM.SERVO.TVCNT, .rw, 16⟩, ⟨TIM.SERVO.TVTHR, .rw, 100⟩,
    ⟨TIM.SERVO.STEPTH, .rw, 1000⟩]⟩,
    ⟨0x1404, 2, 2, [⟨TIM.PORT.PEN, .rwl, 0⟩, ⟨TIM.PORT.ASYM, .rw, 0⟩, ⟨TIM.PORT.RXLAT, .rw, 0⟩, ⟨TIM.PORT.TXLAT, .rw,
    0⟩]⟩,
    ⟨0x1405, 1, 1, [⟨TIM.PPS.OEN, .rw, 0⟩, ⟨TIM.PPS.FREE, .rw, 0⟩, ⟨TIM.PPS.WIDTH, .rw, 100⟩, ⟨TIM.PPS.INDLY, .rw,
    0⟩]⟩,
    ⟨0x1406, 1, 1, [⟨TIM.SYNC.OEN, .rwl, 0⟩, ⟨TIM.SYNC.SDIV, .rwl, 1⟩, ⟨TIM.SYNC.STOL, .rw, 16⟩, ⟨TIM.SYNC.SDLY, .rwl,
    0⟩]⟩,
    ⟨0x1407, 1, 1, [⟨TIM.GRID.GOFS, .rwl, 0⟩]⟩,
    ⟨0x1408, 1, 18, [⟨TIM.TSI.EDGE, .rwl, 0⟩, ⟨TIM.TSI.RINGEN, .rwl, 0⟩, ⟨TIM.TSI.RING, .rwl, 0⟩]⟩,
    ⟨0x1410, 1, 1, [⟨TIM.STAT.TPHERR, .ro, 0⟩, ⟨TIM.STAT.PHI, .ro, 0⟩, ⟨TIM.STAT.WAITSYNC, .ro, 0⟩, ⟨TIM.STAT.RTCBAD,
    .ro, 0⟩, ⟨TIM.STAT.CLKB, .ro, 0⟩, ⟨TIM.STAT.CLKA, .ro, 0⟩, ⟨TIM.STAT.SEL, .ro, 0⟩, ⟨TIM.STAT.DLLOCK, .ro, 0⟩,
    ⟨TIM.STAT.HOLD, .ro, 0⟩, ⟨TIM.STAT.TVALID, .ro, 0⟩]⟩,
    ⟨0x1411, 3, 1, [⟨TIM.OFS.OFS, .ro, 0⟩]⟩,
    ⟨0x1412, 1, 1, [⟨TIM.RATE.RATE, .ro, 0⟩]⟩,
    ⟨0x1413, 2, 2, [⟨TIM.PSTAT.OFFSET, .ro, 0⟩, ⟨TIM.PSTAT.MPD, .ro, 0⟩, ⟨TIM.PSTAT.PSTATE, .ro, 0⟩]⟩,
    ⟨0x1414, 4, 1, [⟨TIM.PARENT.GMID, .ro, 0⟩, ⟨TIM.PARENT.GMPRIO1, .ro, 0⟩, ⟨TIM.PARENT.GMCLASS, .ro, 0⟩,
    ⟨TIM.PARENT.GMACC, .ro, 0⟩, ⟨TIM.PARENT.STEPS, .ro, 0⟩, ⟨TIM.PARENT.UTCOFS, .ro, 0⟩, ⟨TIM.PARENT.TRACE, .ro, 0⟩,
    ⟨TIM.PARENT.LEAP61, .ro, 0⟩, ⟨TIM.PARENT.LEAP59, .ro, 0⟩]⟩,
    ⟨0x1415, 3, 18, [⟨TIM.TSV.NUM, .ro, 0⟩, ⟨TIM.TSV.RISE, .ro, 0⟩, ⟨TIM.TSV.TAP, .ro, 0⟩, ⟨TIM.TSV.TIME, .ro, 0⟩]⟩,
    ⟨0x1416, 1, 1, [⟨TIM.EVT.TSIOVR, .w1c, 0⟩, ⟨TIM.EVT.SYNCERR, .w1c, 0⟩, ⟨TIM.EVT.HOLDIN, .w1c, 0⟩, ⟨TIM.EVT.STEP,
    .w1c, 0⟩, ⟨TIM.EVT.DLLUL, .w1c, 0⟩, ⟨TIM.EVT.CLKSW, .w1c, 0⟩]⟩,
    ⟨0x1417, 2, 1, [⟨TIM.CNT.TSIOVR, .ro, 0⟩, ⟨TIM.CNT.PDROP, .ro, 0⟩, ⟨TIM.CNT.PPSBAD, .ro, 0⟩, ⟨TIM.CNT.HOLD, .ro,
    0⟩, ⟨TIM.CNT.CLKSW, .ro, 0⟩]⟩]

/-- The attributes of block NET. -/
def rowsNET : List AttrRow := [
    ⟨0x1800, 1, 1, [⟨NET.CFG.MODE, .rwl, 0⟩, ⟨NET.CFG.LIFE, .rw, 2⟩, ⟨NET.CFG.LANTO, .rw, 3⟩, ⟨NET.CFG.FORGET, .rw,
    400⟩]⟩,
    ⟨0x1801, 2, 1, [⟨NET.MAC.ADDR, .rwl, 0⟩]⟩,
    ⟨0x1802, 2, 1, [⟨NET.IP.VID, .rwl, 0⟩, ⟨NET.IP.PCP, .rwl, 0⟩, ⟨NET.IP.VTAG, .rwl, 0⟩, ⟨NET.IP.TTL, .rwl, 64⟩,
    ⟨NET.IP.DSCP, .rwl, 46⟩, ⟨NET.IP.IPA, .rwl, 0⟩]⟩,
    ⟨0x1803, 2, 1, [⟨NET.DMAC.ADDR, .rwl, 0⟩]⟩,
    ⟨0x1804, 1, 2, [⟨NET.PORT.EN, .rwl, 0⟩, ⟨NET.PORT.SPEED, .rwl, 2⟩, ⟨NET.PORT.TXDLY, .rwl, 0⟩, ⟨NET.PORT.RXDLY,
    .rwl, 0⟩, ⟨NET.PORT.PHYAD, .rwl, 0⟩]⟩,
    ⟨0x1805, 3, 1, [⟨NET.SAFE.WIN, .rw, 1000⟩, ⟨NET.SAFE.SMC, .rwl, 0⟩, ⟨NET.SAFE.ETYPE, .rwl, 0x88B5⟩]⟩,
    ⟨0x1806, 1, 1, [⟨NET.MDIO.GO, .wo, 0⟩, ⟨NET.MDIO.BUSY, .ro, 0⟩, ⟨NET.MDIO.OP, .rw, 0⟩, ⟨NET.MDIO.PHYAD, .rw, 0⟩,
    ⟨NET.MDIO.REG, .rw, 0⟩, ⟨NET.MDIO.DATA, .rw, 0⟩]⟩,
    ⟨0x1810, 1, 2, [⟨NET.PSTAT.SILENT, .ro, 0⟩, ⟨NET.PSTAT.LINK, .ro, 0⟩]⟩,
    ⟨0x1811, 4, 2, [⟨NET.PCNT.RXOK, .ro, 0⟩, ⟨NET.PCNT.TXOK, .ro, 0⟩, ⟨NET.PCNT.RXCRC, .ro, 0⟩, ⟨NET.PCNT.RXDROP, .ro,
    0⟩, ⟨NET.PCNT.TXDROP, .ro, 0⟩, ⟨NET.PCNT.RXOVR, .ro, 0⟩, ⟨NET.PCNT.WRONGLAN, .ro, 0⟩]⟩,
    ⟨0x1812, 4, 1, [⟨NET.PRPCNT.DUPL, .ro, 0⟩, ⟨NET.PRPCNT.UNIQA, .ro, 0⟩, ⟨NET.PRPCNT.UNIQB, .ro, 0⟩,
    ⟨NET.PRPCNT.REPEAT, .ro, 0⟩, ⟨NET.PRPCNT.TBLFULL, .ro, 0⟩, ⟨NET.PRPCNT.SUPRX, .ro, 0⟩, ⟨NET.PRPCNT.SSINGLE, .ro,
    0⟩, ⟨NET.PRPCNT.SMISM, .ro, 0⟩, ⟨NET.PRPCNT.SLATE, .ro, 0⟩]⟩,
    ⟨0x1813, 1, 1, [⟨NET.EVT.SMISM, .w1c, 0⟩, ⟨NET.EVT.LANSIL, .w1c, 0⟩, ⟨NET.EVT.LINK, .w1c, 0⟩]⟩]

/-- The attributes of block SIO. -/
def rowsSIO : List AttrRow := [
    ⟨0x1C00, 1, 8, [⟨SIO.SICFG.MODE, .rwl, 0⟩, ⟨SIO.SICFG.FILT, .rwl, 0⟩, ⟨SIO.SICFG.TDISC, .rwl, 100⟩,
    ⟨SIO.SICFG.SDO, .rwl, 0⟩, ⟨SIO.SICFG.EVEN, .rw, 1⟩]⟩,
    ⟨0x1C01, 1, 4, [⟨SIO.SDOCFG.EN, .rwl, 0⟩, ⟨SIO.SDOCFG.RESTART, .rwl, 1⟩, ⟨SIO.SDOCFG.TEN, .rwl, 1⟩,
    ⟨SIO.SDOCFG.TPER, .rwl, 10⟩, ⟨SIO.SDOCFG.TPW, .rwl, 20⟩, ⟨SIO.SDOCFG.RBT, .rwl, 50⟩]⟩,
    ⟨0x1C02, 1, 1, [⟨SIO.FCFG.TXEN, .rwl, 0⟩, ⟨SIO.FCFG.NODE, .rwl, 1⟩, ⟨SIO.FCFG.FPER, .rwl, 10⟩]⟩,
    ⟨0x1C03, 1, 4, [⟨SIO.RXCFG.EN, .rwl, 0⟩, ⟨SIO.RXCFG.NODE, .rwl, 0⟩, ⟨SIO.RXCFG.REQBOTH, .rwl, 1⟩,
    ⟨SIO.RXCFG.TRIPM, .rwl, 0⟩, ⟨SIO.RXCFG.RXTO, .rwl, 30⟩, ⟨SIO.RXCFG.SIMASK, .rwl, 0xFF⟩, ⟨SIO.RXCFG.SDO, .rwl, 0⟩]⟩,
    ⟨0x1C04, 1, 4, [⟨SIO.SDOCTL.ACK, .wo, 0⟩, ⟨SIO.SDOCTL.ON, .rw, 0⟩]⟩,
    ⟨0x1C05, 1, 1, [⟨SIO.SICTL.ACK, .wo, 0⟩]⟩,
    ⟨0x1C10, 1, 8, [⟨SIO.SISTAT.DEMAND, .ro, 1⟩, ⟨SIO.SISTAT.FAULT, .ro, 0⟩, ⟨SIO.SISTAT.A, .ro, 0⟩, ⟨SIO.SISTAT.B,
    .ro, 0⟩]⟩,
    ⟨0x1C11, 1, 4, [⟨SIO.SDOSTAT.PSTATE, .ro, 0⟩, ⟨SIO.SDOSTAT.FCAUSE, .ro, 0⟩, ⟨SIO.SDOSTAT.TRESA, .ro, 0⟩,
    ⟨SIO.SDOSTAT.TRESB, .ro, 0⟩, ⟨SIO.SDOSTAT.NOTRUN, .ro, 1⟩, ⟨SIO.SDOSTAT.FAULT, .ro, 0⟩, ⟨SIO.SDOSTAT.HOST, .ro,
    1⟩, ⟨SIO.SDOSTAT.TRIP, .ro, 0⟩, ⟨SIO.SDOSTAT.SI, .ro, 0⟩, ⟨SIO.SDOSTAT.REMOTE, .ro, 0⟩, ⟨SIO.SDOSTAT.FLT, .ro, 0⟩,
    ⟨SIO.SDOSTAT.FA, .ro, 0⟩, ⟨SIO.SDOSTAT.FB, .ro, 0⟩]⟩,
    ⟨0x1C12, 1, 4, [⟨SIO.RXSTAT.FCNT, .ro, 0⟩, ⟨SIO.RXSTAT.SIDEM, .ro, 0⟩, ⟨SIO.RXSTAT.LIVE, .ro, 0⟩,
    ⟨SIO.RXSTAT.BOTH, .ro, 0⟩]⟩,
    ⟨0x1C13, 1, 1, [⟨SIO.EVT.RXBAD, .w1c, 0⟩, ⟨SIO.EVT.REMTO, .w1c, 0⟩, ⟨SIO.EVT.TFAIL, .w1c, 0⟩, ⟨SIO.EVT.SDOF, .w1c,
    0⟩, ⟨SIO.EVT.DISC, .w1c, 0⟩, ⟨SIO.EVT.SIDEM, .w1c, 0⟩]⟩,
    ⟨0x1C14, 2, 1, [⟨SIO.CNT.TESTS, .ro, 0⟩, ⟨SIO.CNT.RXBAD, .ro, 0⟩, ⟨SIO.CNT.REMTO, .ro, 0⟩, ⟨SIO.CNT.TFAIL, .ro,
    0⟩, ⟨SIO.CNT.DISCARD, .ro, 0⟩, ⟨SIO.CNT.DISC, .ro, 0⟩]⟩]

/-- The attributes of block LNK. -/
def rowsLNK : List AttrRow := [
    ⟨0x2000, 1, 1, [⟨LNK.CFG.DMAX, .rwl, 20000⟩, ⟨LNK.CFG.LOLT, .rwl, 50⟩, ⟨LNK.CFG.ADMTO, .rw, 5⟩]⟩,
    ⟨0x2001, 1, 1, [⟨LNK.DRV.DTYPE, .rwl, 0⟩, ⟨LNK.DRV.TTURN, .rwl, 0⟩, ⟨LNK.DRV.TDRV, .rwl, 0⟩]⟩,
    ⟨0x2002, 1, 6, [⟨LNK.VPL.VMIN, .rw, 0⟩, ⟨LNK.VPL.VMAX, .rw, 4095⟩, ⟨LNK.VPL.VDEV, .rw, 0⟩]⟩,
    ⟨0x2010, 1, 192, [⟨LNK.LCFG.IDLOCK, .rw, 0⟩, ⟨LNK.LCFG.AUTO, .rw, 0⟩]⟩,
    ⟨0x2011, 1, 192, [⟨LNK.STATE.AUTOFAIL, .ro, 0⟩, ⟨LNK.STATE.CAUSE, .ro, 0⟩, ⟨LNK.STATE.ARM, .ro, 0xFF⟩,
    ⟨LNK.STATE.STEP, .ro, 0⟩, ⟨LNK.STATE.STATE, .ro, 0⟩]⟩,
    ⟨0x2012, 1, 192, [⟨LNK.STAT.LOCK, .ro, 0⟩, ⟨LNK.STAT.BYPST, .ro, 0⟩, ⟨LNK.STAT.TRIPHOLD, .ro, 0⟩,
    ⟨LNK.STAT.ADMFAIL, .w1c, 0⟩, ⟨LNK.STAT.ADMDONE, .w1c, 0⟩, ⟨LNK.STAT.RETIRED, .w1c, 0⟩, ⟨LNK.STAT.DSTEP, .w1c, 0⟩,
    ⟨LNK.STAT.STALE, .w1c, 0⟩, ⟨LNK.STAT.DISC, .w1c, 0⟩, ⟨LNK.STAT.LOL, .w1c, 0⟩, ⟨LNK.STAT.CODE, .w1c, 0⟩,
    ⟨LNK.STAT.CRC, .w1c, 0⟩]⟩,
    ⟨0x2013, 2, 192, [⟨LNK.UPL.TEMP, .ro, 0⟩, ⟨LNK.UPL.SEQ, .ro, 0⟩, ⟨LNK.UPL.ECHO, .ro, 0⟩, ⟨LNK.UPL.VCAP, .ro, 0⟩,
    ⟨LNK.UPL.STAT, .ro, 0⟩]⟩,
    ⟨0x2014, 1, 192, [⟨LNK.RTT.DLY, .ro, 0⟩, ⟨LNK.RTT.LAST, .ro, 0⟩]⟩,
    ⟨0x2015, 2, 192, [⟨LNK.DRVID.DTYPE, .ro, 0⟩, ⟨LNK.DRVID.DFW, .ro, 0⟩, ⟨LNK.DRVID.DRVID, .ro, 0⟩]⟩,
    ⟨0x2016, 2, 192, [⟨LNK.CNT.CRC, .ro, 0⟩, ⟨LNK.CNT.CODE, .ro, 0⟩, ⟨LNK.CNT.LOL, .ro, 0⟩, ⟨LNK.CNT.STALE, .ro, 0⟩,
    ⟨LNK.CNT.DISC, .ro, 0⟩, ⟨LNK.CNT.ADMFAIL, .ro, 0⟩]⟩]

/-- The attributes of block ARM. -/
def rowsARM : List AttrRow := [
    ⟨0x2400, 1, 6, [⟨ARM.CFG.MODE, .rwl, 0⟩, ⟨ARM.CFG.CRET, .rw, 1⟩, ⟨ARM.CFG.LMAX, .rw, 0⟩, ⟨ARM.CFG.TREF, .rw, 100⟩,
    ⟨ARM.CFG.WARM, .rw, 2⟩]⟩,
    ⟨0x2401, 1, 6, [⟨ARM.XOFF.XOFF, .rwl, 0⟩]⟩,
    ⟨0x2402, 1, 6, [⟨ARM.BAND.RB, .rw, 0⟩]⟩,
    ⟨0x2403, 1, 6, [⟨ARM.IDB.IDB, .rw, 0x00000000⟩]⟩,
    ⟨0x2404, 1, 6, [⟨ARM.VRET.VRHI, .rw, 0xFFFF⟩, ⟨ARM.VRET.VRLO, .rw, 0⟩]⟩,
    ⟨0x2410, 1, 6, [⟨ARM.STAT.NMAP, .ro, 0⟩, ⟨ARM.STAT.LREQ, .ro, 0⟩, ⟨ARM.STAT.LDEL, .ro, 0⟩, ⟨ARM.STAT.NEDGE, .ro,
    0⟩, ⟨ARM.STAT.DIR, .ro, 0⟩, ⟨ARM.STAT.AUTO, .ro, 0⟩]⟩,
    ⟨0x2411, 1, 6, [⟨ARM.ACCT.SPARE, .ro, 0⟩, ⟨ARM.ACCT.NACT, .ro, 0⟩, ⟨ARM.ACCT.NELIG, .ro, 0⟩, ⟨ARM.ACCT.NSTRV, .ro,
    0⟩]⟩,
    ⟨0x2412, 1, 6, [⟨ARM.EVT.LBAD, .w1c, 0⟩, ⟨ARM.EVT.LCLAMP, .w1c, 0⟩, ⟨ARM.EVT.RPT, .w1c, 0⟩, ⟨ARM.EVT.CRET, .w1c,
    0⟩, ⟨ARM.EVT.RMISS, .w1c, 0⟩, ⟨ARM.EVT.STARVE, .w1c, 0⟩, ⟨ARM.EVT.SHORT, .w1c, 0⟩, ⟨ARM.EVT.NOSPARE, .w1c, 0⟩]⟩,
    ⟨0x2413, 2, 6, [⟨ARM.CNT.EDGES, .ro, 0⟩, ⟨ARM.CNT.SHORT, .ro, 0⟩, ⟨ARM.CNT.RMISS, .ro, 0⟩, ⟨ARM.CNT.STARVE, .ro,
    0⟩]⟩,
    ⟨0x2420, 1, 192, [⟨ARM.LST.CMD, .ro, 0⟩, ⟨ARM.LST.ELIG, .ro, 0⟩, ⟨ARM.LST.RDUE, .ro, 0⟩, ⟨ARM.LST.STRV, .ro, 0⟩,
    ⟨ARM.LST.SKEPT, .ro, 0⟩, ⟨ARM.LST.WARM, .ro, 0⟩, ⟨ARM.LST.RPTV, .ro, 0⟩, ⟨ARM.LST.RPTE, .ro, 0⟩, ⟨ARM.LST.POS,
    .ro, 0x7F⟩, ⟨ARM.LST.AGE, .ro, 0⟩]⟩]

/-- The attributes of block MOD. -/
def rowsMOD : List AttrRow := [
    ⟨0x2800, 2, 6, [⟨MOD.ACFG.MINPW, .rwl, 80000⟩, ⟨MOD.ACFG.PER, .rwl, 0x01312D00⟩]⟩,
    ⟨0x2801, 1, 192, [⟨MOD.LPH.PH, .rw, 0⟩]⟩,
    ⟨0x2802, 1, 1, [⟨MOD.CMT.SRC, .rw, 0⟩, ⟨MOD.CMT.MB2, .rw, 0⟩, ⟨MOD.CMT.MB1, .rw, 0⟩, ⟨MOD.CMT.MB0, .rw, 0⟩,
    ⟨MOD.CMT.CODE, .rw, 0⟩]⟩,
    ⟨0x2803, 1, 8, [⟨MOD.MASK.OVR, .rw, 0⟩]⟩,
    ⟨0x2804, 1, 16, [⟨MOD.TRG.EN, .rwl, 0⟩, ⟨MOD.TRG.KIND, .rwl, 0⟩, ⟨MOD.TRG.SRC, .rwl, 0⟩, ⟨MOD.TRG.EVT, .rwl, 0⟩,
    ⟨MOD.TRG.PRESC, .rwl, 0⟩, ⟨MOD.TRG.PHASE, .rwl, 0⟩, ⟨MOD.TRG.DELAY, .rwl, 0⟩]⟩,
    ⟨0x2810, 2, 192, [⟨MOD.LCMP.CMPB, .ro, 0⟩, ⟨MOD.LCMP.CMPA, .ro, 0⟩]⟩,
    ⟨0x2811, 1, 192, [⟨MOD.LST.TRK, .ro, 0⟩, ⟨MOD.LST.EDGE, .ro, 0⟩, ⟨MOD.LST.CARRY, .ro, 0⟩, ⟨MOD.LST.X, .ro, 0⟩]⟩,
    ⟨0x2812, 1, 6, [⟨MOD.EVT.CMPBAD, .w1c, 0⟩, ⟨MOD.EVT.CARRY, .w1c, 0⟩, ⟨MOD.EVT.CLAMP, .w1c, 0⟩, ⟨MOD.EVT.SUPPR,
    .w1c, 0⟩]⟩,
    ⟨0x2813, 2, 6, [⟨MOD.CNT.SUPPR, .ro, 0⟩, ⟨MOD.CNT.CLAMP, .ro, 0⟩, ⟨MOD.CNT.CARRY, .ro, 0⟩]⟩]

/-- The attributes of block DHB. -/
def rowsDHB : List AttrRow := [
    ⟨0x2C00, 2, 12, [⟨DHB.CFG.DEAD, .rwl, 8000⟩, ⟨DHB.CFG.MINPW, .rwl, 16000⟩, ⟨DHB.CFG.BREF, .rwl, 3200⟩,
    ⟨DHB.CFG.MODE, .rwl, 0⟩, ⟨DHB.CFG.BREFEN, .rw, 1⟩, ⟨DHB.CFG.CSRC, .rwl, 0⟩, ⟨DHB.CFG.HS, .rwl, 8⟩]⟩,
    ⟨0x2C01, 2, 12, [⟨DHB.CAR.PH, .rw, 0⟩, ⟨DHB.CAR.PER, .rwl, 400000⟩]⟩,
    ⟨0x2C02, 2, 12, [⟨DHB.CMP.CMPB, .rw, 0⟩, ⟨DHB.CMP.CMPA, .rw, 0⟩]⟩,
    ⟨0x2C03, 1, 12, [⟨DHB.FORCE.EN, .rw, 0⟩, ⟨DHB.FORCE.FU, .rw, 0⟩, ⟨DHB.FORCE.FL, .rw, 0⟩]⟩,
    ⟨0x2C04, 1, 12, [⟨DHB.CTL.RESUME, .wo, 0⟩]⟩,
    ⟨0x2C10, 1, 12, [⟨DHB.STAT.PSTATE, .ro, 0⟩, ⟨DHB.STAT.FCAUSE, .ro, 0⟩, ⟨DHB.STAT.GATEW, .ro, 0⟩, ⟨DHB.STAT.TRK,
    .ro, 0⟩, ⟨DHB.STAT.UON, .ro, 0⟩, ⟨DHB.STAT.LON, .ro, 0⟩, ⟨DHB.STAT.UAK, .ro, 0⟩, ⟨DHB.STAT.LAK, .ro, 0⟩]⟩,
    ⟨0x2C11, 1, 12, [⟨DHB.EVT.FAULT, .w1c, 0⟩, ⟨DHB.EVT.TRIPDT, .w1c, 0⟩, ⟨DHB.EVT.BREF, .w1c, 0⟩, ⟨DHB.EVT.CANCEL,
    .w1c, 0⟩, ⟨DHB.EVT.CMPBAD, .w1c, 0⟩, ⟨DHB.EVT.CLAMP, .w1c, 0⟩, ⟨DHB.EVT.SUPPR, .w1c, 0⟩]⟩,
    ⟨0x2C12, 2, 12, [⟨DHB.CNT.SUPPR, .ro, 0⟩, ⟨DHB.CNT.BREF, .ro, 0⟩, ⟨DHB.CNT.CLAMP, .ro, 0⟩, ⟨DHB.CNT.FAULT, .ro,
    0⟩]⟩]

/-- The attributes of block GPR. -/
def rowsGPR : List AttrRow := [
    ⟨0x3000, 2, 6, [⟨GPR.IBIN.ITH3, .rw, 3000⟩, ⟨GPR.IBIN.ITH2, .rw, 1000⟩, ⟨GPR.IBIN.ITH1, .rw, 300⟩]⟩,
    ⟨0x3001, 1, 6, [⟨GPR.TBIN.THYS, .rw, 3⟩, ⟨GPR.TBIN.TTH3, .rw, 0x96⟩, ⟨GPR.TBIN.TTH2, .rw, 0x78⟩, ⟨GPR.TBIN.TTH1,
    .rw, 0x5A⟩]⟩,
    ⟨0x3002, 1, 192, [⟨GPR.PTAB.CINS, .rw, 0x4BD2⟩, ⟨GPR.PTAB.CBYP, .rw, 0x4BD2⟩]⟩,
    ⟨0x3003, 1, 6, [⟨GPR.DCFG.OTN, .rw, 3⟩, ⟨GPR.DCFG.OTR, .rw, 1⟩, ⟨GPR.DCFG.SBR, .rw, 1⟩, ⟨GPR.DCFG.DSR, .rw, 1⟩]⟩,
    ⟨0x3004, 2, 12, [⟨GPR.PPROF.LHOLDS, .rw, 1⟩, ⟨GPR.PPROF.LOFFF, .rw, 0⟩, ⟨GPR.PPROF.LTSTR, .rw, 320⟩,
    ⟨GPR.PPROF.LTWK, .rw, 1600⟩, ⟨GPR.PPROF.UHOLDS, .rw, 1⟩, ⟨GPR.PPROF.UOFFF, .rw, 0⟩, ⟨GPR.PPROF.UTSTR, .rw, 320⟩,
    ⟨GPR.PPROF.UTWK, .rw, 1600⟩]⟩,
    ⟨0x3005, 1, 192, [⟨GPR.ODG.REQ, .wo, 0⟩]⟩,
    ⟨0x3010, 1, 192, [⟨GPR.LST.CODE, .ro, 0⟩, ⟨GPR.LST.ENTRY, .ro, 0⟩, ⟨GPR.LST.IB, .ro, 0⟩, ⟨GPR.LST.TB, .ro, 0⟩]⟩,
    ⟨0x3011, 1, 192, [⟨GPR.LDIAG.ODRES, .ro, 0⟩, ⟨GPR.LDIAG.ROT, .w1c, 0⟩, ⟨GPR.LDIAG.RSB, .w1c, 0⟩, ⟨GPR.LDIAG.RDS,
    .w1c, 0⟩]⟩,
    ⟨0x3012, 1, 6, [⟨GPR.EVT.ODFAIL, .w1c, 0⟩, ⟨GPR.EVT.DRPT, .w1c, 0⟩, ⟨GPR.EVT.DFLT, .w1c, 0⟩, ⟨GPR.EVT.IBAD, .w1c,
    0⟩]⟩,
    ⟨0x3013, 2, 6, [⟨GPR.CNT.DESAT, .ro, 0⟩, ⟨GPR.CNT.SELFB, .ro, 0⟩, ⟨GPR.CNT.OTEMP, .ro, 0⟩, ⟨GPR.CNT.ODFAIL, .ro,
    0⟩]⟩]

/-- The attributes of block MON. -/
def rowsMON : List AttrRow := [
    ⟨0x3400, 1, 96, [⟨MON.CFG.MODE, .rwl, 0⟩, ⟨MON.CFG.HYST, .rw, 0⟩, ⟨MON.CFG.FAILTRIP, .rwl, 0⟩, ⟨MON.CFG.CODE, .rw,
    0⟩]⟩,
    ⟨0x3401, 1, 104, [⟨MON.ROUTE.LEN, .rwl, 0⟩, ⟨MON.ROUTE.SDO, .rwl, 0⟩, ⟨MON.ROUTE.DHB, .rwl, 0⟩, ⟨MON.ROUTE.ARM,
    .rwl, 0⟩]⟩,
    ⟨0x3402, 1, 1, [⟨MON.TST.RBTOL, .rw, 16⟩, ⟨MON.TST.GUARD, .rw, 16⟩, ⟨MON.TST.MARGIN, .rw, 8⟩, ⟨MON.TST.TSTEN, .rw,
    1⟩]⟩,
    ⟨0x3410, 4, 1, [⟨MON.DEC.PIN, .ro, 0⟩, ⟨MON.DEC.CMP, .ro, 0⟩]⟩,
    ⟨0x3411, 4, 1, [⟨MON.LATCH.LATCH, .ro, 0⟩]⟩,
    ⟨0x3412, 1, 1, [⟨MON.HOLD.HELD, .ro, 0⟩]⟩,
    ⟨0x3413, 3, 1, [⟨MON.FIRST.SRC, .ro, 0xFF⟩, ⟨MON.FIRST.TAP, .ro, 0⟩, ⟨MON.FIRST.TIME, .ro, 0⟩]⟩,
    ⟨0x3414, 1, 96, [⟨MON.STAT.ACTIVE, .ro, 0⟩, ⟨MON.STAT.SETTLE, .ro, 0⟩, ⟨MON.STAT.INBAND, .ro, 0⟩,
    ⟨MON.STAT.TESTING, .ro, 0⟩, ⟨MON.STAT.TRES, .ro, 0⟩, ⟨MON.STAT.RBFAIL, .ro, 0⟩]⟩,
    ⟨0x3415, 1, 96, [⟨MON.RB.EXP, .ro, 0⟩, ⟨MON.RB.MEAS, .ro, 0⟩]⟩,
    ⟨0x3416, 1, 1, [⟨MON.EVT.TEXT, .w1c, 0⟩, ⟨MON.EVT.TCOMP, .w1c, 0⟩, ⟨MON.EVT.RBFAIL, .w1c, 0⟩, ⟨MON.EVT.TFAIL,
    .w1c, 0⟩, ⟨MON.EVT.INBAND, .w1c, 0⟩, ⟨MON.EVT.CLRREF, .w1c, 0⟩]⟩,
    ⟨0x3417, 2, 104, [⟨MON.CNT.ACT, .ro, 0⟩, ⟨MON.CNT.LATCH, .ro, 0⟩, ⟨MON.CNT.TPASS, .ro, 0⟩, ⟨MON.CNT.TFAIL, .ro,
    0⟩, ⟨MON.CNT.RBFAIL, .ro, 0⟩]⟩]

/-- The attributes of block ADC. -/
def rowsADC : List AttrRow := [
    ⟨0x3800, 1, 4, [⟨ADC.GCFG.ILV, .rwl, 0⟩, ⟨ADC.GCFG.ILVIN, .rwl, 0⟩, ⟨ADC.GCFG.CALEN, .rw, 1⟩, ⟨ADC.GCFG.SHTOL,
    .rw, 8⟩]⟩,
    ⟨0x3801, 1, 32, [⟨ADC.SLOT.MODE, .rwl, 0⟩, ⟨ADC.SLOT.CH, .rwl, 0⟩, ⟨ADC.SLOT.RINGEN, .rwl, 0⟩, ⟨ADC.SLOT.RING,
    .rwl, 0⟩, ⟨ADC.SLOT.PHASE, .rwl, 0⟩]⟩,
    ⟨0x3802, 1, 64, [⟨ADC.SEQ.EN, .rwl, 0⟩, ⟨ADC.SEQ.TRG, .rwl, 0⟩, ⟨ADC.SEQ.SLOT, .rwl, 0⟩, ⟨ADC.SEQ.ROUND, .rwl, 0⟩,
    ⟨ADC.SEQ.CH, .rwl, 0⟩]⟩,
    ⟨0x3803, 1, 16, [⟨ADC.QCFG.EN, .rwl, 0⟩, ⟨ADC.QCFG.SRC, .rwl, 0⟩, ⟨ADC.QCFG.ENG, .rwl, 0⟩, ⟨ADC.QCFG.RINGEN, .rwl,
    0⟩, ⟨ADC.QCFG.RING, .rwl, 0⟩]⟩,
    ⟨0x3804, 1, 16, [⟨ADC.DEC.EN, .rwl, 0⟩, ⟨ADC.DEC.G, .rwl, 0⟩, ⟨ADC.DEC.SLOT, .rwl, 0⟩]⟩,
    ⟨0x3805, 1, 1, [⟨ADC.QSTART.GO, .wo, 0⟩]⟩,
    ⟨0x3810, 1, 4, [⟨ADC.GSTAT.READY, .ro, 0⟩, ⟨ADC.GSTAT.RUNNING, .ro, 0⟩, ⟨ADC.GSTAT.RUNQ, .ro, 0⟩, ⟨ADC.GSTAT.PEND,
    .ro, 0⟩, ⟨ADC.GSTAT.PENDQ, .ro, 0⟩, ⟨ADC.GSTAT.NFAIL, .ro, 0⟩]⟩,
    ⟨0x3811, 2, 4, [⟨ADC.MAP.ASSIGN, .ro, 0x876543210⟩]⟩,
    ⟨0x3812, 1, 36, [⟨ADC.CAL.GERR, .ro, 0⟩, ⟨ADC.CAL.OERR, .ro, 0⟩, ⟨ADC.CAL.AGE, .ro, 0⟩]⟩,
    ⟨0x3813, 1, 32, [⟨ADC.RES.VALID, .ro, 0⟩, ⟨ADC.RES.CLIP, .ro, 0⟩, ⟨ADC.RES.SWAP, .ro, 0⟩, ⟨ADC.RES.CH, .ro, 0⟩,
    ⟨ADC.RES.SLOT, .ro, 0⟩, ⟨ADC.RES.ROUND, .ro, 0⟩, ⟨ADC.RES.VALUE, .ro, 0⟩]⟩,
    ⟨0x3814, 1, 4, [⟨ADC.EVT.NOCAL, .w1c, 0⟩, ⟨ADC.EVT.SLFAIL, .w1c, 0⟩, ⟨ADC.EVT.SHDIFF, .w1c, 0⟩, ⟨ADC.EVT.CLIP,
    .w1c, 0⟩, ⟨ADC.EVT.OVR, .w1c, 0⟩]⟩,
    ⟨0x3815, 2, 4, [⟨ADC.CNT.LOST, .ro, 0⟩, ⟨ADC.CNT.SWAPS, .ro, 0⟩, ⟨ADC.CNT.RUNS, .ro, 0⟩]⟩]

/-- The attributes of block PGM. -/
def rowsPGM : List AttrRow := [
    ⟨0x3C00, 1, 1, [⟨PGM.CFG.RETEN, .rwl, 1⟩]⟩,
    ⟨0x3C01, 1, 32, [⟨PGM.RCFG.EN, .rwl, 0⟩, ⟨PGM.RCFG.MODE, .rwl, 0⟩, ⟨PGM.RCFG.PRIO, .rwl, 3⟩, ⟨PGM.RCFG.MAXP, .rwl,
    1⟩, ⟨PGM.RCFG.MINP, .rwl, 0⟩]⟩,
    ⟨0x3C02, 1, 1, [⟨PGM.HTRIG.GO, .wo, 0⟩]⟩,
    ⟨0x3C10, 1, 1, [⟨PGM.POOL.FREE, .ro, 1888⟩, ⟨PGM.POOL.RETIRED, .ro, 0⟩]⟩,
    ⟨0x3C11, 4, 32, [⟨PGM.CAP.TIME, .ro, 0⟩, ⟨PGM.CAP.TAP, .ro, 0⟩, ⟨PGM.CAP.TPAGE, .ro, 0xFFF⟩, ⟨PGM.CAP.FIRST, .ro,
    0xFFF⟩, ⟨PGM.CAP.SHORT, .ro, 0⟩, ⟨PGM.CAP.TRIG, .ro, 0⟩, ⟨PGM.CAP.POST, .ro, 0⟩, ⟨PGM.CAP.PRE, .ro, 0⟩,
    ⟨PGM.CAP.STATE, .ro, 0⟩]⟩,
    ⟨0x3C12, 1, 32, [⟨PGM.RSTAT.NPAGE, .ro, 0⟩, ⟨PGM.RSTAT.NFROZ, .ro, 0⟩]⟩,
    ⟨0x3C13, 2, 32, [⟨PGM.RCNT.LOST, .ro, 0⟩, ⟨PGM.RCNT.HELD, .ro, 0⟩, ⟨PGM.RCNT.TRIGX, .ro, 0⟩, ⟨PGM.RCNT.THEFT, .ro,
    0⟩, ⟨PGM.RCNT.STOLEN, .ro, 0⟩]⟩,
    ⟨0x3C14, 2, 1, [⟨PGM.ECC.CE, .ro, 0⟩, ⟨PGM.ECC.UE, .ro, 0⟩, ⟨PGM.ECC.LASTUE, .ro, 0⟩, ⟨PGM.ECC.SYN, .ro, 0⟩,
    ⟨PGM.ECC.PAGE, .ro, 0⟩, ⟨PGM.ECC.WORD, .ro, 0⟩]⟩,
    ⟨0x3C15, 1, 1, [⟨PGM.EVT.RESVCUT, .w1c, 0⟩, ⟨PGM.EVT.UE, .w1c, 0⟩, ⟨PGM.EVT.CE, .w1c, 0⟩, ⟨PGM.EVT.FROZEN, .w1c,
    0⟩, ⟨PGM.EVT.LOST, .w1c, 0⟩]⟩,
    ⟨0x3C40, 2, 256, [⟨PGM.PDSC.SEQ, .ro, 0⟩, ⟨PGM.PDSC.CE, .ro, 0⟩, ⟨PGM.PDSC.UE, .ro, 0⟩, ⟨PGM.PDSC.TRG, .ro, 0⟩,
    ⟨PGM.PDSC.RING, .ro, 0⟩, ⟨PGM.PDSC.PST, .ro, 0⟩, ⟨PGM.PDSC.NEXT, .ro, 0xFFF⟩, ⟨PGM.PDSC.FILL, .ro, 0⟩]⟩,
    ⟨0x3C41, 2, 256, [⟨⟨0x3C41, 63, 48⟩, .ro, 0⟩, ⟨⟨0x3C41, 34, 34⟩, .ro, 0⟩, ⟨⟨0x3C41, 33, 33⟩, .ro, 0⟩, ⟨⟨0x3C41,
    32, 32⟩, .ro, 0⟩, ⟨⟨0x3C41, 31, 27⟩, .ro, 0⟩, ⟨⟨0x3C41, 26, 24⟩, .ro, 0⟩, ⟨⟨0x3C41, 23, 12⟩, .ro, 0xFFF⟩,
    ⟨⟨0x3C41, 10, 0⟩, .ro, 0⟩]⟩,
    ⟨0x3C42, 2, 256, [⟨⟨0x3C42, 63, 48⟩, .ro, 0⟩, ⟨⟨0x3C42, 34, 34⟩, .ro, 0⟩, ⟨⟨0x3C42, 33, 33⟩, .ro, 0⟩, ⟨⟨0x3C42,
    32, 32⟩, .ro, 0⟩, ⟨⟨0x3C42, 31, 27⟩, .ro, 0⟩, ⟨⟨0x3C42, 26, 24⟩, .ro, 0⟩, ⟨⟨0x3C42, 23, 12⟩, .ro, 0xFFF⟩,
    ⟨⟨0x3C42, 10, 0⟩, .ro, 0⟩]⟩,
    ⟨0x3C43, 2, 256, [⟨⟨0x3C43, 63, 48⟩, .ro, 0⟩, ⟨⟨0x3C43, 34, 34⟩, .ro, 0⟩, ⟨⟨0x3C43, 33, 33⟩, .ro, 0⟩, ⟨⟨0x3C43,
    32, 32⟩, .ro, 0⟩, ⟨⟨0x3C43, 31, 27⟩, .ro, 0⟩, ⟨⟨0x3C43, 26, 24⟩, .ro, 0⟩, ⟨⟨0x3C43, 23, 12⟩, .ro, 0xFFF⟩,
    ⟨⟨0x3C43, 10, 0⟩, .ro, 0⟩]⟩,
    ⟨0x3C44, 2, 256, [⟨⟨0x3C44, 63, 48⟩, .ro, 0⟩, ⟨⟨0x3C44, 34, 34⟩, .ro, 0⟩, ⟨⟨0x3C44, 33, 33⟩, .ro, 0⟩, ⟨⟨0x3C44,
    32, 32⟩, .ro, 0⟩, ⟨⟨0x3C44, 31, 27⟩, .ro, 0⟩, ⟨⟨0x3C44, 26, 24⟩, .ro, 0⟩, ⟨⟨0x3C44, 23, 12⟩, .ro, 0xFFF⟩,
    ⟨⟨0x3C44, 10, 0⟩, .ro, 0⟩]⟩,
    ⟨0x3C45, 2, 256, [⟨⟨0x3C45, 63, 48⟩, .ro, 0⟩, ⟨⟨0x3C45, 34, 34⟩, .ro, 0⟩, ⟨⟨0x3C45, 33, 33⟩, .ro, 0⟩, ⟨⟨0x3C45,
    32, 32⟩, .ro, 0⟩, ⟨⟨0x3C45, 31, 27⟩, .ro, 0⟩, ⟨⟨0x3C45, 26, 24⟩, .ro, 0⟩, ⟨⟨0x3C45, 23, 12⟩, .ro, 0xFFF⟩,
    ⟨⟨0x3C45, 10, 0⟩, .ro, 0⟩]⟩,
    ⟨0x3C46, 2, 256, [⟨⟨0x3C46, 63, 48⟩, .ro, 0⟩, ⟨⟨0x3C46, 34, 34⟩, .ro, 0⟩, ⟨⟨0x3C46, 33, 33⟩, .ro, 0⟩, ⟨⟨0x3C46,
    32, 32⟩, .ro, 0⟩, ⟨⟨0x3C46, 31, 27⟩, .ro, 0⟩, ⟨⟨0x3C46, 26, 24⟩, .ro, 0⟩, ⟨⟨0x3C46, 23, 12⟩, .ro, 0xFFF⟩,
    ⟨⟨0x3C46, 10, 0⟩, .ro, 0⟩]⟩,
    ⟨0x3C47, 2, 256, [⟨⟨0x3C47, 63, 48⟩, .ro, 0⟩, ⟨⟨0x3C47, 34, 34⟩, .ro, 0⟩, ⟨⟨0x3C47, 33, 33⟩, .ro, 0⟩, ⟨⟨0x3C47,
    32, 32⟩, .ro, 0⟩, ⟨⟨0x3C47, 31, 27⟩, .ro, 0⟩, ⟨⟨0x3C47, 26, 24⟩, .ro, 0⟩, ⟨⟨0x3C47, 23, 12⟩, .ro, 0xFFF⟩,
    ⟨⟨0x3C47, 10, 0⟩, .ro, 0⟩]⟩]

/-- The attributes of block CTL. -/
def rowsCTL : List AttrRow := [
    ⟨0x4000, 1, 24, [⟨CTL.SCFG.EN, .rwl, 0⟩, ⟨CTL.SCFG.PHASE, .rwl, 0⟩, ⟨CTL.SCFG.DIV, .rwl, 0⟩, ⟨CTL.SCFG.DOFS, .rwl,
    0⟩, ⟨CTL.SCFG.NSEC, .rwl, 0⟩, ⟨CTL.SCFG.WEIR, .rwl, 7⟩, ⟨CTL.SCFG.TSRC, .rwl, 0⟩]⟩,
    ⟨0x4001, 4, 24, [⟨CTL.SIO.KFF, .rw, 0x00000000⟩, ⟨CTL.SIO.KMEAS, .rw, 0x3F800000⟩, ⟨CTL.SIO.KREF, .rw,
    0x3F800000⟩, ⟨CTL.SIO.REFSRC, .rwl, 0⟩, ⟨CTL.SIO.MEASSRC, .rwl, 0⟩, ⟨CTL.SIO.FFSRC, .rwl, 0⟩, ⟨CTL.SIO.DEST, .rwl,
    0⟩]⟩,
    ⟨0x4002, 7, 96, [⟨CTL.SEC.C6, .rw, 0⟩, ⟨CTL.SEC.C5, .rw, 0⟩, ⟨CTL.SEC.C4, .rw, 0⟩, ⟨CTL.SEC.C3, .rw, 0⟩,
    ⟨CTL.SEC.C2, .rw, 0⟩, ⟨CTL.SEC.C1, .rw, 0⟩, ⟨CTL.SEC.TYPE, .rwl, 0⟩]⟩,
    ⟨0x4003, 2, 24, [⟨CTL.LIM.YHI, .rw, 0x7F800000⟩, ⟨CTL.LIM.YLO, .rw, 0xFF800000⟩]⟩,
    ⟨0x4004, 1, 24, [⟨CTL.SCTL.PRESET, .rw, 0⟩, ⟨CTL.SCTL.HOLD, .rw, 0⟩]⟩,
    ⟨0x4005, 1, 16, [⟨CTL.REF.VALUE, .rw, 0x00000000⟩]⟩,
    ⟨0x4006, 2, 6, [⟨CTL.WEIR.WHYS, .rw, 0x00000000⟩, ⟨CTL.WEIR.EN, .rwl, 0⟩, ⟨CTL.WEIR.SEL, .rwl, 0⟩, ⟨CTL.WEIR.DEST,
    .rwl, 0⟩]⟩,
    ⟨0x4007, 1, 6, [⟨CTL.PSC.KB, .rw, 0x00000000⟩]⟩,
    ⟨0x4008, 1, 8, [⟨CTL.PRB.EN, .rwl, 0⟩, ⟨CTL.PRB.SLOT, .rwl, 0⟩, ⟨CTL.PRB.NODE, .rwl, 0⟩, ⟨CTL.PRB.RING, .rwl, 0⟩,
    ⟨CTL.PRB.PDIV, .rwl, 0⟩]⟩,
    ⟨0x4010, 1, 1, [⟨CTL.STAT.FPT, .ro, 0⟩]⟩,
    ⟨0x4011, 1, 24, [⟨CTL.SST.SAT, .ro, 0⟩, ⟨CTL.SST.PLACED, .ro, 0⟩, ⟨CTL.SST.MIXED, .ro, 0⟩, ⟨CTL.SST.WIN, .ro, 0⟩,
    ⟨CTL.SST.HELD, .ro, 0⟩, ⟨CTL.SST.NANH, .ro, 0⟩, ⟨CTL.SST.SLIM, .ro, 0⟩]⟩,
    ⟨0x4012, 1, 24, [⟨CTL.OUT.Y, .ro, 0x00000000⟩]⟩,
    ⟨0x4013, 2, 96, [⟨CTL.ISTATE.X2, .rw, 0x00000000⟩, ⟨CTL.ISTATE.X1, .rw, 0x00000000⟩]⟩,
    ⟨0x4014, 2, 6, [⟨CTL.WST.W, .ro, 0x00000000⟩, ⟨CTL.WST.WINNER, .ro, 0xFF⟩]⟩,
    ⟨0x4015, 1, 1, [⟨CTL.EVT.SLIM, .w1c, 0⟩, ⟨CTL.EVT.TRGLOST, .w1c, 0⟩, ⟨CTL.EVT.WNAN, .w1c, 0⟩, ⟨CTL.EVT.NAN, .w1c,
    0⟩]⟩,
    ⟨0x4016, 2, 1, [⟨CTL.CNT.EVALS, .ro, 0⟩, ⟨CTL.CNT.NAN, .ro, 0⟩, ⟨CTL.CNT.WSW, .ro, 0⟩, ⟨CTL.CNT.TRGLOST, .ro, 0⟩]⟩]

/-- The attributes of block GRD. -/
def rowsGRD : List AttrRow := [
    ⟨0x4400, 2, 1, [⟨GRD.CFG.VBASE, .rwl, 0x43660000⟩, ⟨GRD.CFG.EN, .rwl, 0⟩, ⟨GRD.CFG.FNOM, .rwl, 0⟩]⟩,
    ⟨0x4401, 4, 1, [⟨GRD.IN.VA, .rwl, 0⟩, ⟨GRD.IN.VB, .rwl, 0⟩, ⟨GRD.IN.VC, .rwl, 0⟩, ⟨GRD.IN.IA, .rwl, 0⟩,
    ⟨GRD.IN.IB, .rwl, 0⟩, ⟨GRD.IN.IC, .rwl, 0⟩, ⟨GRD.IN.KI, .rwl, 0x3F800000⟩, ⟨GRD.IN.KV, .rwl, 0x3F800000⟩]⟩,
    ⟨0x4402, 3, 1, [⟨GRD.PLL.DWMAX, .rw, 0x427B53D2⟩, ⟨GRD.PLL.KIP, .rw, 0x461C4000⟩, ⟨GRD.PLL.KPP, .rw, 0x43160000⟩]⟩,
    ⟨0x4403, 4, 1, [⟨GRD.FILT.DSLEW, .rw, 0x3A83126F⟩, ⟨GRD.FILT.AP, .rw, 0x3A83126F⟩, ⟨GRD.FILT.AR, .rw, 0x3A83126F⟩,
    ⟨GRD.FILT.AF, .rw, 0x3BA3D70A⟩]⟩,
    ⟨0x4404, 4, 1, [⟨GRD.FORM.MP, .rw, 0⟩, ⟨GRD.FORM.PSET, .rw, 0⟩, ⟨GRD.FORM.MQ, .rw, 0⟩, ⟨GRD.FORM.QSET, .rw, 0⟩]⟩,
    ⟨0x4405, 2, 64, [⟨GRD.RTP.LEVEL, .rw, 0⟩, ⟨GRD.RTP.ACT, .rw, 0⟩, ⟨GRD.RTP.TIME, .rw, 0⟩]⟩,
    ⟨0x4406, 1, 1, [⟨GRD.RET.TRET, .rw, 200⟩, ⟨GRD.RET.ENTD, .rw, 3000⟩]⟩,
    ⟨0x4407, 6, 1, [⟨GRD.ISL.ROCTH, .rw, 0x3F800000⟩, ⟨GRD.ISL.PJTH, .rw, 0x3E32B8C2⟩, ⟨GRD.ISL.AFDG, .rw, 0⟩,
    ⟨GRD.ISL.AFD0, .rw, 0⟩, ⟨GRD.ISL.AFDMAX, .rw, 0x3D8EFA35⟩, ⟨GRD.ISL.PASEN, .rw, 0⟩, ⟨GRD.ISL.ACTEN, .rw, 0⟩,
    ⟨GRD.ISL.ISLACT, .rw, 0⟩, ⟨GRD.ISL.ROCT, .rw, 100⟩]⟩,
    ⟨0x4408, 1, 1, [⟨GRD.CTL.MODE, .rw, 0⟩, ⟨GRD.CTL.ISLCLR, .wo, 0⟩, ⟨GRD.CTL.CLR, .wo, 0⟩]⟩,
    ⟨0x4410, 1, 1, [⟨GRD.STAT.RTS, .ro, 0⟩, ⟨GRD.STAT.MODEA, .ro, 0⟩, ⟨GRD.STAT.ISL, .ro, 0⟩, ⟨GRD.STAT.ICAUSE, .ro,
    0⟩, ⟨GRD.STAT.NANH, .ro, 0⟩, ⟨GRD.STAT.LOCK, .ro, 0⟩, ⟨GRD.STAT.CURVE, .ro, 0⟩, ⟨GRD.STAT.POINT, .ro, 0⟩]⟩,
    ⟨0x4411, 8, 1, [⟨GRD.VAL.W, .ro, 0⟩, ⟨GRD.VAL.TH, .ro, 0⟩, ⟨GRD.VAL.Q, .ro, 0⟩, ⟨GRD.VAL.P, .ro, 0⟩,
    ⟨GRD.VAL.VMAX, .ro, 0⟩, ⟨GRD.VAL.VMIN, .ro, 0⟩, ⟨GRD.VAL.ROCOF, .ro, 0⟩, ⟨GRD.VAL.F, .ro, 0⟩]⟩,
    ⟨0x4412, 1, 1, [⟨GRD.EVT.NAN, .w1c, 0⟩, ⟨GRD.EVT.ISL, .w1c, 0⟩, ⟨GRD.EVT.TRIP, .w1c, 0⟩, ⟨GRD.EVT.CESS, .w1c, 0⟩,
    ⟨GRD.EVT.RIDE, .w1c, 0⟩]⟩,
    ⟨0x4413, 2, 1, [⟨GRD.CNT.RIDE, .ro, 0⟩, ⟨GRD.CNT.CESS, .ro, 0⟩, ⟨GRD.CNT.TRIP, .ro, 0⟩, ⟨GRD.CNT.ISL, .ro, 0⟩,
    ⟨GRD.CNT.NAN, .ro, 0⟩]⟩]

/-- The attributes of block PMU. -/
def rowsPMU : List AttrRow := [
    ⟨0x4800, 1, 1, [⟨PMU.CFG.EN, .rwl, 0⟩, ⟨PMU.CFG.CLASS, .rwl, 0⟩, ⟨PMU.CFG.FNOM, .rwl, 0⟩, ⟨PMU.CFG.POLAR, .rwl,
    0⟩, ⟨PMU.CFG.RATE, .rwl, 50⟩, ⟨PMU.CFG.RING, .rwl, 0⟩, ⟨PMU.CFG.TWEN, .rwl, 0⟩, ⟨PMU.CFG.IMPEN, .rwl, 0⟩]⟩,
    ⟨0x4801, 1, 1, [⟨PMU.IN.VA, .rwl, 0⟩, ⟨PMU.IN.VB, .rwl, 0⟩, ⟨PMU.IN.VC, .rwl, 0⟩, ⟨PMU.IN.IA, .rwl, 0⟩,
    ⟨PMU.IN.IB, .rwl, 0⟩, ⟨PMU.IN.IC, .rwl, 0⟩, ⟨PMU.IN.IEN, .rwl, 0⟩]⟩,
    ⟨0x4802, 3, 1, [⟨PMU.KSC.VNOM, .rwl, 0x43660000⟩, ⟨PMU.KSC.KI, .rwl, 0x3F800000⟩, ⟨PMU.KSC.KV, .rwl, 0x3F800000⟩]⟩,
    ⟨0x4803, 4, 1, [⟨PMU.NET.DIP, .rwl, 0⟩, ⟨PMU.NET.DPORT, .rwl, 4713⟩, ⟨PMU.NET.LPORT, .rwl, 4713⟩, ⟨PMU.NET.IDCODE,
    .rwl, 1⟩, ⟨PMU.NET.UEN, .rwl, 0⟩, ⟨PMU.NET.TXON, .rw, 1⟩]⟩,
    ⟨0x4804, 4, 1, [⟨PMU.STN.STN, .rwl, 0x20202020202020202020202020202020⟩]⟩,
    ⟨0x4805, 1, 1, [⟨PMU.CTL.CFGCHG, .rw, 0⟩, ⟨PMU.CTL.FLTRIG, .wo, 0⟩]⟩,
    ⟨0x4806, 3, 1, [⟨PMU.TWCFG.LEN, .rwl, 0x00000000⟩, ⟨PMU.TWCFG.VEL, .rwl, 0x4392E666⟩, ⟨PMU.TWCFG.GA, .rwl, 0⟩,
    ⟨PMU.TWCFG.GB, .rwl, 1⟩, ⟨PMU.TWCFG.GC, .rwl, 2⟩, ⟨PMU.TWCFG.TH, .rwl, 64⟩]⟩,
    ⟨0x4807, 4, 1, [⟨PMU.LINE.X0, .rwl, 0⟩, ⟨PMU.LINE.R0, .rwl, 0⟩, ⟨PMU.LINE.X1, .rwl, 0⟩, ⟨PMU.LINE.R1, .rwl, 0⟩]⟩,
    ⟨0x4808, 4, 1, [⟨PMU.FLCFG.I0TH, .rw, 0x42C80000⟩, ⟨PMU.FLCFG.IMIN, .rw, 0x42C80000⟩, ⟨PMU.FLCFG.KF, .rw,
    0x40000000⟩, ⟨PMU.FLCFG.FSRC, .rwl, 127⟩, ⟨PMU.FLCFG.PSET, .rw, 30⟩]⟩,
    ⟨0x4809, 3, 1, [⟨PMU.TWREM.NUM, .rw, 0⟩, ⟨PMU.TWREM.FINE, .rw, 0⟩, ⟨PMU.TWREM.TAP, .rw, 0⟩, ⟨PMU.TWREM.TIME, .rw,
    0⟩]⟩,
    ⟨0x480A, 1, 1, [⟨PMU.CFG2.UTCO, .rw, 37⟩, ⟨PMU.CFG2.HTQ, .rw, 0xF⟩, ⟨PMU.CFG2.HPTQ, .rw, 7⟩]⟩,
    ⟨0x4810, 1, 1, [⟨PMU.STAT.DERR, .ro, 0⟩, ⟨PMU.STAT.SYNCB, .ro, 0⟩, ⟨PMU.STAT.TRIGB, .ro, 0⟩, ⟨PMU.STAT.REC, .ro,
    0⟩, ⟨PMU.STAT.LASTNUM, .ro, 0⟩]⟩,
    ⟨0x4811, 3, 8, [⟨PMU.TWARR.AMP, .ro, 0⟩, ⟨PMU.TWARR.MODE, .ro, 0⟩, ⟨PMU.TWARR.POL, .ro, 0⟩, ⟨PMU.TWARR.FINE, .ro,
    0⟩, ⟨PMU.TWARR.TAP, .ro, 0⟩, ⟨PMU.TWARR.TIME, .ro, 0⟩]⟩,
    ⟨0x4812, 8, 16, [⟨PMU.FREC.NUM, .ro, 0⟩, ⟨PMU.FREC.CMPL, .ro, 0⟩, ⟨PMU.FREC.TWV, .ro, 0⟩, ⟨PMU.FREC.SEV, .ro, 0⟩,
    ⟨PMU.FREC.DEV, .ro, 0⟩, ⟨PMU.FREC.IMV, .ro, 0⟩, ⟨PMU.FREC.FSJ, .ro, 0⟩, ⟨PMU.FREC.PHS, .ro, 0⟩, ⟨PMU.FREC.NARR,
    .ro, 0⟩, ⟨PMU.FREC.DIMP, .ro, 0⟩, ⟨PMU.FREC.DDE, .ro, 0⟩, ⟨PMU.FREC.DSE, .ro, 0⟩, ⟨PMU.FREC.TIME, .ro, 0⟩,
    ⟨PMU.FREC.TAP, .ro, 0⟩, ⟨PMU.FREC.FINE, .ro, 0⟩, ⟨PMU.FREC.DT, .ro, 0⟩]⟩,
    ⟨0x4813, 1, 1, [⟨PMU.EVT.FLBUSY, .w1c, 0⟩, ⟨PMU.EVT.CMDX, .w1c, 0⟩, ⟨PMU.EVT.DERR, .w1c, 0⟩, ⟨PMU.EVT.FLREC, .w1c,
    0⟩, ⟨PMU.EVT.TW, .w1c, 0⟩]⟩,
    ⟨0x4814, 2, 1, [⟨PMU.CNT.FRAMES, .ro, 0⟩, ⟨PMU.CNT.DERR, .ro, 0⟩, ⟨PMU.CNT.CMDX, .ro, 0⟩, ⟨PMU.CNT.FLBUSY, .ro,
    0⟩, ⟨PMU.CNT.TWBAD, .ro, 0⟩]⟩]

/-- The attributes of block MTR. -/
def rowsMTR : List AttrRow := [
    ⟨0x4C00, 1, 1, [⟨MTR.CFG.EN, .rwl, 0⟩, ⟨MTR.CFG.CREEP, .rw, 40⟩, ⟨MTR.CFG.ECPER, .rw, 1⟩]⟩,
    ⟨0x4C01, 2, 6, [⟨MTR.CH.K, .rwl, 0x3F800000⟩, ⟨MTR.CH.DEC, .rwl, 0⟩, ⟨MTR.CH.SENS, .rwl, 0⟩, ⟨MTR.CH.LEAK, .rwl,
    0⟩, ⟨MTR.CH.PHC, .rw, 0⟩]⟩,
    ⟨0x4C02, 2, 1, [⟨MTR.NOM.INOM, .rwl, 0x447A0000⟩, ⟨MTR.NOM.VNOM, .rwl, 0x21B30000⟩, ⟨MTR.NOM.FNOM, .rwl, 0⟩]⟩,
    ⟨0x4C03, 2, 4, [⟨MTR.PLS.EPP, .rwl, 3600000⟩, ⟨MTR.PLS.EN, .rwl, 0⟩, ⟨MTR.PLS.POL, .rwl, 0⟩, ⟨MTR.PLS.ELEM, .rwl,
    3⟩, ⟨MTR.PLS.QTY, .rwl, 0⟩, ⟨MTR.PLS.PW, .rwl, 10⟩]⟩,
    ⟨0x4C04, 1, 1, [⟨MTR.CTL.ZERO, .wo, 0⟩, ⟨MTR.CTL.SNAP, .wo, 0⟩]⟩,
    ⟨0x4C10, 6, 4, [⟨MTR.INST.PF, .ro, 0⟩, ⟨MTR.INST.IRMS, .ro, 0⟩, ⟨MTR.INST.VRMS, .ro, 0⟩, ⟨MTR.INST.S, .ro, 0⟩,
    ⟨MTR.INST.Q, .ro, 0⟩, ⟨MTR.INST.P, .ro, 0⟩]⟩,
    ⟨0x4C11, 3, 1, [⟨MTR.SNAPH.NUM, .ro, 0⟩, ⟨MTR.SNAPH.TAP, .ro, 0⟩, ⟨MTR.SNAPH.TIME, .ro, 0⟩]⟩,
    ⟨0x4C12, 3, 28, [⟨MTR.SNAP.OVF, .ro, 0⟩, ⟨MTR.SNAP.WRAP, .ro, 0⟩, ⟨MTR.SNAP.VALUE, .ro, 0⟩]⟩,
    ⟨0x4C13, 3, 4, [⟨MTR.PST.PEND, .ro, 0⟩, ⟨MTR.PST.RES, .ro, 0⟩]⟩,
    ⟨0x4C14, 1, 1, [⟨MTR.STAT.RSRC, .ro, 0⟩, ⟨MTR.STAT.SETTLE, .ro, 0⟩, ⟨MTR.STAT.INTERP, .ro, 0⟩, ⟨MTR.STAT.INVAL,
    .ro, 0⟩]⟩,
    ⟨0x4C15, 1, 1, [⟨MTR.EVT.RLOSS, .w1c, 0⟩, ⟨MTR.EVT.PLSOVR, .w1c, 0⟩, ⟨MTR.EVT.INPUT, .w1c, 0⟩]⟩,
    ⟨0x4C16, 2, 1, [⟨MTR.CNT.SAMPLES, .ro, 0⟩, ⟨MTR.CNT.PLSLOST, .ro, 0⟩, ⟨MTR.CNT.INVAL, .ro, 0⟩]⟩]

/-- The attributes of block IST. -/
def rowsIST : List AttrRow := [
    ⟨0x5000, 1, 1, [⟨IST.CFG.EN, .rw, 1⟩, ⟨IST.CFG.CHKEN, .rw, 0x7F⟩, ⟨IST.CFG.CPER, .rw, 10⟩, ⟨IST.CFG.RPER, .rw,
    1⟩]⟩,
    ⟨0x5001, 1, 1, [⟨IST.PER.SCRPER, .rwl, 10⟩, ⟨IST.PER.ROMPER, .rwl, 60⟩, ⟨IST.PER.SCALMAX, .rwl, 100⟩,
    ⟨IST.PER.LWIN, .rwl, 10⟩]⟩,
    ⟨0x5002, 1, 1, [⟨IST.LANE.LERR, .rw, 10⟩]⟩,
    ⟨0x5010, 1, 1, [⟨IST.STAT.HOST, .ro, 0⟩, ⟨IST.STAT.HCHK, .ro, 0⟩, ⟨IST.STAT.ACTIVE, .ro, 0⟩]⟩,
    ⟨0x5011, 2, 7, [⟨IST.RES.PASSES, .ro, 0⟩, ⟨IST.RES.FAILS, .ro, 0⟩, ⟨IST.RES.UNIT, .ro, 0xFF⟩, ⟨IST.RES.LAST, .ro,
    0⟩]⟩,
    ⟨0x5012, 6, 1, [⟨IST.LFAIL.LANE, .w1c, 0⟩]⟩,
    ⟨0x5013, 1, 1, [⟨IST.EVT.LATE, .w1c, 0⟩, ⟨IST.EVT.LANE, .w1c, 0⟩, ⟨IST.EVT.FAIL, .w1c, 0⟩]⟩]

/-- The attributes of a block code (R78); an unassigned code has none. -/
def blockRows (b : Nat) : List AttrRow :=
  match b with
  | 0 => rowsDEV
  | 1 => rowsHPP
  | 2 => rowsFLT
  | 3 => rowsRST
  | 4 => rowsKPR
  | 5 => rowsTIM
  | 6 => rowsNET
  | 7 => rowsSIO
  | 8 => rowsLNK
  | 9 => rowsARM
  | 10 => rowsMOD
  | 11 => rowsDHB
  | 12 => rowsGPR
  | 13 => rowsMON
  | 14 => rowsADC
  | 15 => rowsPGM
  | 16 => rowsCTL
  | 17 => rowsGRD
  | 18 => rowsPMU
  | 19 => rowsMTR
  | 20 => rowsIST
  | _ => []

/-- The row of an attribute ID: its block is ID[15:10] (R78). An undefined ID has none (R80). -/
def findRow (id : Nat) : Option AttrRow := (blockRows (id / 1024)).find? (fun r => r.id == id)

/-- Reset class of each fault source (R470): 0 C0, 1 C1, 2 C2, 3 C3. Reserved sources have class C0 (log entry 4). -/
def resetClass (j : Nat) : Nat :=
  if j = 62 ∨ j = 63 then 3
  else if j ∈ [4, 17, 37, 52, 56, 57] then 2
  else if j ∈ [0, 1, 2, 5, 6, 8, 9, 10, 11, 12, 13, 15, 16, 18, 19, 20, 21, 23, 24, 25, 26, 27,
      34, 40, 41, 43, 45, 46, 48, 49, 51, 53, 59, 60] then 1
  else 0

/-- Reset values that the field maps give per instance: MON.CFG.CODE (1023 for HI, 0 for LO), the source classes of R470,
the FIXED pages of PGM.PDSC, the stamp units 16 and 17 whose EDGE reads 1. -/
def instReset (f : Fld) (n : Nat) : Option Nat :=
  if f = MON.CFG.CODE then some (if n % 2 = 0 then 1023 else 0)
  else if f = FLT.SCFG.CLASS ∨ f = FLT.SCFG.ESC ∨ f = FLT.SRC.CUR then some (resetClass n)
  else if f = PGM.PDSC.PST then some (if n < 160 then 1 else 0)
  else if f = TIM.TSI.EDGE then some (if n = 16 ∨ n = 17 then 1 else 0)
  else none

/-- Reset value of field f, instance n. -/
def fieldReset (f : Fld) (n : Nat) : Nat :=
  match instReset f n with
  | some v => v
  | none =>
    match findRow f.id with
    | none => 0
    | some r =>
      match r.fields.find? (fun x => x.fld.lo == f.lo) with
      | none => 0
      | some x => x.reset

end Sys2Proof.Machine
end

