-- ==== Sys2Proof/Machine/Parts.lean ====
section
/-! DEFINITION. The state that no attribute of the register map shows: queues, pins, timers and measurements in progress,
one structure per block. A structure's default is its value after reset (R73 and each block's own reset rule); where a rule
gives none, see log entry 5. -/

namespace Sys2Proof.Machine

/-- A field of one instance of an attribute: attribute ID, least significant bit, instance. -/
structure Key where
  id : Nat
  lo : Nat
  inst : Nat
  deriving DecidableEq, Repr

/-- The order in which fields are listed. -/
def Key.code (k : Key) : Nat := (k.id * 256 + k.lo) * 256 + k.inst

/-- W1C bits that hardware set at one instant (R12): the instant, and each field with its bits. -/
structure Fresh where
  at_ : Nat := 0
  bits : List (Key × Nat) := []
  deriving DecidableEq, Repr

/-! Host packet port -/

/-- A closed word of an inbound bank with its tag (R58). -/
structure BasinWord where
  bank : Nat
  word : Nat
  vb : Nat
  eot : Bool
  ovt : Bool
  deriving DecidableEq, Repr

/-- A transaction whose HPSEL_N is still low: rising edges so far, the whole bytes the host sent, RDY at its start, the instant of
its last rising edge, the bytes of its word not yet closed (R58), and whether bytes found no space (R62). -/
structure Txn where
  edges : Nat
  data : List Nat
  rdy : Bool
  at_ : Nat
  part : List Nat := []
  lost : Bool := false
  deriving DecidableEq, Repr

/-- A reply (R92): status, echoed TAG and FLG, parameter words. `quad` is a lane mode that its request wrote (R42); `reset` marks the
reply of RESET (R115); `shown` names the words that show an attribute at the end of the present reference: word, ID, instance (R99). -/
structure Reply where
  status : Nat
  tag : Nat
  flg : Nat
  words : List Nat
  quad : Option Nat := none
  reset : Bool := false
  shown : List (Nat × Nat × Nat) := []
  deriving DecidableEq, Repr

/-- Host packet port: lane mode in force and to come (R42), the writer's bank and word, closed unread words (R58), words of the packet
whose transaction is open that the interpreter has read (R63), inbound event given to it (R64), the open transaction, replies queued
and last removed (R65, R67), the open transaction removed the reply of RESET (R115), interpreter ready (RDY of R53), the last ISW
shifted out and the last words clocked out after it. -/
structure Hpp where
  quad : Bool := false
  quadNext : Option Bool := none
  bank : Nat := 0
  off : Nat := 0
  unread : List BasinWord := []
  taken : List BasinWord := []
  event : Bool := false
  txn : Option Txn := none
  replies : List Reply := []
  last : Option Reply := none
  resetRead : Bool := false
  rdy : Bool := false
  isw : Word := 0
  out : List Word := []
  deriving DecidableEq, Repr

/-! Interpreter and tick -/

/-- One attribute write: ID, instance, value of all its words (R83). -/
structure Write where
  id : Nat
  inst : Nat
  value : Nat
  deriving DecidableEq, Repr

/-- The writes of one accepted packet waiting for their tick reference (R33), the WAIT reply that waits with them (R85), or the
arming of a ring (R302: ring, PRE, POST, TRIG). -/
structure Staged where
  writes : List Write
  reply : Option Reply
  arm : Option (Nat × Nat × Nat × Nat) := none
  deriving DecidableEq, Repr

/-- One entry of a MODIFY (R98). -/
structure ModEntry where
  id : Nat
  inst : Nat
  mask : Nat
  value : Nat
  deriving DecidableEq, Repr

/-- What a packet waits for: the coming tick reference, or the end of a burst. -/
inductive Wait where
  | modify (tag flg : Nat) (entries : List ModEntry)   -- R98
  | admission (tag flg lane : Nat)                          -- R104
  | applied                                             -- a WAIT reply (R85)
  | nv (tag flg : Nat)                                  -- COMMIT_NV, until its burst ends (R532)
  deriving DecidableEq, Repr

/-- A RESET accepted (R115): level, block and the instant at which it begins at the latest. -/
structure ResetReq where
  level : Nat
  block : Nat
  due : Nat
  deriving DecidableEq, Repr

/-- An open PATCH_LOAD (R120): the three BEGIN words and the image words arrived so far. -/
structure PatchLoad where
  begin0 : Nat
  length : Nat
  key : Nat
  arrived : Nat
  deriving DecidableEq, Repr

/-- Interpreter and control tick: configuration committed (R12), ticks running, instant and number of the next tick
reference (R23), staged writes, waiting packet, accepted RESET, open patch load. -/
structure Dev where
  committed : Bool := false
  ticking : Bool := false
  nextT0 : Nat := 0
  tick : Nat := 0
  staged : List Staged := []
  wait : Option Wait := none
  resetReq : Option ResetReq := none
  load : Option PatchLoad := none
  deriving DecidableEq, Repr

/-! Fault collector -/

/-- An event raised and not yet recognised (R472): source, DETAIL of R470, instant, and the override of R471. -/
structure Raised where
  src : Nat
  detail : Nat
  at_ : Nat
  fatal : Bool
  deriving DecidableEq, Repr

/-- The reaction executing (R480): the slot of its record (none: the record was lost), and its class. -/
structure React where
  slot : Option Nat
  cls : Nat
  deriving DecidableEq, Repr

/-- Fault collector: events in flight, instant each window closes, instant of each source's last event, the executing
reaction, the lost-record aggregate of R482 (PEND, PROFS, CLASS), next NUM (R482), order in which the slots were filled,
and whether the fatal entry of R479 is pending. -/
structure Flt where
  raised : List Raised := []
  winAt : NTab Nat := []
  lastEv : NTab (Option Nat) := []
  react : Option React := none
  aggPend : Nat := 0
  aggProfs : Nat := 0
  aggCls : Nat := 0
  num : Nat := 0
  count : Nat := 0
  order : NTab Nat := []
  fatalPend : Bool := false
  deriving DecidableEq, Repr

/-! Reset -/

/-- A reset sequence running (R495): level (0 main POR, 1 L0, 2 L1, 3 L2, 4 L3), fuse load in progress. -/
structure ResetSeq where
  level : Nat
  loading : Bool
  deriving DecidableEq, Repr

/-- Reset unit: supplies (VIN33 above V_PORR, VCORE and VANA power-good), pin RST_N and the instant it fell, its log entry written
(R507) and not yet reported, the running sequence, failed loads of the sequence (R499), CLK_START raised in it (R502), domains
waiting for release in order (R501), the instant from which the first of them counts and whether its gap counts from there, L3
resets waiting for their instant (R508), and the fuse shadow's words (R498; empty: hard-wired defaults). -/
structure Rst where
  vin : Bool := false
  core : Bool := false
  pinLow : Bool := false
  pinAt : Nat := 0
  logged : Bool := false
  logNew : Bool := false
  seq : Option ResetSeq := some ⟨0, false⟩
  fails : Nat := 0
  clkStart : Bool := false
  queue : List Nat := []
  from_ : Nat := 0
  gapped : Bool := true
  blocks : List Nat := []
  shadow : List Nat := []
  deriving DecidableEq, Repr

/-! Time base -/

/-- A replaced parameter set (R314): OFS, X0, RATE, switch instant. -/
structure TimeSet where
  ofs : Int
  x0 : Nat
  rate : Int
  xs : Nat
  deriving DecidableEq, Repr

/-- A PTP event message received: sequence number, corrected time of its stamp in taps, correctionField in 2^-16 ns, the timestamp
it carries in ns. -/
structure PtpStamp where
  seq : Nat
  at_ : Int
  corr : Int
  origin : Int
  deriving DecidableEq, Repr

/-- A redundancy control trailer: sequence number, LanId, LSDU size (R326). -/
structure Rct where
  seq : Nat
  lan : Nat
  size : Nat
  deriving DecidableEq, Repr

/-- The frame of a PTP message sent (R323, R325): kind, sequence number, timestamp in ns, correctionField in 2^-16 ns, the timestamp
follows in a second message; destination address, Ethertype, domain, 802.1Q tag (priority, VLAN ID), logarithm of its interval, data set
of an Announce, PRP trailer (R326). -/
structure PtpSent where
  kind : PtpKind
  seq : Nat
  ts : Int
  corr : Int
  twoStep : Bool := false
  dst : Nat := 0
  etype : Nat := 0x88F7
  domain : Nat := 0
  vlan : Option (Nat × Nat) := none
  logInt : Int := 0
  ann : List Nat := []
  rct : Option Rct := none
  deriving DecidableEq, Repr

/-- One PTP port: identity and announce data of its master, instants of the last Announce and Sync with their intervals, three Sync
intervals missed and none received since (R327), Sync waiting for its Follow_Up, Pdelay_Req sent (sequence number, departure),
Pdelay_Resp waiting for its Follow_Up, Pdelay_Req to be answered, follow-ups owed to a Sync and to a Pdelay_Resp, offset valid and its
value in taps, next sequence numbers by kind, last message sent. -/
structure PtpPort where
  parent : Option (Nat × List Nat) := none
  annAt : Nat := 0
  annLog : Int := 0
  syncAt : Nat := 0
  syncLog : Int := 0
  failed : Bool := false
  sync : Option PtpStamp := none
  req : Option (Nat × Int) := none
  resp : Option PtpStamp := none
  answer : Option PtpStamp := none
  fup : Option PtpSent := none
  pfup : Option PtpSent := none
  valid : Bool := false
  offset : Int := 0
  txSeq : NTab Nat := []
  sent : Option PtpSent := none
  deriving DecidableEq, Repr

/-- Time base: TB released and the instant at which C was 0, anchor X0 (R312), replaced sets, oldest first (R314), the follower's remainder (R335), active chain of the DLL (R318),
instant the DLL lost lock, instant each REFCLK became GOOD, instant it was last not (R320), REFCLK_FAIL raised in the present episode, servo: corrections since SRC was
written (R330), consecutive good intervals (R328), port it follows (R327); instant holdover began; the device is grandmaster; PTP
ports; PPS_OUT high, since when, next second it serves (R332); last PPS_IN edge taken; instant SYNC_OUT rose; number of the first
tick; last stamp of each unit (R339). -/
structure Tim where
  run : Bool := false
  c0 : Nat := 0
  x0 : Nat := 0
  old : List TimeSet := []
  phi : Nat := 0
  chainB : Bool := false
  unlockAt : Option Nat := none
  goodAt : NTab (Option Nat) := []
  badAt : NTab Nat := []
  failRaised : NTab Nat := []
  corrections : Nat := 0
  goodRun : Nat := 0
  servoPort : Option Nat := none
  holdAt : Nat := 0
  gm : Bool := false
  ports : NTab PtpPort := []
  ppsHigh : Bool := false
  ppsAt : Nat := 0
  ppsNext : Int := 0
  ppsInAt : Option Nat := none
  syncOutAt : Option Nat := none
  firstTick : Nat := 0
  lastEdge : NTab (Option Nat) := []
  deriving DecidableEq, Repr

/-! Page manager -/

/-- A synchrophasor frame sent by UDP (R403): its octets, destination MAC and IPv4 addresses, port. -/
structure UdpFrame where
  octets : List Nat
  mac : Nat
  ip : Nat
  port : Nat
  deriving DecidableEq, Repr

/-- An item for a ring (R295): its words; a stream sample instead carries its page header word 0 and the raw instant of its
strobe (R281), and a frame sent by UDP that frame. -/
structure Item where
  ring : Nat
  words : List Nat
  stream : Option (Nat × Nat) := none
  frame : Option UdpFrame := none
  deriving DecidableEq, Repr

/-- One ring: pages held in fill order, the frozen ones among them, POST pages still to open, next SEQ, reservation cut
(R308), loss episode open (R299), items held since the last count (PGM.RCNT.HELD), whole words of the open page, those of them still
staged because they do not fill a 64-bit word (R296), samples in the open stream page and the half word that waits for its second
sample (R281), instant the last trigger was recognised (R305). -/
structure Ring where
  pages : List Nat := []
  frozen : List Nat := []
  post : Nat := 0
  seq : Nat := 0
  cut : Nat := 0
  losing : Bool := false
  held : Nat := 0
  count : Nat := 0
  stage : List Nat := []
  samples : Nat := 0
  half : Nat := 0
  trigAt : Option Nat := none
  deriving DecidableEq, Repr

/-- What fires rings (R303): a source of TRIG, or the host for the rings of a mask. -/
inductive TrigSrc where
  | source (k : Nat)
  | host (mask : Nat)
  deriving DecidableEq, Repr

/-- Page manager: rings, items waiting for a page, triggers in flight (source, raw instant), those recognised last with the instant of
their recognition (R302), instants each page was opened and closed, pages to be retired (R308), frames written for the internal consumer and not yet queued at the ports (R403), and SRAM words written by the running command
(byte address, word). -/
structure Pgm where
  rings : NTab Ring := []
  waiting : List Item := []
  trig : List (TrigSrc × Nat) := []
  seen : List (Nat × TrigSrc × Nat) := []
  openAt : NTab Nat := []
  closeAt : NTab Nat := []
  toRetire : List Nat := []
  frames : List UdpFrame := []
  wq : List (Nat × Word) := []
  deriving DecidableEq, Repr

/-! Conversion -/

/-- A run of a sequence: number, start instant, source of its trigger, from the latch, its number among the sequence's runs (RUN of
R280), result words so far by entry. -/
structure SeqRun where
  q : Nat
  start : Nat
  src : Nat
  dly : Bool
  run : Nat := 0
  res : NTab Nat := []
  deriving DecidableEq, Repr

/-- One group: the running sequence, the pending latch (sequence, source, instant), ended runs whose record is due, runs of
each sequence, triggers lost since the last header, order and instants of the slices' calibrations, instants at which the calibration in
progress and the shadow conversions of the waiting slice began (R283, R284), slots whose next result carries SWAP and the last sample of each channel (VALUE, instant). -/
structure AdcGroup where
  cur : Option SeqRun := none
  latch : Option (Nat × Nat × Nat) := none
  ended : List SeqRun := []
  runs : NTab Nat := []
  lost : Nat := 0
  calNo : NTab Nat := []
  calCount : Nat := 0
  calAt : NTab Nat := []
  calFrom : Nat := 0
  shadowAt : Nat := 0
  swap : List Nat := []
  service : NTab (Option (Int × Nat)) := []
  deriving DecidableEq, Repr

/-- One decimator: inputs newest first with their replaced mark, number of inputs, last metering and synchrophasor outputs
newest first (binary32 pattern, raw instant of the sample, for synchrophasors its corrected time, INTERP). -/
structure Decim where
  inputs : List (Int × Bool) := []
  count : Nat := 0
  meter : List (Word × Nat × Bool) := []
  sync : List (Word × Nat × Int × Bool) := []
  deriving DecidableEq, Repr

/-- Conversion: groups, tick-set strobes fired and their results by entry, triggers to be handled (group, sequence, source,
instant), decimators, and the results handed to
the engine, by slot 8 g + j, as result words (R274). -/
structure Adc where
  groups : NTab AdcGroup := []
  strobed : Bool := false
  tick : NTab Nat := []
  trigs : List (Nat × Nat × Nat × Nat) := []
  dec : NTab Decim := []
  eng : NTab Nat := []
  deriving DecidableEq, Repr

/-! Safety inputs and outputs -/

/-- A test pulse on one channel (R461): channel (0 A, 1 B), bright or dark, start, level reached (R462), result discarded
(R464), instant it ended (the return is awaited). -/
structure SdoTest where
  ch : Nat
  bright : Bool
  start : Nat
  reached : Bool := false
  discarded : Bool := false
  ended : Option Nat := none
  deriving DecidableEq, Repr

/-- One safe disconnect output: driven levels of its channels, instants of their last change, test in progress, instants the
next tests of the channels fall due (R461). -/
structure SdoOut where
  a : Bool := false
  b : Bool := false
  aAt : Nat := 0
  bAt : Nat := 0
  test : Option SdoTest := none
  dueA : Nat := 0
  dueB : Nat := 0
  deriving DecidableEq, Repr

/-- One receiver: FLAGS of the last accepted frame, instant of the last watchdog restart, a frame accepted since entry to
RUN (R466). -/
structure SafetyRx where
  flags : Nat := 0
  restart : Nat := 0
  seen : Bool := false
  deriving DecidableEq, Repr

/-- A safety frame delivered by the Ethernet part (R447): payload, both copies arrived. -/
structure SafetyFrame where
  payload : List Nat
  both : Bool
  deriving DecidableEq, Repr

/-- Safety I/O: outputs, receivers, instant since which the channels of an input disagree (R452), frames delivered and not yet
checked, FCNT of the next frame, instant and bytes 4 to 7 of the last one (R465). -/
structure Sio where
  outs : NTab SdoOut := []
  rx : NTab SafetyRx := []
  disagree : NTab (Option Nat) := []
  frames : List SafetyFrame := []
  fcnt : Nat := 0
  sentAt : Option Nat := none
  sent : List Nat := []
  deriving DecidableEq, Repr

/-! Modulation and direct half-bridge ports -/

/-- The compares of one carrier: in force (after R196) and those that come into force at later window starts (R217). -/
structure Cmp where
  a : Word := 0
  b : Word := 0
  next : List (Nat × Word × Word) := []
  deriving DecidableEq, Repr

/-- A lane of a PSC arm: instant of its last executed change (R199), its compares, its carried changes (to INSERT, instant), and the
phases that writes replaced with the window starts up to which they hold, oldest first (R201). -/
structure LaneMod where
  last : Nat := 0
  cmp : Cmp := {}
  carried : List (Bool × Nat) := []
  phases : List (Nat × Nat) := []
  deriving DecidableEq, Repr

/-- Modulation: T_C of R195, prescaler counters of the trigger generators (R203), firings on their way (generator, instant of
delivery, R204), lanes. -/
structure Mod where
  tc : Nat := 0
  presc : NTab Nat := []
  fired : List (Nat × Nat) := []
  lanes : NTab LaneMod := []
  deriving DecidableEq, Repr

/-- One switch of a port: pin xON; instant xON last fell (none: not high since entry to RUN); the commanded state requires it
and since when its turn-on waits (R207); recognised acknowledge high since xON fell and dropped since (condition 3 of R207),
gone low while on (DRVOFF of R209); instant xON last changed and whether the handshake is awaited; the ST profile of the
on-time: TSTR, TWK, HOLDS, OFFF (R229, R231). -/
structure Switch where
  on : Bool := false
  fellAt : Option Nat := none
  want : Bool := false
  pend : Option Nat := none
  ackSeen : Bool := false
  ackLost : Bool := false
  ackOff : Bool := false
  changedAt : Nat := 0
  await : Bool := false
  tstr : Nat := 0
  twk : Nat := 0
  holds : Bool := false
  offf : Bool := false
  deriving DecidableEq, Repr

/-- A refresh sequence (R214): waiting for the lower switch, lower switch on since an instant, waiting for the upper one. -/
inductive Refresh where
  | lowerPending
  | lowerOn (t : Nat)
  | upperPending
  deriving DecidableEq, Repr

/-- One port: switches, instant of the last executed change (R199), in FAULT, source of the commanded state in force (its
priority of R206; 0: no control), moved changes (to UPPER, instant), lower switch turned on since the last PERIOD event,
refresh in progress, carrier events that wait for its end, compares. -/
structure Port where
  u : Switch := {}
  l : Switch := {}
  last : Nat := 0
  fault : Bool := false
  prio : Nat := 0
  moved : List (Bool × Nat) := []
  lowerDone : Bool := false
  refresh : Option Refresh := none
  waiting : List Bool := []
  cmp : Cmp := {}
  deriving DecidableEq, Repr

/-- Direct ports; the instant of a reset after which, in RUN, they return at the next tick reference (R219). -/
structure Dhb where
  ports : NTab Port := []
  resume : Option Nat := none
  deriving DecidableEq, Repr

/-! Window monitors -/

/-- The self-test window that is open (R262): comparator, start, test code of the DAC. -/
structure MonTest where
  cmp : Nat
  start : Nat
  code : Nat
  deriving DecidableEq, Repr

/-- Window monitors: raw decision of each comparator, instant the settling of each ends (none: not settling), instant of each DAC's last
change with the least and the greatest code it may still stand at (R247), hysteresis code in force until the decision's next
transition (R250), self-test window open, instant of the latch set that MON.FIRST records (R253). -/
structure Mon where
  raw : NTab Bool := []
  settle : NTab (Option Nat) := []
  codeAt : NTab (Option (Nat × Nat × Nat)) := []
  hyst : NTab (Option Nat) := []
  test : Option MonTest := none
  firstAt : Option Nat := none
  deriving DecidableEq, Repr

/-! Lanes -/

/-- An admission in progress (R154): tick reference it started at, phase (0 waiting for that reference, then the step 2 to 6),
request code sent, response words of the identity requests, instant of the snapshot that acknowledged 0x08, measurements in
1/16 tap and plausibility of the snapshots of step 5. -/
structure Adm where
  start : Nat := 0
  phase : Nat := 0
  req : Nat := 0
  ident : List Nat := []
  ackAt : Nat := 0
  meas : List Int := []
  plausible : List Bool := []
  deriving DecidableEq, Repr

/-- One lane, link side. Uplink: SESS and SEQ of the last valid frame, arrival of its comma, run toward lock (R139); latest
valid frame and whether it is newer than the snapshot, stale in this tick and in how many (R138); running disparity of the receiver
(none: no code group read yet), end of the last valid code group (R126, R139). Downlink: next SEQ, last frame sent (eight bytes between
comma and CRC), its SEQ, launch and code groups, running disparity after them (R125, R128), whether its round trip is still to be
measured (R143);
BYP of the BLOCKED lane (R151); DLY in 1/16 tap and the deviations of R144; admission, instant of the last failed one (R158);
start of the last block burst; off-state check: request instant and MODE 10 seen (R241). Driver reports: episodes of DESAT,
SELFB, OTEMP (R236), OT count (R233), first TB evaluation due (R226). -/
structure LaneRec where
  sess : Nat := 0
  seq : Nat := 0
  arrived : Nat := 0
  run : Nat := 0
  frame : List Nat := []
  fresh : Bool := false
  stale : Bool := false
  staleRun : Nat := 0
  rxRd : Option Bool := none
  litAt : Nat := 0
  dlSeq : Nat := 0
  sent : List Nat := []
  sentSeq : Nat := 0
  sentAt : Nat := 0
  groups : List Nat := []
  rd : Bool := false
  measure : Bool := false
  byp : Bool := false
  dly : Int := 0
  devs : List Int := []
  adm : Option Adm := none
  failAt : Option Nat := none
  burstAt : Option Nat := none
  odAt : Option Nat := none
  odSeen : Bool := false
  epDesat : Bool := false
  epSelfb : Bool := false
  epOtemp : Bool := false
  otRun : Nat := 0
  tbFirst : Bool := true
  deriving DecidableEq, Repr

/-- Lanes; AUX watchdog code of R132; lanes of the map re-enter DOWN at the coming tick reference (R163). -/
structure Lnk where
  lanes : NTab LaneRec := []
  wd : Nat := 0
  redown : Bool := false
  deriving DecidableEq, Repr

/-! Cascade -/

/-- One lane, Cascade side: state commanded and insertion age of the last window (R172), a trip has reached the lane since the
running tick's selection, snapshots counted in warm-up (none: not yet seen in ACTIVE; R170), warm-up done, excluded for
starvation in the last tick, starving until two HSUV = 0 snapshots (R174) and their run, kept although starving (R175), runs
of the VCAP and echo conditions (R184), reported (R186); codes for INSERT and BYPASS of the last released tick (R224). -/
structure SchedRec where
  cmd : Nat := 0
  age : Nat := 0
  hit : Bool := false
  warm : Option Nat := none
  warmDone : Bool := false
  starved : Bool := false
  sticky : Bool := false
  clearRun : Nat := 0
  kept : Bool := false
  vBad : Nat := 0
  eBad : Nat := 0
  repV : Bool := false
  repE : Bool := false
  cIns : Nat := 0
  cByp : Nat := 0
  deriving DecidableEq, Repr

/-- What a tick has computed for one lane and releases at launch (R28): command, age, flags [29:23] of ARM.LST, state before the
edge and offset of the edge, EDGE value, the codes of the tick and the table entry, and in a PSC arm the modulation record and
compares. -/
structure Plan where
  cmd : Nat := 0
  age : Nat := 0
  flags : Nat := 0
  pres : Nat := 0
  x : Option Nat := none
  edge : Nat := 0xFFFFFF
  cIns : Nat := 0
  cByp : Nat := 0
  entry : Nat := 0
  carrier : Option (LaneMod × Word × Word) := none
  deriving DecidableEq, Repr

/-- What a tick has computed for one arm: fields of ARM.STAT and ARM.ACCT, and the counts of R199. -/
structure ArmPlan where
  nmap : Nat := 0
  lreq : Nat := 0
  ldel : Nat := 0
  nedge : Nat := 0
  dir : Nat := 0
  auto : Bool := false
  spare : Int := 0
  nact : Nat := 0
  nelig : Nat := 0
  nstrv : Nat := 0
  suppr : Nat := 0
  clamp : Nat := 0
  carry : Nat := 0
  deriving DecidableEq, Repr

/-- One arm: level of the previous tick (R167), discharging as last direction, in the zero band (R168), autonomous and SPARE at
the last tick reference (R166; none before the first tick), lanes counted in NACT and the sum of their VCAP at that reference (R165,
R347), magnitude bin M (R225). -/
structure ArmRec where
  level : Nat := 0
  dis : Bool := false
  zone : Bool := false
  auto : Bool := false
  spare : Option Int := none
  nact : Nat := 0
  cap : Nat := 0
  m : Nat := 0
  deriving DecidableEq, Repr

/-- Cascade: arms, lanes, the running tick's plans; results of steps 2 to 6 complete at this instant (none: not before the next
reference, R27), the start of the first window whose tick overran (R201), work of the running tick that its end abandons (R30), and a
block that does not acknowledge before it (R31). -/
structure Arm where
  arms : NTab ArmRec := []
  lanes : NTab SchedRec := []
  plans : NTab Plan := []
  aplans : NTab ArmPlan := []
  launchDue : Bool := false
  placedAt : Option Nat := none
  missed : Option Nat := none
  abandoned : Bool := false
  stalled : Bool := false
  deriving DecidableEq, Repr

/-! Synchrophasors and fault location -/

/-- A command frame accepted (R403): its command, source MAC and IPv4 addresses, source port. -/
structure PmuCmd where
  cmd : Nat
  mac : Nat
  ip : Nat
  port : Nat
  deriving DecidableEq, Repr

/-- Synchrophasor unit: NUM of the next record (R413), raw instant the open record opened, raw instant the last one did, the last
samples of each group's Plume stream, newest first (raw strobe instant, VALUE, VALID; R404), travelling-wave collection in progress
with its end in 1/16 taps of raw time (R406), arrivals (corrected time in 1/16 tap, negative polarity), raw instant the locator
re-arms; last reporting instant sent, in microseconds of corrected time (R392), absent-data episode (R396), steps of OFS (raw instant,
corrected time before and after), instants at which TVALID = 1 with HOLD = 0 last held (R400), a leap second occurred (R391) and the
host last wrote TXON (R403), commits counted for CFGCNT (R402), command frames received and not yet handled, raw instants of entry to
RUN and before which no window may reach after a reset (R415). -/
structure Pmu where
  num : Nat := 0
  openAt : Option Nat := none
  lastOpen : Option Nat := none
  streams : NTab (List (Nat × Int × Bool)) := []
  collecting : Bool := false
  collEnd : Nat := 0
  arrivals : List (Int × Bool) := []
  rearm : Nat := 0
  lastReport : Option Int := none
  absent : Bool := false
  steps : List (Nat × Int × Int) := []
  goodAt : Option Nat := none
  leapAt : Option Nat := none
  txonAt : Option Nat := none
  cfgCount : Nat := 0
  cmds : List PmuCmd := []
  runAt : Nat := 0
  resume : Nat := 0
  deriving DecidableEq, Repr

/-! Meter -/

/-- One channel (R416 to R419): raw instant of the last input sample used, delivered samples newest first (pattern, INTERP), the
integrator's last output and input, its recent outputs newest first, run of replaced samples, valid samples still needed, and
the episode of R419. -/
structure MeterCh where
  lastX : Option Nat := none
  hist : List (Word × Bool) := []
  y : Word := 0
  x : Word := 0
  ys : List Word := []
  bad : Nat := 0
  need : Nat := 0
  deriving DecidableEq, Repr

/-- One pulse output: end of the pulse in progress, instant from which the next may start, R in 2^-24 uJ, episode of R429. -/
structure PulseOut where
  until_ : Option Nat := none
  free : Nat := 0
  res : Nat := 0
  lost : Bool := false
  deriving DecidableEq, Repr

/-- Meter: accumulators in 2^-24 uJ (R424), bits [79:64] at the previous snapshot (R425), outputs, channels, raw instant of the last
power sample in units of 125 us, instant of entry to RUN, instant of the last PERIODIC copy (R430), a restore due (R431). -/
structure Mtr where
  acc : NTab Nat := []
  hprev : NTab Nat := []
  outs : NTab PulseOut := []
  chs : NTab MeterCh := []
  lastK : Nat := 0
  runAt : Nat := 0
  copyAt : Nat := 0
  restore : Bool := true
  deriving DecidableEq, Repr

/-! Keeper -/

/-- A record of the record store or a pending copy (R527, R528): contents as numbers (words of the configuration image; the
values of an energy record or of a fault set), block count with its commit block, SEQ, newest FLT and PMU record numbers in it. -/
structure NvRec where
  nums : List Nat := []
  blks : Nat := 0
  seq : Nat := 0
  flt : Option Nat := none
  pmu : Option Nat := none
  deriving DecidableEq, Repr

/-- A burst in progress (R528): set, what is written, whether a newer copy replaced the pending one meanwhile (R531), a
COMMIT_NV waits for it (R532). -/
structure NvBurst where
  set : Nat
  body : NvRec
  newer : Bool := false
  host : Bool := false
  deriving DecidableEq, Repr

/-- An entry of the retention log (R507, R523): of RST_N or of a load cut, corrected time of its start in 8 ns units, open, duration
in ms. -/
structure LogEntry where
  rst : Bool
  start : Nat
  open_ : Bool := false
  dur : Nat := 0
  deriving DecidableEq, Repr

/-- Slack servo (R513): ticks in the window, least slack of the window, good ticks in EMERG; a code that VCORE had reached when its
setpoint last moved, and the instant from which it surely stands at the setpoint (R511). -/
structure Servo where
  n : Nat := 0
  smin : Nat := 0xFFFF
  good : Nat := 0
  low : Nat := 60
  reachAt : Nat := 0
  deriving DecidableEq, Repr

/-- The image of an energy record (R430): its tag (0 PERIODIC, 1 WARNING, 2 RESET, 3 present record), its values. -/
structure MeterRec where
  tag : Nat
  vals : List Nat
  deriving DecidableEq, Repr

/-- Keeper domain (R518 to R535). It survives every main reset (R488). The two halves of each set (entry 2 × set + half), pending
copies, the burst, refusal episodes (R529), copies of FLT records (number and value) and of PMU records (number and values), the
meter's latest record (R430), the log newest last, a load cut in progress with its RTC time and
instant, keeper POR and load cuts not yet reported (R526), instant VIN33 began to feed the charger and whether the 24 h were
reported, resistance at MPPSET (R525), instant of the last VSTORE sample, KPR.CFG and KPR.ALARM as last in force (for the keeper
while the main domain is in reset), sleep asked for, entered, and the source of the wake to come (R535), the oscillator runs
(R562), RTC as instant and 1/32,768 s units at its last write, instants of the last PERIODIC commit, MPPSET sample and judgement, last
second written to the RTC, the cell at charge end; and the servo of the main domain. -/
structure Kpr where
  half : NTab (Option NvRec) := []
  pend : NTab (Option NvRec) := []
  burst : Option NvBurst := none
  refusing : NTab Nat := []
  flts : List (Nat × Nat) := []
  pmus : List (Nat × List Nat) := []
  meter : Option MeterRec := none
  log : List LogEntry := []
  cutAt : Option Nat := none
  kpor : Bool := false
  lcuts : Nat := 0
  chargeFrom : Option Nat := none
  chargeLate : Bool := false
  rmpp : Nat := 0
  vstAt : Option Nat := none
  cfg : Nat × Nat × Nat := (0, 3150, 15)
  alarm : Option Nat := none
  sleepDue : Option Nat := none
  asleep : Bool := false
  wake : Nat := 0
  osc : Bool := true
  rtcAt : Nat := 0
  rtc : Nat := 0
  nvAt : Nat := 0
  mppAt : Option Nat := none
  judgedAt : Option Nat := none
  rtcSec : Option Int := none
  full : Bool := false
  srv : Servo := {}
  deriving DecidableEq, Repr

/-! Ethernet -/

/-- A frame queued at a port (R441): priority (1 safety, 3 synchrophasor, 4 ARP and supervision), octets from the destination
address to the end of the payload, octets before the LSDU (R443), SeqNr of its trailer. -/
structure TxFrame where
  prio : Nat
  octets : List Nat
  head : Nat
  seq : Option Nat
  deriving DecidableEq, Repr

/-- An entry of the discard table (R445): source MAC, SeqNr, arrival port, arrival instant. -/
structure DiscEntry where
  src : Nat
  seq : Nat
  port : Nat
  at_ : Nat
  deriving DecidableEq, Repr

/-- A pair of safety frames (R447): source MAC, SeqNr, port of the first copy, payload, instant it opened, its window in taps, closed. -/
structure SafePair where
  src : Nat
  seq : Nat
  port : Nat
  payload : List Nat
  at_ : Nat
  win : Nat
  closed : Bool := false
  deriving DecidableEq, Repr

/-- Ethernet: PRP sequence counter (R443), supervision sequence number and instant of the last one (R442), frames queued at each port,
octets of the last frame each port sent, instant each port is free, discard table oldest first (R445), safety pairs, instant of the
last valid frame (R446), end of the poll and of the host access in progress (R437). -/
structure Net where
  prpSeq : Nat := 0
  supSeq : Nat := 0
  supAt : Nat := 0
  queue : NTab (List TxFrame) := []
  last : NTab (List Nat) := []
  busy : NTab Nat := []
  table : List DiscEntry := []
  pairs : List SafePair := []
  rxAt : NTab Nat := []
  pollEnd : Nat := 0
  pollDue : NTab Nat := []
  mdioEnd : Nat := 0
  deriving DecidableEq, Repr

/-! Control engine -/

/-- One loop slot: sample interval in taps and in seconds (R355), evaluations since commit (R366), CTL_NAN episode (R346), preset due at
the next evaluation (R365), p of its last section and f of the last evaluation (R361), nodes r, m, e, f, u and section outputs of the
last evaluation, raw instant of that evaluation, reference at which its coefficients were last written (R366), instant of the firing it
waits to serve (R358), and probe records whose mixed-set flag is not settled. -/
structure SlotRec where
  ts : Word := 0
  tsTaps : Nat := 0
  evals : Nat := 0
  epi : Bool := false
  preset : Bool := false
  lastP : Word := 0
  lastF : Word := 0
  nodes : List Word := []
  outs : List Word := []
  evAt : Option Nat := none
  wrote : Option Nat := none
  trig : Option Nat := none
  recs : List Item := []
  deriving DecidableEq, Repr

/-- Control engine: slots, values the destinations hold by DEST code (R348), evaluation order of the phases LRP, POST and TRIG
(R356), POST slots of the running tick still to be evaluated and evaluations that may still end in it (R30), what the destinations of
LRP slots held before the tick (R359), section states written outside RUN since the last commit (R369), and the coefficients replaced
by late writes: reference, field, old value, newest first (R362). -/
structure Ctl where
  slots : NTab SlotRec := []
  dest : NTab Word := []
  lrp : List Nat := []
  post : List Nat := []
  trig : List Nat := []
  due : List Nat := []
  left : Nat := 0
  before : List (Nat × Word) := []
  written : List Nat := []
  hist : List (Nat × Key × Nat) := []
  deriving DecidableEq, Repr

/-! Grid unit -/

/-- The results of one evaluation, visible from the next tick reference on (R372): sources 0x70 to 0x7F, Vmax, the fields of
GRD.STAT, whether a passive condition of R383 holds, and whether CESS or TRIP was entered since commit. -/
structure GrdRes where
  out : List Word
  vmax : Word
  rts : Nat
  form : Bool
  isl : Bool
  icause : Nat
  nanh : Bool
  lock : Bool
  curve : Nat
  point : Nat
  pas : Bool
  hit : Bool
  deriving DecidableEq, Repr

/-- Grid unit: results visible (none before the second tick, R372), results of the running tick; states of R374 to R377 by the
manual's names, applied mode, automatic change to FORM in force and due at the next reference (R385), ticks |φe| has stayed small,
NaN episode (R373), squares in the three windows newest first, last valid VALUE of each phase (R375), timers of the points plus one
(0: condition false; R379), return timer of CESS and whether it is ENTD (R380, R381), timer of the ROCOF test (R383), ride-through
state, a CLR taken at this reference, the fields of GRD.STAT, and whether CESS or TRIP was entered since commit, in the evaluation
and in the visible results. -/
structure Grd where
  out : List Word := []
  next : Option GrdRes := none
  thp : Word := 0
  xi : Word := 0
  ff : Word := 0
  rocof : Word := 0
  wp : Word := 0
  vd : Word := 0
  vq : Word := 0
  p : Word := 0
  q : Word := 0
  pf : Word := 0
  qf : Word := 0
  tho : Word := 0
  wo : Word := 0
  delta : Word := 0
  th : Word := 0
  e : Word := 0
  thb : Word := 0
  form : Bool := false
  autoForm : Bool := false
  autoDue : Bool := false
  lock : Bool := false
  lockRun : Nat := 0
  epi : Bool := false
  win : List (List Nat) := [[], [], []]
  lastV : List Int := [0, 0, 0]
  taus : NTab Nat := []
  ret : Option Nat := none
  entd : Bool := false
  roc : Option Nat := none
  rts : Nat := 0
  clred : Bool := false
  isl : Bool := false
  icause : Nat := 0
  curve : Nat := 0
  point : Nat := 0
  hit : Bool := false
  shown : Bool := false
  pas : Bool := false
  deriving DecidableEq, Repr
/-! In-service test -/

/-- In-service test (R537 to R546): pacing base and instant of the last start of each check (R540), next comparator of COMP and
RDBK, checks whose pass in progress has a failed unit or is late, host pass (check and the checks still to come), lanes in an
episode of R539, start of the lane window and each lane's error count there, and that the open comparator window belongs to a pass which
another has replaced (R544). -/
structure Ist where
  base : Nat := 0
  last : NTab Nat := []
  next : NTab Nat := []
  failed : List Nat := []
  late : List Nat := []
  host : Option (Nat × List Nat) := none
  epi : List Nat := []
  winAt : Nat := 0
  errs : NTab Nat := []
  foreign : Bool := false
  deriving DecidableEq, Repr

/-! Test access port -/

/-- Instructions of R547. -/
inductive TapInstr where
  | bypass | idcode | sample | extest | ptest
  deriving DecidableEq, Repr

/-- Test access port (R547): in Test-Logic-Reset, instruction in force, levels last sampled at the digital pins, levels
preloaded for them. -/
structure TapPort where
  reset : Bool := true
  instr : TapInstr := .idcode
  sampled : List Bool := []
  boundary : List Bool := []
  deriving DecidableEq, Repr


end Sys2Proof.Machine
end

