-- ==== Sys2Proof/Machine/State.lean ====
section
/-! DEFINITION. The state of the block: every attribute field, what the blocks hold beside them, the SRAM and the queue of
waiting commands. -/

namespace Sys2Proof.Machine

/-- Everything but the SRAM and the queue: fields that differ from their reset value, the time (taps since power was first
applied), the number of free values used, the W1C bits that hardware set last, and one record per block. -/
structure Chip where
  regs : Tab Key Nat := []
  now : Nat := 0
  free : Nat := 0
  fresh : Fresh := {}
  hpp : Hpp := {}
  dev : Dev := {}
  flt : Flt := {}
  rst : Rst := {}
  tim : Tim := {}
  pgm : Pgm := {}
  adc : Adc := {}
  lnk : Lnk := {}
  arm : Arm := {}
  mod : Mod := {}
  dhb : Dhb := {}
  mon : Mon := {}
  ctl : Ctl := {}
  grd : Grd := {}
  pmu : Pmu := {}
  mtr : Mtr := {}
  net : Net := {}
  sio : Sio := {}
  kpr : Kpr := {}
  ist : Ist := {}
  tap : TapPort := {}
  deriving DecidableEq, Repr

/-- The state: the block, its SRAM (R293) and the commands waiting, first in first out. -/
structure State where
  chip : Chip
  sram : List Host.Cell
  pending : List Instr
  deriving DecidableEq, Repr

/-- Why the machine stops with a fault. Every command of the table has an effect in every state, so no meaning raises one. -/
inductive Fault where
  /-- Raised by no meaning; safe. -/
  | unreachable
  deriving DecidableEq, Repr

/-- Why a command is refused by the model. -/
inductive Refusal where
  /-- A command that the model does not give a meaning yet, by its mnemonic; safe. Raised by an arm of exec alone. -/
  | notModelled (mnemonic : String)
  deriving DecidableEq, Repr

/-- The block as main POR begins (R74, R488): state BOOT, ISW RDY 0, every field at its reset value, SRAM with nothing
listed, nothing waiting. -/
def State.reset : State := { chip := {}, sram := [], pending := [] }

end Sys2Proof.Machine
end

