-- ==== Sys2Proof/Machine/Ops.lean ====
section
/-! DEFINITION. The operations that every block shares: reading and writing a field, time, events and free values. -/

namespace Sys2Proof.Machine

/-! Fields of the register map -/

/-- Field f of instance n in a table of fields. -/
def regGet (m : Tab Key Nat) (f : Fld) (n : Nat) : Nat := tabGet (fieldReset f n) m ⟨f.id, f.lo, n⟩

/-- Field f of instance n takes v, modulo its width. -/
def regSet (m : Tab Key Nat) (f : Fld) (n v : Nat) : Tab Key Nat :=
  tabSet Key.code (fieldReset f n) m ⟨f.id, f.lo, n⟩ (v % 2 ^ f.width)

/-- Field f of instance n. -/
def Chip.get (c : Chip) (f : Fld) (n : Nat := 0) : Nat := regGet c.regs f n

/-- Field f of instance n takes v, modulo its width. -/
def Chip.set (c : Chip) (f : Fld) (n v : Nat) : Chip := { c with regs := regSet c.regs f n v }

/-- Field f of instance n is not 0. -/
def Chip.on (c : Chip) (f : Fld) (n : Nat := 0) : Bool := c.get f n != 0

/-- A one-bit field. -/
def Chip.setB (c : Chip) (f : Fld) (n : Nat) (b : Bool) : Chip := c.set f n (bit b)

/-- Bit i of a field. -/
def Chip.bitOn (c : Chip) (f : Fld) (n i : Nat) : Bool := (c.get f n).testBit i

/-- Bit i of a field takes b. -/
def Chip.setBit (c : Chip) (f : Fld) (n i : Nat) (b : Bool) : Chip := c.set f n (putBit (c.get f n) i b)

/-- A counter rises by one and saturates (R88). -/
def Chip.inc (c : Chip) (f : Fld) (n : Nat := 0) : Chip := c.set f n (satN f.width (c.get f n + 1))

/-- A counter rises by k and saturates (R88). -/
def Chip.incBy (c : Chip) (f : Fld) (n k : Nat) : Chip := c.set f n (satN f.width (c.get f n + k))

/-- A number that rises by one modulo its width. -/
def Chip.incMod (c : Chip) (f : Fld) (n : Nat := 0) : Chip := c.set f n (c.get f n + 1)

/-- The key of field f of instance n. -/
def Fld.key (f : Fld) (n : Nat) : Key := ⟨f.id, f.lo, n⟩

/-- Hardware has set bits m of a W1C field at the present instant (R12, R87). -/
def Chip.noteSet (c : Chip) (f : Fld) (n m : Nat) : Chip :=
  { c with fresh := ⟨c.now, (f.key n, m) :: (if c.fresh.at_ = c.now then c.fresh.bits else [])⟩ }

/-- Bits of a W1C field that hardware has set at the present instant. -/
def Chip.freshBits (c : Chip) (f : Fld) (n : Nat) : Nat :=
  if c.fresh.at_ = c.now then c.fresh.bits.foldl (fun a e => if e.1 = f.key n then a ||| e.2 else a) 0 else 0

/-- A flag of an event register is set by hardware. -/
def Chip.flag (c : Chip) (f : Fld) (n : Nat := 0) : Chip := (c.set f n 1).noteSet f n 1

/-- A field read as two's complement of its width. -/
def Chip.getI (c : Chip) (f : Fld) (n : Nat := 0) : Int := toSigned f.width (c.get f n)

/-- A field takes an integer, as two's complement of its width. -/
def Chip.setI (c : Chip) (f : Fld) (n : Nat) (i : Int) : Chip := c.set f n (ofSigned f.width i)

/-- A field takes an integer limited to the range of its width as two's complement. -/
def Chip.setSat (c : Chip) (f : Fld) (n : Nat) (i : Int) : Chip :=
  c.setI f n (Max.max (-(2 ^ (f.width - 1) : Int)) (Min.min (2 ^ (f.width - 1) - 1) i))

/-- A 32-bit field as a binary32 pattern. -/
def Chip.getW (c : Chip) (f : Fld) (n : Nat := 0) : Word := toWord (c.get f n)

/-- A 32-bit field takes a pattern. -/
def Chip.setW (c : Chip) (f : Fld) (n : Nat) (w : Word) : Chip := c.set f n w.toNat

/-- A change of the chip for each element of a list, in order. -/
def Chip.each {α : Type} (c : Chip) (l : List α) (f : Chip → α → Chip) : Chip := l.foldl f c

/-- A change under a condition. -/
def Chip.when (c : Chip) (b : Bool) (f : Chip → Chip) : Chip := if b then f c else c

/-! Time -/

/-- The instant t is reached: time never runs back (log entry 1). -/
def Chip.at_ (c : Chip) (t : Nat) : Chip := { c with now := Max.max c.now t }

/-- The raw instant X of R311 at a time of the model, in taps; 0 while the TB domain is held. -/
def Chip.raw (c : Chip) (t : Nat) : Nat := if c.tim.run then t - c.tim.c0 else 0

/-- Corrected time of R312 under one parameter set. -/
def TimeSet.time (s : TimeSet) (x : Nat) : Int := (x : Int) + s.ofs + (((x : Int) - s.x0) * s.rate) / 2 ^ 40

/-- The parameter set in force. -/
def Chip.timeSet (c : Chip) : TimeSet :=
  { ofs := c.getI Reg.TIM.OFS.OFS, x0 := c.tim.x0, rate := c.getI Reg.TIM.RATE.RATE, xs := 0 }

/-- The set that converts raw instant x: the first replaced one whose switch lies after it, each kept for 1 ms (R314). -/
def Chip.setFor (c : Chip) (x : Nat) : TimeSet :=
  (c.tim.old.find? (fun o => decide (x < o.xs ∧ c.raw c.now ≤ o.xs + msTaps))).getD c.timeSet

/-- Corrected time in taps of raw instant x (R312, R314). -/
def Chip.corrected (c : Chip) (x : Nat) : Int := (c.setFor x).time x

/-- TIME and TAP of a raw instant (R312). -/
def Chip.stamp (c : Chip) (x : Nat) : Nat × Nat :=
  let t := c.corrected x
  (((t / 64) % 2 ^ 64).toNat, (t % 64).toNat)

/-- The tick period in taps. -/
def Chip.period (c : Chip) : Nat := 64 * c.get Reg.DEV.TICK.PERIOD

/-- Start of the application window of the tick with reference t (R23, R335). -/
def Chip.windowStart (c : Chip) (t : Nat) : Nat := t + 64 * c.get Reg.DEV.APPLY.APPLY + c.tim.phi

/-- T_C of R195 follows the first tick reference. -/
def Chip.placeCarriers (c : Chip) : Chip := { c with mod := { c.mod with tc := c.windowStart c.dev.nextT0 } }

/-! Device state -/

/-- DEV.STATE codes of R74. -/
def stBoot : Nat := 0
def stDiag : Nat := 1
def stConfig : Nat := 2
def stRun : Nat := 3
def stFatal : Nat := 4

/-- The device state (R74). -/
def Chip.state (c : Chip) : Nat := c.get Reg.DEV.STATE.STATE

/-- The device is in RUN. -/
def Chip.inRun (c : Chip) : Bool := c.state == stRun

/-- The fabric is released (R501). -/
def Chip.fabric (c : Chip) : Bool := c.bitOn Reg.RST.DOM.REL 0 0

/-- Domain i of RST.DOM.REL is released (R501): 1 TB, 2 SMP, 3 LNK, 4 DHB, 5 ETHA, 6 ETHB, 7 HPP. -/
def Chip.released (c : Chip) (i : Nat) : Bool := c.bitOn Reg.RST.DOM.REL 0 i

/-! Events -/

/-- A block raises an event of source src (R470, R472): it is in flight until FAULT_EVENT. While the fabric is in reset no
block raises anything. -/
def Chip.raise (c : Chip) (src : Nat) (detail : Nat := 0) (fatal : Bool := false) : Chip :=
  if c.fabric then { c with flt := { c.flt with raised := c.flt.raised ++ [⟨src, detail, c.now, fatal⟩] } } else c

/-! Free values -/

/-- The next free bit. -/
def Chip.freeBit (c : Chip) : Bool × Chip := (Config.freeBit c.free, { c with free := c.free + 1 })

/-- The next free number. -/
def Chip.freeNat (c : Chip) : Nat × Chip := (Config.freeNat c.free, { c with free := c.free + 1 })

/-! A meaning -/

/-- The SRAM words that a command wrote, entered in order (byte addresses). -/
def flush (s : State) : State :=
  { s with
    sram := s.chip.pgm.wq.foldl (fun m aw => Memory.writeWord m aw.1 aw.2) s.sram
    chip := { s.chip with pgm := { s.chip.pgm with wq := [] } } }

/-- The shape of every meaning: a command changes the chip, its SRAM writes follow, and the queue is left alone. -/
def run (f : Memory → Chip → Chip) (s : State) : Host.Outcome State Fault Refusal :=
  .next (flush { s with chip := f s.sram s.chip })

end Sys2Proof.Machine
end

