-- ==== Sys2Proof/Machine/Sio.lean ====
section
/-! DEFINITION. Safety inputs and safe disconnect outputs (chapter 17, R451 to R469). -/

namespace Sys2Proof.Machine

open Reg

/-- Output j. -/
def Chip.sdo (c : Chip) (j : Nat) : SdoOut := nget {} c.sio.outs j

/-- Output j takes a new record. -/
def Chip.setSdo (c : Chip) (j : Nat) (v : SdoOut) : Chip := { c with sio := { c.sio with outs := nset {} c.sio.outs j v } }

/-- Receiver m. -/
def Chip.srx (c : Chip) (m : Nat) : SafetyRx := nget {} c.sio.rx m

/-- Receiver m takes a new record. -/
def Chip.setSrx (c : Chip) (m : Nat) (v : SafetyRx) : Chip := { c with sio := { c.sio with rx := nset {} c.sio.rx m v } }

/-- Target bit i of MON.ROUTE's layout is held by a trip (R255). -/
def Chip.tripHeld (c : Chip) (i : Nat) : Bool := c.bitOn MON.HOLD.HELD 0 i

/-- Target bit i is held by a reaction (R477). -/
def Chip.faultHeld (c : Chip) (i : Nat) : Bool := c.bitOn FLT.HOLD.HELD 0 i

/-- Target bit i is held by a trip or by a reaction (R256). -/
def Chip.held (c : Chip) (i : Nat) : Bool := c.tripHeld i || c.faultHeld i

/-! Inputs -/

/-- Input k is evaluated: MODE EQUIV or ANTI (R451). -/
def Chip.siUsed (c : Chip) (k : Nat) : Bool := c.get SIO.SICFG.MODE k == 1 || c.get SIO.SICFG.MODE k == 2

/-- Channel A of input k is OK (R451). -/
def Chip.siOkA (c : Chip) (k : Nat) : Bool := c.on SIO.SISTAT.A k

/-- Channel B of input k is OK: high in EQUIV, low in ANTI (R451). -/
def Chip.siOkB (c : Chip) (k : Nat) : Bool := if c.get SIO.SICFG.MODE k = 2 then !c.on SIO.SISTAT.B k else c.on SIO.SISTAT.B k

/-- Input k is in demand (R452). -/
def Chip.siDemand (c : Chip) (k : Nat) : Bool := c.siUsed k && (!c.siOkA k || !c.siOkB k || c.on SIO.SISTAT.FAULT k)

/-- A demand on output j from an input routed to it (R454). -/
def Chip.siOn (c : Chip) (j : Nat) : Bool := (upTo 8).any (fun k => c.siDemand k && c.bitOn SIO.SICFG.SDO k j)

/-- A remote demand of receiver m stands (R467). -/
def Chip.remoteDemand (c : Chip) (m : Nat) : Bool :=
  c.on SIO.RXCFG.EN m && (!c.on SIO.RXSTAT.LIVE m || c.get SIO.RXSTAT.SIDEM m &&& c.get SIO.RXCFG.SIMASK m != 0 ||
    c.on SIO.RXCFG.TRIPM m && (c.srx m).flags.testBit 0)

/-- A remote demand routed to output j (R455). -/
def Chip.remoteOn (c : Chip) (j : Nat) : Bool := (upTo 4).any (fun m => c.remoteDemand m && c.bitOn SIO.RXCFG.SDO m j)

/-! Outputs -/

/-- Sources of SIO.SDOSTAT that the machine computes, with their fields (R455); FAULT is state of its own. -/
def Chip.sdoSources (c : Chip) (j : Nat) : List (Fld × Bool) :=
  [(SIO.SDOSTAT.NOTRUN, !c.inRun || !c.on SIO.SDOCFG.EN j), (SIO.SDOSTAT.TRIP, c.tripHeld (18 + j)),
    (SIO.SDOSTAT.SI, c.siOn j), (SIO.SDOSTAT.REMOTE, c.remoteOn j), (SIO.SDOSTAT.FLT, c.faultHeld (18 + j))]

/-- A source other than HOST is active on output j. -/
def Chip.sdoBlocked (c : Chip) (j : Nat) : Bool := c.on SIO.SDOSTAT.FAULT j || (c.sdoSources j).any (·.2)

/-- A reset sequence of level L0, L1, L2 or main POR runs (R496). -/
def Chip.timedReset (c : Chip) : Bool :=
  match c.rst.seq with
  | some q => decide (q.level ≤ 3)
  | none => false

/-- Output j is to be energised: no source is active (R455), no reset holds it low (R496). -/
def Chip.sdoWanted (c : Chip) (j : Nat) : Bool := !c.sdoBlocked j && c.on SIO.SDOCTL.ON j && !c.timedReset

/-- Both channels of output j are driven to the levels given; the instant of each change is kept (R459). -/
def Chip.drive (c : Chip) (j : Nat) (a b : Bool) : Chip :=
  let o := c.sdo j
  c.setSdo j { o with a := a, b := b, aAt := if a == o.a then o.aAt else c.now, bAt := if b == o.b then o.bAt else c.now }

/-- Output j is driven as its sources say. -/
def Chip.driveFree (c : Chip) (j : Nat) : Chip := let w := c.sdoWanted j; c.drive j w w

/-- The levels follow the sources of output j, a test pulse in progress considered (R464): a demand in a dark pulse drives
both channels low and discards the test; a new demand in a bright pulse drives the tested channel low and discards it; an
end of all demands in a bright pulse waits for the pulse. -/
def Chip.driveSdo (c : Chip) (j : Nat) (onset : Bool) : Chip :=
  let o := c.sdo j
  match o.test with
  | none => c.driveFree j
  | some x =>
    if x.ended.isSome then
      let c := c.driveFree j
      if onset then c.setSdo j { c.sdo j with test := some { x with discarded := true } } else c
    else if x.bright then
      if onset && !x.discarded then
        let c := c.drive j false false
        c.setSdo j { c.sdo j with test := some { x with discarded := true } }
      else c
    else if c.sdoWanted j then c
    else
      let c := c.drive j false false
      c.setSdo j { c.sdo j with test := some { x with discarded := true } }

/-- Output j follows its sources: SDOSTAT shows them, the onset of one other than HOST clears ON when RESTART is 1 (R456),
and the channels are driven. `also` is the onset of FAULT or of HOST. -/
def Chip.refreshOne (c : Chip) (j : Nat) (also : Bool) (fault : Bool) : Chip :=
  let src := c.sdoSources j
  let onset := fault || src.any (fun p => p.2 && !c.on p.1 j)
  let c := c.each src (fun c p => c.setB p.1 j p.2)
  let c := if onset && c.on SIO.SDOCFG.RESTART j then c.set SIO.SDOCTL.ON j 0 else c
  let c := c.setB SIO.SDOSTAT.HOST j (!c.on SIO.SDOCTL.ON j)
  c.driveSdo j (onset || also)

/-- Every output follows its sources (R455). -/
def Chip.refreshSdo (c : Chip) : Chip := c.each (upTo 4) (fun c j => c.refreshOne j false false)

/-- Output j enters FAULT (R460): cause 1 RBA, 2 RBB, 3 TSTA, 4 TSTB. -/
def Chip.sdoFault (c : Chip) (j cause : Nat) : Chip :=
  if c.on SIO.SDOSTAT.FAULT j then c
  else
    (((c.set SIO.SDOSTAT.FAULT j 1).set SIO.SDOSTAT.FCAUSE j cause).flag SIO.EVT.SDOF |>.raise 56).refreshOne j false true

/-- Result of the last test of channel ch (0 A, 1 B). -/
def Chip.setTres (c : Chip) (j ch v : Nat) : Chip := c.set (if ch = 0 then SIO.SDOSTAT.TRESA else SIO.SDOSTAT.TRESB) j v

/-- The test of output j is over: its result is recorded and the channels follow the sources. -/
def Chip.endTest (c : Chip) (j ch v : Nat) : Chip :=
  ((c.setSdo j { c.sdo j with test := none }).setTres j ch v).driveFree j

/-- A test fails (R463): FAULT, event, count, SIO_TEST. -/
def Chip.testFails (c : Chip) (j ch cause : Nat) : Chip :=
  ((((c.endTest j ch 2).sdoFault j cause).flag SIO.EVT.TFAIL).inc SIO.CNT.TFAIL).raise 56 1

/-- A test passes (R462). -/
def Chip.testPasses (c : Chip) (j ch : Nat) : Chip := (c.endTest j ch 1).inc SIO.CNT.TESTS

/-- A test is discarded (R464). -/
def Chip.testDiscarded (c : Chip) (j ch : Nat) : Chip := (c.endTest j ch 3).inc SIO.CNT.DISCARD

/-- Driven level of a channel. -/
def SdoOut.level (o : SdoOut) (ch : Nat) : Bool := if ch = 0 then o.a else o.b

/-- Recognised readback of a channel. -/
def Chip.readback (c : Chip) (j ch : Nat) : Bool := if ch = 0 then c.on SIO.SDOSTAT.FA j else c.on SIO.SDOSTAT.FB j

/-- Instant from which the readback of a channel must agree (R459). -/
def Chip.agreeAt (c : Chip) (j ch : Nat) : Nat :=
  let o := c.sdo j
  (if ch = 0 then o.aAt else o.bAt) + c.get SIO.SDOCFG.RBT j * 10 * usTaps

/-- The readback of a channel is judged by R459: no test pulse of output j runs, and the channel's return from one is not awaited (R462). -/
def Chip.judged (c : Chip) (j ch : Nat) : Bool :=
  match (c.sdo j).test with
  | none => true
  | some x => x.ended.isSome && x.ch != ch

/-- R459 on one channel: a readback that disagrees from its instant on takes the output into FAULT. -/
def Chip.checkReadback (c : Chip) (j ch : Nat) : Chip :=
  if c.judged j ch && decide (c.agreeAt j ch ≤ c.now) && c.readback j ch != (c.sdo j).level ch && c.fabric then
    c.sdoFault j (1 + ch)
  else c

/-- SDO_READBACK_CHANGE (R459, R462): a recognised readback level changes. -/
def execSdoReadbackChange (t j ch : Nat) (level : Bool) (s : State) : Host.Outcome State Fault Refusal :=
  run (fun _ c =>
    let c := c.at_ t
    if c.fabric && decide (j < 4 ∧ ch < 2) then
      let c := c.setB (if ch = 0 then SIO.SDOSTAT.FA else SIO.SDOSTAT.FB) j level
      match (c.sdo j).test with
      | none => c.checkReadback j ch
      | some x =>
        if x.ch != ch then c.checkReadback j ch
        else if x.ended.isNone then
          if level == x.bright then c.setSdo j { c.sdo j with test := some { x with reached := true } } else c
        else if x.discarded then c
        else if level != x.bright then c.testPasses j ch
        else c
    else c) s

/-- SDO_READBACK_DEADLINE (R459): RBT × 10 us after a channel's change its readback is judged. -/
def execSdoReadbackDeadline (t j ch : Nat) (s : State) : Host.Outcome State Fault Refusal :=
  run (fun _ c => let c := c.at_ t; if decide (j < 4 ∧ ch < 2) then c.checkReadback j ch else c) s

/-- Another output's pulse runs (R461). -/
def Chip.pulseRuns (c : Chip) : Bool := (upTo 4).any (fun j => match (c.sdo j).test with
  | some x => x.ended.isNone
  | none => false)

/-- TEST_PULSE (R461): the pulse due on a channel of output j starts, dark when energised and bright when not; a bright one
is skipped unless the other channel's readback is low. -/
def execTestPulse (t j ch : Nat) (s : State) : Host.Outcome State Fault Refusal :=
  run (fun _ c =>
    let c := c.at_ t
    let o := c.sdo j
    let due := if ch = 0 then o.dueA else o.dueB
    if decide (j < 4 ∧ ch < 2 ∧ due ≤ c.now) && c.inRun && c.on SIO.SDOCFG.EN j && c.on SIO.SDOCFG.TEN j &&
        o.test.isNone && !c.pulseRuns && !c.on SIO.SDOSTAT.FAULT j then
      let per := c.get SIO.SDOCFG.TPER j * secTaps
      let next := due + ((c.now - due) / per + 1) * per
      let c := c.setSdo j (if ch = 0 then { o with dueA := next } else { o with dueB := next })
      if o.a && o.b then
        let c := c.drive j (ch != 0) (ch == 0)
        c.setSdo j { c.sdo j with test := some { ch := ch, bright := false, start := c.now, reached := !c.readback j ch } }
      else if c.readback j (1 - ch) then c.setTres j ch 4
      else
        let c := c.drive j (ch == 0) (ch != 0)
        c.setSdo j { c.sdo j with test := some { ch := ch, bright := true, start := c.now, reached := c.readback j ch } }
    else c) s

/-- TEST_PULSE_END (R462 to R464): TPW × 10 us after its start a pulse ends and is judged for having reached its level. -/
def execTestPulseEnd (t j : Nat) (s : State) : Host.Outcome State Fault Refusal :=
  run (fun _ c =>
    let c := c.at_ t
    match (c.sdo j).test with
    | none => c
    | some x =>
      if x.ended.isSome || decide (c.now < x.start + c.get SIO.SDOCFG.TPW j * 10 * usTaps) then c
      else if x.discarded then ((c.testDiscarded j x.ch).checkReadback j 0).checkReadback j 1
      else if !x.reached then c.testFails j x.ch (3 + x.ch)
      else
        let c := (c.setSdo j { c.sdo j with test := some { x with ended := some c.now } }).driveFree j
        (if c.readback j x.ch != x.bright || x.bright && (c.sdo j).level x.ch then c.testPasses j x.ch else c).checkReadback j
          (1 - x.ch)) s

/-- TEST_RETURN_TIMEOUT (R463): the readback has not returned within RBT × 10 us of the pulse. -/
def execTestReturnTimeout (t j : Nat) (s : State) : Host.Outcome State Fault Refusal :=
  run (fun _ c =>
    let c := c.at_ t
    match (c.sdo j).test with
    | none => c
    | some x =>
      match x.ended with
      | none => c
      | some e =>
        if c.now < e + c.get SIO.SDOCFG.RBT j * 10 * usTaps then c
        else if x.discarded then c.testDiscarded j x.ch
        else c.testFails j x.ch (1 + x.ch)) s

/-! Commands of the host -/

/-- A write of SIO.SICTL.ACK may not be done: a named input has an OK channel (R453). -/
def Chip.siAckRefused (c : Chip) (mask : Nat) : Bool := (setBits 8 mask).any (fun k => c.siOkA k || c.siOkB k)

/-- DEMAND of input k follows (R452); an entry into demand is flagged and, with EVEN, raised (R454). -/
def Chip.refreshSi (c : Chip) (k : Nat) : Chip :=
  if c.siUsed k then
    let d := c.siDemand k
    let entry := d && !c.on SIO.SISTAT.DEMAND k
    let dis := c.siOkA k != c.siOkB k
    let since := match nget none c.sio.disagree k with
      | some x => if dis then some x else none
      | none => if dis then some c.now else none
    let c := { c.setB SIO.SISTAT.DEMAND k d with sio := { c.sio with disagree := nset none c.sio.disagree k since } }
    let c := if entry then c.flag SIO.EVT.SIDEM else c
    if entry && c.on SIO.SICFG.EVEN k then c.raise 58 else c
  else c

/-- The write of SIO.SICTL.ACK takes effect (R453). -/
def Chip.siAck (c : Chip) (mask : Nat) : Chip :=
  (c.each (setBits 8 mask) (fun c k => (c.set SIO.SISTAT.FAULT k 0).refreshSi k)).refreshSdo

/-- SI_FAULT_ACK (R453): refused inputs leave the state as it is. -/
def execSiFaultAck (t mask : Nat) (s : State) : Host.Outcome State Fault Refusal :=
  run (fun _ c => let c := c.at_ t; if c.fabric && !c.siAckRefused mask then c.siAck mask else c) s

/-- SAFETY_INPUT_CHANGE (R451, R452): the filtered level of a channel (0 A, 1 B) of input k changes. -/
def execSafetyInputChange (t k ch : Nat) (level : Bool) (s : State) : Host.Outcome State Fault Refusal :=
  run (fun _ c =>
    let c := c.at_ t
    if c.fabric && decide (k < 8 ∧ ch < 2) then
      ((c.setB (if ch = 0 then SIO.SISTAT.A else SIO.SISTAT.B) k level).refreshSi k).refreshSdo
    else c) s

/-- DISCREPANCY_TIMEOUT (R452): the channels of input k have disagreed for TDISC ms. -/
def execDiscrepancyTimeout (t k : Nat) (s : State) : Host.Outcome State Fault Refusal :=
  run (fun _ c =>
    let c := c.at_ t
    match nget none c.sio.disagree k with
    | none => c
    | some x =>
      if c.siUsed k && c.fabric && !c.on SIO.SISTAT.FAULT k && decide (k < 8 ∧ x + c.get SIO.SICFG.TDISC k * msTaps ≤ c.now) then
        (((((c.set SIO.SISTAT.FAULT k 1).flag SIO.EVT.DISC).inc SIO.CNT.DISC).raise 57).refreshSi k).refreshSdo
      else c) s

/-- A write of ON = 1 is refused (R457). -/
def Chip.sdoOnRefused (c : Chip) (j : Nat) : Bool := c.sdoBlocked j

/-- A write of ON takes effect (R456): with RESTART 1, ON = 1 reads 0 while a source other than HOST stands. -/
def Chip.sdoOn (c : Chip) (j : Nat) (on : Bool) : Chip :=
  let v := on && !(c.on SIO.SDOCFG.RESTART j && c.sdoBlocked j)
  let fell := c.on SIO.SDOCTL.ON j && !v
  (c.setB SIO.SDOCTL.ON j v).refreshOne j fell false

/-- SDO_ON (R455 to R457). -/
def execSdoOn (t j : Nat) (on : Bool) (s : State) : Host.Outcome State Fault Refusal :=
  run (fun _ c =>
    let c := c.at_ t
    if c.fabric && decide (j < 4) && !(on && c.sdoOnRefused j) then c.sdoOn j on else c) s

/-- A write of SIO.SDOCTL.ACK is refused unless both readbacks are low (R460). -/
def Chip.sdoAckRefused (c : Chip) (j : Nat) : Bool := c.readback j 0 || c.readback j 1

/-- Output j leaves FAULT (R460). -/
def Chip.sdoAck (c : Chip) (j : Nat) : Chip := (c.set SIO.SDOSTAT.FAULT j 0).refreshOne j false false

/-- SDO_FAULT_ACK (R460). -/
def execSdoFaultAck (t j : Nat) (s : State) : Host.Outcome State Fault Refusal :=
  run (fun _ c => let c := c.at_ t; if c.fabric && decide (j < 4) && !c.sdoAckRefused j then c.sdoAck j else c) s

/-! Safety frames -/

/-- Bytes 4 to 7 of a safety frame (R465). -/
def Chip.safetyStatus (c : Chip) : List Nat :=
  let energised := fun j => (c.sdo j).a && (c.sdo j).b
  [ofBits ((upTo 8).filter c.siDemand),
    ofBits ((upTo 8).filter (fun k => c.on SIO.SISTAT.FAULT k)),
    ofBits ((upTo 4).filter energised) + 16 * ofBits ((upTo 4).filter (fun j => c.on SIO.SDOSTAT.FAULT j)),
    bit (c.on MON.LATCH.LATCH) + 2 * bit c.inRun + 4 * bit (c.on TIM.STAT.TVALID)]

/-- The payload of R465. -/
def Chip.safetyPayload (c : Chip) : List Nat :=
  let time := (c.stamp (c.raw c.now)).1
  let body := [1, c.get SIO.FCFG.NODE, c.sio.fcnt / 256 % 256, c.sio.fcnt % 256] ++ c.safetyStatus ++
    wordBytes (time / 2 ^ 32) ++ wordBytes (time % 2 ^ 32)
  body ++ wordBytes (crc32c body)

/-- Big-endian value of payload bytes [lo, lo + n). -/
def field (p : List Nat) (lo n : Nat) : Nat := ofBytes ((p.drop lo).take n)

/-- The receiver that accepts a payload (R466). -/
def Chip.acceptor (c : Chip) (p : List Nat) : Option Nat :=
  if p.length = 20 ∧ field p 0 1 = 1 ∧ field p 16 4 = crc32c (p.take 16) then
    (upTo 4).find? (fun m => c.on SIO.RXCFG.EN m && c.get SIO.RXCFG.NODE m == field p 1 1 &&
      (let d := (field p 2 2 + 65536 - c.get SIO.RXSTAT.FCNT m) % 65536
       !(c.srx m).seen || decide (1 ≤ d ∧ d ≤ 32767)))
  else none

/-- SAFETY_FRAME_RX (R466, R467): the oldest delivered frame is checked; a receiver takes it, or it is discarded. -/
def execSafetyFrameRx (t : Nat) (s : State) : Host.Outcome State Fault Refusal :=
  run (fun _ c =>
    let c := c.at_ t
    match c.sio.frames with
    | [] => c
    | f :: l =>
      let c := { c with sio := { c.sio with frames := l } }
      match c.acceptor f.payload with
      | none => (c.flag SIO.EVT.RXBAD).inc SIO.CNT.RXBAD
      | some m =>
        let restart := f.both || !c.on SIO.RXCFG.REQBOTH m
        let c := ((c.set SIO.RXSTAT.FCNT m (field f.payload 2 2)).set SIO.RXSTAT.SIDEM m (field f.payload 4 1)).setB
          SIO.RXSTAT.BOTH m f.both
        let r := c.srx m
        let c := c.setSrx m { flags := field f.payload 7 1, seen := true, restart := if restart then c.now else r.restart }
        (if restart then c.set SIO.RXSTAT.LIVE m 1 else c).refreshSdo) s

/-- REMOTE_WATCHDOG_EXPIRY (R467): receiver m has accepted no restarting frame for RXTO ms. -/
def execRemoteWatchdogExpiry (t m : Nat) (s : State) : Host.Outcome State Fault Refusal :=
  run (fun _ c =>
    let c := c.at_ t
    if c.on SIO.RXSTAT.LIVE m && c.on SIO.RXCFG.EN m && decide (m < 4 ∧ (c.srx m).restart + c.get SIO.RXCFG.RXTO m * msTaps ≤ c.now)
    then ((((c.set SIO.RXSTAT.LIVE m 0).flag SIO.EVT.REMTO).inc SIO.CNT.REMTO).raise 59).refreshSdo
    else c) s

/-! Entry to RUN and reset -/

/-- Entry to RUN: watchdogs expired (R467), tests fall due (R461), outputs follow. -/
def Chip.runSio (c : Chip) : Chip :=
  let c := c.each (upTo 4) (fun c m => (c.set SIO.RXSTAT.LIVE m 0).setSrx m {})
  let c := c.each (upTo 4) (fun c j => c.setSdo j { c.sdo j with
    dueA := c.now, dueB := c.now + c.get SIO.SDOCFG.TPER j * (secTaps / 2) })
  { c with sio := { c.sio with sentAt := none } }.refreshSdo

/-- A reset of the SIO block (R469): outputs de-energised, RWL fields kept, the rest at reset; the pins are read again. -/
def Chip.resetSio (c : Chip) : Chip :=
  let rwl := fun (k : Key) => decide (0x1C00 ≤ k.id ∧ k.id ≤ 0x1C03) && !(k.id == 0x1C00 && k.lo == 12)
  let own := fun (k : Key) => decide (0x1C00 ≤ k.id ∧ k.id < 0x2000)
  let pin := fun (k : Key) => (k.id == 0x1C10 && decide (k.lo < 2)) || (k.id == 0x1C11 && decide (k.lo = 9 ∨ k.lo = 10))
  let now := c.now
  let c := c.each (upTo 4) (fun c j => c.drive j false false)
  let outs := c.sio.outs.map (fun e => (e.1, { e.2 with test := none, dueA := now, dueB := now }))
  let c : Chip := { c with sio := { outs := outs }, regs := c.regs.filter (fun e => !own e.1 || rwl e.1 || pin e.1) }
  (c.each (upTo 8) Chip.refreshSi).refreshSdo

end Sys2Proof.Machine
end

