-- ==== Sys2Proof/Machine/Ports.lean ====
section
/-! DEFINITION. Carriers, trigger generators and the direct half-bridge ports (chapter 6, R195 to R219; ST pins R229 to
R232). -/

namespace Sys2Proof.Machine

open Reg

/-! Carriers -/

/-- A compare as a position: 0 to PER/2 taps (R196). -/
def compareTaps (w : Word) (per : Nat) : Nat := (F32.roundHalfMul w per).toNat

/-- A compare of the engine or the host after R196: limited to 0 to 1; a NaN is replaced by the value used before. Whether it
was NaN stands beside it. -/
def cleanCompare (w before : Word) : Word × Bool :=
  if F32.isNaN w then (before, true) else (F32.clamp w (F32.zero false) F32.one, false)

/-- The compares last latched. -/
def Cmp.latest (m : Cmp) : Word × Word := match m.next.getLast? with
  | some x => x.2
  | none => (m.a, m.b)

/-- The compares in force at instant t. -/
def Cmp.at_ (m : Cmp) (t : Nat) : Cmp :=
  let due := m.next.filter (fun x => decide (x.1 ≤ t))
  match due.getLast? with
  | some x => { a := x.2.1, b := x.2.2, next := m.next.filter (fun x => decide (t < x.1)) }
  | none => m

/-- Compares that come into force at instant w. -/
def Cmp.push (m : Cmp) (w : Nat) (a b : Word) : Cmp := { m with next := m.next ++ [(w, a, b)] }

/-- A carrier at an instant: period, and the positions of its compares. -/
structure Carrier where
  per : Nat
  ra : Nat
  rb : Nat
  deriving DecidableEq, Repr

/-- A carrier with its compares in force at instant t. -/
def mkCarrier (per : Nat) (m : Cmp) (t : Nat) : Carrier :=
  let x := m.at_ t
  { per := per, ra := compareTaps x.a per, rb := compareTaps x.b per }

/-- Position of a carrier of period `per` and phase `ph` at instant t (R195). -/
def Chip.position (c : Chip) (per ph t : Nat) : Nat :=
  if per = 0 then 0 else (((t : Int) - c.mod.tc + ph) % (per : Int)).toNat

/-- The carrier commands UPPER at position u (R196). -/
def Carrier.upper (k : Carrier) (u : Nat) : Bool := decide (k.per - k.ra ≤ u) && decide (0 < k.ra) || decide (u < k.rb)

/-- First instant after t, of position u, at which the carrier commands a state other than `to`; none when it never does. -/
def Carrier.nextOther (k : Carrier) (u t : Nat) (dst : Bool) : Option Nat :=
  if k.per = 0 then none
  else
    let u1 := (u + 1) % k.per
    if k.upper u1 != dst then some (t + 1)
    else if dst then
      if k.ra + k.rb < k.per then some (t + 1 + (k.rb + k.per - u1) % k.per) else none
    else if 0 < k.ra + k.rb then some (t + 1 + ((k.per - k.ra) + k.per - u1) % k.per) else none

/-- The events of the carrier at position u: change to UPPER (A), change to LOWER (B), ZERO, PERIOD (R195, R196). -/
def Carrier.eventA (k : Carrier) (u : Nat) : Bool := decide (0 < k.per) && u == (k.per - k.ra) % k.per
def Carrier.eventB (k : Carrier) (u : Nat) : Bool := decide (0 < k.per) && u == k.rb % k.per
def Carrier.zero (k : Carrier) (u : Nat) : Bool := decide (0 < k.per) && u == 0
def Carrier.period (k : Carrier) (u : Nat) : Bool := decide (0 < k.per) && u == k.per / 2

/-! Trigger generators -/

/-- A source event of kind 0 (lane), 1 (port) or 2 (tick) with code evt falls at instant t: the generators that watch it fire
or count down (R203); a firing is delivered DELAY × 8 ns later (R204). -/
def Chip.mtrigEvent (c : Chip) (kind src evt t : Nat) : Chip :=
  c.each ((upTo 16).filter (fun m => c.on MOD.TRG.EN m && c.get MOD.TRG.KIND m == kind &&
      (kind == 2 || c.get MOD.TRG.SRC m == src && c.get MOD.TRG.EVT m == evt))) (fun c m =>
    let n := nget 0 c.mod.presc m
    if n = 0 then
      { c with mod := { c.mod with
          presc := nset 0 c.mod.presc m (c.get MOD.TRG.PRESC m)
          fired := c.mod.fired ++ [(m, t + 64 * c.get MOD.TRG.DELAY m)] } }
    else { c with mod := { c.mod with presc := nset 0 c.mod.presc m (n - 1) } })

/-- Every event of a carrier at position u is offered to the generators (R203). -/
def Chip.mtrigCarrier (c : Chip) (kind src : Nat) (k : Carrier) (u t : Nat) : Chip :=
  c.each [(0, k.zero u), (1, k.period u), (2, k.eventA u), (3, k.eventB u)]
    (fun c e => if e.2 then c.mtrigEvent kind src e.1 t else c)

/-! Commanded state of a port -/

/-- Port p. -/
def Chip.port (c : Chip) (p : Nat) : Port := nget {} c.dhb.ports p

/-- Port p takes a new record. -/
def Chip.setPort (c : Chip) (p : Nat) (v : Port) : Chip := { c with dhb := { c.dhb with ports := nset {} c.dhb.ports p v } }

/-- The switch of a port (true: upper). -/
def Port.sw (v : Port) (up : Bool) : Switch := if up then v.u else v.l

/-- The switch of a port takes a new record. -/
def Port.setSw (v : Port) (up : Bool) (x : Switch) : Port := if up then { v with u := x } else { v with l := x }

/-- The carrier of port p at instant t. -/
def Chip.portCarrier (c : Chip) (p t : Nat) : Carrier := mkCarrier (c.get DHB.CAR.PER p) (c.port p).cmp t

/-- Position of the carrier of port p. -/
def Chip.portPos (c : Chip) (p t : Nat) : Nat := c.position (c.get DHB.CAR.PER p) (c.get DHB.CAR.PH p) t

/-- THR of port p (R198). -/
def Chip.portThr (c : Chip) (p : Nat) : Nat := c.get DHB.CFG.DEAD p + c.get DHB.CFG.MINPW p

/-- The selected commutation code (R215). -/
def Chip.maskCode (c : Chip) : Nat :=
  if c.on MOD.CMT.SRC then
    bit (c.bitOn MON.DEC.CMP 0 (c.get MOD.CMT.MB0)) + 2 * bit (c.bitOn MON.DEC.CMP 0 (c.get MOD.CMT.MB1)) +
      4 * bit (c.bitOn MON.DEC.CMP 0 (c.get MOD.CMT.MB2))
  else c.get MOD.CMT.CODE

/-- The selected mask entry for port p: 0 pass, 1 both off, 2 LOWER, 3 UPPER. -/
def Chip.maskEntry (c : Chip) (p : Nat) : Nat := bitsOf (c.get MOD.MASK.OVR c.maskCode) (2 * p + 1) (2 * p)

/-- MODE maps UPPER and LOWER onto the switches (R206): upper on, lower on. -/
def Chip.modeMap (c : Chip) (p : Nat) (upper : Bool) : Bool × Bool :=
  match c.get DHB.CFG.MODE p with
  | 1 => (upper, !upper)
  | 2 => (upper, false)
  | 3 => (false, !upper)
  | _ => (false, false)

/-- Priority of the source that commands port p (R206); 0 outside RUN, with the domain in reset, and until the tick reference
after a reset (R205, R219). -/
def Chip.portPrio (c : Chip) (p : Nat) : Nat :=
  if !c.inRun || !c.released 4 || c.dhb.resume.isSome then 0
  else if (c.port p).fault then 1
  else if c.held (6 + p) then 2
  else if c.maskEntry p != 0 then 3
  else if c.on DHB.FORCE.EN p then 4
  else 5

/-- The state that a source of that priority commands: upper on, lower on. -/
def Chip.portBase (c : Chip) (p prio : Nat) : Bool × Bool :=
  match prio with
  | 3 => match c.maskEntry p with
    | 2 => c.modeMap p false
    | 3 => c.modeMap p true
    | _ => (false, false)
  | 4 => (c.on DHB.FORCE.FU p, c.on DHB.FORCE.FL p)
  | 5 => c.modeMap p (c.on DHB.STAT.TRK p)
  | _ => (false, false)

/-- The commanded state, a refresh sequence in its place (R214). -/
def Chip.portWant (c : Chip) (p prio : Nat) : Bool × Bool :=
  let base := c.portBase p prio
  match (c.port p).refresh with
  | none => base
  | some .upperPending => (true, false)
  | some _ => (false, true)

/-! Turning switches on and off -/

/-- Recognised acknowledge of a switch. -/
def Chip.ack (c : Chip) (p : Nat) (up : Bool) : Bool := if up then c.on DHB.STAT.UAK p else c.on DHB.STAT.LAK p

/-- Pin xON of a switch. -/
def Chip.setOnPin (c : Chip) (p : Nat) (up b : Bool) : Chip := c.setB (if up then DHB.STAT.UON else DHB.STAT.LON) p b

/-- A switch turns off at the instant commanded, without any gate (R207); its acknowledge is awaited (R209). -/
def Chip.turnOff (c : Chip) (p : Nat) (up : Bool) : Chip :=
  let v := c.port p
  let x := v.sw up
  if x.on then
    (c.setOnPin p up false).setPort p (v.setSw up { x with
      on := false, fellAt := some c.now, ackSeen := c.ack p up, ackLost := false, ackOff := false, changedAt := c.now
      await := !c.ack p up })
  else c

/-- A pending turn-on is cancelled (R208); `count` is false inside a refresh sequence, which is exempt (R214). -/
def Chip.cancelTurnOn (c : Chip) (p : Nat) (up count : Bool) : Chip :=
  let v := c.port p
  let x := v.sw up
  if x.pend.isSome then
    let c := c.setPort p (v.setSw up { x with pend := none })
    if count then (c.flag DHB.EVT.CANCEL p).inc DHB.CNT.SUPPR p else c
  else c

/-- One switch follows the commanded state. -/
def Chip.follow (c : Chip) (p : Nat) (up want count : Bool) : Chip :=
  let c := if want then c else (c.cancelTurnOn p up count).turnOff p up
  let v := c.port p
  let x := v.sw up
  let pend := if want && !x.want && !x.on then some c.now else x.pend
  c.setPort p (v.setSw up { x with want := want, pend := pend })

/-- Return to carrier control (R212): s takes what the carrier commands now, last this instant. -/
def Chip.toCarrier (c : Chip) (p : Nat) : Chip :=
  let k := c.portCarrier p c.now
  let c := c.setB DHB.STAT.TRK p (k.upper (c.portPos p c.now))
  c.setPort p { c.port p with last := c.now, moved := [], waiting := [] }

/-- The port follows its sources (R206): a trip that arrives cancels a pending turn-on and sets TRIPDT (R211); a return to
the carrier sets s (R212); a refresh sequence ends when priorities 3 to 5 no longer command UPPER. -/
def Chip.portUpdate (c : Chip) (p : Nat) : Chip :=
  let prio := c.portPrio p
  let old := (c.port p).prio
  let c := if prio == 2 && old != 2 && ((c.port p).u.pend.isSome || (c.port p).l.pend.isSome) then c.flag DHB.EVT.TRIPDT p else c
  let c := c.setPort p { c.port p with prio := prio }
  let c := if prio == 5 && old != 5 then c.toCarrier p else c
  let v := c.port p
  let inRefresh := v.refresh.isSome
  let c := if inRefresh && !(decide (3 ≤ prio) && (c.portBase p prio).1)
    then c.setPort p { v with refresh := none, waiting := [] } else c
  let w := c.portWant p prio
  let count := prio != 0 && !inRefresh
  (c.follow p true w.1 count).follow p false w.2 count

/-- Every port follows its sources. -/
def Chip.portsUpdate (c : Chip) : Chip := c.each (upTo 12) Chip.portUpdate

/-- Port p enters FAULT (R209): causes 1 AKTO_U to 6 DRVOFF_L. -/
def Chip.portFault (c : Chip) (p cause : Nat) : Chip :=
  if (c.port p).fault then c
  else
    let c := c.setPort p { c.port p with fault := true }
    ((((c.set DHB.STAT.FCAUSE p cause).flag DHB.EVT.FAULT p).inc DHB.CNT.FAULT p).raise 19).portUpdate p

/-! The edge pair rule -/

/-- The next change that the carrier will make after instant t, as predicted under R199 with the compares and phase in
force. -/
def Chip.predictChange (c : Chip) (p t : Nat) : Option Nat :=
  let k := c.portCarrier p t
  let s := c.on DHB.STAT.TRK p
  let thr := c.portThr p
  match k.nextOther (c.portPos p t) t s with
  | none => none
  | some n =>
    let n := Max.max n ((c.port p).last + thr)
    match k.nextOther (c.portPos p n) n (!s) with
    | some m => if m - n < thr then none else some n
    | none => some n

/-- R199 on one event of port p that commands `to` at the instant now: moved, suppressed or executed. -/
def Chip.portEvent (c : Chip) (p : Nat) (dst : Bool) : Chip :=
  let v := c.port p
  let t := c.now
  let thr := c.portThr p
  if dst == c.on DHB.STAT.TRK p then c
  else if t < v.last + thr then
    ((c.setPort p { v with moved := v.moved ++ [(dst, v.last + thr)] }).flag DHB.EVT.CLAMP p).inc DHB.CNT.CLAMP p
  else
    let short := match (c.portCarrier p t).nextOther (c.portPos p t) t dst with
      | some n => decide (n - t < thr)
      | none => false
    if short then (c.flag DHB.EVT.SUPPR p).inc DHB.CNT.SUPPR p
    else (c.setB DHB.STAT.TRK p dst).setPort p { c.port p with last := t }

/-- The events of an instant in the order of R199: moved ones, then A and B; one that changes s comes first. -/
def Chip.portEvents (c : Chip) (p : Nat) (l : List Bool) : Chip :=
  let s := c.on DHB.STAT.TRK p
  (c.each (l.filter (fun e => e != s) ++ l.filter (fun e => e == s)) (fun c e => c.portEvent p e)).portUpdate p

/-- A refresh sequence starts at a PERIOD event when R214 asks for one. -/
def Chip.refreshStart (c : Chip) (p : Nat) : Chip :=
  let v := c.port p
  let want := c.get DHB.CFG.MODE p == 1 && c.on DHB.CFG.BREFEN p && decide (3 ≤ v.prio) && (c.portBase p v.prio).1 &&
    !v.lowerDone && v.refresh.isNone
  let c := c.setPort p { v with lowerDone := false }
  if want then
    let c := c.setPort p { c.port p with refresh := some .lowerPending }
    ((c.flag DHB.EVT.BREF p).inc DHB.CNT.BREF p).portUpdate p
  else c

/-- The carrier of port p at the instant now: its events reach the trigger generators, then R199, then R214. Events inside a
refresh sequence wait for its end. -/
def Chip.portCarrierEvent (c : Chip) (p : Nat) : Chip :=
  let t := c.now
  let v := c.port p
  let c := c.setPort p { v with cmp := v.cmp.at_ t }
  let k := c.portCarrier p t
  let u := c.portPos p t
  let moved := (v.moved.filter (fun e => decide (e.2 ≤ t))).map (·.1)
  let c := c.mtrigCarrier 1 p k u t
  let c := c.setPort p { c.port p with moved := v.moved.filter (fun e => decide (t < e.2)) }
  let l := moved ++ (if k.eventA u then [true] else []) ++ (if k.eventB u then [false] else [])
  let c := if (c.port p).refresh.isSome then c.setPort p { c.port p with waiting := (c.port p).waiting ++ l }
    else c.portEvents p l
  if k.period u then c.refreshStart p else c

/-- Compares of the carrier of lane n at instant t, with the arm's period. -/
def Chip.laneMod (c : Chip) (n : Nat) : LaneMod := nget {} c.mod.lanes n

/-- Lane n takes a new modulation record. -/
def Chip.setLaneMod (c : Chip) (n : Nat) (v : LaneMod) : Chip := { c with mod := { c.mod with lanes := nset {} c.mod.lanes n v } }

/-- Phase of the carrier of lane n at instant t: the one that a write replaced, before the window from which the write acts (R201). -/
def Chip.lanePhase (c : Chip) (n t : Nat) : Nat :=
  match (c.laneMod n).phases.find? (fun x => decide (t < x.1)) with
  | some x => x.2
  | none => c.get MOD.LPH.PH n

/-- A write of PH took effect at the coming reference in place of phase `old`: it acts from that tick's window on (R201). The last
four are kept. -/
def Chip.phaseWritten (c : Chip) (n old : Nat) : Chip :=
  let m := c.laneMod n
  if c.inRun && old != c.get MOD.LPH.PH n then
    c.setLaneMod n { m with phases := m.phases.drop (m.phases.length - 3) ++ [(c.windowStart c.dev.nextT0, old)] }
  else c

/-- CARRIER_EVENT (R199, R203): the carrier of a port (`lane` false) or of a lane of a PSC arm reaches instant t. A lane's own
changes are made by the tick; its events here only reach the trigger generators. -/
def execCarrierEvent (t : Nat) (lane : Bool) (i : Nat) (s : State) : Host.Outcome State Fault Refusal :=
  run (fun _ c =>
    let c := c.at_ t
    if !c.inRun then c
    else if lane then
      let a := c.get LNK.STATE.ARM i
      if a < 6 ∧ c.get ARM.CFG.MODE a = 1 ∧ i < 192 then
        let per := c.get MOD.ACFG.PER a
        let m := c.laneMod i
        let c := c.setLaneMod i { m with cmp := m.cmp.at_ c.now }
        c.mtrigCarrier 0 i (mkCarrier per m.cmp c.now) (c.position per (c.lanePhase i c.now) c.now) c.now
      else c
    else if i < 12 ∧ c.released 4 then c.portCarrierEvent i
    else c) s

/-! Turn-on, handshake, faults -/

/-- ST timing of a switch (GPR.PPROF), loaded at the rise of its ON pin (R231). -/
def Chip.stProfile (c : Chip) (p : Nat) (up : Bool) (x : Switch) : Switch :=
  if up then { x with
    tstr := c.get GPR.PPROF.UTSTR p, twk := c.get GPR.PPROF.UTWK p, holds := c.on GPR.PPROF.UHOLDS p
    offf := c.on GPR.PPROF.UOFFF p }
  else { x with
    tstr := c.get GPR.PPROF.LTSTR p, twk := c.get GPR.PPROF.LTWK p, holds := c.on GPR.PPROF.LHOLDS p
    offf := c.on GPR.PPROF.LOFFF p }

/-- The conditions of R207 for a waiting turn-on. -/
def Chip.mayTurnOn (c : Chip) (p : Nat) (up : Bool) : Bool :=
  let v := c.port p
  let x := v.sw up
  let y := v.sw (!up)
  x.pend.isSome && !y.on &&
    (match y.fellAt with
      | none => true
      | some f => decide (f + c.get DHB.CFG.DEAD p ≤ c.now) && y.ackSeen && !y.ackLost) &&
    c.ack p (!up) && decide (3 ≤ c.portPrio p)

/-- The end of a refresh sequence: events that waited are taken now (R214). -/
def Chip.refreshDone (c : Chip) (p : Nat) : Chip :=
  let v := c.port p
  (c.setPort p { v with refresh := none, waiting := [] }).portEvents p v.waiting

/-- Switch x of port p turns on. -/
def Chip.turnOn (c : Chip) (p : Nat) (up : Bool) : Chip :=
  let v := c.port p
  let x := c.stProfile p up { v.sw up with on := true, pend := none, changedAt := c.now, await := c.ack p up, ackOff := false }
  let v := v.setSw up x
  let v := if up then v else { v with lowerDone := true }
  let c := c.setOnPin p up true
  match v.refresh, up with
  | some .lowerPending, false => c.setPort p { v with refresh := some (.lowerOn c.now) }
  | some .upperPending, true => (c.setPort p v).refreshDone p
  | _, _ => c.setPort p v

/-- DHB_TURN_ON (R207, R208): a waiting turn-on meets its conditions at instant t; driven by the carrier, it is cancelled when
the port's next change is predicted less than t_minpw away. -/
def execDhbTurnOn (t p : Nat) (up : Bool) (s : State) : Host.Outcome State Fault Refusal :=
  run (fun _ c =>
    let c := c.at_ t
    if decide (p < 12) && c.mayTurnOn p up then
      let v := c.port p
      let near := match c.predictChange p c.now with
        | some n => decide (n - c.now < c.get DHB.CFG.MINPW p)
        | none => false
      if v.prio == 5 && v.refresh.isNone && near then c.cancelTurnOn p up true else c.turnOn p up
    else c) s

/-- DHB_HANDSHAKE_TIMEOUT (R209): the acknowledge of a switch has not changed within t_hs of its ON edge. -/
def execDhbHandshakeTimeout (t p : Nat) (up : Bool) (s : State) : Host.Outcome State Fault Refusal :=
  run (fun _ c =>
    let c := c.at_ t
    let x := (c.port p).sw up
    if decide (p < 12) && x.await && c.ack p up == x.on && c.released 4 && decide (x.changedAt + 2000 * c.get DHB.CFG.HS p ≤ c.now) then
      c.portFault p ((if x.on then 3 else 1) + (if up then 0 else 1))
    else c) s

/-- DHB_ACK_CHANGE (R205, R209): the recognised acknowledge of a switch is `level` at a DHB clock edge; `held` says that it has
been read so on three consecutive edges. -/
def execDhbAckChange (t p : Nat) (up level held : Bool) (s : State) : Host.Outcome State Fault Refusal :=
  run (fun _ c =>
    let c := c.at_ t
    if decide (p < 12) && c.released 4 then
      let was := c.ack p up
      let c := c.setB (if up then DHB.STAT.UAK else DHB.STAT.LAK) p level
      let v := c.port p
      let x := v.sw up
      let x1 := { x with
        await := x.await && level == x.on
        ackSeen := x.ackSeen || (level && !x.on)
        ackLost := x.ackLost || (x.ackSeen && !level && !x.on)
        ackOff := x.ackOff || (x.on && was && !level) }
      let c := c.setPort p (v.setSw up x1)
      if x.on && x.ackOff && level && held then c.portFault p (if up then 5 else 6) else c
    else c) s

/-- RESUME is refused (R210). -/
def Chip.resumeRefused (c : Chip) (p : Nat) : Bool :=
  !(c.port p).fault || !c.on DHB.STAT.UAK p || !c.on DHB.STAT.LAK p || c.held (6 + p)

/-- Port p leaves FAULT (R210, R212). -/
def Chip.resume (c : Chip) (p : Nat) : Chip := (c.setPort p { c.port p with fault := false }).portUpdate p

/-- DHB_RESUME (R210). -/
def execDhbResume (t p : Nat) (s : State) : Host.Outcome State Fault Refusal :=
  run (fun _ c => let c := c.at_ t; if decide (p < 12) && !c.resumeRefused p then c.resume p else c) s

/-- A force bit for a switch that MODE holds off (R213). -/
def Chip.forceRange (c : Chip) (p v : Nat) : Bool :=
  let m := c.get DHB.CFG.MODE p
  (v.testBit 1 && !(m == 1 || m == 2)) || (v.testBit 0 && !(m == 1 || m == 3))

/-- A write of DHB.FORCE takes effect: EN, FU, FL in bits 2, 1, 0. -/
def Chip.force (c : Chip) (p v : Nat) : Chip :=
  (((c.set DHB.FORCE.EN p (v / 4)).set DHB.FORCE.FU p (v / 2)).set DHB.FORCE.FL p v).portUpdate p

/-- DHB_FORCE (R206, R213): a write that is refused changes nothing. -/
def execDhbForce (t p v : Nat) (s : State) : Host.Outcome State Fault Refusal :=
  run (fun _ c =>
    let c := c.at_ t
    if decide (p < 12) && c.fabric && !(v.testBit 1 && v.testBit 0) && !c.forceRange p v then c.force p v else c) s

/-- BOOTSTRAP_REFRESH_END (R214): t_bref after it turned on the lower switch turns off and the upper turn-on follows. -/
def execBootstrapRefreshEnd (t p : Nat) (s : State) : Host.Outcome State Fault Refusal :=
  run (fun _ c =>
    let c := c.at_ t
    match (c.port p).refresh with
    | some (.lowerOn x) =>
      if x + c.get DHB.CFG.BREF p ≤ c.now then (c.setPort p { c.port p with refresh := some .upperPending }).portUpdate p else c
    | _ => c) s

/-- The instant at which a refresh sequence will turn the upper switch off: the next PERIOD event, when nothing changes before it
(R214). -/
def Chip.refreshFall (c : Chip) (p : Nat) : Option Nat :=
  let v := c.port p
  let per := c.get DHB.CAR.PER p
  let d := (per / 2 + per - c.portPos p c.now) % per
  if c.get DHB.CFG.MODE p == 1 && c.on DHB.CFG.BREFEN p && decide (3 ≤ v.prio) && (c.portBase p v.prio).1 && !v.lowerDone &&
      v.refresh.isNone then some (c.now + (if d = 0 then per else d))
  else none

/-- Level of pin xST at the instant now (R229, R230): strong phase, weak phase, hold, and the turn-off level in the last 24 ns
before a scheduled fall. -/
def Chip.stPin (c : Chip) (p : Nat) (up : Bool) : Bool :=
  let v := c.port p
  let x := v.sw up
  let e := c.now - x.changedAt
  let fall := match v.refresh, up with
    | some (.lowerOn t), false => some (t + c.get DHB.CFG.BREF p)
    | _, _ => if v.prio == 5 then c.predictChange p c.now else none
  let soon := fun (f : Option Nat) => match f with
    | some d => decide (d ≤ c.now + 192)
    | none => false
  let off := soon fall || up && soon (c.refreshFall p)
  x.on && (if off then x.offf else if e < x.tstr then true else if e < x.tstr + x.twk then false else x.holds)

/-- PSTATE of DHB.STAT: 0 OFF, 1 CARRIER, 2 FORCED, 3 MASKED, 4 TRIPPED, 5 FAULT, 6 REFRESH. -/
def Chip.portState (c : Chip) (p : Nat) : Nat :=
  let prio := c.portPrio p
  if (c.port p).fault then 5 else if prio = 0 then 0 else if prio = 2 then 4
  else if (c.port p).refresh.isSome then 6 else if prio = 3 then 3 else if prio = 4 then 2
  else if c.get DHB.CFG.MODE p = 0 then 0 else 1

/-- GATEW of DHB.STAT: a turn-on waits under R207. -/
def Chip.portWaits (c : Chip) (p : Nat) : Bool := (c.port p).u.pend.isSome || (c.port p).l.pend.isSome

/-- Entry to RUN: no switch has been high (R207), the trigger counters are loaded (R203), ports come under their sources. -/
def Chip.runPorts (c : Chip) : Chip :=
  let c := { c with mod := { c.mod with
    presc := (upTo 16).foldl (fun m i => nset 0 m i (c.get MOD.TRG.PHASE i)) [], fired := [] }, dhb := { c.dhb with resume := none } }
  let c := c.each (upTo 12) (fun c p => c.setPort p { fault := (c.port p).fault, cmp := (c.port p).cmp })
  c.portsUpdate

/-- A switch whose domain enters reset: its pin is low, and since when it is and whether its acknowledge was seen stay known (R207). -/
def Chip.switchReset (c : Chip) (p : Nat) (up : Bool) : Switch :=
  let x := (c.port p).sw up
  if x.on then { fellAt := some c.now, ackSeen := c.ack p up } else { fellAt := x.fellAt, ackSeen := x.ackSeen, ackLost := x.ackLost }

/-- The ports as a reset of their domain or block leaves them: pins low, no FAULT, compares in force kept (R205, R219). -/
def Chip.portsReset (c : Chip) : Chip :=
  { c with dhb := {
      ports := (upTo 12).foldl (fun m p =>
        nset {} m p { u := c.switchReset p true, l := c.switchReset p false, cmp := (c.port p).cmp }) []
      resume := some c.now } }

/-- A reset of the DHB block (R219): pins low, FAULT cleared, configuration, carriers and compares kept. -/
def Chip.resetDhb (c : Chip) : Chip :=
  let own := fun (k : Key) => decide (0x2C03 ≤ k.id ∧ k.id < 0x3000) && !(k.id == 0x2C10 && decide (k.lo < 2))
  { c.portsReset with regs := c.regs.filter (fun e => !own e.1) }

/-- The ports return at the tick reference t that follows their reset (R219). -/
def Chip.portsReturn (c : Chip) (t : Nat) : Chip :=
  match c.dhb.resume with
  | some x => if x < t ∧ c.released 4 then { c with dhb := { c.dhb with resume := none } }.portsUpdate else c
  | none => c

end Sys2Proof.Machine
end

