-- ==== Sys2Proof/Machine/Lanes.lean ====
section
/-! DEFINITION. Tirek submodule links: uplink, lane states, round trip, admission (chapter 4, R125 to R163), driver reports and
off-state checks (chapter 7, R233 to R241). -/

namespace Sys2Proof.Machine

open Reg

/-- Lane n, link side. -/
def Chip.lane (c : Chip) (n : Nat) : LaneRec := nget {} c.lnk.lanes n

/-- Lane n, link side, takes a new record. -/
def Chip.setLane (c : Chip) (n : Nat) (v : LaneRec) : Chip := { c with lnk := { c.lnk with lanes := nset {} c.lnk.lanes n v } }

/-- Lane n, Cascade side. -/
def Chip.sched (c : Chip) (n : Nat) : SchedRec := nget {} c.arm.lanes n

/-- Lane n, Cascade side, takes a new record. -/
def Chip.setSched (c : Chip) (n : Nat) (v : SchedRec) : Chip := { c with arm := { c.arm with lanes := nset {} c.arm.lanes n v } }

/-- Arm a. -/
def Chip.armRec (c : Chip) (a : Nat) : ArmRec := nget {} c.arm.arms a

/-- Arm a takes a new record. -/
def Chip.setArm (c : Chip) (a : Nat) (v : ArmRec) : Chip := { c with arm := { c.arm with arms := nset {} c.arm.arms a v } }

/-- Lane states (R147). -/
def lsOff : Nat := 0
def lsDown : Nat := 1
def lsStandby : Nat := 2
def lsAdmit : Nat := 3
def lsActive : Nat := 4
def lsBlocked : Nat := 5

/-- State of lane n. -/
def Chip.lstate (c : Chip) (n : Nat) : Nat := c.get LNK.STATE.STATE n

/-- Arm of lane n; 0xFF: none. -/
def Chip.laneArm (c : Chip) (n : Nat) : Nat := c.get LNK.STATE.ARM n

/-- Lanes of arm a, by position (R164). -/
def Chip.armLanes (c : Chip) (a : Nat) : List Nat := (upTo 192).filter (fun n => c.laneArm n == a)

/-- Lanes of the arm map. -/
def Chip.mapped (c : Chip) : List Nat := (upTo 192).filter (fun n => decide (c.laneArm n < 6))

/-- The arm of lane n is held, by a trip or a reaction (R256). -/
def Chip.laneHeld (c : Chip) (n : Nat) : Bool := decide (c.laneArm n < 6) && c.held (c.laneArm n)

/-- The arm of lane n is autonomous as judged at the last tick reference (R166). -/
def Chip.autonomous (c : Chip) (n : Nat) : Bool := decide (c.laneArm n < 6) && (c.armRec (c.laneArm n)).auto

/-! State changes -/

/-- Lane n enters a state: admission and its STEP end, a running off-state check ends with ABORT outside STANDBY and BLOCKED
(R239), and a lane that leaves OFF starts its downlink numbers at 0 (R128), held when its arm is (R256). -/
def Chip.setLaneState (c : Chip) (n st : Nat) : Chip :=
  let old := c.lstate n
  if st = old then c
  else
    let l := c.lane n
    let inCheck := fun (x : Nat) => x == lsStandby || x == lsBlocked
    let abort := l.odAt.isSome && !inCheck st
    let c := c.set LNK.STATE.STATE n st
    let c := if abort then c.set GPR.LDIAG.ODRES n 5 else c
    let l := if abort then { l with odAt := none, odSeen := false } else l
    let l := if old = lsAdmit then { l with adm := none } else l
    let c := if old = lsAdmit then c.set LNK.STATE.STEP n 0 else c
    if old = lsOff then (c.setLane n { l with dlSeq := 0, staleRun := 0, byp := false }).setB LNK.STAT.TRIPHOLD n (c.laneHeld n)
    else if st = lsOff then
      let c := c.setLane n { l with measure := false, byp := false }
      ((c.set LNK.STAT.TRIPHOLD n 0).setSched n { c.sched n with cmd := 0, age := 0 })
    else c.setLane n l

/-- Source of the lane event of a cause (R150); 0: the event is raised by its own rule, or none is. -/
def causeEvent (cause : Nat) : Nat :=
  match cause with
  | 2 => 8
  | 3 => 9
  | 4 => 10
  | 5 => 11
  | 6 => 12
  | 13 => 13
  | _ => 0

/-- Lane n enters BLOCKED (R148, R150, R151); `byp` is LANE_RETIRE's parameter for cause HOST. -/
def Chip.toBlocked (c : Chip) (n cause : Nat) (byp : Bool) : Chip :=
  let b := if cause = 1 then byp else c.autonomous n
  let c := c.setLaneState n lsBlocked
  let c := c.setLane n { c.lane n with byp := b, measure := false }
  let c := (c.set LNK.STATE.CAUSE n cause).flag LNK.STAT.RETIRED n
  if causeEvent cause = 0 then c else c.raise (causeEvent cause)

/-- A lane in ADMIT or ACTIVE retires. -/
def Chip.retireInUse (c : Chip) (n cause : Nat) : Chip :=
  if c.lstate n = lsAdmit ∨ c.lstate n = lsActive then c.toBlocked n cause false else c

/-! Block burst -/

/-- Phase of the lanes' 8 ns symbol grid at the pins: that of the launch instants (R137). -/
def Chip.gridPhase (c : Chip) : Nat := c.dev.nextT0 % 64

/-- The first bit of a burst leaves the pin: the trip reaches the output stage at b, and the pin at the first tap boundary after the
pad delay (R141, R259). -/
def burstPin (b : Nat) : Nat := b + Config.padTaps

/-- The low hold of a burst that reached the output stage at b ends: four K28.7, then low to the next boundary of the grid (R141). -/
def Chip.burstEnd (c : Chip) (b : Nat) : Nat :=
  let e := burstPin b + 256
  e + (64 - (e + 64 - c.gridPhase) % 64) % 64

/-- At instant t a block burst occupies the lane (R142): a trip then would reach the pin before its end. -/
def Chip.burstRuns (c : Chip) (l : LaneRec) (t : Nat) : Bool :=
  match l.burstAt with
  | some b => decide (burstPin t < c.burstEnd b)
  | none => false

/-- Lane n sends a block burst, unless one is under way (R142). -/
def Chip.burst (c : Chip) (n : Nat) : Chip :=
  let l := c.lane n
  if c.burstRuns l c.now then c else c.setLane n { l with burstAt := some c.now }

/-- The last frame of a lane was stopped by a burst or fell into it (log entry 95). -/
def Chip.frameCut (c : Chip) (l : LaneRec) : Bool :=
  match l.burstAt with
  | some b => decide (l.sentAt < c.burstEnd b)
  | none => false

/-- Running disparity of what a lane sends after its last frame: a burst leaves RD− (R141). -/
def Chip.lineRd (c : Chip) (l : LaneRec) : Bool := l.rd && !c.frameCut l

/-- Level of TLOn at pin instant x, for a lane in use: the frame's code groups, K28.0 between frames, and a burst in place of both
(R127, R137, R141). -/
def Chip.lineBit (c : Chip) (l : LaneRec) (x : Nat) : Bool :=
  let idle := groupBit (specialGroup (c.lineRd l) 0) (x + 64 - c.gridPhase)
  let line := fun (cut : Bool) =>
    if !cut && decide (l.sentAt ≤ x ∧ x < l.sentAt + 64 * l.groups.length) then
      groupBit (l.groups.getD ((x - l.sentAt) / 64) 0) (x - l.sentAt)
    else idle
  match l.burstAt with
  | none => line false
  | some b =>
    if x < burstPin b then line false
    else if x < burstPin b + 256 then groupBit (specialGroup false 7) (x - burstPin b)
    else if x < c.burstEnd b then false
    else line (c.frameCut l)

/-- Level of TLOn at pin instant x (R127, R147, R496, R505): low in OFF and in reset but for a burst under way. -/
def Chip.tloPin (c : Chip) (n x : Nat) : Bool :=
  let l := c.lane n
  let inBurst := match l.burstAt with
    | some b => decide (burstPin b ≤ x ∧ x < c.burstEnd b)
    | none => false
  (inBurst || c.released 3 && c.lstate n != lsOff) && c.lineBit l x

/-- Arm a passes from not held to held (R256): every lane of it that is not OFF sends one block burst, unless one is under way
(R142), and is then held: commanded BLOCK with age 0 (R171). -/
def Chip.holdArm (c : Chip) (a : Nat) : Chip :=
  c.each ((c.armLanes a).filter (fun n => c.lstate n != lsOff)) (fun c n =>
    let c := c.burst n
    let c := (c.set LNK.STAT.TRIPHOLD n 1).set MOD.LST.TRK n 0
    c.setSched n { c.sched n with cmd := 0, age := 0, hit := true })

/-- Arm a is held no more (R258). -/
def Chip.releaseArm (c : Chip) (a : Nat) : Chip := c.each (c.armLanes a) (fun c n => c.set LNK.STAT.TRIPHOLD n 0)

/-! Admission -/

/-- An admission fails (R157): cause 7 ADM_ID to 11 ADM_TIME. -/
def Chip.failAdmission (c : Chip) (n cause : Nat) : Chip :=
  let c := c.toBlocked n cause false
  let c := (c.flag LNK.STAT.ADMFAIL n).inc LNK.CNT.ADMFAIL n
  let c := c.inc LNK.STATE.AUTOFAIL n
  (c.setLane n { c.lane n with failAt := some c.now }).raise 14

/-- Lane n enters ADMIT; the admission starts at the coming tick reference (R154). -/
def Chip.startAdmission (c : Chip) (n : Nat) : Chip :=
  let c := c.setLaneState n lsAdmit
  c.setLane n { c.lane n with adm := some {} }

/-- What admission clears at its first tick reference (R152, R194, R243). LNK.STAT is a record and stays, LOCK with it: the next valid
frame gives the lane a new SESS and SEQ. -/
def Chip.clearLane (c : Chip) (n : Nat) : Chip :=
  let own := fun (k : Key) => k.inst == n &&
    (k.id == 0x2013 || k.id == 0x2014 || k.id == 0x3010 || k.id == 0x2811 || k.id == 0x2810 ||
      (k.id == 0x2420 && k.lo != 16))
  let l := c.lane n
  let c := { c with regs := c.regs.filter (fun e => !own e.1) }
  let c := c.setLane n { l with
    run := 0, frame := if l.fresh then l.frame else [], staleRun := 0, stale := false, dlSeq := 0, measure := false
    dly := 0, devs := [], epDesat := false, epSelfb := false, epOtemp := false, otRun := 0, tbFirst := true }
  { (c.setSched n {}).setLaneMod n {} with arm := { (c.setSched n {}).arm with plans := nset {} c.arm.plans n {} } }

/-- Identity given by the responses to 0x01 to 0x03, oldest first, and the driver type word (R153). -/
def identity (l : List Nat) : Nat := l.getD 0 0 + 2 ^ 16 * l.getD 1 0 + 2 ^ 32 * l.getD 2 0

/-- The identity check of R155. -/
def Chip.identityOk (c : Chip) (n : Nat) (l : List Nat) : Bool :=
  let id := identity l
  let ty := l.getD 3 0 / 256
  let want := c.get LNK.DRV.DTYPE
  let passed := fun (m : Nat) => c.lstate m == lsActive ||
    c.lstate m == lsAdmit && (match (c.lane m).adm with
      | some a => decide (3 ≤ a.phase)
      | none => false)
  !(want != 0 && want != ty) &&
    !((upTo 192).any (fun m => m != n && passed m && c.get LNK.DRVID.DRVID m == id)) &&
    !(c.on LNK.LCFG.IDLOCK n && c.get LNK.DRVID.DRVID n != id)

/-- Insertion into an ascending list. -/
def insertNat (x : Nat) : List Nat → List Nat
  | [] => [x]
  | y :: l => if x ≤ y then x :: y :: l else y :: insertNat x l

/-- Ascending order. -/
def sortNat (l : List Nat) : List Nat := l.foldr insertNat []

/-- Insertion into an ascending list. -/
def insertInt (x : Int) : List Int → List Int
  | [] => [x]
  | y :: l => if x ≤ y then x :: y :: l else y :: insertInt x l

/-- Ascending order. -/
def sortInt (l : List Int) : List Int := l.foldr insertInt []

/-- Median of the capacitor voltages of the arm's ACTIVE lanes, the lower middle one (R156). -/
def Chip.armMedian (c : Chip) (a : Nat) : Option Nat :=
  let l := sortNat (((c.armLanes a).filter (fun n => c.lstate n == lsActive)).map (fun n => c.get LNK.UPL.VCAP n))
  l[(l.length - 1) / 2]?

/-- The latest snapshot of lane n is plausible (R156). -/
def Chip.plausible (c : Chip) (n : Nat) : Bool :=
  let a := c.laneArm n
  let v := c.get LNK.UPL.VCAP n
  let dev := c.get LNK.VPL.VDEV a
  decide (20 * c.get LNK.VPL.VMIN a ≤ v ∧ v ≤ 20 * c.get LNK.VPL.VMAX a) &&
    (dev == 0 || match c.armMedian a with
      | some m => decide (((v : Int) - m).natAbs ≤ 100 * dev)
      | none => true)

/-- A number rounded from 1/16 to a whole, ties upward. -/
def round16 (i : Int) : Int := (i + 8) / 16

/-- DLY is shown rounded to a tap (R145). -/
def Chip.showDly (c : Chip) (n : Nat) : Chip := c.set LNK.RTT.DLY n (Min.min 65535 (round16 (c.lane n).dly).toNat)

/-- The 16 measurements of step 5 and the snapshots of step 6 are judged (R154). -/
def Chip.judgeAdmission (c : Chip) (n : Nat) (a : Adm) : Chip :=
  let s := sortInt a.meas
  let lo := s.headD 0
  let hi := s.getLastD 0
  let mid := s.getD 7 0
  let c := c.set LNK.STATE.STEP n 6
  if 256 < hi - lo ∨ 16 * (c.get LNK.CFG.DMAX : Int) < mid then c.failAdmission n 10
  else if ¬ ((a.plausible.drop (a.plausible.length - 8)).all id && decide (8 ≤ a.plausible.length)) then c.failAdmission n 9
  else (c.setLane n { c.lane n with dly := mid, devs := [], adm := some { a with phase := 7 } }).showDly n

/-- One tick of an admission (R153, R154), on the snapshot of that tick, at tick reference t. While the lane is held its ADMIT frames are
not sent and the admission does not proceed (R257). -/
def Chip.admissionTick (c : Chip) (n t : Nat) : Chip :=
  match (c.lane n).adm with
  | none => c
  | some a =>
    if c.laneHeld n then c else
    let put := fun (c : Chip) (a : Adm) => (c.setLane n { c.lane n with adm := some a }).set LNK.STATE.STEP n a.phase
    if a.phase = 0 then
      (c.setLane n { c.lane n with adm := some { start := t, phase := 2, req := 1 } }).set LNK.STATE.STEP n 1
    else if a.phase = 7 then
      let c := c.setLaneState n lsActive
      (c.flag LNK.STAT.ADMDONE n).set LNK.STATE.AUTOFAIL n 0
    else
      let new := !(c.lane n).stale
      let mode := bitsOf (c.get LNK.UPL.STAT n) 6 5
      let word := c.get LNK.UPL.ECHO n
      let ans := new && mode == 1 && c.get LNK.UPL.TEMP n == a.req
      match a.phase with
      | 2 =>
        if !ans then put c a
        else
          let ids := a.ident ++ [word]
          if a.req < 4 then put c { a with req := a.req + 1, ident := ids }
          else if c.identityOk n ids then
            let c := ((c.set LNK.DRVID.DRVID n (identity ids)).set LNK.DRVID.DTYPE n (word / 256)).set LNK.DRVID.DFW n word
            put c { a with phase := 3, req := 8, ident := ids }
          else c.failAdmission n 7
      | 3 =>
        if a.req = 8 then put c (if ans then { a with req := 9, ackAt := t } else a)
        else if ans && word.testBit 15 then
          if a.ackAt + msTaps < t ∨ word % 32768 ≠ 0 then c.failAdmission n 8 else put c { a with phase := 4, req := 15 }
        else put c a
      | 4 => put c (if ans then { a with phase := 5, req := 0 } else a)
      | _ => if new then put c { a with plausible := a.plausible ++ [c.plausible n] } else put c a

/-- The conditions of R158 for automatic admission of lane n at tick reference t, and R257. -/
def Chip.autoAdmits (c : Chip) (n t : Nat) : Bool :=
  let st := c.lstate n
  let cause := c.get LNK.STATE.CAUSE n
  c.inRun && c.on LNK.LCFG.AUTO n && (st == lsStandby || st == lsBlocked && c.on LNK.STAT.LOCK n) &&
    decide (c.get LNK.STATE.AUTOFAIL n < 3) &&
    (cause == 0 || (decide (2 ≤ cause) && decide (cause ≤ 5)) || (decide (7 ≤ cause) && decide (cause ≤ 11))) &&
    (match (c.lane n).failAt with
      | some f => decide (f + 100 * msTaps ≤ t)
      | none => true) && !c.laneHeld n && decide (n < 192)

/-- AUTO_ADMISSION_START (R158): at the coming tick reference. -/
def execAutoAdmissionStart (n : Nat) (s : State) : Host.Outcome State Fault Refusal :=
  run (fun _ c =>
    if c.dev.ticking && c.autoAdmits n c.dev.nextT0 then (c.at_ c.dev.nextT0).startAdmission n else c) s

/-- ADMISSION_TIMEOUT (R157). -/
def execAdmissionTimeout (t n : Nat) (s : State) : Host.Outcome State Fault Refusal :=
  run (fun _ c =>
    let c := c.at_ t
    match (c.lane n).adm with
    | some a =>
      if c.lstate n = lsAdmit ∧ a.phase ≠ 0 ∧ a.start + c.get LNK.CFG.ADMTO * msTaps ≤ c.now then c.failAdmission n 11 else c
    | none => c) s

/-- SELF_TEST_TIMEOUT (R154, step 3). -/
def execSelfTestTimeout (t n : Nat) (s : State) : Host.Outcome State Fault Refusal :=
  run (fun _ c =>
    let c := c.at_ t
    match (c.lane n).adm with
    | some a =>
      if c.lstate n = lsAdmit ∧ a.phase = 3 ∧ a.req = 9 ∧ a.ackAt + msTaps ≤ c.now then c.failAdmission n 8 else c
    | none => c) s

/-! Driver reports -/

/-- A driver report of lane n: 0 DESAT, 1 SELFB, 2 OTEMP. -/
def reportBit : Nat → Fld
  | 0 => GPR.LDIAG.RDS
  | 1 => GPR.LDIAG.RSB
  | _ => GPR.LDIAG.ROT

/-- Counter of a report. -/
def reportCount : Nat → Fld
  | 0 => GPR.CNT.DESAT
  | 1 => GPR.CNT.SELFB
  | _ => GPR.CNT.OTEMP

/-- Reaction enable of a report. -/
def reportEnable : Nat → Fld
  | 0 => GPR.DCFG.DSR
  | 1 => GPR.DCFG.SBR
  | _ => GPR.DCFG.OTR

/-- An episode of report r stands. -/
def LaneRec.episode (l : LaneRec) : Nat → Bool
  | 0 => l.epDesat
  | 1 => l.epSelfb
  | _ => l.epOtemp

/-- An episode of report r begins or ends. -/
def LaneRec.setEpisode (l : LaneRec) (r : Nat) (b : Bool) : LaneRec :=
  match r with
  | 0 => { l with epDesat := b }
  | 1 => { l with epSelfb := b }
  | _ => { l with epOtemp := b }

/-- The reports that stand together on lane n take effect (R235 to R237). -/
def Chip.reports (c : Chip) (n mode : Nat) (rs : List Nat) : Chip :=
  let st := c.lstate n
  let a := c.laneArm n
  if rs.isEmpty ∨ ¬ a < 6 then c
  else if st = lsActive then
    if mode ≠ 0 then c
    else if c.autonomous n && rs.any (fun r => c.on (reportEnable r) a) then
      let c := (c.toBlocked n 12 false).flag GPR.EVT.DFLT a
      (c.each rs (fun c r => c.inc (reportCount r) a)).raise 20
    else
      c.each rs (fun c r =>
        let c := (c.flag (reportBit r) n).flag GPR.EVT.DRPT a
        if (c.lane n).episode r then c
        else ((c.setLane n ((c.lane n).setEpisode r true)).inc (reportCount r) a).raise 21)
  else if st = lsAdmit ∨ st = lsStandby ∨ st = lsBlocked then c.each rs (fun c r => c.flag (reportBit r) n)
  else c

/-- SBR of a driver status word is 100, 101 or 110 (R233). -/
def selfBlocked (stat : Nat) : Bool := let s := bitsOf stat 9 7; s == 4 || s == 5 || s == 6

/-- SBR 001 or 010: the driver lost light or its watchdog ran out. -/
def linkBlocked (stat : Nat) : Bool := let s := bitsOf stat 9 7; s == 1 || s == 2

/-- Reports judged on every frame: DESAT and SELFB. -/
def frameReports (stat : Nat) : List Nat :=
  (if stat.testBit 13 then [0] else []) ++ (if selfBlocked stat then [1] else [])

/-! Uplink -/

/-- Fields of an uplink frame, from its eight bytes (R134). -/
def frameStat (f : List Nat) : Nat := f.getD 2 0 * 256 + f.getD 3 0
def frameEcho (f : List Nat) : Nat := f.getD 5 0 * 256 + f.getD 6 0
def frameSeq (f : List Nat) : Nat := f.getD 7 0

/-- A round trip measured on a frame whose comma arrived at `arr`, in 1/16 tap (R143). -/
def Chip.roundTrip (c : Chip) (l : LaneRec) (arr n : Nat) : Int :=
  ((arr : Int) - l.sentAt - 64 * n - c.get LNK.DRV.TTURN) * 8

/-- A measurement updates DLY of a lane in ACTIVE (R144). -/
def Chip.updateDly (c : Chip) (n : Nat) (m : Int) : Chip :=
  let l := c.lane n
  let far := decide (256 < (m - l.dly).natAbs)
  let devs := if far then l.devs ++ [m] else []
  let c :=
    if 8 ≤ devs.length then
      (c.setLane n { l with dly := (sortInt devs).getD 3 0, devs := [] }).flag LNK.STAT.DSTEP n
    else c.setLane n { l with dly := l.dly + (m - l.dly) / 16, devs := devs }
  let c := c.showDly n
  if (c.get LNK.CFG.DMAX : Int) < round16 (c.lane n).dly then c.retireInUse n 6 else c

/-- The first matching frame of a tick yields the tick's measurement (R143); in step 5 of an admission it is kept. LAST and DLY show
a negative measurement as 0 and one wider than 16 bits as 65,535 (DESIGN CHOICE, log entry 93). -/
def Chip.measureFrame (c : Chip) (n arr : Nat) (f : List Nat) : Chip :=
  let l := c.lane n
  let echo := frameEcho f
  let st := c.lstate n
  if l.measure && (st == lsAdmit || st == lsActive) && bitsOf (frameStat f) 6 5 == 0 && bitsOf echo 14 12 == l.sentSeq % 8 &&
      decide (echo % 4096 ≤ 15) then
    let m := c.roundTrip l arr (echo % 4096)
    let c := (c.setLane n { l with measure := false }).set LNK.RTT.LAST n (Min.min 65535 (round16 m).toNat)
    if st = lsActive then c.updateDly n m
    else
      match l.adm with
      | some a =>
        if a.phase = 5 then
          let a := { a with meas := a.meas ++ [m] }
          let c := c.setLane n { c.lane n with adm := some a }
          if a.meas.length = 16 then c.judgeAdmission n a else c
        else c
      | none => c
  else c

/-- Lock tracking and continuity of a CRC-valid frame with comma arrival `arr` (R139, R140, R148). -/
def Chip.trackFrame (c : Chip) (n arr : Nat) (f : List Nat) : Chip :=
  let l := c.lane n
  let sess := frameStat f % 32
  let seq := frameSeq f
  if c.on LNK.STAT.LOCK n && l.run == 0 then
    c.setLane n { l with sess := sess, seq := seq, arrived := arr, run := 4 }
  else if c.on LNK.STAT.LOCK n then
    let slots := ((arr - l.arrived) + 384) / 768
    let c := c.setLane n { l with sess := sess, seq := seq, arrived := arr }
    if sess ≠ l.sess ∨ seq ≠ (l.seq + slots) % 256 then
      ((c.flag LNK.STAT.DISC n).inc LNK.CNT.DISC n).retireInUse n 4
    else c
  else
    let run := if 0 < l.run ∧ sess = l.sess ∧ seq = (l.seq + 1) % 256 then l.run + 1 else 1
    let c := c.setLane n { l with sess := sess, seq := seq, arrived := arr, run := run }
    if 4 ≤ run then
      let c := c.set LNK.STAT.LOCK n 1
      if c.lstate n = lsDown then c.setLaneState n lsStandby else c
    else c

/-- A CRC-valid frame of lane n is complete (R134 to R144, R148, R233). -/
def Chip.goodFrame (c : Chip) (n arr : Nat) (f : List Nat) : Chip :=
  let c := c.trackFrame n arr f
  let c := c.setLane n { c.lane n with frame := f, fresh := true }
  let stat := frameStat f
  let c := if c.lstate n = lsActive ∧ linkBlocked stat then c.retireInUse n 2 else c
  let c := c.measureFrame n arr f
  c.reports n (bitsOf stat 6 5) (frameReports stat)

/-- What the receiver of a lane makes of code groups: the frame that their last eleven are (eight bytes, CRC field, every symbol read),
the code errors, how many groups came since the last valid one (none: no group was valid), and its running disparity. -/
structure Received where
  frame : Option (List Nat × Nat × Bool)
  errs : Nat
  dark : Option Nat
  rd : Option Bool
  deriving DecidableEq, Repr

/-- Code groups received on a lane, aligned on the comma (R126, R134). -/
def LaneRec.receive (l : LaneRec) (groups : List Nat) : Received :=
  let r := readGroups l.rxRd groups
  let f := r.1.drop (r.1.length - 11)
  let b := (f.drop 1).map symByte
  let whole := (f.drop 1).all (fun x => match x with
    | some (.data _) => true
    | _ => false)
  { frame := if f.length = 11 ∧ f.head? = some (some (.special 5)) then
      some (b.take 8, 256 * b.getD 8 0 + b.getD 9 0, whole) else none
    errs := (r.1.filter (fun x => x.isNone)).length
    dark := r.1.reverse.findIdx? (fun x => x.isSome)
    rd := r.2 }

/-- UPLINK_FRAME: the last symbol of an uplink frame of lane n arrives at t; the code groups received on the lane since its last frame
are those before it, its comma and its ten others (R126, R134). -/
def execUplinkFrame (t n : Nat) (before : List Nat) (comma : Nat) (frame : List Nat) (s : State) : Host.Outcome State Fault Refusal :=
  run (fun _ c =>
    let c := c.at_ t
    if c.released 3 && decide (n < 192) && c.lstate n != lsOff then
      let l := c.lane n
      let r := l.receive (before ++ comma :: frame)
      let lit := match r.dark with
        | some k => c.now - 64 * k
        | none => l.litAt
      let c := c.setLane n { l with rxRd := r.rd, litAt := lit }
      let c := if r.errs = 0 then c else (c.flag LNK.STAT.CODE n).incBy LNK.CNT.CODE n r.errs
      match r.frame with
      | none => c
      | some (f, crc, whole) =>
        if whole && crc == crc16 f then c.goodFrame n (c.now - 704) f
        else
          let c := if c.on LNK.STAT.LOCK n then c else c.setLane n { c.lane n with run := 0 }
          (c.flag LNK.STAT.CRC n).inc LNK.CNT.CRC n
    else c) s

/-- The uplink of lane n is lost, by sync loss or loss of light (R139, R148): cause 3 SYNC or 2 LOL. -/
def Chip.uplinkLost (c : Chip) (n cause : Nat) : Chip :=
  let was := c.on LNK.STAT.LOCK n
  let c := (c.set LNK.STAT.LOCK n 0).setLane n { c.lane n with run := 0 }
  let c := if was then (c.flag LNK.STAT.LOL n).inc LNK.CNT.LOL n else c
  if c.lstate n = lsStandby then c.setLaneState n lsDown else c.retireInUse n cause

/-- SYNC_LOSS (R139): eight slot times without a valid frame, counted from the comma of the last one (DESIGN CHOICE, log entry 92). -/
def execSyncLoss (t n : Nat) (s : State) : Host.Outcome State Fault Refusal :=
  run (fun _ c =>
    let c := c.at_ t
    if c.released 3 && decide (n < 192 ∧ (c.lane n).arrived + 6144 ≤ c.now) then c.uplinkLost n 3 else c) s

/-- LOSS_OF_LIGHT (R139): no valid code group for t_lol, counted from the end of the last one that an UPLINK_FRAME brought (DESIGN
CHOICE, log entry 92). -/
def execLossOfLight (t n : Nat) (s : State) : Host.Outcome State Fault Refusal :=
  run (fun _ c =>
    let c := c.at_ t
    if c.released 3 && decide (n < 192 ∧ (c.lane n).litAt + 64 * c.get LNK.CFG.LOLT ≤ c.now) then c.uplinkLost n 2
    else c) s

/-! Snapshot -/

/-- The off-state check of lane n on a new snapshot (R239, R241). -/
def Chip.odiagSnapshot (c : Chip) (n stat : Nat) : Chip :=
  let l := c.lane n
  let mode := bitsOf stat 6 5
  if l.odAt.isNone then c
  else if mode = 2 then c.setLane n { l with odSeen := true }
  else if l.odSeen ∧ mode = 0 then
    let c := c.setLane n { l with odAt := none, odSeen := false }
    if bitsOf stat 15 14 = 0 then c.set GPR.LDIAG.ODRES n 2
    else
      let a := c.laneArm n
      (((c.set GPR.LDIAG.ODRES n 3).flag GPR.EVT.ODFAIL a).inc GPR.CNT.ODFAIL a).raise 22
  else c

/-- OTEMP on a new snapshot: counted in ACTIVE over OTN snapshots in MODE 00 (R233), at once elsewhere (R237); episodes end
when their condition is absent (R236). -/
def Chip.snapshotReports (c : Chip) (n stat : Nat) : Chip :=
  let l := c.lane n
  let ot := stat.testBit 11
  let mode := bitsOf stat 6 5
  let cnt := if ot && mode == 0 then l.otRun + 1 else 0
  let c := c.setLane n { l with
    otRun := cnt, epDesat := l.epDesat && stat.testBit 13, epSelfb := l.epSelfb && selfBlocked stat
    epOtemp := l.epOtemp && ot }
  let stands := if c.lstate n = lsActive then decide (c.get GPR.DCFG.OTN (c.laneArm n) ≤ cnt) else ot
  if stands then c.reports n mode [2] else c

/-- The uplink snapshot of lane n at a tick reference (R138). -/
def Chip.snapshot (c : Chip) (n : Nat) : Chip :=
  let l := c.lane n
  if l.fresh then
    let f := l.frame
    let stat := frameStat f
    let c := c.setLane n { l with fresh := false, stale := false, staleRun := 0 }
    let c := (((c.set LNK.UPL.TEMP n (f.getD 4 0)).set LNK.UPL.SEQ n (frameSeq f)).set LNK.UPL.ECHO n (frameEcho f)).set
      LNK.UPL.VCAP n (f.getD 0 0 * 256 + f.getD 1 0)
    let c := (c.set LNK.UPL.STAT n stat).setB LNK.STAT.BYPST n (stat.testBit 10)
    (c.odiagSnapshot n stat).snapshotReports n stat
  else if c.lstate n = lsAdmit ∨ c.lstate n = lsActive then
    let k := l.staleRun + 1
    let c := ((c.setLane n { l with stale := true, staleRun := k }).flag LNK.STAT.STALE n).inc LNK.CNT.STALE n
    if 3 ≤ k then c.retireInUse n 5 else c
  else c.setLane n { l with stale := false, staleRun := 0 }

/-- Step 2 of the tick at reference t (R24): lanes whose admission starts are cleared, every lane in use is latched, admissions
take their step. -/
def Chip.snapshots (c : Chip) (t : Nat) : Chip :=
  let used := (upTo 192).filter (fun n => c.lstate n != lsOff)
  let c := c.each used (fun c n =>
    let starts := match (c.lane n).adm with
      | some a => a.phase == 0
      | none => false
    let c := if starts then c.clearLane n else c
    c.snapshot n)
  c.each used (fun c n => if c.lstate n = lsAdmit then c.admissionTick n t else c)

/-! Off-state checks -/

/-- A write of GPR.ODG.REQ is refused (R239). -/
def Chip.odiagRefused (c : Chip) (n : Nat) : Bool :=
  !(c.lstate n == lsStandby || c.lstate n == lsBlocked && c.on LNK.STAT.LOCK n)

/-- An off-state check of lane n starts. -/
def Chip.odiagStart (c : Chip) (n : Nat) : Chip :=
  (c.setLane n { c.lane n with odAt := some c.now, odSeen := false }).set GPR.LDIAG.ODRES n 1

/-- ODIAG_REQUEST (R239). -/
def execOdiagRequest (t n : Nat) (s : State) : Host.Outcome State Fault Refusal :=
  run (fun _ c => let c := c.at_ t; if decide (n < 192) && !c.odiagRefused n then c.odiagStart n else c) s

/-- ODIAG_TIMEOUT (R241): no MODE 10 snapshot within 2 ms of the request. -/
def execOdiagTimeout (t n : Nat) (s : State) : Host.Outcome State Fault Refusal :=
  run (fun _ c =>
    let c := c.at_ t
    let l := c.lane n
    match l.odAt with
    | some x =>
      if l.odSeen ∨ c.now < x + 2 * msTaps then c
      else
        let a := c.laneArm n
        let c := c.setLane n { l with odAt := none }
        (((c.set GPR.LDIAG.ODRES n 4).flag GPR.EVT.ODFAIL a).inc GPR.CNT.ODFAIL a).raise 22
    | none => c) s

/-! Entry to RUN, leaving it, reset -/

/-- AUX WD code: the shortest watchdog period of at least four ticks (R132). -/
def wdCode (tick : Nat) : Nat :=
  if 4 * tick ≤ 16 * usTaps then 0 else if 4 * tick ≤ 64 * usTaps then 1 else if 4 * tick ≤ 256 * usTaps then 2 else 3

/-- Lanes of the map that are OFF enter DOWN (R148). -/
def Chip.lanesDown (c : Chip) : Chip :=
  c.each (c.mapped.filter (fun n => c.lstate n == lsOff)) (fun c n => c.setLaneState n lsDown)

/-- LANE_RESUME_DOWN (R163): at the coming tick reference after a reset of the block in RUN. -/
def execLaneResumeDown (s : State) : Host.Outcome State Fault Refusal :=
  run (fun _ c =>
    if c.lnk.redown && c.inRun && c.dev.ticking && c.released 3 then
      let c := c.at_ c.dev.nextT0
      { c with lnk := { c.lnk with redown := false } }.lanesDown
    else c) s

/-- Every lane returns to OFF (R148). -/
def Chip.lanesOff (c : Chip) : Chip :=
  c.each ((upTo 192).filter (fun n => c.lstate n != lsOff)) (fun c n => c.setLaneState n lsOff)

/-- A reset of the LNK block (R163): lanes OFF, configuration and LNK.STATE.ARM kept. -/
def Chip.resetLnk (c : Chip) (keepAttrs : Bool) : Chip :=
  let c := c.lanesOff
  let own := fun (k : Key) => decide (0x2011 ≤ k.id ∧ k.id < 0x2400) && !(k.id == 0x2011 && k.lo == 8)
  let c := { c with lnk := { wd := c.lnk.wd, redown := true } }
  if keepAttrs then c.each c.mapped (fun c n => c.set LNK.STAT.LOCK n 0)
  else { c with regs := c.regs.filter (fun e => !own e.1) }

/-- A reset of the GPR block (R243): configuration kept; the next TB evaluation of each lane is a first one. -/
def Chip.resetGpr (c : Chip) : Chip :=
  let own := fun (k : Key) => decide (0x3005 ≤ k.id ∧ k.id < 0x3400)
  let c := c.each ((upTo 192).filter (fun n => decide (c.laneArm n < 6))) (fun c n => c.setLane n { c.lane n with
    odAt := none, odSeen := false, epDesat := false, epSelfb := false, epOtemp := false, otRun := 0, tbFirst := true })
  let c := c.each (upTo 6) (fun c a => c.setArm a { c.armRec a with m := 0 })
  { c with regs := c.regs.filter (fun e => !own e.1) }

end Sys2Proof.Machine
end

