-- ==== Sys2Proof/Machine/Cascade.lean ====
section
/-! DEFINITION. Cascade arm scheduler (chapter 5, R164 to R194), selection of the profile codes (R224 to R228), edge placement
of the lanes (R199 to R202) and the release of a tick at launch (R27, R137, R142, R147, R182). -/

namespace Sys2Proof.Machine

open Reg

/-! Counts and requests -/

/-- NACT, SPARE and autonomy of arm a at the tick reference (R165, R166), counted after the transitions of step 2 (DESIGN CHOICE, log
entry 96); SPARE falling from 1 or more to 0 or less is NOSPARE
(R187). -/
def Chip.countArm (c : Chip) (a : Nat) : Chip :=
  let l := c.armLanes a
  if l.isEmpty then c
  else
    let nact := (l.filter (fun n => c.lstate n == lsActive)).length
    let spare := (nact : Int) - c.get ARM.CFG.LMAX a
    let r := c.armRec a
    let fell := match r.spare with
      | some o => decide (1 ≤ o ∧ spare ≤ 0)
      | none => false
    let cap := (l.filter (fun n => c.lstate n == lsActive)).foldl (fun x n => x + c.get LNK.UPL.VCAP n) 0
    let c := c.setArm a { r with spare := some spare, nact := nact, cap := cap, auto := decide (l.length ≤ 64 ∧ 1 ≤ spare) }
    if fell then c.flag ARM.EVT.NOSPARE a else c

/-- Level of R167: the level and whether the request was clamped; none for NaN. -/
def levelOf (r : Word) (lmax : Nat) : Option (Nat × Bool) :=
  if F32.isNaN r then none
  else if F32.isInf r then some (if F32.sign r then 0 else lmax, true)
  else
    let l := F32.floorHalf r
    if l < 0 then some (0, true) else if (lmax : Int) < l then some (lmax, true) else some (l.toNat, false)

/-- Direction and zone of arm a from the arm current (R168). -/
def Chip.direction (c : Chip) (a : Nat) (i : Word) : Chip :=
  let idb := c.getW ARM.IDB.IDB a
  let r := c.armRec a
  if F32.lt idb i then c.setArm a { r with dis := false, zone := false }
  else if F32.lt i (F32.neg idb) then c.setArm a { r with dis := true, zone := false }
  else c.setArm a { r with zone := true }

/-- The level of an arm in mode SORT for this tick (R167). -/
def Chip.takeLevel (c : Chip) (a : Nat) (w : Word) : Chip :=
  match levelOf w (c.get ARM.CFG.LMAX a) with
  | none => c.flag ARM.EVT.LBAD a
  | some (l, clamped) =>
    let c := c.setArm a { c.armRec a with level := l }
    if clamped then c.flag ARM.EVT.LCLAMP a else c

/-! Eligibility -/

/-- Plan of lane n. -/
def Chip.plan (c : Chip) (n : Nat) : Plan := nget {} c.arm.plans n

/-- Plan of lane n takes a new record. -/
def Chip.setPlan (c : Chip) (n : Nat) (v : Plan) : Chip := { c with arm := { c.arm with plans := nset {} c.arm.plans n v } }

/-- Flags [29:23] of ARM.LST in a plan: ELIG, RDUE, STRV, SKEPT, WARM, RPTV, RPTE. -/
def fELIG : Nat := 64
def fRDUE : Nat := 32
def fSTRV : Nat := 16
def fSKEPT : Nat := 8
def fWARM : Nat := 4
def fRPTV : Nat := 2
def fRPTE : Nat := 1

/-- Commands (R129). -/
def cBlock : Nat := 0
def cInsert : Nat := 1
def cBypass : Nat := 2

/-- A lane outside ACTIVE: nothing of its Cascade history but the command stands. -/
def Chip.idleLane (c : Chip) (n : Nat) : Chip :=
  let r := c.sched n
  (c.setSched n { cmd := r.cmd, age := r.age, hit := r.hit, cIns := r.cIns, cByp := r.cByp }).setPlan n {}

/-- Warm-up (R170, R583): snapshots after entry that report APPLIED = BYPASS are counted. -/
def Chip.warmUp (c : Chip) (n : Nat) : Chip :=
  let r := c.sched n
  if r.warmDone then c
  else
    let applied := bitsOf (c.get LNK.UPL.STAT n) 15 14
    let cnt := match r.warm with
      | none => 0
      | some k => if (c.lane n).stale then k else if applied = cBypass then k + 1 else 0
    c.setSched n { r with warm := some cnt, warmDone := decide (c.get ARM.CFG.WARM (c.laneArm n) ≤ cnt) }

/-- The starvation memory of R174 on a new snapshot. -/
def Chip.starveSnapshot (c : Chip) (n : Nat) : Chip :=
  let r := c.sched n
  if (c.lane n).stale then c
  else
    let k := if (c.get LNK.UPL.STAT n).testBit 12 then 0 else r.clearRun + 1
    c.setSched n { r with clearRun := k, sticky := r.sticky && decide (k < 2) }

/-- Lane n is starving (R174). -/
def Chip.starving (c : Chip) (n : Nat) : Bool := (c.get LNK.UPL.STAT n).testBit 12 || (c.sched n).sticky

/-- The retire conditions of R184 on this tick's snapshot: VCAP met, echo met, with their runs kept. -/
def Chip.retireConditions (c : Chip) (n : Nat) : Bool × Bool × Chip :=
  let r := c.sched n
  let a := c.laneArm n
  if (c.lane n).stale then (false, false, c)
  else
    let stat := c.get LNK.UPL.STAT n
    if bitsOf stat 6 5 ≠ 0 then (false, false, c.setSched n { r with vBad := 0, eBad := 0 })
    else
      let v := c.get LNK.UPL.VCAP n
      let hi := c.get ARM.VRET.VRHI a
      let lo := c.get ARM.VRET.VRLO a
      let out := (hi != 0xFFFF && decide (hi < v)) || (lo != 0 && decide (v < lo))
      let vb := if out then r.vBad + 1 else 0
      let eb := if (c.get LNK.UPL.ECHO n).testBit 15 then 0 else r.eBad + 1
      (decide (2 ≤ vb), decide (3 ≤ eb) || bitsOf stat 15 14 == 3, c.setSched n { r with vBad := vb, eBad := eb })

/-- A met condition is reported, SM_REPORT once per episode (R186); an episode ends on a new snapshot without it. -/
def Chip.smReport (c : Chip) (n : Nat) (v e : Bool) : Chip :=
  let a := c.laneArm n
  let r := c.sched n
  let stale := (c.lane n).stale
  let c := c.setSched n { r with repV := v || (stale && r.repV), repE := e || (stale && r.repE) }
  let c := if v || e then c.flag ARM.EVT.RPT a else c
  let c := if v && !r.repV then c.raise 18 else c
  if e && !r.repE then c.raise 18 else c

/-- Report bits of ARM.LST. -/
def repBits (v e : Bool) : Nat := (if v then fRPTV else 0) + (if e then fRPTE else 0)

/-- Exclusions 1 to 4 of R169 on one lane of the arm, in order. WARM of a trip-held lane, and RPTV and RPTE in a stale tick, show 0 while
warm-up and episode go on (DESIGN CHOICE, log entry 97); a lane in warm-up is commanded BYPASS, one that passes them
all is marked eligible for the moment. A trip counts anew from here (R171, R182). -/
def Chip.exclude (c : Chip) (n : Nat) : Chip :=
  let c := c.setSched n { c.sched n with hit := false }
  if c.lstate n ≠ lsActive then c.idleLane n
  else
    let a := c.laneArm n
    let c := (c.warmUp n).starveSnapshot n
    let m := c.retireConditions n
    let c := m.2.2
    if (m.1 || m.2.1) && c.on ARM.CFG.CRET a && c.autonomous n then
      ((c.toBlocked n 13 false).flag ARM.EVT.CRET a).idleLane n
    else
      let c := c.smReport n m.1 m.2.1
      let rb := repBits m.1 m.2.1
      let r := c.sched n
      if c.laneHeld n then c.setPlan n { pres := cBlock, flags := rb }
      else if !r.warmDone then c.setPlan n { cmd := cBypass, pres := r.cmd, flags := rb + fWARM }
      else c.setPlan n { cmd := cBypass, pres := r.cmd, flags := rb + fELIG }

/-- Lane n is eligible in its plan. -/
def Chip.planElig (c : Chip) (n : Nat) : Bool := (c.plan n).flags.testBit 6

/-- Exclusion 5: starving lanes within the quota (R175), first those excluded in the last tick; each further one stays eligible,
marked and reported once per episode. -/
def Chip.starve (c : Chip) (a : Nat) : Chip :=
  let base := (c.armLanes a).filter (fun n => c.planElig n)
  let st := base.filter (fun n => c.starving n)
  let order := st.filter (fun n => (c.sched n).starved) ++ st.filter (fun n => !(c.sched n).starved)
  let quota := base.length - c.get ARM.CFG.LMAX a
  let out := order.take quota
  let kept := order.drop quota
  let c := c.each (c.armLanes a) (fun c n =>
    c.setSched n { c.sched n with starved := out.contains n, sticky := (c.sched n).sticky || out.contains n })
  let c := c.each out (fun c n =>
    let p := c.plan n
    c.setPlan n { p with flags := p.flags - fELIG + fSTRV })
  let c := c.each kept (fun c n =>
    let p := c.plan n
    let c := c.setPlan n { p with flags := p.flags + fSKEPT }
    if (c.sched n).kept then c else ((c.flag ARM.EVT.STARVE a).inc ARM.CNT.STARVE a).raise 16)
  c.each (c.armLanes a) (fun c n => c.setSched n { c.sched n with kept := kept.contains n })

/-! Sort and select -/

/-- A rank of R176: class, key, not inserted before inserted, position (lane). -/
structure Rank where
  cls : Nat
  key : Int
  notIns : Nat
  lane : Nat
  deriving DecidableEq, Repr

/-- The total order of R177. -/
def Rank.le (x y : Rank) : Bool :=
  decide (x.cls < y.cls) || (x.cls == y.cls && (decide (x.key < y.key) ||
    (x.key == y.key && (decide (x.notIns < y.notIns) || (x.notIns == y.notIns && decide (x.lane ≤ y.lane))))))

/-- Insertion into an ascending list of ranks. -/
def insertRank (x : Rank) : List Rank → List Rank
  | [] => [x]
  | y :: l => if x.le y then x :: y :: l else y :: insertRank x l

/-- Ranks in ascending order. -/
def sortRanks (l : List Rank) : List Rank := l.foldr insertRank []

/-- Lane n is refresh-due (R172). -/
def Chip.refreshDue (c : Chip) (n : Nat) : Bool :=
  let r := c.sched n
  r.cmd == cInsert && decide (c.get ARM.CFG.TREF (c.laneArm n) ≤ r.age)

/-- Rank of an eligible lane (R176). -/
def Chip.rank (c : Chip) (n : Nat) : Rank :=
  let a := c.laneArm n
  let r := c.armRec a
  let ins := (c.sched n).cmd == cInsert
  let v := c.get LNK.UPL.VCAP n
  let k : Int := if r.dis then 65535 - v else v
  let key := if ins && !r.zone then k - c.get ARM.BAND.RB a else k
  let due := c.refreshDue n
  let cls := if r.zone then (if due then 2 else if ins then 0 else 1) else (if due then 1 else 0)
  { cls := cls, key := key, notIns := if ins then 0 else 1, lane := n }

/-- The lanes of an arm in mode SORT that are selected for insertion (R176). -/
def Chip.select (c : Chip) (a : Nat) : List Nat :=
  let el := (c.armLanes a).filter (fun n => c.planElig n)
  (((sortRanks (el.map (fun n => c.rank n))).take (c.armRec a).level)).map (·.lane)

/-- A refresh-due lane that stays inserted (R173). -/
def Chip.refreshMissed (c : Chip) (n : Nat) : Chip :=
  let a := c.laneArm n
  (c.flag ARM.EVT.RMISS a).inc ARM.CNT.RMISS a

/-- Insertion age of a lane commanded `new` after `old` (R180). -/
def nextAge (old new age : Nat) : Nat :=
  if new = cInsert then (if old = cInsert then Min.min 65535 (age + 1) else 1) else 0

/-- The command of a lane stands: age and edge at XOFF when INSERT or BYPASS is new (R178, R180, R181). -/
def Chip.command (c : Chip) (n cmd : Nat) : Chip :=
  let r := c.sched n
  let p := c.plan n
  let edge := cmd != cBlock && cmd != r.cmd
  c.setPlan n { p with
    cmd := cmd, pres := r.cmd, age := nextAge r.cmd cmd r.age
    x := if edge then some (c.get ARM.XOFF.XOFF (c.laneArm n)) else none }

/-- Cascade on arm a (R24, step 5): level request and arm current as the engine delivers them. What it flags, counts and raises stands
when the tick then overruns (DESIGN CHOICE, log entry 98). -/
def Chip.cascadeArm (c : Chip) (a : Nat) (level current : Word) : Chip :=
  let l := c.armLanes a
  if l.isEmpty then c
  else
    let mode := c.get ARM.CFG.MODE a
    let c := c.direction a current
    let c := if mode = 0 then c.takeLevel a level else c
    let c := (c.each l Chip.exclude).starve a
    let el := l.filter (fun n => c.planElig n)
    let due := el.filter (fun n => c.refreshDue n)
    let c := c.each due (fun c n => c.setPlan n { c.plan n with flags := (c.plan n).flags + fRDUE })
    let sel := if mode = 0 then c.select a else []
    let lv := (c.armRec a).level
    let c := if mode = 0 ∧ el.length < lv ∧ ¬ c.held a then
        ((c.flag ARM.EVT.SHORT a).inc ARM.CNT.SHORT a).raise 17
      else c
    let c := c.each (sel.filter (fun n => due.contains n)) Chip.refreshMissed
    let c := if mode = 1 then c
      else c.each (l.filter (fun n => c.lstate n == lsActive && (c.plan n).cmd != cBlock)) (fun c n =>
        c.command n (if sel.contains n then cInsert else cBypass))
    let r := c.armRec a
    let nedge := (l.filter (fun n => (c.plan n).x.isSome)).length
    let nstrv := (l.filter (fun n => (c.plan n).flags.testBit 4)).length
    let p : ArmPlan :=
      { nmap := l.length, lreq := if mode = 0 then lv else 0, ldel := sel.length, nedge := nedge
        dir := 2 * bit r.zone + bit r.dis, auto := r.auto, spare := r.spare.getD 0, nact := r.nact, nelig := el.length
        nstrv := nstrv }
    { c with arm := { c.arm with aplans := nset {} c.arm.aplans a p } }

/-- The counts of R170, R174 and R184 on the snapshot of lane n. -/
def Chip.countSnapshot (c : Chip) (n : Nat) : Chip :=
  if c.lstate n = lsActive then (((c.warmUp n).starveSnapshot n).retireConditions n).2.2
  else
    let r := c.sched n
    c.setSched n { cmd := r.cmd, age := r.age, hit := r.hit, cIns := r.cIns, cByp := r.cByp }

/-- Arm a in a tick whose step 4 never delivers, so that step 5 does not start (R24): last direction and snapshot counts, and what
ARM.STAT, ARM.ACCT and ARM.LST show of the tick (R182); no lane is retired and nothing is flagged, counted or raised. -/
def Chip.cascadeCounts (c : Chip) (a : Nat) (level current : Word) : Chip :=
  let full := c.cascadeArm a level current
  let c := c.each (c.armLanes a) (fun c n => (c.setSched n { c.sched n with hit := false }).countSnapshot n)
  { c with arm := { c.arm with arms := full.arm.arms, plans := full.arm.plans, aplans := full.arm.aplans } }

/-! Profile codes -/

/-- Magnitude bin M of arm a (R225). -/
def Chip.currentBin (c : Chip) (a : Nat) (i : Word) : Chip :=
  if F32.isNaN i then c.flag GPR.EVT.IBAD a
  else
    let reach := fun (f : Fld) => bit (F32.le (F32.ofNat (c.get f a)) (F32.abs i))
    c.setArm a { c.armRec a with m := reach GPR.IBIN.ITH1 + reach GPR.IBIN.ITH2 + reach GPR.IBIN.ITH3 }

/-- Temperature bin of lane n on a new snapshot in MODE 00 or 10 (R226). -/
def Chip.tempBin (c : Chip) (n : Nat) : Chip :=
  let mode := bitsOf (c.get LNK.UPL.STAT n) 6 5
  let l := c.lane n
  if l.stale ∨ ¬ (mode = 0 ∨ mode = 2) then c
  else
    let a := c.laneArm n
    let temp := c.get LNK.UPL.TEMP n
    let th := [c.get GPR.TBIN.TTH1 a, c.get GPR.TBIN.TTH2 a, c.get GPR.TBIN.TTH3 a]
    let up := (th.filter (fun x => decide (x ≤ temp))).length
    let dn := (th.filter (fun x => decide (x - c.get GPR.TBIN.THYS a ≤ temp))).length
    let tb := c.get GPR.LST.TB n
    let v := if l.tbFirst then up else if tb < up then up else if dn < tb then dn else tb
    (c.setLane n { l with tbFirst := false }).set GPR.LST.TB n v

/-- Bins of arm a and of its lanes, and the codes of the tick (R225 to R228). -/
def Chip.bins (c : Chip) (a : Nat) (i : Word) : Chip :=
  let l := (c.armLanes a).filter (fun n => c.lstate n != lsOff)
  let c := c.currentBin a i
  let r := c.armRec a
  let ib := 4 * bit r.dis + r.m
  c.each l (fun c n =>
    let c := (c.tempBin n).set GPR.LST.IB n ib
    let entry := 4 * ib + c.get GPR.LST.TB n
    c.setPlan n { c.plan n with
      entry := entry, cIns := c.get GPR.PTAB.CINS (32 * a + entry), cByp := c.get GPR.PTAB.CBYP (32 * a + entry) })

/-! Edge placement of a PSC lane -/

/-- Events of a carrier in the span [t0, t0 + span), u0 being its position at t0: changes to UPPER and to LOWER in order of
their instants, at most one of each kind per period. -/
def carrierEvents (k : Carrier) (u0 t0 span : Nat) : List (Bool × Nat) :=
  if k.per = 0 then []
  else
    let at_ := fun (pos : Nat) => t0 + (pos % k.per + k.per - u0 % k.per) % k.per
    let reps := fun (dst : Bool) (pos : Nat) => (upTo (span / k.per + 1)).map (fun j => (dst, at_ pos + j * k.per))
    (reps true (k.per - k.ra) ++ reps false k.rb).filter (fun e => decide (e.2 < t0 + span))

/-- The progress of R199 over one window: tracked state (R129's code), last executed change, edge made (state before it,
offset), events carried to the next window, counts. -/
structure EdgeRun where
  s : Nat
  last : Nat
  edge : Option (Nat × Nat) := none
  carried : List (Bool × Nat) := []
  suppr : Nat := 0
  clamp : Nat := 0
  deriving DecidableEq, Repr

/-- The next event of R199: earliest instant; at equal instants one that changes s. -/
def pickEvent (s : Nat) (l : List (Bool × Nat)) : Option (Bool × Nat) :=
  l.foldl (fun best e => match best with
    | none => some e
    | some b =>
      if e.2 < b.2 then some e
      else if e.2 = b.2 ∧ (if b.1 then cInsert else cBypass) = s ∧ (if e.1 then cInsert else cBypass) ≠ s then some e
      else some b) none

/-- The procedure of R199 for a lane, window [w0, w1); `next` gives the first instant after one at which the carrier commands
a state other than the one named. -/
def edgeRun (thr w0 w1 : Nat) (next : Nat → Bool → Option Nat) : Nat → EdgeRun → List (Bool × Nat) → EdgeRun
  | 0, r, _ => r
  | fuel + 1, r, l =>
    match pickEvent r.s l with
    | none => r
    | some e =>
      let l := l.erase e
      let dst := if e.1 then cInsert else cBypass
      if dst = r.s then edgeRun thr w0 w1 next fuel r l
      else if e.2 < r.last + thr ∧ r.last ≠ 0 then
        let t := r.last + thr
        let r := { r with clamp := r.clamp + 1 }
        if w1 ≤ t then edgeRun thr w0 w1 next fuel { r with carried := r.carried ++ [(e.1, t)] } l
        else edgeRun thr w0 w1 next fuel r (l ++ [(e.1, t)])
      else
        let short := match next e.2 e.1 with
          | some n => decide (n - e.2 < thr)
          | none => false
        if short then edgeRun thr w0 w1 next fuel { r with suppr := r.suppr + 1 } l
        else edgeRun thr w0 w1 next fuel { r with s := dst, last := e.2, edge := some (r.s, e.2 - w0) } l

/-- Edge placement of lane n of a PSC arm (R199 to R201): window of the tick with reference t, compares as the engine gives
them. -/
def Chip.placeCarrierLane (c : Chip) (n t : Nat) (a b : Word) : Chip :=
  let arm := c.laneArm n
  let p := c.plan n
  let m := c.laneMod n
  let r := c.sched n
  let w0 := c.windowStart t
  let tt := c.period
  let before := m.cmp.latest
  let ca := cleanCompare a before.1
  let cb := cleanCompare b before.2
  if c.lstate n ≠ lsActive then c
  else if c.laneHeld n then c.setPlan n { p with carrier := some ({ m with carried := [] }, before.1, before.2) }
  else if ¬ c.planElig n then
    let m := { m with carried := [], last := if r.cmd = cBypass then m.last else w0 }
    let edge := r.cmd != cBypass
    let ap := nget {} c.arm.aplans arm
    let c := { c with arm := { c.arm with aplans := nset {} c.arm.aplans arm { ap with nedge := ap.nedge + bit edge } } }
    c.setPlan n { p with
      cmd := cBypass, pres := r.cmd, age := 0, x := if edge then some 0 else none
      carrier := some (m, before.1, before.2) }
  else
    let c := if ca.2 || cb.2 then c.flag MOD.EVT.CMPBAD arm else c
    let per := c.get MOD.ACFG.PER arm
    let k : Carrier := { per := per, ra := compareTaps ca.1 per, rb := compareTaps cb.1 per }
    let from_ := c.arm.missed.getD w0
    let late := (carrierEvents k (c.position per (c.lanePhase n from_) from_) from_ (w0 - from_)).map (fun e => (e.1, w0))
    let evs := m.carried.map (fun e => (e.1, Max.max w0 e.2)) ++ late ++ carrierEvents k (c.position per (c.lanePhase n w0) w0) w0 tt
    let thr := c.get MOD.ACFG.MINPW arm
    let res := edgeRun thr w0 (w0 + tt) (fun t dst => k.nextOther (c.position per (c.lanePhase n w0) t) t dst) (4 * evs.length + 8)
      { s := r.cmd, last := m.last } evs
    let c := if (p.flags.testBit 5) && res.s == cInsert then c.refreshMissed n else c
    let ap := nget {} c.arm.aplans arm
    let ap := { ap with
      suppr := ap.suppr + res.suppr, clamp := ap.clamp + res.clamp, carry := ap.carry + late.length
      nedge := ap.nedge + (if res.edge.isSome then 1 else 0) }
    let c := { c with arm := { c.arm with aplans := nset {} c.arm.aplans arm ap } }
    c.setPlan n { p with
      cmd := res.s, pres := (res.edge.map (·.1)).getD r.cmd, x := res.edge.map (·.2)
      age := if res.s = cInsert ∧ r.cmd = cInsert ∧ res.edge.isNone then Min.min 65535 (r.age + 1) else 0
      carrier := some ({ m with last := res.last, carried := res.carried }, ca.1, cb.1) }

/-! EDGE -/

/-- EDGE of an edge at offset x (R145); one that comes out negative is sent as 0 (DESIGN CHOICE, log entry 94). -/
def Chip.edgeValue (c : Chip) (n x : Nat) : Nat :=
  let e : Int := 64 * c.get DEV.APPLY.APPLY + c.tim.phi + x - 64 * c.get DEV.LAUNCH.LAUNCH - round16 (c.lane n).dly -
    c.get LNK.DRV.TDRV
  Min.min 0xFFFFFE e.toNat

/-- Every planned edge gets its EDGE value (R24, step 6). -/
def Chip.placeEdges (c : Chip) : Chip :=
  c.each c.mapped (fun c n =>
    let p := c.plan n
    match p.x with
    | some x => c.setPlan n { p with edge := c.edgeValue n x }
    | none => c)

/-! Launch -/

/-- STATE byte of R129. -/
def stateByte (ty next pres byp : Nat) : Nat := 64 * (ty % 4) + 16 * (next % 4) + 4 * (pres % 4) + 2 * (byp % 2)

/-- A downlink frame of lane n leaves at instant t: STATE, profile code, EDGE; AUX and SEQ are added (R128, R132, R239). -/
def Chip.sendFrame (c : Chip) (n t sb code edge : Nat) : Chip :=
  let l := c.lane n
  let aux := 64 * c.lnk.wd + (if l.odAt.isSome && !l.odSeen then 32 else 0)
  let f := [sb, code / 256 % 256, code % 256, edge / 65536 % 256, edge / 256 % 256, edge % 256, aux, l.dlSeq]
  let crc := crc16 f
  let g := frameGroups (c.lineRd l) (f ++ [crc / 256, crc % 256])
  let st := c.lstate n
  c.setLane n { l with
    sent := f, sentSeq := l.dlSeq, sentAt := t, groups := g.1, rd := g.2
    dlSeq := (l.dlSeq + 1) % 256
    measure := st == lsAdmit || st == lsActive }

/-- A frame with TYPE, NEXT, PRES and BYP; what would carry TYPE 01 or state code 11 is a HOLD BLOCK frame and raises STATE11 (R129,
R131). -/
def Chip.sendState (c : Chip) (n t ty next pres byp code edge : Nat) : Chip :=
  if ty % 4 = 1 ∨ next % 4 = 3 ∨ pres % 4 = 3 then (c.raise 15).sendFrame n t (stateByte 2 0 0 0) 0 0xFFFFFF
  else c.sendFrame n t (stateByte ty next pres byp) code edge

/-- The code of a HOLD frame in ACTIVE, out of PRES (R224). -/
def holdCode (pres cIns cByp : Nat) : Nat := if pres = cInsert then cByp else cIns

/-- The frame of lane n at launch instant t (R137, R142, R147, R150, R183); `ok` says that the tick did not overrun. -/
def Chip.launchLane (c : Chip) (t : Nat) (ok : Bool) (n : Nat) : Chip :=
  let st := c.lstate n
  let p := c.plan n
  let r := c.sched n
  let codes := if ok then (p.cIns, p.cByp) else (r.cIns, r.cByp)
  if st = lsOff then c
  else if c.laneHeld n then
    c.sendState n t 2 0 0 0 (if st = lsActive then holdCode 0 codes.1 codes.2 else 0) 0xFFFFFF
  else if st = lsActive then
    if ok then
      match p.x with
      | some _ =>
        let code := if p.cmd = cInsert then p.cIns else p.cByp
        ((c.set GPR.LST.CODE n code).set GPR.LST.ENTRY n p.entry).sendState n t 3 p.cmd p.pres 0 code p.edge
      | none => c.sendState n t 2 p.cmd p.cmd 0 (holdCode p.cmd codes.1 codes.2) 0xFFFFFF
    else c.sendState n t 2 r.cmd r.cmd 0 (holdCode r.cmd codes.1 codes.2) 0xFFFFFF
  else if st = lsAdmit then
    match (c.lane n).adm with
    | some a =>
      if 2 ≤ a.phase ∧ a.phase ≤ 4 then c.sendState n t 0 0 0 0 (256 * a.req) 0xFFFFFF
      else c.sendState n t 2 0 0 0 0 0xFFFFFF
    | none => c.sendState n t 2 0 0 0 0 0xFFFFFF
  else c.sendState n t 2 0 0 (if st = lsBlocked then bit (c.lane n).byp else 0) 0 0xFFFFFF

/-- ARM.LST of lane n shows a command, an age and flags (R194). -/
def Chip.showLane (c : Chip) (n cmd age flags : Nat) : Chip :=
  let c := (c.set ARM.LST.CMD n cmd).set ARM.LST.AGE n age
  let l := [(ARM.LST.ELIG, 6), (ARM.LST.RDUE, 5), (ARM.LST.STRV, 4), (ARM.LST.SKEPT, 3), (ARM.LST.WARM, 2), (ARM.LST.RPTV, 1),
    (ARM.LST.RPTE, 0)]
  c.each l (fun c e => c.setB e.1 n (flags.testBit e.2))

/-- The tick's record of lane n is released (R194): the command and age of the plan, BLOCK when a trip came since. -/
def Chip.releaseLane (c : Chip) (w0 : Nat) (n : Nat) : Chip :=
  let p := c.plan n
  let r := c.sched n
  let cmd := if r.hit then cBlock else p.cmd
  let age := if r.hit then 0 else p.age
  let c := c.setSched n { r with cmd := cmd, age := age, hit := false, cIns := p.cIns, cByp := p.cByp }
  let c := c.showLane n cmd age p.flags
  let c := ((c.set MOD.LST.TRK n cmd).setB MOD.LST.EDGE n p.x.isSome).set MOD.LST.X n (p.x.getD (c.get MOD.LST.X n))
  match p.carrier with
  | none => c.set MOD.LST.CARRY n 0
  | some (m, a, b) =>
    let c := c.setLaneMod n { m with cmp := m.cmp.push w0 a b }
    ((c.set MOD.LCMP.CMPA n a.toNat).set MOD.LCMP.CMPB n b.toNat).setB MOD.LST.CARRY n (!m.carried.isEmpty)

/-- An overrun's record of lane n (R182). -/
def Chip.overrunLane (c : Chip) (n : Nat) : Chip :=
  let p := c.plan n
  let r := c.sched n
  let keeps := c.lstate n == lsActive && !c.laneHeld n && !r.hit
  let cmd := if keeps then r.cmd else cBlock
  let age := if keeps ∧ r.cmd = cInsert then Min.min 65535 (r.age + 1) else 0
  let c := c.setSched n { r with cmd := cmd, age := age, hit := false }
  (c.showLane n cmd age p.flags).set MOD.LST.EDGE n 0

/-- ARM.STAT and ARM.ACCT of arm a, with the LDEL and NEDGE given (R182, R194). -/
def Chip.showArm (c : Chip) (a ldel nedge : Nat) : Chip :=
  let p := nget {} c.arm.aplans a
  let c := (((c.set ARM.STAT.NMAP a p.nmap).set ARM.STAT.LREQ a p.lreq).set ARM.STAT.LDEL a ldel).set ARM.STAT.NEDGE a nedge
  let c := (c.set ARM.STAT.DIR a p.dir).setB ARM.STAT.AUTO a p.auto
  (((c.setI ARM.ACCT.SPARE a p.spare).set ARM.ACCT.NACT a p.nact).set ARM.ACCT.NELIG a p.nelig).set ARM.ACCT.NSTRV a p.nstrv

/-- The edge-placement counts of arm a are released. -/
def Chip.countEdges (c : Chip) (a : Nat) : Chip :=
  let p := nget {} c.arm.aplans a
  let c := c.incBy ARM.CNT.EDGES a p.nedge
  let one := fun (c : Chip) (k : Nat) (e n : Fld) => if k = 0 then c else (c.flag e a).incBy n a k
  one (one (one c p.suppr MOD.EVT.SUPPR MOD.CNT.SUPPR) p.clamp MOD.EVT.CLAMP MOD.CNT.CLAMP) p.carry MOD.EVT.CARRY MOD.CNT.CARRY

/-- Instant the tick reference of the running tick fell. -/
def Chip.tickAt (c : Chip) : Nat := c.dev.nextT0 - c.period

/-- The tick's results are released as one set (R28), or held back (R27, R182). -/
def Chip.launchArms (c : Chip) (ok : Bool) : Chip :=
  let w0 := c.windowStart c.tickAt
  let arms := (upTo 6).filter (fun a => !(c.armLanes a).isEmpty)
  c.each arms (fun c a =>
    let l := c.armLanes a
    if ok then
      let p := nget {} c.arm.aplans a
      ((c.each l (fun c n => c.releaseLane w0 n)).showArm a p.ldel p.nedge).countEdges a
    else
      let c := c.each l Chip.overrunLane
      let ldel := if c.get ARM.CFG.MODE a = 0 then (l.filter (fun n => (c.sched n).cmd == cInsert)).length else 0
      c.showArm a ldel 0)

/-- The value that the destination with a DEST code holds (R348). -/
def Chip.destVal (c : Chip) (code : Nat) : Word := nget 0 c.ctl.dest code

/-- Compares of port p at the launch instant (R217, R348): DHB.CMP when CSRC is 1, else what its destinations hold. -/
def Chip.portCompares (c : Chip) (p : Nat) : Word × Word :=
  if c.on DHB.CFG.CSRC p then (c.getW DHB.CMP.CMPA p, c.getW DHB.CMP.CMPB p)
  else (c.destVal (0x50 + p), c.destVal (0x60 + p))

/-- The compares of port p are latched and govern from the tick's window on (R196, R217). -/
def Chip.latchPort (c : Chip) (p : Nat) : Chip :=
  let v := c.port p
  let x := c.portCompares p
  let a := cleanCompare x.1 v.cmp.latest.1
  let b := cleanCompare x.2 v.cmp.latest.2
  let c := c.setPort p { v with cmp := v.cmp.push (c.windowStart c.tickAt) a.1 b.1 }
  if a.2 || b.2 then c.flag DHB.EVT.CMPBAD p else c

/-- Every port takes over its compares (R217). -/
def Chip.launchPorts (c : Chip) : Chip := c.each (upTo 12) Chip.latchPort

/-- Steps 2 to 6 of the running tick are complete at its launch instant (R27). -/
def Chip.launchOk (c : Chip) : Bool :=
  match c.arm.placedAt with
  | some d => decide (d ≤ 64 * c.get DEV.LAUNCH.LAUNCH)
  | none => false

/-- What LRP slots delivered in an overrun tick reaches no lane and no port: their destinations hold again what they held before
(R359, log entry 101). -/
def Chip.takeBackDests (c : Chip) : Chip :=
  { c with ctl := { c.ctl with dest := c.ctl.before.foldl (fun m e => nset 0 m e.1 e.2) c.ctl.dest } }

/-- The launch of the running tick (R24, step 7; R27, R137): at T0(k) + t_launch every lane in use sends its frame and the ports take
over the compares; when steps 2 to 6 are not complete by then the tick overruns. -/
def Chip.launch (c : Chip) : Chip :=
  let t := c.tickAt + 64 * c.get DEV.LAUNCH.LAUNCH
  let ok := c.launchOk
  let c := c.at_ t
  let c := if c.released 3 then c.each (upTo 192) (fun c n => c.launchLane t ok n) else c
  let c := c.launchArms ok
  let c := if ok then (if c.released 4 then c.launchPorts else c) else c.takeBackDests.raise 23
  let missed := if ok then none else some (c.arm.missed.getD (c.windowStart c.tickAt))
  { c with arm := { c.arm with launchDue := false, missed := missed } }

/-- LAUNCH (R137). -/
def execLaunch (s : State) : Host.Outcome State Fault Refusal :=
  run (fun _ c => if c.arm.launchDue && c.inRun then c.launch else c) s

/-- Entry to RUN: the arms start afresh (R167, R168, R225), AUX takes its watchdog code (R132), the lanes of the map enter DOWN. -/
def Chip.runLanes (c : Chip) : Chip :=
  let c := { c with arm := {}, mod := { c.mod with lanes := [] }, lnk := { c.lnk with wd := wdCode c.period } }
  c.lanesDown

/-- A reset of the ARM block (R194): configuration and POS kept, and the magnitude bins of R225, which are the GPR block's. Lanes in
ACTIVE do not enter warm-up again: it begins on entry to ACTIVE alone (R170). -/
def Chip.resetArm (c : Chip) : Chip :=
  let own := fun (k : Key) => decide (0x2405 ≤ k.id ∧ k.id < 0x2800) && !(k.id == 0x2420 && k.lo == 16)
  let active := (upTo 192).filter (fun n => c.lstate n == lsActive)
  let bins := (upTo 6).map (fun a => (a, (c.armRec a).m))
  let c := { c with arm := { c.arm with arms := [], lanes := [], plans := [], aplans := [] }, regs := c.regs.filter (fun e => !own e.1) }
  let c := c.each active (fun c n => c.setSched n { warmDone := true })
  c.each bins (fun c x => c.setArm x.1 { m := x.2 })

/-- A reset of the MOD block (R488, R508): every field but the RWL ones of MOD.ACFG and MOD.TRG at its reset value; a phase that
changes does so as a write of it does (R201), and the masks act at once. -/
def Chip.resetMod (c : Chip) : Chip :=
  let own := fun (k : Key) => decide (0x2800 < k.id ∧ k.id < 0x2C00) && k.id != 0x2804
  let phases := (upTo 192).map (fun n => (n, c.get MOD.LPH.PH n))
  let c := { c with mod := { c.mod with lanes := [] }, regs := c.regs.filter (fun e => !own e.1) }
  (c.each phases (fun c x => c.phaseWritten x.1 x.2)).portsUpdate

end Sys2Proof.Machine
end

