-- ==== Sys2Proof/Machine/Operands.lean ====
section
/-! DEFINITION. Operand forms of the host's packets: header, attribute reference word, parameter words, status codes and the DETAIL
word (R49, R81, R89 to R93). -/

namespace Sys2Proof.Machine

/-! Status codes (R89) -/

/-- OK. -/
def stOK : Nat := 0x00
/-- BUSY. -/
def stBUSY : Nat := 0x01
/-- BAD_OPC. -/
def stBADOPC : Nat := 0x02
/-- BAD_LEN. -/
def stBADLEN : Nat := 0x03
/-- BAD_CRC. -/
def stBADCRC : Nat := 0x04
/-- BAD_ATTR. -/
def stBADATTR : Nat := 0x05
/-- RANGE. -/
def stRANGE : Nat := 0x06
/-- ACCESS. -/
def stACCESS : Nat := 0x07
/-- STATE. -/
def stSTATE : Nat := 0x08
/-- TRIP_ACTIVE. -/
def stTRIP : Nat := 0x09
/-- REFUSED_SAFETY. -/
def stSAFETY : Nat := 0x0A
/-- FUSE_INVALID. -/
def stFUSE : Nat := 0x0C
/-- AUTH. -/
def stAUTH : Nat := 0x0D

/-- Place of a status in the order of R90, for the statuses that a packet's body can yield; STATE is that of item 11. -/
def statusRank (st : Nat) : Nat :=
  if st = stBADLEN then 7 else if st = stBADATTR then 8 else if st = stACCESS then 9 else if st = stRANGE then 10
  else if st = stSTATE then 11 else if st = stBUSY then 13 else 12

/-- A fault found in a packet: status, number of the entry, number of the parameter word (R93). -/
structure Finding where
  status : Nat
  entry : Nat
  word : Nat
  deriving DecidableEq, Repr

/-- The finding of a list that ranks first; the earlier one when equal. -/
def worst : List Finding → Option Finding
  | [] => none
  | f :: l => match worst l with
    | none => some f
    | some g => if statusRank g.status < statusRank f.status then some g else some f

/-- What a refusal carries: the status that ranks first (R90), the DETAIL word of the first entry that fails (R96). -/
def refusal (l : List Finding) : Option (Nat × Nat) :=
  match worst l with
  | none => none
  | some w =>
    let e := l.foldl (fun m f => Min.min m f.entry) w.entry
    match worst (l.filter (fun f => f.entry == e)) with
    | none => some (w.status, 0)
    | some f => some (w.status, 2 ^ 16 * f.entry + f.word % 2 ^ 16)

/-! Attribute reference words (R81) -/

/-- Attribute ID of an ARW. -/
def arwId (w : Nat) : Nat := bitsOf w 31 16
/-- Instance of an ARW. -/
def arwInst (w : Nat) : Nat := bitsOf w 15 8
/-- COUNT of an ARW. -/
def arwCount (w : Nat) : Nat := bitsOf w 7 0

/-- The row of an attribute's instance, none where ID, index or instance is not defined (R78, R80). -/
def attrRow (id inst : Nat) : Option AttrRow :=
  match findRow id with
  | some r => if inst < r.insts then some r else none
  | none => none

/-- A W1C field after a host write of v: bits written 1 clear but those in `keep`, which hardware set at the same instant (R12). -/
def clearBits (old v keep : Nat) : Nat := old - (old &&& (v - (v &&& keep)))

/-- The value of a list of words, word 0 first (R79). -/
def wordsValue : List Nat → Nat
  | [] => 0
  | w :: l => w % 2 ^ 32 + 2 ^ 32 * wordsValue l

/-! Packets (R44, R49) -/

/-- OPC of a header, or STATUS of a reply's. -/
def hdrOpc (h : Nat) : Nat := bitsOf h 31 24
/-- TAG of a header. -/
def hdrTag (h : Nat) : Nat := bitsOf h 23 16
/-- LEN of a header. -/
def hdrLen (h : Nat) : Nat := bitsOf h 15 6
/-- FLG of a header. -/
def hdrFlg (h : Nat) : Nat := bitsOf h 5 0

/-- A header. -/
def mkHeader (opc tag len flg : Nat) : Nat := 2 ^ 24 * opc + 2 ^ 16 * tag + 2 ^ 6 * len + flg

/-- Bytes of whole words, most significant first, as they travel. -/
def bytesOfWords (l : List Nat) : List Nat := l.flatMap wordBytes

/-- Whole words of bytes in transmission order. -/
def wordsOfBytes : List Nat → List Nat
  | a :: b :: d :: e :: l => ofBytes [a, b, d, e] :: wordsOfBytes l
  | _ => []

/-- The final word of a packet: its CRC in [15:0], zero above (R49). -/
def finalWord (l : List Nat) : Nat := crc16 (bytesOfWords l)

/-- The words of a reply packet: header, parameter words, final word (R92). -/
def Reply.packet (r : Reply) : List Nat :=
  let l := mkHeader r.status r.tag r.words.length r.flg :: r.words
  l ++ [finalWord l]

/-- The words of a marker packet with the given header (R68). -/
def markerPacket (h : Nat) : List Nat := [h, finalWord [h]]

end Sys2Proof.Machine
end

