-- ==== Sys2Proof/Machine/Pages.lean ====
section
/-! DEFINITION. Page manager: rings, pages, theft, capture and freeze, error correction (chapter 10, R293 to R310). -/

namespace Sys2Proof.Machine

open Reg

/-- Field f of the descriptor of page p: index 0x40 + p / 256, instance p mod 256 (R310). -/
def pdsc (f : Fld) (p : Nat) : Fld := { f with id := f.id + p / 256 }

/-- Read of a descriptor field. -/
def Chip.pd (c : Chip) (f : Fld) (p : Nat) : Nat := c.get (pdsc f p) (p % 256)

/-- Write of a descriptor field. -/
def Chip.setPd (c : Chip) (f : Fld) (p v : Nat) : Chip := c.set (pdsc f p) (p % 256) v

/-- Page states (PGM.PDSC.PST). -/
def pstFree : Nat := 0
def pstOpen : Nat := 2
def pstClosed : Nat := 3
def pstFrozen : Nat := 4
def pstRetired : Nat := 5

/-- Ring states (R301). -/
def rsOff : Nat := 0
def rsRun : Nat := 1
def rsArmed : Nat := 2
def rsPost : Nat := 3
def rsFrozen : Nat := 4
def rsQueue : Nat := 5

/-- "No page". -/
def noPage : Nat := 0xFFF

/-- Ring r. -/
def Chip.ring (c : Chip) (r : Nat) : Ring := nget {} c.pgm.rings r

/-- Ring r takes a new record. -/
def Chip.setRing (c : Chip) (r : Nat) (v : Ring) : Chip :=
  { c with pgm := { c.pgm with rings := nset {} c.pgm.rings r v } }

/-- State of ring r. -/
def Chip.rstate (c : Chip) (r : Nat) : Nat := c.get PGM.CAP.STATE r

/-- A word of a page is written (byte address 4096 p + 4 w, R293). -/
def Chip.sramWrite (c : Chip) (p w v : Nat) : Chip :=
  { c with pgm := { c.pgm with wq := c.pgm.wq ++ [(4096 * p + 4 * w, toWord v)] } }

/-- Consecutive words of a page are written. -/
def Chip.sramWrites (c : Chip) (p w : Nat) : List Nat → Chip
  | [] => c
  | v :: l => (c.sramWrite p w v).sramWrites p (w + 1) l

/-- The ring's open page. -/
def Chip.openPage (c : Chip) (r : Nat) : Option Nat :=
  match (c.ring r).pages.getLast? with
  | some p => if c.pd PGM.PDSC.PST p = pstOpen then some p else none
  | none => none

/-- The open page of a ring closes: what is staged follows, its unused words read 0 (R295, R296); a page of the frozen set becomes
FROZEN. -/
def Chip.closeOpen (c : Chip) (r : Nat) : Chip :=
  match c.openPage r with
  | none => c
  | some p =>
    let rg := c.ring r
    let at_ := rg.count - rg.stage.length
    let rest := rg.stage ++ (if rg.samples % 2 = 1 then [rg.half] else [])
    let c := c.sramWrites p at_ (rest ++ List.replicate (1024 - at_ - rest.length) 0)
    let c := (c.setPd PGM.PDSC.FILL p (at_ + rest.length)).setPd PGM.PDSC.PST p
      (if rg.frozen.contains p then pstFrozen else pstClosed)
    let c := { c with pgm := { c.pgm with closeAt := nset 0 c.pgm.closeAt p c.now } }
    c.setRing r { rg with count := 0, stage := [], samples := 0, half := 0 }

/-- An item is discarded in FROZEN and counted in HELD, in units of 256 items (R301). -/
def Chip.holdItem (c : Chip) (r : Nat) : Chip :=
  let h := (c.ring r).held + 1
  let c := c.setRing r { c.ring r with held := h % 256 }
  if h = 256 then c.inc PGM.RCNT.HELD r else c

/-- A ring whose frozen set is complete enters FROZEN (R304): a page after the set closes, the set ends with its last page (R307),
items that wait are held (R301). -/
def Chip.toFrozen (c : Chip) (r : Nat) : Chip :=
  let c := ((c.closeOpen r).set PGM.CAP.STATE r rsFrozen).flag PGM.EVT.FROZEN
  let c := match (c.ring r).frozen.getLast? with
    | some p => c.setPd PGM.PDSC.NEXT p noPage
    | none => c
  let mine := c.pgm.waiting.filter (fun w => w.ring == r)
  { c with pgm := { c.pgm with waiting := c.pgm.waiting.filter (fun w => w.ring != r) } }.each mine (fun c _ => c.holdItem r)

/-- The frozen set of ring r is complete: no POST page is to come and none of its pages is open (R304). -/
def Chip.frozenWhole (c : Chip) (r : Nat) : Bool :=
  c.rstate r == rsPost && (c.ring r).post == 0 && (c.ring r).frozen.all (fun p => c.pd PGM.PDSC.PST p != pstOpen)

/-- The open page of a ring closes, and the ring enters FROZEN when its frozen set is then complete (R295, R304). -/
def Chip.closePage (c : Chip) (r : Nat) : Chip :=
  let c := c.closeOpen r
  if c.frozenWhole r then c.toFrozen r else c

/-- Page p becomes the open page of ring r with the ring's next SEQ; its previous content is overwritten from word 0
(R294, R298); in POST it joins the frozen set as it opens, as its oldest page when the set is empty (R304, R307). -/
def Chip.openNew (c : Chip) (r p : Nat) : Chip :=
  let rg := c.ring r
  let c := match rg.pages.getLast? with
    | some q => c.setPd PGM.PDSC.NEXT q p
    | none => c
  let c := (((((((c.setPd PGM.PDSC.SEQ p rg.seq).setPd PGM.PDSC.CE p 0).setPd PGM.PDSC.UE p 0).setPd PGM.PDSC.TRG p 0).setPd
    PGM.PDSC.RING p r).setPd PGM.PDSC.PST p pstOpen).setPd PGM.PDSC.NEXT p noPage).setPd PGM.PDSC.FILL p 0
  let inPost := c.rstate r == rsPost && decide (0 < rg.post)
  let c := if inPost && rg.frozen.isEmpty then c.set PGM.CAP.FIRST r p else c
  let rg := { rg with
    pages := rg.pages ++ [p], seq := (rg.seq + 1) % 65536, losing := false, count := 0, stage := [], samples := 0, half := 0
    frozen := if inPost then rg.frozen ++ [p] else rg.frozen
    post := if inPost then rg.post - 1 else rg.post }
  { c.setRing r rg with pgm := { (c.setRing r rg).pgm with openAt := nset 0 c.pgm.openAt p c.now } }

/-- Whole words follow the ones in page p of ring r: whole 64-bit words are written, a last one stays staged (R296). -/
def Chip.putWords (c : Chip) (r p : Nat) (l : List Nat) : Chip :=
  let rg := c.ring r
  let at_ := rg.count - rg.stage.length
  let l := rg.stage ++ l
  let n := l.length / 2 * 2
  ((c.sramWrites p at_ (l.take n)).setPd PGM.PDSC.FILL p (at_ + n)).setRing r
    { rg with count := at_ + l.length, stage := l.drop n }

/-- The samples of the open stream page of ring r, and the half word that waits. -/
def Chip.setSamples (c : Chip) (r n half : Nat) : Chip := c.setRing r { c.ring r with samples := n, half := half }

/-- The item is written into the open page when it fits (R295, R281). -/
def Chip.place (c : Chip) (it : Item) : Option Chip :=
  match c.openPage it.ring with
  | none => none
  | some p =>
    let rg := c.ring it.ring
    match it.stream with
    | none =>
      if rg.count + it.words.length ≤ 1024 then
        some ({ c with pgm := { c.pgm with frames := c.pgm.frames ++ it.frame.toList } }.putWords it.ring p it.words)
      else none
    | some (hdr, x) =>
      let v := it.words.headD 0 % 65536
      if rg.count = 0 then
        let st := c.stamp x
        some ((c.putWords it.ring p [hdr, st.2, st.1 % 2 ^ 32, st.1 / 2 ^ 32]).setSamples it.ring 1 v)
      else if rg.samples < 2040 then
        if rg.samples % 2 = 0 then some (c.setSamples it.ring (rg.samples + 1) v)
        else some ((c.putWords it.ring p [rg.half + 65536 * v]).setSamples it.ring (rg.samples + 1) 0)
      else none

/-- The open page is full: 1,024 words, which for a stream page are 2,040 samples. -/
def Chip.full (c : Chip) (r : Nat) : Bool := (c.openPage r).isSome && (c.ring r).count == 1024

/-- The item is placed, or the open page closes and the item waits for the next one. -/
def Chip.placeOrWait (c : Chip) (it : Item) : Chip :=
  match c.place it with
  | some c => if c.full it.ring then c.closePage it.ring else c
  | none =>
    let c := c.closePage it.ring
    if c.rstate it.ring = rsFrozen then c.holdItem it.ring
    else { c with pgm := { c.pgm with waiting := c.pgm.waiting ++ [it] } }

/-- An item finds no page (R299): counted, flagged, PGM_LOST once per episode. -/
def Chip.loseItem (c : Chip) (r : Nat) : Chip :=
  let c := (c.inc PGM.RCNT.LOST r).flag PGM.EVT.LOST
  if (c.ring r).losing then c else (c.setRing r { c.ring r with losing := true }).raise 35

/-- The oldest waiting item of ring r is lost. -/
def Chip.loseOldest (c : Chip) (r : Nat) : Chip :=
  let k := c.pgm.waiting.findIdx (fun w => w.ring == r)
  { c with pgm := { c.pgm with waiting := c.pgm.waiting.eraseIdx k } }.loseItem r

/-- Half words that an item takes in its producer's staging buffer. -/
def Item.halves (it : Item) : Nat := if it.stream.isSome then 1 else 2 * it.words.length

/-- Half words of a producer's staging buffer: 64 words or more (R296). -/
def stagingHalves : Nat := 2 * (64 + Config.stagingExtra)

/-- A producer hands an item to its ring: nothing in OFF, counted in HELD in FROZEN (R301), written or waiting for a page
otherwise. When the staging buffer has no room for it the oldest item that waits is lost (R36, R296; log entry 100). -/
def Chip.ringItem (c : Chip) (it : Item) : Chip :=
  let st := c.rstate it.ring
  if st = rsOff then c
  else if st = rsFrozen then c.holdItem it.ring
  else
    let mine := c.pgm.waiting.filter (fun w => w.ring == it.ring)
    if mine.isEmpty then c.placeOrWait it
    else
      let c := if mine.foldl (fun n w => n + w.halves) it.halves ≤ stagingHalves then c else c.loseOldest it.ring
      { c with pgm := { c.pgm with waiting := c.pgm.waiting ++ [it] } }

/-- A record of whole words for a ring. -/
def Chip.ringRecord (c : Chip) (r : Nat) (words : List Nat) : Chip := c.ringItem { ring := r, words := words }

/-- Common pages on the free list; one that is to be retired is not allocated again (R308). -/
def Chip.freePages (c : Chip) : List Nat :=
  ((upTo 1888).map (· + 160)).filter (fun p => c.pd PGM.PDSC.PST p == pstFree && !c.pgm.toRetire.contains p)

/-- Pages reserved for ring r: MINP once the configuration is committed, less what retirement has cut since (R297, R308). -/
def Chip.reserve (c : Chip) (r : Nat) : Nat :=
  if c.dev.committed && c.on PGM.RCFG.EN r then c.get PGM.RCFG.MINP r - (c.ring r).cut else 0

/-- Free pages that reservations still need (R298). -/
def Chip.needed (c : Chip) : Nat :=
  (upTo 32).foldl (fun a r => a + (c.reserve r - (c.ring r).pages.length)) 0

/-- A trigger is for ring r (R303). -/
def Chip.trigFor (c : Chip) (r : Nat) (k : TrigSrc) : Bool :=
  match k with
  | .source k => c.get PGM.CAP.TRIG r == k
  | .host m => m.testBit r

/-- A page that can be recycled: closed, not frozen, not to be retired; while a trigger for its ring is in flight, one closed within
1 us or since the trigger's instant waits until it has been judged (R298, R304). -/
def Chip.recyclable (c : Chip) (r p : Nat) : Bool :=
  let closed := nget 0 c.pgm.closeAt p
  c.pd PGM.PDSC.PST p == pstClosed && !c.pgm.toRetire.contains p &&
    !c.pgm.trig.any (fun x => c.trigFor r x.1 && decide (c.now ≤ closed + usTaps ∨ x.2 ≤ c.raw closed))

/-- The ring's oldest recyclable page. -/
def Chip.oldest (c : Chip) (r : Nat) : Option Nat := (c.ring r).pages.find? (fun p => c.recyclable r p)

/-- The ring gives up page p; the page before it names the one after it (R294, R307). -/
def Chip.dropPage (c : Chip) (r p : Nat) : Chip :=
  let l := (c.ring r).pages
  let c := match (l.takeWhile (fun q => q != p)).getLast? with
    | some q =>
      if c.pd PGM.PDSC.NEXT q = p then c.setPd PGM.PDSC.NEXT q (((l.dropWhile (fun q => q != p)).drop 1).headD noPage) else c
    | none => c
  c.setRing r { c.ring r with
    pages := (c.ring r).pages.filter (fun q => q != p), frozen := (c.ring r).frozen.filter (fun q => q != p) }

/-- Ring a is the better victim than ring b: greatest PRIO number, then largest excess over MINP, then lowest number (R298). -/
def Chip.betterVictim (c : Chip) (a b : Nat) : Bool :=
  let pa := c.get PGM.RCFG.PRIO a
  let pb := c.get PGM.RCFG.PRIO b
  let ea := (c.ring a).pages.length - c.get PGM.RCFG.MINP a
  let eb := (c.ring b).pages.length - c.get PGM.RCFG.MINP b
  decide (pb < pa ∨ (pa = pb ∧ (eb < ea ∨ (ea = eb ∧ a < b))))

/-- The ring a page is stolen from. -/
def Chip.victim (c : Chip) (r : Nat) : Option Nat :=
  ((upTo 32).filter (fun v => v != r && c.on PGM.RCFG.EN v && c.get PGM.RCFG.MODE v == 0 &&
      decide (c.get PGM.RCFG.PRIO r < c.get PGM.RCFG.PRIO v) && decide (c.get PGM.RCFG.MINP v < (c.ring v).pages.length) &&
      (c.oldest v).isSome)).foldl
    (fun best v => match best with
      | none => some v
      | some b => if c.betterVictim v b then some v else some b) none

/-- A page of the free list; which one is open (log entry 8). -/
def Chip.pickFree (c : Chip) : Option (Nat × Chip) :=
  let l := c.freePages
  let k := c.freeNat
  match l[k.1 % l.length]? with
  | some p => some (p, k.2)
  | none => none

/-- A page for ring r by the first source of R298 that can supply one. -/
def Chip.takePage (c : Chip) (r : Nat) : Option (Nat × Chip) :=
  let n := (c.ring r).pages.length
  let nfree := c.freePages.length
  if n < c.reserve r ∧ 0 < nfree then c.pickFree
  else if n < c.get PGM.RCFG.MAXP r ∧ c.needed < nfree then c.pickFree
  else
    match (if c.get PGM.RCFG.MODE r = 0 then c.oldest r else none) with
    | some p => some (p, c.dropPage r p)
    | none =>
      match c.victim r with
      | none => none
      | some v =>
        match c.oldest v with
        | none => none
        | some p => some (p, ((c.dropPage v p).inc PGM.RCNT.THEFT r).inc PGM.RCNT.STOLEN v)

/-- The items of ring r that wait are placed as far as the open page takes them. -/
def Chip.drainWaiting (c : Chip) (r : Nat) : Chip :=
  let mine := c.pgm.waiting.filter (fun w => w.ring == r)
  let c := { c with pgm := { c.pgm with waiting := c.pgm.waiting.filter (fun w => w.ring != r) } }
  c.each mine Chip.ringItem

/-- The ring whose request is served first: ascending PRIO, then ring number (R300). -/
def Chip.nextRequest (c : Chip) : Option Nat :=
  ((upTo 32).filter (fun r => c.pgm.waiting.any (fun w => w.ring == r))).foldl
    (fun best r => match best with
      | none => some r
      | some b => if c.get PGM.RCFG.PRIO r < c.get PGM.RCFG.PRIO b then some r else some b) none

/-- One page request is served: the ring gets a page and its waiting items follow, or its oldest waiting item is lost. -/
def Chip.pageRequest (c : Chip) : Chip :=
  match c.nextRequest with
  | none => c
  | some r =>
    match c.takePage r with
    | some (p, c) => (c.openNew r p).drainWaiting r
    | none => c.loseOldest r

/-- PAGE_REQUEST (R298). -/
def execPageRequest (t : Nat) (s : State) : Host.Outcome State Fault Refusal :=
  run (fun _ c => (c.at_ t).pageRequest) s

/-! Capture -/

/-- A trigger is in flight to the page manager (R303). -/
def Chip.flyTrigger (c : Chip) (k : TrigSrc) (x : Nat) : Chip := { c with pgm := { c.pgm with trig := c.pgm.trig ++ [(k, x)] } }

/-- Source `trig` triggers at raw instant x (R303); where no ring is in mode CIRC nothing can fire. -/
def Chip.captureSource (c : Chip) (trig x : Nat) : Chip :=
  if (upTo 32).any (fun r => decide (rsRun ≤ c.rstate r ∧ c.rstate r ≤ rsFrozen)) then c.flyTrigger (.source trig) x else c

/-- Host triggers for the rings of a mask at raw instant x (R303): in RUN they fire at a tick reference and are judged there, in other
states at once, where a bit for a ring that is neither ARMED nor in POST or FROZEN is ignored. -/
def Chip.hostTrigger (c : Chip) (mask x : Nat) : Chip :=
  let m := if c.inRun then mask
    else ofBits ((setBits 32 mask).filter (fun r => decide (rsArmed ≤ c.rstate r ∧ c.rstate r ≤ rsFrozen)))
  if m = 0 then c else c.flyTrigger (.host m) x

/-- The page of ring r that was open at raw instant x. -/
def Chip.pageAt (c : Chip) (r x : Nat) : Option Nat :=
  ((c.ring r).pages.filter (fun p =>
    (c.pd PGM.PDSC.PST p == pstOpen ||
      c.pd PGM.PDSC.PST p == pstClosed && decide (x < c.raw (nget 0 c.pgm.closeAt p))) &&
    decide (c.raw (nget 0 c.pgm.openAt p) ≤ x))).getLast?

/-- The armed ring r fires at raw instant x (R304, R307): the trigger page, up to PRE closed pages before it and the first POST pages
opened since are frozen; the ring enters POST, or FROZEN when no page is left to fill. -/
def Chip.fire (c : Chip) (r x : Nat) : Chip :=
  let rg := c.ring r
  let pre := c.get PGM.CAP.PRE r
  let post := c.get PGM.CAP.POST r
  let tp := c.pageAt r x
  let later := fun (q : Nat) => decide (x < c.raw (nget 0 c.pgm.openAt q))
  let before := match tp with
    | some p => rg.pages.takeWhile (fun q => q != p)
    | none => rg.pages.filter (fun q => !later q)
  let after := (match tp with
    | some p => (rg.pages.dropWhile (fun q => q != p)).drop 1
    | none => rg.pages.filter later).take post
  let closed := before.filter (fun q => c.pd PGM.PDSC.PST q == pstClosed)
  let kept := closed.drop (closed.length - pre)
  let frozen := kept ++ tp.toList ++ after
  let st := c.stamp x
  let c := c.setRing r { rg with frozen := frozen, post := post - after.length }
  let c := c.each (frozen.filter (fun q => c.pd PGM.PDSC.PST q == pstClosed)) (fun c q => c.setPd PGM.PDSC.PST q pstFrozen)
  let c := match tp with
    | some p => (c.setPd PGM.PDSC.TRG p 1).set PGM.CAP.TPAGE r p
    | none => c.set PGM.CAP.TPAGE r noPage
  let c := ((c.set PGM.CAP.TIME r st.1).set PGM.CAP.TAP r st.2).setB PGM.CAP.SHORT r (decide (kept.length < pre))
  let c := (c.set PGM.CAP.FIRST r (frozen.headD noPage)).set PGM.CAP.STATE r rsPost
  let c := c.setRing r { c.ring r with trigAt := some c.now }
  if c.frozenWhole r then c.toFrozen r else c

/-- Ring r meets a trigger at raw instant x (R303, R305): it fires when ARMED; in POST or FROZEN the trigger counts, unless another was
recognised at the same instant. -/
def Chip.meetTrigger (c : Chip) (r x : Nat) : Chip :=
  let st := c.rstate r
  if st = rsArmed then c.fire r x
  else if (st = rsPost ∨ st = rsFrozen) ∧ (c.ring r).trigAt ≠ some c.now then
    (c.setRing r { c.ring r with trigAt := some c.now }).inc PGM.RCNT.TRIGX r
  else c

/-- The oldest trigger in flight whose instant has come is recognised (R303, R304). -/
def Chip.captureTrigger (c : Chip) : Chip :=
  match c.pgm.trig.find? (fun y => decide (y.2 ≤ c.raw c.now)) with
  | none => c
  | some (k, x) =>
    let c := { c with pgm := { c.pgm with
      trig := c.pgm.trig.erase (k, x), seen := (c.now, k, x) :: c.pgm.seen.filter (fun y => y.1 == c.now) } }
    c.each ((upTo 32).filter (fun r => c.trigFor r k)) (fun c r => c.meetTrigger r x)

/-- CAPTURE_TRIGGER (R304). -/
def execCaptureTrigger (t : Nat) (s : State) : Host.Outcome State Fault Refusal :=
  run (fun _ c => (c.at_ t).captureTrigger) s

/-- CAPTURE_ARM's effect (R302): PRE, POST and TRIG stored, ring ARMED, from RUN or ARMED; in RUN of the device a trigger recognised at
the same reference counts. -/
def Chip.armRing (c : Chip) (r pre post trig : Nat) : Chip :=
  if c.rstate r = rsRun ∨ c.rstate r = rsArmed then
    let c := (((c.set PGM.CAP.PRE r pre).set PGM.CAP.POST r post).set PGM.CAP.TRIG r trig).set PGM.CAP.STATE r rsArmed
    match (c.pgm.seen.filter (fun y => c.inRun && y.1 == c.now && c.trigFor r y.2.1)).getLast? with
    | some y => c.fire r y.2.2
    | none => c
  else c

/-- Page p goes to the free list. -/
def Chip.freePage (c : Chip) (p : Nat) : Chip := (c.setPd PGM.PDSC.PST p pstFree).setPd PGM.PDSC.TRG p 0

/-- The oldest closed page of a QUEUE ring. -/
def Chip.oldestClosed (c : Chip) (r : Nat) : Option Nat :=
  (c.ring r).pages.find? (fun p => c.pd PGM.PDSC.PST p == pstClosed)

/-- CAPTURE_RELEASE's effect (R306): the frozen pages, or the oldest closed page of a QUEUE ring, go to the free list. -/
def Chip.release (c : Chip) (r : Nat) : Chip :=
  if c.rstate r = rsFrozen then
    let fz := (c.ring r).frozen
    let c := c.each fz (fun c p => (c.dropPage r p).freePage p)
    ((c.set PGM.CAP.STATE r rsRun).set PGM.CAP.TPAGE r noPage).set PGM.CAP.FIRST r noPage
  else
    match c.oldestClosed r with
    | some p => (c.dropPage r p).freePage p
    | none => c

/-! Error correction -/

/-- A read found an error in 64-bit word w of page p (R308, R309, R471): counted, flagged, located, raised; a common page with
an uncorrectable error is to be retired when PGM.CFG.RETEN is 1. -/
def Chip.sramError (c : Chip) (p w : Nat) (ue : Bool) : Chip :=
  let c := ((c.setB PGM.ECC.LASTUE 0 ue).set PGM.ECC.PAGE 0 p).set PGM.ECC.WORD 0 w
  let c := c.set PGM.ECC.SYN 0 (Config.syndrome p w)
  if ue then
    let c := (((c.inc PGM.ECC.UE).flag PGM.EVT.UE).setPd PGM.PDSC.UE p 1).raise 37 0 (decide (p < 128))
    if 160 ≤ p ∧ c.on PGM.CFG.RETEN ∧ ¬ c.pgm.toRetire.contains p ∧ c.pd PGM.PDSC.PST p ≠ pstRetired then
      { c with pgm := { c.pgm with toRetire := c.pgm.toRetire ++ [p] } }
    else c
  else (((c.inc PGM.ECC.CE).flag PGM.EVT.CE).setPd PGM.PDSC.CE p 1).raise 36

/-- The ring that loses a reserved page: greatest PRIO number, then highest ring number, among those that hold a
reservation (R308). -/
def Chip.cutRing (c : Chip) : Option Nat :=
  ((upTo 32).filter (fun r => decide (0 < c.reserve r))).foldl
    (fun best r => match best with
      | none => some r
      | some b => if c.get PGM.RCFG.PRIO b ≤ c.get PGM.RCFG.PRIO r then some r else some b) none

/-- PAGE_RETIRE (R308): page p, to be retired, is retired once neither open nor frozen; a reservation that can no longer be
covered is cut. -/
def Chip.retirePage (c : Chip) (p : Nat) : Chip :=
  let st := c.pd PGM.PDSC.PST p
  if c.pgm.toRetire.contains p ∧ (st = pstFree ∨ st = pstClosed) then
    let r := c.pd PGM.PDSC.RING p
    let c := if st = pstClosed then c.dropPage r p else c
    let c := (c.setPd PGM.PDSC.PST p pstRetired).set PGM.POOL.RETIRED 0 (c.get PGM.POOL.RETIRED + 1)
    let c := { c with pgm := { c.pgm with toRetire := c.pgm.toRetire.filter (fun q => q != p) } }
    if 1888 - c.get PGM.POOL.RETIRED < (upTo 32).foldl (fun a r => a + c.reserve r) 0 then
      match c.cutRing with
      | some v => (c.setRing v { c.ring v with cut := (c.ring v).cut + 1 }).flag PGM.EVT.RESVCUT
      | none => c
    else c
  else c

/-- PAGE_RETIRE. -/
def execPageRetire (t p : Nat) (s : State) : Host.Outcome State Fault Refusal :=
  run (fun _ c => (c.at_ t).retirePage p) s

/-! Configuration -/

/-- Ring r follows its EN and MODE (R301): OFF when not enabled, else RUN or QUEUE. -/
def Chip.ringMode (c : Chip) (r : Nat) : Chip :=
  let st := c.rstate r
  if ¬ c.on PGM.RCFG.EN r then c.set PGM.CAP.STATE r rsOff
  else if c.get PGM.RCFG.MODE r = 1 then c.set PGM.CAP.STATE r rsQueue
  else if st = rsOff ∨ st = rsQueue then c.set PGM.CAP.STATE r rsRun
  else c

/-- PGM fields that a reset of the block returns to their reset values: those that are not RWL (R310), descriptors of pages
0 to 159 apart. -/
def Chip.resetPages (c : Chip) : Chip :=
  let keep := fun (k : Key) =>
    !(0x3C02 ≤ k.id ∧ k.id < 0x4000) || (k.id == 0x3C40 && decide (k.inst < 160))
  let c := { c with pgm := { wq := c.pgm.wq }, regs := c.regs.filter (fun e => keep e.1) }
  c.each (upTo 32) Chip.ringMode

end Sys2Proof.Machine
end

