-- ==== Sys2Proof/Machine/Time.lean ====
section
/-! DEFINITION. Time base: parameter updates, servo, holdover, PPS, SYNC, first tick, stamp units, DLL (chapter 11,
R311 to R319, R328 to R342). -/

namespace Sys2Proof.Machine

open Reg

/-! Updates of OFS and RATE -/

/-- The TB edge at which an update requested now takes effect, as a raw instant: at least two cycles later (R17, R313). -/
def Chip.tbEdge (c : Chip) : Nat := 64 * (ceilDiv (c.raw c.now) 64 + 2 + Config.crossEdges)

/-- The set in force is kept with its switch instant; one is forgotten 1 ms after its own (R314). -/
def Chip.keepSet (c : Chip) : Chip :=
  { c with tim := { c.tim with
    old := c.tim.old.filter (fun o => decide (c.raw c.now ≤ o.xs + msTaps)) ++ [{ c.timeSet with xs := c.tbEdge }] } }

/-- Limit of RATE: 200 ppm (R312). -/
def rateMax : Int := 219902325

/-- A new RATE replaces the old one (R313). -/
def Chip.newRate (c : Chip) (r : Int) : Chip :=
  let xs := c.tbEdge
  let s := c.timeSet
  let c := c.keepSet
  let c := c.setI TIM.OFS.OFS 0 (s.ofs + (((xs : Int) - s.x0) * s.rate) / 2 ^ 40)
  ({ c with tim := { c.tim with x0 := xs } }).setI TIM.RATE.RATE 0 r

/-- OFS steps by taps (R313); PPS_OUT serves the boundary that follows the new time (R332). The estimator keeps the steps of the last
2 s, longer than any window, and those past which it has not reported yet (R392). -/
def Chip.stepOfs (c : Chip) (taps : Int) : Chip :=
  let xs := c.tbEdge
  let was := c.timeSet.time xs
  let c := c.keepSet
  let c := c.setI TIM.OFS.OFS 0 (c.timeSet.ofs + taps)
  { c with
    tim := { c.tim with ppsNext := c.timeSet.time xs / (secTaps : Int) + 1 }
    pmu := { c.pmu with steps := (c.pmu.steps.filter (fun o => decide (xs ≤ o.1 + 2 * secTaps) || (match c.pmu.lastReport with
      | some l => decide (8000 * l < o.2.2)
      | none => true))) ++ [(xs, was, was + taps)] } }

/-! TVALID and holdover -/

/-- TVALID or HOLD change; the instant at which time was last valid out of holdover is kept (R400). -/
def Chip.setValid (c : Chip) (tv hold : Bool) : Chip :=
  let was := c.on TIM.STAT.TVALID && !c.on TIM.STAT.HOLD
  let c := (c.setB TIM.STAT.TVALID 0 tv).setB TIM.STAT.HOLD 0 hold
  if was then { c with pmu := { c.pmu with goodAt := some c.now } } else c

/-- TVALID without a discipline source (R331). -/
def Chip.noSource (c : Chip) : Chip :=
  if c.get TIM.CFG.SRC = 0 then
    c.setValid (!c.on TIM.PTP.SONLY && c.tim.gm && c.on TIM.CFG.GMVAL) false
  else c

/-- A write of TIM.CFG takes effect: its source has not yet disciplined the time base, so TVALID and HOLD read 0 (R330, R331). -/
def Chip.sourceWritten (c : Chip) : Chip :=
  ({ c with tim := { c.tim with corrections := 0, goodRun := 0 } }.setValid false false).noSource

/-- Holdover begins, once the source has disciplined the time base (R330). -/
def Chip.enterHold (c : Chip) : Chip :=
  if c.tim.corrections = 0 ∨ c.on TIM.STAT.HOLD ∨ c.get TIM.CFG.SRC = 0 then c
  else
    let c := { c.setValid (c.on TIM.STAT.TVALID) true with tim := { c.tim with holdAt := c.now, goodRun := 0 } }
    ((c.flag TIM.EVT.HOLDIN).inc TIM.CNT.HOLD).raise 41

/-- One correction of the servo for an offset in taps (R328, R330, R333). -/
def Chip.servo (c : Chip) (offset : Int) : Chip :=
  let n := c.tim.corrections
  let thr := 8 * c.get TIM.SERVO.TVTHR
  let tv := c.on TIM.STAT.TVALID
  let c := { c with tim := { c.tim with corrections := n + 1 } }
  if 8 * c.get TIM.SERVO.STEPTH < offset.natAbs then
    let c := (c.stepOfs (-offset)).flag TIM.EVT.STEP
    { c.setValid false false with tim := { c.tim with goodRun := 0 } }
  else
    let r := Config.servoRate (c.getI TIM.RATE.RATE) offset (c.get TIM.SERVO.BW) n
    let c := c.newRate (Max.max (-rateMax) (Min.min rateMax r))
    let run := if offset.natAbs ≤ thr then c.tim.goodRun + 1 else 0
    let c := { c with tim := { c.tim with goodRun := run } }
    if 4 * thr < offset.natAbs then c.setValid false false
    else c.setValid (tv || decide (c.get TIM.SERVO.TVCNT ≤ run)) false

/-- HOLDOVER_TIMEOUT (R330): HOLDMAX seconds into holdover TVALID becomes 0. -/
def execHoldoverTimeout (t : Nat) (s : State) : Host.Outcome State Fault Refusal :=
  run (fun _ c =>
    let c := c.at_ t
    if c.on TIM.STAT.HOLD ∧ c.tim.holdAt + c.get TIM.CFG.HOLDMAX * secTaps ≤ c.now then c.setValid false true else c) s

/-! Stamp units -/

/-- An edge of unit u at raw instant x is lost: less than 16 ns after the last one (R339). -/
def Chip.edgeLost (c : Chip) (u x : Nat) : Bool :=
  match nget none c.tim.lastEdge u with
  | some y => decide (x < y + 128)
  | none => false

/-- Picoseconds for which an input must stay at its new level to be stamped (R339). -/
def levelMin : Nat := 4000

/-- An edge of unit u is stamped at raw instant x (R339, R340). -/
def Chip.stampEdge (c : Chip) (u x : Nat) (rise : Bool) : Chip :=
  if c.edgeLost u x then (c.inc TIM.CNT.TSIOVR).flag TIM.EVT.TSIOVR
  else
    let st := c.stamp x
    let c := { c with tim := { c.tim with lastEdge := nset none c.tim.lastEdge u (some x) } }
    let c := ((c.incMod TIM.TSV.NUM u).setB TIM.TSV.RISE u rise).set TIM.TSV.TIME u st.1
    let c := c.set TIM.TSV.TAP u st.2
    if c.on TIM.TSI.RINGEN u then
      c.ringItem { ring := c.get TIM.TSI.RING u, words := [2 ^ 28 * 3 + 2 ^ 23 * u + 2 ^ 22 * bit rise + c.get TIM.TSV.NUM u,
        st.2, st.1 % 2 ^ 32, st.1 / 2 ^ 32] }
    else c

/-- TIMESTAMP_INPUT (R339): an edge of TSIu that EDGE selects, its new level held for 4 ns. -/
def execTimestampInput (t u : Nat) (e : PinEdge) (s : State) : Host.Outcome State Fault Refusal :=
  run (fun _ c =>
    let c := c.at_ t
    if c.released 1 && decide (u < 16 ∧ levelMin ≤ e.ps) && c.bitOn TIM.TSI.EDGE u (if e.rise then 0 else 1) then
      c.stampEdge u (c.raw c.now) e.rise
    else c) s

/-! PPS -/

/-- A time reduced to its distance from the nearest whole second. -/
def nearSecond (t : Int) : Int := (t + secTaps / 2) % secTaps - secTaps / 2

/-- PPS_IN_EDGE (R333, R339): stamped when the pin stays high for 4 ns; under SRC 2 a stamped edge disciplines
the time base, or is discarded as bad. -/
def execPpsInEdge (p : Pulse) (s : State) : Host.Outcome State Fault Refusal :=
  run (fun _ c =>
    let c := c.at_ p.t
    if ¬ c.released 1 ∨ p.ps < levelMin then c
    else
      let x := c.raw c.now
      let lost := c.edgeLost 16 x
      let c := c.stampEdge 16 x true
      if c.get TIM.CFG.SRC ≠ 2 ∨ lost then c
      else
        let off := nearSecond (c.corrected x - c.get TIM.PPS.INDLY)
        if c.on TIM.STAT.TVALID ∧ 10 * usTaps < off.natAbs then c.inc TIM.CNT.PPSBAD
        else { c with tim := { c.tim with ppsInAt := some c.now } }.servo off) s

/-- PPS_IN_MISSING (R330): three consecutive expected edges are missing. -/
def execPpsInMissing (t : Nat) (s : State) : Host.Outcome State Fault Refusal :=
  run (fun _ c =>
    let c := c.at_ t
    match c.tim.ppsInAt with
    | some a => if c.get TIM.CFG.SRC = 2 ∧ a + 3 * secTaps ≤ c.now then c.enterHold else c
    | none => c) s

/-- PPS_OUT_PULSE (R332): corrected time has just reached a whole second. -/
def execPpsOutPulse (t : Nat) (s : State) : Host.Outcome State Fault Refusal :=
  run (fun _ c =>
    let c := c.at_ t
    let tc := c.corrected (c.raw c.now)
    let sec := tc / (secTaps : Int)
    if c.released 1 ∧ c.on TIM.PPS.OEN ∧ (c.on TIM.STAT.TVALID ∨ c.on TIM.PPS.FREE) ∧ ¬ c.tim.ppsHigh ∧
        tc % (secTaps : Int) < 8 ∧ c.tim.ppsNext ≤ sec then
      { c with tim := { c.tim with ppsHigh := true, ppsAt := c.now, ppsNext := sec + 1 } }
    else c) s

/-- PPS_OUT_END (R332): WIDTH ms after the rise. -/
def execPpsOutEnd (t : Nat) (s : State) : Host.Outcome State Fault Refusal :=
  run (fun _ c =>
    let c := c.at_ t
    if c.tim.ppsHigh ∧ c.tim.ppsAt + c.get TIM.PPS.WIDTH * msTaps ≤ c.now then
      { c with tim := { c.tim with ppsHigh := false } }
    else c) s

/-! Ticks -/

/-- The least k with lo ≤ a × k mod m ≤ hi, for 0 ≤ a < m and lo ≤ hi < m; none when there is none. Each second step halves m, so
`fuel` above twice the bits of m is enough. -/
def firstInRange : Nat → Nat → Nat → Nat → Nat → Option Nat
  | 0, _, _, _, _ => none
  | fuel + 1, a, m, lo, hi =>
    if lo = 0 then some 0
    else if a = 0 then none
    else if m < 2 * a then firstInRange fuel (m - a) m (m - hi) (m - lo)
    else
      let k := ceilDiv lo a
      if a * k ≤ hi then some k
      else match firstInRange fuel ((a - m % a) % a) a (lo % a) (hi % a) with
        | some y => some (ceilDiv (lo + m * y) a)
        | none => none

/-- The first reference under GRID (R337): the first cycle k from cycle n on at whose start floor(T / 64) mod PERIOD is GOFS. With
R312, floor(T / 64) there is floor((a × k + b) / 2^46); none when no cycle meets the condition. -/
def Chip.gridCycle (c : Chip) (n : Nat) : Option Nat :=
  let s := c.timeSet
  let m : Int := 2 ^ 46 * c.get DEV.TICK.PERIOD
  let a := 64 * (2 ^ 40 + s.rate)
  let b := a * n + s.ofs * 2 ^ 40 - s.x0 * s.rate
  let g : Int := 2 ^ 46 * c.get TIM.GRID.GOFS
  let lo := ((g - b) % m).toNat
  let hi := ((g + 2 ^ 46 - 1 - b) % m).toNat
  if hi < lo then some n else (firstInRange 256 (a % m).toNat m.toNat lo hi).map (fun k => n + k)

/-- The OK reply of COMMIT_CONFIG is queued now: ticks begin under TICKSRC (R335, R337). -/
def Chip.placeFirstTick (c : Chip) : Chip :=
  let n := ceilDiv (c.raw c.now + 100 * usTaps) 64
  let c := { c with tim := { c.tim with firstTick := c.dev.tick } }
  let src := c.get TIM.CFG.TICKSRC
  if src = 2 then c.set TIM.STAT.WAITSYNC 0 1
  else
    match (if src = 1 then c.gridCycle n else some n) with
    | some k => { c with dev := { c.dev with ticking := true, nextT0 := c.tim.c0 + 64 * k } }.placeCarriers
    | none => c

/-- SYNC_IN_EDGE (R335, R336, R339): an edge is stamped when the pin stays high for 4 ns; a follower's first
stamped edge places its ticks, later ones are compared with the prediction. -/
def execSyncInEdge (p : Pulse) (s : State) : Host.Outcome State Fault Refusal :=
  run (fun _ c =>
    let c := c.at_ p.t
    if ¬ c.released 1 ∨ p.ps < levelMin then c
    else
      let x := c.raw c.now
      let lost := c.edgeLost 17 x
      let c := c.stampEdge 17 x true
      let y := x - c.get TIM.SYNC.SDLY
      if lost ∨ ¬ c.inRun ∨ c.get TIM.CFG.TICKSRC ≠ 2 then c
      else if ¬ c.dev.ticking then
        let c := (c.set TIM.STAT.PHI 0 (y % 64)).set TIM.STAT.WAITSYNC 0 0
        { c with
          tim := { c.tim with phi := y % 64 }
          dev := { c.dev with ticking := true, nextT0 := c.tim.c0 + 64 * (y / 64) } }.placeCarriers
      else
        let q : Int := c.period
        let d := ((y : Int) + c.tim.c0 - c.tim.phi - c.dev.nextT0 + q / 2) % q - q / 2
        if c.get TIM.SYNC.STOL < d.natAbs then (c.flag TIM.EVT.SYNCERR).raise 43 else c) s

/-- At the tick reference t: SYNC_OUT (R334) and the phase of t against the tick grid (R315). -/
def Chip.timTick (c : Chip) (t : Nat) : Chip :=
  let p : Int := c.get DEV.TICK.PERIOD
  let d := (c.corrected (c.raw t) / 64 - c.get TIM.GRID.GOFS + p / 2) % p - p / 2
  let c := c.setSat TIM.STAT.TPHERR 0 d
  let div := c.get TIM.SYNC.SDIV
  if c.on TIM.SYNC.OEN ∧ div ≠ 0 ∧ (c.dev.tick - c.tim.firstTick) % div = 0 ∧ c.get TIM.CFG.TICKSRC ≠ 2 then
    { c with tim := { c.tim with syncOutAt := some t } }
  else c

/-- The level of SYNC_OUT: high for 64 ns (R334). -/
def Chip.syncOut (c : Chip) : Bool :=
  match c.tim.syncOutAt with
  | some x => decide (c.now < x + 512)
  | none => false

/-! Delay-locked line -/

/-- DLL_LOCK (R316, R319): the search ends in lock; after a loss the shadow chain replaces the active one. -/
def execDllLock (t : Nat) (s : State) : Host.Outcome State Fault Refusal :=
  run (fun _ c =>
    let c := c.at_ t
    if c.released 1 ∧ ¬ c.on TIM.STAT.DLLOCK then
      let chain := if c.tim.unlockAt.isSome then !c.tim.chainB else c.tim.chainB
      { c with tim := { c.tim with unlockAt := none, chainB := chain } }.set TIM.STAT.DLLOCK 0 1
    else c) s

/-- DLL_CHAIN_SWITCH (R318): the shadow chain replaces the active one at a TB edge; no tap moves. -/
def execDllChainSwitch (t : Nat) (s : State) : Host.Outcome State Fault Refusal :=
  run (fun _ c =>
    let c := c.at_ t
    if c.released 1 ∧ c.on TIM.STAT.DLLOCK then { c with tim := { c.tim with chainB := !c.tim.chainB } } else c) s

/-- DLL_UNLOCK (R319): the active chain freezes, the shadow chain searches. -/
def execDllUnlock (t : Nat) (s : State) : Host.Outcome State Fault Refusal :=
  run (fun _ c =>
    let c := c.at_ t
    if c.released 1 ∧ c.on TIM.STAT.DLLOCK then
      (({ c with tim := { c.tim with unlockAt := some c.now } }.set TIM.STAT.DLLOCK 0 0).flag TIM.EVT.DLLUL).raise 40
    else c) s

/-! Reference clocks -/

/-- Monitor state of REFCLKA or REFCLKB: 0 GOOD, 1 LOSS, 2 DRIFT, 3 not yet judged (R320). -/
def Chip.clk (c : Chip) (b : Bool) : Nat := c.get (if b then TIM.STAT.CLKB else TIM.STAT.CLKA)

/-- A monitor state changes. -/
def Chip.setClk (c : Chip) (b : Bool) (v : Nat) : Chip :=
  { c.set (if b then TIM.STAT.CLKB else TIM.STAT.CLKA) 0 v with
    tim := { c.tim with
      goodAt := nset none c.tim.goodAt (bit b) (if v = 0 then some c.now else none)
      badAt := if v = 0 then c.tim.badAt else nset 0 c.tim.badAt (bit b) c.now } }

/-- The selected input is REFCLKB. -/
def Chip.selB (c : Chip) : Bool := c.on TIM.STAT.SEL

/-- The device switches to the other input (R321). -/
def Chip.switchClk (c : Chip) : Chip :=
  (((c.setB TIM.STAT.SEL 0 (!c.selB)).flag TIM.EVT.CLKSW).inc TIM.CNT.CLKSW).raise 7

/-- An input that is not selected is not GOOD: REFCLK_FAIL once per episode (R322). -/
def Chip.clkFail (c : Chip) (b : Bool) : Chip :=
  if nget 0 c.tim.failRaised (bit b) = 1 then c
  else { c with tim := { c.tim with failRaised := nset 0 c.tim.failRaised (bit b) 1 } }.raise 6

/-- A write of TIM.CLK takes effect: with both inputs GOOD the device switches to PREF (R321). -/
def Chip.prefWritten (c : Chip) : Chip :=
  if c.released 1 && c.clk false == 0 && c.clk true == 0 && c.selB != c.on TIM.CLK.PREF then c.switchClk else c

/-- REFCLK_GOOD (R320): an input that is not GOOD has been free of LOSS and DRIFT for 100 ms. -/
def execRefclkGood (t : Nat) (b : Bool) (s : State) : Host.Outcome State Fault Refusal :=
  run (fun _ c =>
    let c := c.at_ t
    if c.clk b ≠ 0 ∧ nget 0 c.tim.badAt (bit b) + 100 * msTaps ≤ c.now then
      let c := c.setClk b 0
      { c with tim := { c.tim with failRaised := nset 0 c.tim.failRaised (bit b) 0 } }
    else c) s

/-- REFCLK_REVERT (R321): REVERT 1 and the preferred input GOOD for 10 s. -/
def execRefclkRevert (t : Nat) (s : State) : Host.Outcome State Fault Refusal :=
  run (fun _ c =>
    let c := c.at_ t
    let p := c.on TIM.CLK.PREF
    match nget none c.tim.goodAt (bit p) with
    | some x =>
      if c.released 1 ∧ c.on TIM.CLK.REVERT ∧ c.selB ≠ p ∧ c.clk p = 0 ∧ x + 10 * secTaps ≤ c.now then c.switchClk else c
    | none => c) s

/-- REFCLK_PREF_WRITE (R321): the host writes PREF. -/
def execRefclkPrefWrite (t : Nat) (b : Bool) (s : State) : Host.Outcome State Fault Refusal :=
  run (fun _ c =>
    let c := c.at_ t
    if c.fabric then (c.setB TIM.CLK.PREF 0 b).prefWritten else c) s

end Sys2Proof.Machine
end

