-- ==== Sys2Proof/Machine/Ptp.lean ====
section
/-! DEFINITION. PTP ports: messages received and sent, master choice, timeouts (chapter 11, R323 to R327). -/

namespace Sys2Proof.Machine

open Reg

/-- PTP port i. -/
def Chip.ptp (c : Chip) (i : Nat) : PtpPort := nget {} c.tim.ports i

/-- PTP port i takes a new record. -/
def Chip.setPtp (c : Chip) (i : Nat) (v : PtpPort) : Chip := { c with tim := { c.tim with ports := nset {} c.tim.ports i v } }

/-- Codes of TIM.PSTAT.PSTATE. -/
def psDisabled : Nat := 0
def psListening : Nat := 1
def psUncalibrated : Nat := 2
def psSlave : Nat := 3
def psPassive : Nat := 4
def psMaster : Nat := 5

/-- Port i takes part in PTP: enabled, TB and its Ethernet domain released. -/
def Chip.ptpOn (c : Chip) (i : Nat) : Bool := decide (i < 2) && c.on TIM.PORT.PEN i && c.released 1 && c.released (5 + i)

/-- A write of PEN or a release takes effect: an enabled port listens, another is disabled. -/
def Chip.ptpRefresh (c : Chip) : Chip :=
  c.each (upTo 2) (fun c i =>
    if c.ptpOn i then (if c.get TIM.PSTAT.PSTATE i = psDisabled then c.set TIM.PSTAT.PSTATE i psListening else c)
    else (c.setPtp i {}).set TIM.PSTAT.PSTATE i psDisabled)

/-- The device's own data set for the BMCA (R323): a default clock of priority PRIO1, PRIO2 and clockClass CLASS. -/
def Chip.ownData (c : Chip) : List Nat :=
  [c.get TIM.PTP.PRIO1, c.get TIM.PTP.CLASS, 0xFE, 0xFFFF, c.get TIM.PTP.PRIO2, c.get NET.MAC.ADDR, 0]

/-- TIM.PARENT shows a master's data (R323). A leap second that it announced has occurred when its UTC offset moves by that second
(R391; DEDUCED, log entry 76). -/
def Chip.setParent (c : Chip) (d : List Nat) : Chip :=
  let g := fun i => d.getD i 0
  let was := c.get TIM.PARENT.UTCOFS
  let leap := (c.on TIM.PARENT.LEAP61 && (was + 1) % 65536 == g 7 % 65536) || (c.on TIM.PARENT.LEAP59 && was == (g 7 + 1) % 65536)
  let c := (((c.set TIM.PARENT.GMPRIO1 0 (g 0)).set TIM.PARENT.GMCLASS 0 (g 1)).set TIM.PARENT.GMACC 0 (g 2)).set TIM.PARENT.GMID 0 (g 5)
  let c := ((c.set TIM.PARENT.STEPS 0 (g 6)).set TIM.PARENT.UTCOFS 0 (g 7)).set TIM.PARENT.LEAP59 0 (g 8)
  let c := (c.set TIM.PARENT.LEAP61 0 (g 9)).set TIM.PARENT.TRACE 0 (g 10)
  if leap then { c with pmu := { c.pmu with leapAt := some c.now } } else c

/-- The servo follows port i (R327). -/
def Chip.followPtp (c : Chip) (i : Option Nat) : Chip :=
  let c := { c with tim := { c.tim with servoPort := i } }
  let c := c.each (upTo 2) (fun c j =>
    if (c.ptp j).parent.isNone then c
    else
      let st := if some j = i then (if (c.ptp j).valid then psSlave else psUncalibrated)
        else (if (c.ptp j).valid then psPassive else psUncalibrated)
      c.set TIM.PSTAT.PSTATE j st)
  match i with
  | some j =>
    match (c.ptp j).parent with
    | some (_, d) => c.setParent d
    | none => c
  | none => c

/-- The device is grandmaster or not (R331). -/
def Chip.setGm (c : Chip) (b : Bool) : Chip := { c with tim := { c.tim with gm := b } }.noSource

/-- Choice of the port that the servo follows: the one whose master is better; the present one when neither is; a port whose Sync
messages have failed only when the other's have too (R327). -/
def Chip.chooseSlave (c : Chip) : Chip :=
  match (c.ptp 0).parent, (c.ptp 1).parent with
  | none, none => c.followPtp none
  | some _, none => c.followPtp (some 0)
  | none, some _ => c.followPtp (some 1)
  | some a, some b =>
    if (c.ptp 0).failed != (c.ptp 1).failed then c.followPtp (some (if (c.ptp 0).failed then 1 else 0))
    else
      match c.tim.servoPort with
      | some 0 => c.followPtp (some (if Config.bmcaBetter b.2 a.2 then 1 else 0))
      | some _ => c.followPtp (some (if Config.bmcaBetter a.2 b.2 then 0 else 1))
      | none => c.followPtp (some (if Config.bmcaBetter b.2 a.2 then 1 else 0))

/-- A port that was master listens again (R323): the device follows a master, or is slave-only. -/
def Chip.noMaster (c : Chip) : Chip :=
  (c.each ((upTo 2).filter (fun i => c.get TIM.PSTAT.PSTATE i == psMaster)) (fun c i =>
    (c.setPtp i { c.ptp i with annAt := c.now }).set TIM.PSTAT.PSTATE i psListening)).setGm false

/-- A write of TIM.PTP takes effect: a slave-only device is no master (R323, R331). -/
def Chip.rolesWritten (c : Chip) : Chip := if c.on TIM.PTP.SONLY then c.noMaster else c.noSource

/-- A message is ignored and counted (R323). -/
def Chip.pdrop (c : Chip) : Chip := c.inc TIM.CNT.PDROP

/-- An Announce at port i (R323, R327). -/
def Chip.announce (c : Chip) (i : Nat) (m : PtpMsg) : Chip :=
  if m.logInt < -4 ∨ 1 < m.logInt then c.pdrop
  else
    let p := c.ptp i
    let better := match p.parent with
      | none => c.on TIM.PTP.SONLY || Config.bmcaBetter m.ann c.ownData
      | some (src, d) => decide (src = m.src) || Config.bmcaBetter m.ann d
    if !better then c
    else
      let same := match p.parent with
        | some (src, _) => decide (src = m.src)
        | none => false
      let p := { p with parent := some (m.src, m.ann), annAt := c.now, annLog := m.logInt }
      let p := if same then p else { p with valid := false, failed := false, syncAt := c.now, sync := none }
      ((c.setPtp i p).noMaster).chooseSlave

/-- The servo has no usable input at the port that it follows. -/
def Chip.servoIdle (c : Chip) : Bool :=
  match c.tim.servoPort with
  | some j => (c.ptp j).failed
  | none => true

/-- The offset from master of port i is known, in taps (R327, R328); the servo takes this port when the one it follows has failed
(R330). -/
def Chip.ptpOffset (c : Chip) (i : Nat) (off : Int) : Chip :=
  let p := c.ptp i
  let c := c.setSat TIM.PSTAT.OFFSET i off
  let c := c.setPtp i { p with valid := true, failed := false, offset := off, sync := none }
  let c := if c.servoIdle then c.followPtp (some i) else c
  let mine := c.tim.servoPort == some i
  let c := c.set TIM.PSTAT.PSTATE i (if mine then psSlave else psPassive)
  if mine && c.get TIM.CFG.SRC == 1 then c.servo off else c

/-- A correctionField in taps. -/
def corrTaps (k : Int) : Int := k * 8 / 65536

/-- Offset of a Sync: stamp, less the master's time, corrections, path delay and asymmetry (R324, R328). -/
def Chip.syncOffset (c : Chip) (i : Nat) (rx origin corr : Int) : Int :=
  rx - 8 * origin - corrTaps corr - c.get TIM.PSTAT.MPD i - c.getI TIM.PORT.ASYM i

/-- The message comes from the port's master. -/
def PtpPort.from_ (p : PtpPort) (m : PtpMsg) : Bool :=
  match p.parent with
  | some (src, _) => src == m.src
  | none => false

/-- Mean path delay of a completed exchange, in taps. -/
def Chip.setMpd (c : Chip) (i : Nat) (twice : Int) : Chip := c.set TIM.PSTAT.MPD i (Min.min (Max.max 0 (twice / 2)) (2 ^ 24 - 1)).toNat

/-- A PTP message at port i (R323 to R328); an event message is stamped at raw instant x, less RXLAT. -/
def Chip.ptpReceive (c : Chip) (i x : Nat) (m : PtpMsg) : Chip :=
  let rx := c.corrected x - c.get TIM.PORT.RXLAT i
  let p := c.ptp i
  if m.domain ≠ c.get TIM.PTP.DOMAIN then c.pdrop
  else
    match m.kind with
    | .announce => c.announce i m
    | .sync =>
      if m.logInt < -4 ∨ 1 < m.logInt then c.pdrop
      else if !p.from_ m then c
      else
        let c := c.setPtp i { p with syncAt := c.now, syncLog := m.logInt, sync := some ⟨m.seq, rx, m.corr, m.ts⟩ }
        if m.twoStep then c else c.ptpOffset i (c.syncOffset i rx m.ts m.corr)
    | .followUp =>
      match p.sync with
      | some y => if p.from_ m ∧ y.seq = m.seq then c.ptpOffset i (c.syncOffset i y.at_ m.ts (y.corr + m.corr)) else c
      | none => c
    | .pdelayReq => c.setPtp i { p with answer := some ⟨m.seq, rx, m.corr, m.src⟩ }
    | .pdelayResp =>
      match p.req with
      | some (q, t1) =>
        if ¬ (m.toMe ∧ m.seq = q) then c
        else if m.twoStep then c.setPtp i { p with resp := some ⟨m.seq, rx, m.corr, m.ts⟩ }
        else (c.setPtp i { p with req := none }).setMpd i (rx - t1 - corrTaps m.corr)
      | none => c
    | .pdelayRespFollowUp =>
      match p.req, p.resp with
      | some (q, t1), some r =>
        if m.toMe ∧ m.seq = q ∧ r.seq = q then
          (c.setPtp i { p with req := none, resp := none }).setMpd i (r.at_ - t1 - 8 * (m.ts - r.origin) - corrTaps (r.corr + m.corr))
        else c
      | _, _ => c
    | .other => c.pdrop

/-- A frame is received at port i (R435, R446). -/
def Chip.rxValid (c : Chip) (i : Nat) : Chip :=
  { c.set NET.PSTAT.SILENT i 0 with net := { c.net with rxAt := nset 0 c.net.rxAt i c.now } }

/-- PTP_MESSAGE (R323): a message arrives at port i, its first bit after the delimiter at instant t; a port whose link is down
accepts none (R438). -/
def execPtpMessage (t i : Nat) (m : PtpMsg) (s : State) : Host.Outcome State Fault Refusal :=
  run (fun _ c =>
    let c := c.at_ t
    if !c.ptpOn i then c
    else if !c.on NET.PSTAT.LINK i then c.inc NET.PCNT.RXCRC i
    else (((c.rxValid i).inc NET.PCNT.RXOK i).ptpRefresh).ptpReceive i (c.raw c.now) m) s

/-! Transmission -/

/-- Number of a kind, for its sequence numbers. -/
def kindNo : PtpKind → Nat
  | .announce => 0
  | .sync => 1
  | .followUp => 2
  | .pdelayReq => 3
  | .pdelayResp => 4
  | .pdelayRespFollowUp => 5
  | .other => 6

/-- The next sequence number of a kind. -/
def PtpPort.next (p : PtpPort) (k : PtpKind) : Nat := nget 0 p.txSeq (kindNo k)

/-- Octets of a message of a kind without TLVs (PRESUMED: IEEE 1588-2019; log entry 102). -/
def ptpOctets : PtpKind → Nat
  | .announce => 64
  | .sync | .followUp => 44
  | _ => 54

/-- The kind travels to the address of the peer-delay messages (R323). -/
def peerKind : PtpKind → Bool
  | .pdelayReq | .pdelayResp | .pdelayRespFollowUp => true
  | _ => false

/-- An event message (R324). -/
def eventKind : PtpKind → Bool
  | .sync | .pdelayReq | .pdelayResp => true
  | _ => false

/-- Taps of one octet at the port's speed (R436). -/
def Chip.octetTaps (c : Chip) (i : Nat) : Nat :=
  match c.get NET.PORT.SPEED i with
  | 0 => 6400
  | 1 => 640
  | _ => 64

/-- The data set of an Announce: the device's own, with the time properties of TIM.PARENT (R323). -/
def Chip.announced (c : Chip) : List Nat :=
  c.ownData ++ [c.get TIM.PARENT.UTCOFS, c.get TIM.PARENT.LEAP59, c.get TIM.PARENT.LEAP61, c.get TIM.PARENT.TRACE]

/-- A message leaves port i in its frame (R323); with RCT, and the ports in PRP mode, it carries a trailer numbered from the node's
PRP counter (R326, R442, R443). It holds the port until its last octet and the gap have passed (R441). -/
def Chip.ptpSent (c : Chip) (i : Nat) (x : PtpSent) (own : Bool) : Chip :=
  let rct := c.on TIM.PTP.RCT && c.on NET.CFG.MODE
  let tag := c.on TIM.PTP.VTAG
  let n := ptpOctets x.kind
  let x := { x with
    dst := if peerKind x.kind then 0x0180C200000E else 0x011B19000000
    domain := c.get TIM.PTP.DOMAIN
    vlan := if tag then some (c.get TIM.PTP.PCP, c.get TIM.PTP.VID) else none
    ann := if x.kind = .announce then c.announced else []
    rct := if rct then some { seq := c.net.prpSeq, lan := if i = 0 then 0xA else 0xB, size := n + 6 } else none }
  let len := Nat.max 60 (n + (if tag then 18 else 14) + (if rct then 6 else 0))
  let c := { c with net := { c.net with
    prpSeq := if rct then (c.net.prpSeq + 1) % 65536 else c.net.prpSeq
    busy := nset 0 c.net.busy i (c.now + (len + 24) * c.octetTaps i) } }
  let p := c.ptp i
  let p := { p with sent := some x }
  let c := c.setPtp i (if own then { p with txSeq := nset 0 p.txSeq (kindNo x.kind) ((x.seq + 1) % 65536) } else p)
  c.inc NET.PCNT.TXOK i

/-- The port sends a message of a kind; an event message leaves at the present instant, plus TXLAT (R324, R325). -/
def Chip.ptpSend (c : Chip) (i : Nat) (k : PtpKind) : Chip :=
  let tx := c.corrected (c.raw c.now) + c.get TIM.PORT.TXLAT i
  let p := c.ptp i
  let two := c.on TIM.PTP.TWOSTEP
  let master := c.get TIM.PSTAT.PSTATE i == psMaster
  match k with
  | .announce => if master then c.ptpSent i { kind := .announce, seq := p.next k, ts := 0, corr := 0 } true else c
  | .sync =>
    if !master then c
    else
      let full : PtpSent := { kind := .followUp, seq := p.next k, ts := tx / 8, corr := tx % 8 * 8192 }
      if two then
        (c.setPtp i { p with fup := some full }).ptpSent i { kind := .sync, seq := p.next k, ts := 0, corr := 0, twoStep := true } true
      else c.ptpSent i { full with kind := .sync } true
  | .followUp =>
    match p.fup with
    | some f => (c.setPtp i { p with fup := none }).ptpSent i f false
    | none => c
  | .pdelayReq =>
    (c.setPtp i { p with req := some (p.next k, tx), resp := none }).ptpSent i
      { kind := .pdelayReq, seq := p.next k, ts := 0, corr := 0 } true
  | .pdelayResp =>
    match p.answer with
    | some a =>
      let res := a.corr + (tx - a.at_) * 8192
      let full : PtpSent := { kind := .pdelayRespFollowUp, seq := a.seq, ts := 0, corr := res }
      let c := c.setPtp i { p with answer := none, pfup := if two then some full else p.pfup }
      c.ptpSent i { kind := .pdelayResp, seq := a.seq, ts := 0, corr := if two then 0 else res, twoStep := two } false
    | none => c
  | .pdelayRespFollowUp =>
    match p.pfup with
    | some f => (c.setPtp i { p with pfup := none }).ptpSent i f false
    | none => c
  | .other => c

/-- The port may start a message of a kind: free, and no safety frame waits before a message that is no event (R441). -/
def Chip.ptpMaySend (c : Chip) (i : Nat) (k : PtpKind) : Bool :=
  decide (nget 0 c.net.busy i ≤ c.now) && (eventKind k || (nget [] c.net.queue i).all (fun f => f.prio != 1))

/-- PTP_TRANSMIT (R325): port i sends a message of a kind at instant t; one for a port whose link is down is discarded (R438). -/
def execPtpTransmit (t i : Nat) (k : PtpKind) (s : State) : Host.Outcome State Fault Refusal :=
  run (fun _ c =>
    let c := c.at_ t
    if !(c.ptpOn i && c.ptpMaySend i k) then c
    else if !c.on NET.PSTAT.LINK i then c.inc NET.PCNT.TXDROP i
    else c.ptpRefresh.ptpSend i k) s

/-! Timeouts -/

/-- The master of port i has failed (R327, R330, R331). -/
def Chip.masterLost (c : Chip) (i : Nat) (announce : Bool) : Chip :=
  let p := c.ptp i
  let c := c.setPtp i { p with
    parent := if announce then none else p.parent, valid := false, failed := !announce, sync := none, annAt := c.now
    syncAt := c.now }
  let c := c.set TIM.PSTAT.PSTATE i (if announce then psListening else psUncalibrated)
  let c :=
    if c.tim.servoPort ≠ some i then c
    else
      let j := 1 - i
      if c.ptpOn j && (c.ptp j).valid then (c.followPtp (some j)).raise 42
      else
        let c := if announce then { c with tim := { c.tim with servoPort := none } } else c
        if c.get TIM.CFG.SRC = 1 then c.enterHold else c
  if announce && !c.on TIM.PTP.SONLY && (c.ptp 0).parent.isNone && (c.ptp 1).parent.isNone then
    (c.each ((upTo 2).filter c.ptpOn) (fun c j => c.set TIM.PSTAT.PSTATE j psMaster)).setGm true
  else c

/-- 2^l seconds, in taps. -/
def logTaps (l : Int) : Nat := if 0 ≤ l then secTaps * 2 ^ l.toNat else secTaps / 2 ^ (-l).toNat

/-- PTP_ANNOUNCE_TIMEOUT (R327): port i has missed three announce intervals. -/
def execPtpAnnounceTimeout (t i : Nat) (s : State) : Host.Outcome State Fault Refusal :=
  run (fun _ c =>
    let c := c.at_ t
    let p := c.ptp i
    let waits := p.parent.isSome || (c.get TIM.PSTAT.PSTATE i == psListening && !c.on TIM.PTP.SONLY)
    if c.ptpOn i && waits && decide (p.annAt + 3 * logTaps p.annLog ≤ c.now) then c.masterLost i true else c) s

/-- PTP_SYNC_TIMEOUT (R327): port i has missed three Sync intervals. -/
def execPtpSyncTimeout (t i : Nat) (s : State) : Host.Outcome State Fault Refusal :=
  run (fun _ c =>
    let c := c.at_ t
    let p := c.ptp i
    if c.ptpOn i && p.parent.isSome && p.valid && decide (p.syncAt + 3 * logTaps p.syncLog ≤ c.now) then c.masterLost i false
    else c) s

/-- A reset of the TIM block or of level L2 (R342): configuration, counters, C, OFS, X0 and RATE are kept; DLL, ports and servo
restart; the clock monitor's states are live. -/
def Chip.resetTim (c : Chip) : Chip :=
  let drop := fun (k : Key) => (k.id == 0x1410 && k.lo != 6 && k.lo != 4) || k.id == 0x1413 || k.id == 0x1414 || k.id == 0x1415 ||
    k.id == 0x1416
  let t := c.tim
  let c := c.setValid false false
  { c with
    regs := c.regs.filter (fun e => !drop e.1)
    tim := { run := t.run, c0 := t.c0, x0 := t.x0, old := t.old, phi := t.phi, goodAt := t.goodAt, badAt := t.badAt
             failRaised := t.failRaised
             ppsHigh := false, ppsNext := t.ppsNext, firstTick := t.firstTick } }

end Sys2Proof.Machine
end

