-- ==== Sys2Proof/Machine/Ether.lean ====
section
/-! DEFINITION. Ethernet ports: frames received and sent, duplicate discard, safety pairs, PHY management (chapter 16,
R435 to R450; safety frames R465). -/

namespace Sys2Proof.Machine

open Reg

/-- Port i is enabled and its domain released. -/
def Chip.ethOn (c : Chip) (i : Nat) : Bool := decide (i < 2) && c.on NET.PORT.EN i && c.fabric && c.released (5 + i)

/-- PRP mode (R442). -/
def Chip.prp (c : Chip) : Bool := c.on NET.CFG.MODE

/-- A number as n octets, most significant first. -/
def octets (n v : Nat) : List Nat := (List.range n).map (fun i => v / 256 ^ (n - 1 - i) % 256)

/-- Octets [lo, lo + n) of a frame as a number. -/
def octField (l : List Nat) (lo n : Nat) : Nat := ofBytes ((l.drop lo).take n)

/-! Transmission -/

/-- One's complement checksum of IPv4 and UDP (R440). -/
def inetSum (l : List Nat) : Nat :=
  let rec words : List Nat → Nat
    | a :: b :: r => a * 256 + b + words r
    | [a] => a * 256
    | [] => 0
  let s := words l
  let f := fun (x : Nat) => x % 65536 + x / 65536
  65535 - f (f (f s))

/-- A frame enters port i's queue; a port whose link is down discards it (R438). -/
def Chip.enqueueAt (c : Chip) (i : Nat) (f : TxFrame) : Chip :=
  if ¬ c.ethOn i then c
  else if ¬ c.on NET.PSTAT.LINK i then c.inc NET.PCNT.TXDROP i
  else { c with net := { c.net with queue := nset [] c.net.queue i (nget [] c.net.queue i ++ [f]) } }

/-- A frame is sent: on both LANs under one SeqNr in PRP mode, on ETHA otherwise (R442, R443). -/
def Chip.enqueue (c : Chip) (f : TxFrame) : Chip :=
  if c.prp then
    let f := { f with seq := some c.net.prpSeq }
    let c := { c with net := { c.net with prpSeq := (c.net.prpSeq + 1) % 65536 } }
    (c.enqueueAt 0 f).enqueueAt 1 f
  else c.enqueueAt 0 f

/-- An untagged frame: destination, Ethertype, payload. -/
def Chip.plainFrame (c : Chip) (prio dst etype : Nat) (payload : List Nat) : TxFrame :=
  { prio := prio, octets := octets 6 dst ++ octets 6 (c.get NET.MAC.ADDR) ++ octets 2 etype ++ payload, head := 14, seq := none }

/-- A UDP frame (R440): IHL 5, DF, TTL and DSCP of NET.IP, both checksums, a tag with VTAG. -/
def Chip.udpFrame (c : Chip) (f : UdpFrame) : TxFrame :=
  let src := c.get NET.IP.IPA
  let lp := c.get PMU.NET.LPORT
  let ulen := 8 + f.octets.length
  let pseudo := octets 4 src ++ octets 4 f.ip ++ [0, 17] ++ octets 2 ulen
  let u0 := octets 2 lp ++ octets 2 f.port ++ octets 2 ulen
  let us := inetSum (pseudo ++ u0 ++ [0, 0] ++ f.octets)
  let udp := u0 ++ octets 2 (if us = 0 then 65535 else us) ++ f.octets
  let h0 := [0x45, c.get NET.IP.DSCP * 4] ++ octets 2 (20 + ulen) ++ [0, 0, 0x40, 0, c.get NET.IP.TTL, 17]
  let adr := octets 4 src ++ octets 4 f.ip
  let ip := h0 ++ octets 2 (inetSum (h0 ++ [0, 0] ++ adr)) ++ adr
  let mac := octets 6 f.mac ++ octets 6 (c.get NET.MAC.ADDR)
  let tag := c.on NET.IP.VTAG
  let l2 := if tag then mac ++ [0x81, 0] ++ octets 2 (c.get NET.IP.PCP * 8192 + c.get NET.IP.VID) else mac
  { prio := 3, octets := l2 ++ [0x08, 0] ++ ip ++ udp, head := if tag then 16 else 14, seq := none }

/-- Frames that the synchrophasor ring holds for the internal consumer are queued (R403). -/
def Chip.netCollect (c : Chip) : Chip :=
  let l := c.pgm.frames
  ({ c with pgm := { c.pgm with frames := [] } }).each l (fun c f => c.enqueue (c.udpFrame f))

/-- The octets of a frame on port i before the FCS: padded, with its trailer (R443). -/
def txOctets (f : TxFrame) (i : Nat) : List Nat :=
  let trailer := if f.seq.isSome then 6 else 0
  let pad := 60 - (f.octets.length + trailer)
  let body := f.octets ++ List.replicate pad 0
  match f.seq with
  | none => body
  | some q => body ++ octets 2 q ++ octets 2 ((if i = 0 then 0xA else 0xB) * 4096 + (body.length - f.head + 6)) ++ [0x88, 0xFB]

/-- Pages of the synchrophasor ring whose frames are all sent return to the free list (R306, R403). -/
def Chip.netRelease (c : Chip) : Chip :=
  let r := c.get PMU.CFG.RING
  let left := (upTo 2).any (fun i => (nget [] c.net.queue i).any (fun f => f.prio == 3)) || !c.pgm.frames.isEmpty
  if left ∨ ¬ c.on PMU.NET.UEN ∨ c.rstate r ≠ rsQueue then c
  else c.each ((c.ring r).pages.filter (fun p => c.pd PGM.PDSC.PST p == pstClosed)) (fun c _ => c.release r)

/-- ETH_FRAME_TX (R441): port i, free, sends its queued frame of highest priority. -/
def execEthFrameTx (t i : Nat) (s : State) : Host.Outcome State Fault Refusal :=
  run (fun _ c =>
    let c := (c.at_ t).netCollect.netRelease
    if ¬ c.ethOn i ∨ c.now < nget 0 c.net.busy i then c
    else
      let q := nget [] c.net.queue i
      match [1, 3, 4].findSome? (fun p => q.find? (fun f => f.prio == p)) with
      | none => c
      | some f =>
        let o := txOctets f i
        let net := { c.net with
          queue := nset [] c.net.queue i (q.erase f), last := nset [] c.net.last i o
          busy := nset 0 c.net.busy i (c.now + (o.length + 24) * c.octetTaps i) }
        ({ c with net := net }.inc NET.PCNT.TXOK i).netRelease) s

/-- PRP_SUPERVISION_TX (R442): every LIFE seconds on both LANs. -/
def execPrpSupervisionTx (t : Nat) (s : State) : Host.Outcome State Fault Refusal :=
  run (fun _ c =>
    let c := c.at_ t
    if c.prp ∧ c.fabric ∧ c.net.supAt + c.get NET.CFG.LIFE * secTaps ≤ c.now then
      let body := [0, 1] ++ octets 2 c.net.supSeq ++ [20, 6] ++ octets 6 (c.get NET.MAC.ADDR) ++ [0, 0]
      let f := c.plainFrame 4 0x01154E000100 0x88FB body
      { c with net := { c.net with supAt := c.now, supSeq := (c.net.supSeq + 1) % 65536 } }.enqueue f
    else c) s

/-- SAFETY_FRAME_TX (R465, R448): in RUN with TXEN, every FPER ms and on a change of bytes 4 to 7. -/
def execSafetyFrameTx (t : Nat) (s : State) : Host.Outcome State Fault Refusal :=
  run (fun _ c =>
    let c := c.at_ t
    let due := match c.sio.sentAt with
      | none => true
      | some x => decide (x + c.get SIO.FCFG.FPER * msTaps ≤ c.now)
    let st := c.safetyStatus
    if c.inRun && c.on SIO.FCFG.TXEN && (due || st != c.sio.sent) then
      let p := c.safetyPayload
      let f := c.plainFrame 1 (c.get NET.SAFE.SMC) (c.get NET.SAFE.ETYPE) p
      { c with sio := { c.sio with fcnt := (c.sio.fcnt + 1) % 65536, sentAt := some c.now, sent := st } }.enqueue f
    else c) s

/-! Reception -/

/-- A received frame taken apart: addresses, Ethertype, payload without trailer, trailer's SeqNr and LanId. -/
structure RxFrame where
  dst : Nat
  src : Nat
  etype : Nat
  payload : List Nat
  trailer : Option (Nat × Nat)

/-- Fields of a frame without its FCS (R435, R444). -/
def parseFrame (f : List Nat) : RxFrame :=
  let tagged := octField f 12 2 == 0x8100
  let e := if tagged then 16 else 12
  let lsdu := if tagged then 16 else 14
  let n := f.length
  let tail := f.drop (n - 6)
  let size := octField tail 2 2 % 4096
  let has := octField tail 4 2 == 0x88FB && size + lsdu == n && decide (6 ≤ size)
  { dst := octField f 0 6, src := octField f 6 6, etype := octField f e 2
    payload := (f.take (if has then n - 6 else n)).drop (e + 2)
    trailer := if has then some (octField tail 0 2, octField tail 2 2 / 4096) else none }

/-- Kinds of frame a port accepts (R439): 1 ARP request for this node, 2 UDP for the command parser, 3 PTP, 4 supervision, 5 safety;
0 anything else. -/
def Chip.rxKind (c : Chip) (f : RxFrame) : Nat :=
  let me := f.dst == c.get NET.MAC.ADDR
  let p := f.payload
  if (me || f.dst == 0xFFFFFFFFFFFF) && f.etype == 0x0806 && octField p 0 8 == 0x0001080006040001 && octField p 24 4 == c.get NET.IP.IPA then 1
  else if me && f.etype == 0x0800 && octField p 0 1 == 0x45 && octField p 6 2 % 0x4000 == 0 && octField p 9 1 == 17 &&
      octField p 22 2 == c.get PMU.NET.LPORT then 2
  else if (f.dst == 0x011B19000000 || f.dst == 0x0180C200000E) && f.etype == 0x88F7 then 3
  else if f.dst == 0x01154E000100 && f.etype == 0x88FB then 4
  else if (me || (c.on NET.SAFE.SMC && f.dst == c.get NET.SAFE.SMC)) && f.etype == c.get NET.SAFE.ETYPE then 5
  else 0

/-- The answer to an ARP request (R439). -/
def Chip.arpReply (c : Chip) (i : Nat) (f : RxFrame) : Chip :=
  let p := f.payload
  let body := [0, 1, 8, 0, 6, 4, 0, 2] ++ octets 6 (c.get NET.MAC.ADDR) ++ octets 4 (c.get NET.IP.IPA) ++ (p.drop 8).take 10
  let x := c.plainFrame 4 (octField p 8 6) 0x0806 body
  if c.prp then c.enqueue x else c.enqueueAt i x

/-- A UDP datagram to LPORT: a command frame whose IDCODE and CHK match waits for its handling (R390, R403). -/
def Chip.pmuCommand (c : Chip) (f : RxFrame) : Chip :=
  let p := f.payload
  let u := (p.drop 28).take (octField p 24 2 - 8)
  let n := octField u 2 2
  if c.on PMU.NET.UEN && octField u 0 1 == 0xAA && octField u 1 1 / 16 == 4 && decide (18 ≤ n ∧ n ≤ u.length) &&
      octField u 4 2 == c.get PMU.NET.IDCODE && octField u (n - 2) 2 == crc16 (u.take (n - 2)) then
    let x : PmuCmd := ⟨octField u 14 2, f.src, octField p 12 4, octField p 20 2⟩
    { c with pmu := { c.pmu with cmds := c.pmu.cmds ++ [x] } }
  else c

/-- The kind of PTP message that a header's messageType names (R323; PRESUMED: IEEE 1588-2019, log entry 102). -/
def ptpKindOf : Nat → PtpKind
  | 0 => .sync
  | 2 => .pdelayReq
  | 3 => .pdelayResp
  | 8 => .followUp
  | 0xA => .pdelayRespFollowUp
  | 0xB => .announce
  | _ => .other

/-- The device's port identity: its MAC address as EUI-64, and the port number (PRESUMED, log entry 102). -/
def Chip.portIdentity (c : Chip) (i : Nat) : Nat :=
  let m := c.get NET.MAC.ADDR
  (m / 2 ^ 24 * 2 ^ 40 + 0xFFFE * 2 ^ 24 + m % 2 ^ 24) * 2 ^ 16 + i + 1

/-- The PTP message of a frame's payload (PRESUMED: layout of IEEE 1588-2019, log entry 102); one that is too short or of another
version is of no supported kind. -/
def Chip.ptpParse (c : Chip) (i : Nat) (p : List Nat) : PtpMsg :=
  let k := ptpKindOf (octField p 0 1 % 16)
  let k := if octField p 1 1 % 16 = 2 ∧ (if k = .other then 34 else ptpOctets k) ≤ p.length then k else .other
  let f := octField p 7 1
  { kind := k, domain := octField p 4 1, seq := octField p 30 2, src := octField p 20 10
    corr := toSigned 64 (octField p 8 8), ts := octField p 34 6 * 10 ^ 9 + octField p 40 4
    twoStep := (octField p 6 1).testBit 1, logInt := toSigned 8 (octField p 33 1)
    toMe := octField p 44 10 == c.portIdentity i
    ann := [octField p 47 1, octField p 48 1, octField p 49 1, octField p 50 2, octField p 52 1, octField p 53 8, octField p 61 2,
      octField p 44 2, f / 2 % 2, f % 2, f / 16 % 2] }

/-- A PTP frame of n octets without its FCS is passed to its own port (R326, R439); its first bit after the delimiter came that much
earlier. -/
def Chip.ptpFrame (c : Chip) (i n : Nat) (p : List Nat) : Chip :=
  if c.ptpOn i then c.ptpRefresh.ptpReceive i (c.raw c.now - (n + 4) * c.octetTaps i) (c.ptpParse i p) else c

/-- A frame reaches its consumer. -/
def Chip.deliver (c : Chip) (i kind : Nat) (f : RxFrame) : Chip :=
  match kind with
  | 1 => c.arpReply i f
  | 2 => c.pmuCommand f
  | 4 => c.inc NET.PRPCNT.SUPRX
  | _ => c

/-- Entries of the discard table that are FORGET ms old are removed (R445). -/
def Chip.forget (c : Chip) : Chip :=
  { c with net := { c.net with
    table := c.net.table.filter (fun e => decide (c.now < e.at_ + c.get NET.CFG.FORGET * msTaps)) } }

/-- Duplicate discard (R445). -/
def Chip.discard (c : Chip) (i kind : Nat) (f : RxFrame) (seq : Nat) : Chip :=
  let c := c.forget
  match c.net.table.find? (fun e => e.src == f.src && e.seq == seq) with
  | some e =>
    if e.port ≠ i then
      ({ c with net := { c.net with table := c.net.table.erase e } }).inc NET.PRPCNT.DUPL
    else (c.inc NET.PRPCNT.REPEAT).deliver i kind f
  | none =>
    let c := if c.net.table.length < 256 then c
      else ({ c with net := { c.net with table := c.net.table.drop 1 } }).inc NET.PRPCNT.TBLFULL
    let e : DiscEntry := ⟨f.src, seq, i, c.now⟩
    let c : Chip := { c with net := { c.net with table := c.net.table ++ [e] } }
    (c.inc (if i = 0 then NET.PRPCNT.UNIQA else NET.PRPCNT.UNIQB)).deliver i kind f

/-- A judged safety frame goes to the safety I/O. -/
def Chip.deliverSafe (c : Chip) (p : List Nat) (both : Bool) : Chip :=
  let c := if both then c else c.inc NET.PRPCNT.SSINGLE
  { c with sio := { c.sio with frames := c.sio.frames ++ [({ payload := p.take 20, both := both } : SafetyFrame)] } }

/-- A safety frame (R447): opens or closes a pair. -/
def Chip.safetyRx (c : Chip) (i : Nat) (f : RxFrame) : Chip :=
  match f.trailer with
  | none => c.deliverSafe f.payload false
  | some (seq, _) =>
    if !c.prp then c.deliverSafe f.payload false
    else
      let pairs := c.net.pairs.filter (fun e => !e.closed || decide (c.now < e.at_ + c.get NET.CFG.FORGET * msTaps))
      let c := { c with net := { c.net with pairs := pairs } }
      match pairs.find? (fun e => e.src == f.src && e.seq == seq) with
      | none =>
        if (pairs.filter (fun e => !e.closed && decide (c.now ≤ e.at_ + e.win))).length < 16 then
          let e : SafePair := ⟨f.src, seq, i, f.payload, c.now, c.get NET.SAFE.WIN * usTaps, false⟩
          { c with net := { c.net with pairs := pairs ++ [e] } }
        else c.inc NET.PRPCNT.SLATE
      | some e =>
        if e.closed ∨ e.port = i ∨ e.at_ + e.win < c.now then c.inc NET.PRPCNT.SLATE
        else
          let c := { c with net := { c.net with pairs := pairs.map (fun x => if x = e then { x with closed := true } else x) } }
          if e.payload = f.payload then c.deliverSafe f.payload true
          else ((c.flag NET.EVT.SMISM).inc NET.PRPCNT.SMISM).raise 46

/-- A frame of n octets, of a kind that port i accepts. -/
def Chip.accept (c : Chip) (i kind n : Nat) (f : RxFrame) : Chip :=
  let c := c.inc NET.PCNT.RXOK i
  if kind = 3 then c.ptpFrame i n f.payload
  else if kind = 5 then c.safetyRx i f
  else
    match f.trailer with
    | some (seq, _) => if c.prp then c.discard i kind f seq else c.deliver i kind f
    | none => c.deliver i kind f

/-- ETH_FRAME_RX (R435, R439, R444 to R447): a frame completes at port i: its octets without the FCS, whether the FCS checks, and
whether the receive pages are full (R441). -/
def execEthFrameRx (t i : Nat) (f : List Byte) (fcs full : Bool) (s : State) : Host.Outcome State Fault Refusal :=
  run (fun _ c =>
    let c := c.at_ t
    if ¬ c.ethOn i then c
    else if !fcs || decide (f.length < 60) || decide (1524 < f.length) || !c.on NET.PSTAT.LINK i then c.inc NET.PCNT.RXCRC i
    else if full then c.inc NET.PCNT.RXOVR i
    else
      let c := c.rxValid i
      let x := parseFrame (f.map BitVec.toNat)
      let c : Chip := match x.trailer with
        | some (_, lan) => if c.prp ∧ lan = (if i = 0 then 0xB else 0xA) then c.inc NET.PCNT.WRONGLAN i else c
        | none => c
      let k : Nat := c.rxKind x
      if k = 0 ∨ (i = 1 ∧ ¬ c.prp ∧ k ≠ 3) then c.inc NET.PCNT.RXDROP i else c.accept i k f.length x) s

/-- DISCARD_ENTRY_EXPIRE (R445): entries FORGET ms old are removed. -/
def execDiscardEntryExpire (t : Nat) (s : State) : Host.Outcome State Fault Refusal :=
  run (fun _ c => (c.at_ t).forget) s

/-- SAFETY_PAIR_TIMEOUT (R447): the window of the oldest pair that has run out: its one copy is delivered SINGLE. -/
def execSafetyPairTimeout (t : Nat) (s : State) : Host.Outcome State Fault Refusal :=
  run (fun _ c =>
    let c := c.at_ t
    match c.net.pairs.find? (fun e => !e.closed && decide (e.at_ + e.win ≤ c.now)) with
    | none => c
    | some e =>
      let c := { c with net := { c.net with pairs := c.net.pairs.map (fun x => if x = e then { x with closed := true } else x) } }
      c.deliverSafe e.payload false) s

/-- LAN_SILENT (R446): port i has received no valid frame for LANTO seconds. -/
def execLanSilent (t i : Nat) (s : State) : Host.Outcome State Fault Refusal :=
  run (fun _ c =>
    let c := c.at_ t
    if c.ethOn i && !c.on NET.PSTAT.SILENT i && decide (nget 0 c.net.rxAt i + c.get NET.CFG.LANTO * secTaps ≤ c.now) then
      ((c.set NET.PSTAT.SILENT i 1).flag NET.EVT.LANSIL).raise 45
    else c) s

/-! PHY management -/

/-- One management access: 25.6 us (R437). -/
def mdioTaps : Nat := 204800

/-- Port i has lost its link: holdover begins when the servo followed it and the other port has no usable input (R330). -/
def Chip.inputLost (c : Chip) (i : Nat) : Chip :=
  let j := 1 - i
  if c.get TIM.CFG.SRC = 1 ∧ c.tim.servoPort = some i ∧ ¬ (c.ptpOn j ∧ c.on NET.PSTAT.LINK j ∧ (c.ptp j).valid) then c.enterHold
  else c

/-- The poll of port i may start: 10 ms after it last fell due, and no access is in progress (R437). -/
def Chip.mayPoll (c : Chip) (i : Nat) : Bool :=
  c.ethOn i && decide (nget 0 c.net.pollDue i ≤ c.now) && decide (c.net.pollEnd ≤ c.now) &&
    !(c.on NET.MDIO.BUSY && decide (c.net.mdioEnd - mdioTaps ≤ c.now))

/-- The next poll of port i falls due 10 ms after this one did, a whole number of times where it was late (R437). -/
def Chip.nextPoll (c : Chip) (i : Nat) : Chip :=
  let d := nget 0 c.net.pollDue i
  let d := if d = 0 then c.now else d
  { c with net := { c.net with
    pollEnd := c.now + mdioTaps, pollDue := nset 0 c.net.pollDue i (d + ((c.now - d) / (10 * msTaps) + 1) * (10 * msTaps)) } }

/-- LINK_POLL (R437, R438): register 1 of port i's PHY shows `up`; deferred while another access runs. -/
def execLinkPoll (t i : Nat) (up : Bool) (s : State) : Host.Outcome State Fault Refusal :=
  run (fun _ c =>
    let c := c.at_ t
    if !c.mayPoll i then c
    else
      let was := c.on NET.PSTAT.LINK i
      let c := (c.setB NET.PSTAT.LINK i up).nextPoll i
      let c := if was != up then (c.flag NET.EVT.LINK).raise 44 else c
      let c := if was && !up then c.inputLost i else c
      if up then c
      else
        let n := (nget [] c.net.queue i).length
        (({ c with net := { c.net with queue := nset [] c.net.queue i [] } }).incBy NET.PCNT.TXDROP i n).netRelease) s

/-- A write of NET.MDIO with GO takes effect: the access starts after a poll in progress (R437). -/
def Chip.mdioGo (c : Chip) : Chip :=
  { c.set NET.MDIO.BUSY 0 1 with net := { c.net with mdioEnd := Nat.max c.now c.net.pollEnd + mdioTaps } }

/-- MDIO_ACCESS (R437): a write of NET.MDIO with GO, word v; refused while BUSY. -/
def execMdioAccess (t v : Nat) (s : State) : Host.Outcome State Fault Refusal :=
  run (fun _ c =>
    let c := c.at_ t
    if c.fabric && !c.on NET.MDIO.BUSY then
      ((((c.set NET.MDIO.OP 0 (v / 2 ^ 29)).set NET.MDIO.PHYAD 0 (v / 2 ^ 24)).set NET.MDIO.REG 0 (v / 2 ^ 16)).set NET.MDIO.DATA 0 v).mdioGo
    else c) s

/-- MDIO_ACCESS_DONE (R437): the access ends; a read's data is stored. -/
def execMdioAccessDone (t d : Nat) (s : State) : Host.Outcome State Fault Refusal :=
  run (fun _ c =>
    let c := c.at_ t
    if c.on NET.MDIO.BUSY ∧ c.net.mdioEnd ≤ c.now then
      let c := c.set NET.MDIO.BUSY 0 0
      if c.on NET.MDIO.OP then c else c.set NET.MDIO.DATA 0 d
    else c) s

/-- A reset of the NET block (R450): frames, table and pairs are discarded, RWL fields and the sequence counter kept. -/
def Chip.resetNet (c : Chip) : Chip :=
  let drop := fun (k : Key) => decide (0x1806 ≤ k.id ∧ k.id < 0x1C00) || (k.id == 0x1800 && k.lo != 31) || (k.id == 0x1805 && k.lo == 64)
  { c with
    regs := c.regs.filter (fun e => !drop e.1)
    net := { prpSeq := c.net.prpSeq, supSeq := c.net.supSeq, supAt := c.net.supAt, rxAt := [(0, c.now), (1, c.now)] } }

end Sys2Proof.Machine
end

