-- ==== Sys2Proof/Machine/Convert.lean ====
section
/-! DEFINITION. Conversion subsystem: results, tick set, sequences, decimators, calibration and rotation (chapter 9,
R269 to R292). -/

namespace Sys2Proof.Machine

open Reg

/-- Group g. -/
def Chip.group (c : Chip) (g : Nat) : AdcGroup := nget {} c.adc.groups g

/-- Group g takes a new record. -/
def Chip.setGroup (c : Chip) (g : Nat) (v : AdcGroup) : Chip :=
  { c with adc := { c.adc with groups := nset {} c.adc.groups g v } }

/-- What slice s of group g does: 0 to 7 a slot, 8 CALIBRATING, 9 SPARE, 15 FAILED (ADC.MAP). -/
def Chip.slice (c : Chip) (g s : Nat) : Nat := bitsOf (c.get ADC.MAP.ASSIGN g) (4 * s + 3) (4 * s)

/-- Slice s of group g takes role v. -/
def Chip.setSlice (c : Chip) (g s v : Nat) : Chip :=
  let a := c.get ADC.MAP.ASSIGN g
  c.set ADC.MAP.ASSIGN g (a - c.slice g s * 2 ^ (4 * s) + v * 2 ^ (4 * s))

/-- The slice that serves slot j. -/
def Chip.sliceOf (c : Chip) (g j : Nat) : Option Nat := (upTo 9).find? (fun s => c.slice g s == j)

/-- The group's out-of-service slice, calibrating or waiting. -/
def Chip.outSlice (c : Chip) (g : Nat) : Option Nat := (upTo 9).find? (fun s => c.slice g s == 8 || c.slice g s == 9)

/-- Interleave factor k of group g, 1 when there is no set (R273). -/
def Chip.ilvK (c : Chip) (g : Nat) : Nat := if c.get ADC.GCFG.ILV g = 0 then 1 else 2 ^ c.get ADC.GCFG.ILV g

/-- Slot j belongs to the group's interleave set. -/
def Chip.inSet (c : Chip) (g j : Nat) : Bool := c.on ADC.GCFG.ILV g && decide (j < c.ilvK g)

/-- Slot j converts continuously: mode CONT, or in the interleave set. -/
def Chip.isCont (c : Chip) (g j : Nat) : Bool := c.inSet g j || c.get ADC.SLOT.MODE (8 * g + j) == 1

/-- VALUE and CLIP of a differential voltage in nV: round(vd / (2.5 V / 2048)), limited to 12 bits (R270). -/
def convert (vd : Int) : Int × Bool :=
  let v := (vd * 4096 + 2500000000) / 5000000000
  if v < -2048 then (-2048, true) else if 2047 < v then (2047, true) else (v, false)

/-- The result word of R279. -/
def resultWord (valid clip swap : Bool) (ch slot round : Nat) (value : Int) : Nat :=
  2 ^ 31 * bit valid + 2 ^ 30 * bit clip + 2 ^ 29 * bit swap + 2 ^ 23 * ch + 2 ^ 20 * slot + 2 ^ 17 * round +
    (if valid then ofSigned 16 value else 0)

/-- VALID of a result word. -/
def resValid (w : Nat) : Bool := w.testBit 31

/-- VALUE of a result word. -/
def resValue (w : Nat) : Int := toSigned 16 (w % 65536)

/-- A result as the engine receives it: VALUE × 2.5 / 2048 volts, NaN when not valid (R274). -/
def resVolts (w : Nat) : Word := if resValid w then F32.ofRat (resValue w * 5) 4096 else F32.nan

/-- The latest result of slot j: ADC.RES, and EVT.CLIP (R279). -/
def Chip.setRes (c : Chip) (g j w : Nat) : Chip :=
  let i := 8 * g + j
  let c := (((c.set ADC.RES.VALID i (bitsOf w 31 31)).set ADC.RES.CLIP i (bitsOf w 30 30)).set ADC.RES.SWAP i
    (bitsOf w 29 29)).set ADC.RES.CH i (bitsOf w 28 23)
  let c := ((c.set ADC.RES.SLOT i (bitsOf w 22 20)).set ADC.RES.ROUND i (bitsOf w 19 17)).set ADC.RES.VALUE i (bitsOf w 15 0)
  if w.testBit 30 then c.flag ADC.EVT.CLIP g else c

/-! Decimators -/

/-- Decimator d. -/
def Chip.decim (c : Chip) (d : Nat) : Decim := nget {} c.adc.dec d

/-- Most outputs kept: the longest window of their consumers. -/
def decKeep : Nat := 8192

/-- The output of decimation filter k over its span of inputs, newest first, in volts: linear phase (R288). -/
def decimate (k span : Nat) (l : List Int) : Word :=
  let s := (upTo span).foldl (fun (a : Int) i => a + Config.decTap k (Nat.min i (span - 1 - i)) * l.getD i 0) 0
  F32.ofRat (5 * s) (4096 * 2 ^ 40)

/-- One input of decimator d with strobe at raw instant x (R288, R289): an invalid result is replaced by the last input and
marked; every 32nd input gives a metering output 40 us back, every 100th a synchrophasor output 350 us back. -/
def Chip.decimIn (c : Chip) (d w x : Nat) (noSlice : Bool) : Chip :=
  let dc := c.decim d
  let v := if resValid w then (resValue w, false) else ((dc.inputs.headD (0, false)).1, true)
  let inputs := (v :: dc.inputs).take 701
  let n := dc.count + 1
  let out := fun (k span : Nat) =>
    if noSlice then F32.nan else decimate k span ((inputs.take span).map (·.1))
  let marked := fun (span : Nat) => (inputs.take span).any (·.2)
  let meter := if n % 32 = 0 then ((out 0 81, x - 320000, marked 81) :: dc.meter).take decKeep else dc.meter
  let sync := if n % 100 = 0 then ((out 1 701, x - 2800000, c.corrected (x - 2800000), marked 701) :: dc.sync).take decKeep else dc.sync
  { c with adc := { c.adc with dec := nset {} c.adc.dec d { inputs := inputs, count := n, meter := meter, sync := sync } } }

/-! Results -/

/-- A stream sample of R281. -/
def streamSample (w : Nat) : Nat :=
  ofSigned 12 (resValue w) * 16 + bitsOf w 31 31 * 8 + bitsOf w 30 30 * 4 + bitsOf w 29 29 * 2

/-- Strobe phase of a CONT slot or of slot j of an interleave set, in taps modulo 1 us, follower remainder included
(R272, R273, R335). -/
def Chip.strobePhase (c : Chip) (g j : Nat) : Nat :=
  (if c.inSet g j then c.get ADC.SLOT.PHASE (8 * g) + j * (8000 / c.ilvK g) else c.get ADC.SLOT.PHASE (8 * g + j)) +
    c.tim.phi

/-- The group may convert: SMP released and READY (R282). -/
def Chip.adcReady (c : Chip) (g : Nat) : Bool := c.released 2 && c.on ADC.GSTAT.READY g && decide (g < 4)

/-- Slice s of group g fails (R285): map entry FAILED, event, and a healthy out-of-service slice takes its slot; with no
out-of-service slice left background calibration stops. -/
def Chip.failSlice (c : Chip) (g s : Nat) : Chip :=
  let role := c.slice g s
  if role = 15 then c
  else
    let c := ((c.setSlice g s 15).flag ADC.EVT.SLFAIL g).set ADC.GSTAT.NFAIL g (Min.min 3 (c.get ADC.GSTAT.NFAIL g + 1))
    let c := c.raise 34
    let c := if role < 8 then
        match c.outSlice g with
        | some o => c.setSlice g o role
        | none => c
      else c
    if (c.outSlice g).isNone then c.flag ADC.EVT.NOCAL g else c

/-- The result word of a conversion on slot j of channel ch; a slot without a slice gives VALID 0, and so does a conversion that did not
complete, whose slice has failed (R279, R285). The first result after a handover carries SWAP (R284). -/
def Chip.makeResult (c : Chip) (g j ch round : Nat) (vd : Int) (done : Bool) : Nat × Chip :=
  let sl := c.sliceOf g j
  let ok := done && sl.isSome
  let v := convert vd
  let grp := c.group g
  let sw := grp.swap.contains j
  let w := resultWord ok (ok && v.2) sw ch j round v.1
  let last := if ok then nset none grp.service ch (some (v.1, c.now)) else grp.service
  let c := (c.setRes g j w).setGroup g { grp with swap := grp.swap.filter (fun k => k != j), service := last }
  match sl with
  | some s => (w, if done then c else c.failSlice g s)
  | none => (w, c)

/-- A result of group g in Plume mode, as a stream that the locator reads has it (R404). -/
def Chip.plumeSample (c : Chip) (g x w : Nat) : Chip :=
  if c.on PMU.CFG.TWEN && c.get ADC.GCFG.ILV g == 3 &&
      [c.get PMU.TWCFG.GA, c.get PMU.TWCFG.GB, c.get PMU.TWCFG.GC].contains g then
    { c with pmu := { c.pmu with
      streams := nset [] c.pmu.streams g (((x, resValue w, resValid w) :: nget [] c.pmu.streams g).take 64) } }
  else c

/-- A continuous result: stream page (R281), decimators (R288), travelling-wave locator (R404). -/
def Chip.contResult (c : Chip) (g j : Nat) (vd : Int) (done : Bool) : Chip :=
  let x := c.raw c.now - usTaps
  if ¬ (c.inRun && c.isCont g j && decide ((x + 8000 - c.strobePhase g j % 8000) % 8000 = 0) && decide (j < 8)) then c
  else
    let set := c.inSet g j
    let ch := if set then c.get ADC.GCFG.ILVIN g else c.get ADC.SLOT.CH (8 * g + j)
    let r := c.makeResult g j ch 0 vd done
    let w := r.1
    let c := r.2
    let first := if set then 8 * g else 8 * g + j
    let hdr := 2 ^ 28 * 2 + 2 ^ 26 * g + 2 ^ 22 * (if set then 0 else j) + 2 ^ 20 * (if set then c.get ADC.GCFG.ILV g else 0)
    let c :=
      if c.on ADC.SLOT.RINGEN first then
        c.ringItem { ring := c.get ADC.SLOT.RING first, words := [streamSample w], stream := some (hdr, x) }
      else c
    let c := c.plumeSample g x w
    c.each ((upTo 16).filter (fun d => c.on ADC.DEC.EN d && c.get ADC.DEC.G d == g && c.get ADC.DEC.SLOT d == j))
      (fun c d => c.decimIn d w x (c.sliceOf g j).isNone)

/-- A tick-set result (R274), kept for the hand-in of the coming reference. -/
def Chip.tickResult (c : Chip) (g e : Nat) (vd : Int) (done : Bool) : Chip :=
  let i := 16 * g + e
  if c.inRun && c.adc.strobed && decide (e < 16) && c.on ADC.SEQ.EN i && c.get ADC.SEQ.TRG i == 0 then
    let r := c.makeResult g (c.get ADC.SEQ.SLOT i) (c.get ADC.SEQ.CH i) 0 vd done
    { r.2 with adc := { r.2.adc with tick := nset 0 r.2.adc.tick i r.1 } }
  else c

/-- The instant at which the results of round r of a run are ready: its strobe at t_s + 0.25 us + r us, and 1 us (R270, R275). -/
def SeqRun.readyAt (x : SeqRun) (r : Nat) : Nat := x.start + 2000 + r * usTaps + usTaps

/-- Entry e belongs to a run of group g and its result is ready now (R275). -/
def Chip.resultDue (c : Chip) (g e : Nat) (r : SeqRun) : Bool :=
  let i := 16 * g + e
  c.on ADC.SEQ.EN i && c.get ADC.SEQ.TRG i == r.q + 1 && decide (e < 16) && c.now == r.readyAt (c.get ADC.SEQ.ROUND i)

/-- A result of the running sequence, or of an ended one whose record is due, at the instant its round gives it (R275). -/
def Chip.seqResult (c : Chip) (g e : Nat) (vd : Int) (done : Bool) : Chip :=
  let i := 16 * g + e
  let mine := c.resultDue g e
  let r := c.makeResult g (c.get ADC.SEQ.SLOT i) (c.get ADC.SEQ.CH i) (c.get ADC.SEQ.ROUND i) vd done
  let grp := r.2.group g
  let put := fun (x : SeqRun) => { x with res := nset 0 x.res e r.1 }
  if ¬ c.inRun then c
  else
    match grp.ended.find? mine with
    | some run => r.2.setGroup g { grp with ended := grp.ended.map (fun x => if x == run then put x else x) }
    | none =>
      match grp.cur with
      | some run => if mine run then r.2.setGroup g { grp with cur := some (put run) } else c
      | none => c

/-- CONVERSION_RESULT (R270). -/
def execConversionResult (t g : Nat) (kind : ConvKind) (vd : Int) (done : Bool) (s : State) :
    Host.Outcome State Fault Refusal :=
  run (fun _ c =>
    let c := c.at_ t
    if c.adcReady g then
      match kind with
      | .cont j => c.contResult g j vd done
      | .tick e => c.tickResult g e vd done
      | .seq e => c.seqResult g e vd done
    else c) s

/-- TICK_STROBE (R274): at T0(k) - 1.0 us, in a follower the remainder later (R335), the tick set is strobed. -/
def execTickStrobe (s : State) : Host.Outcome State Fault Refusal :=
  run (fun _ c =>
    if c.inRun && c.dev.ticking then
      let c := c.at_ (c.dev.nextT0 + c.tim.phi - usTaps)
      { c with adc := { c.adc with strobed := true, tick := [] } }
    else c) s

/-- The tick samples are handed to the engine (R274): an enabled tick entry without a valid result is NaN. -/
def Chip.handTick (c : Chip) : Chip :=
  let es := (upTo 64).filter (fun i => c.on ADC.SEQ.EN i && c.get ADC.SEQ.TRG i == 0)
  let eng := es.foldl (fun m i => nset 0 m (8 * (i / 16) + c.get ADC.SEQ.SLOT i) (nget 0 c.adc.tick i)) c.adc.eng
  { c with adc := { c.adc with eng := eng, strobed := false, tick := [] } }

/-! Sequences -/

/-- Enabled entries of sequence q of group g, ascending. -/
def Chip.seqEntries (c : Chip) (g q : Nat) : List Nat :=
  (upTo 16).filter (fun e => c.on ADC.SEQ.EN (16 * g + e) && c.get ADC.SEQ.TRG (16 * g + e) == q + 1)

/-- Highest round of a sequence (R275). -/
def Chip.topRound (c : Chip) (g q : Nat) : Nat :=
  (c.seqEntries g q).foldl (fun a e => Max.max a (c.get ADC.SEQ.ROUND (16 * g + e))) 0

/-- End instant of a run: t_s + (R + 1) us (R275). -/
def Chip.seqEndAt (c : Chip) (g : Nat) (r : SeqRun) : Nat := r.start + (c.topRound g r.q + 1) * usTaps

/-- GSTAT follows the sequencer and the latch. -/
def Chip.gstat (c : Chip) (g : Nat) : Chip :=
  let grp := c.group g
  let c := match grp.cur with
    | some r => (c.set ADC.GSTAT.RUNNING g 1).set ADC.GSTAT.RUNQ g r.q
    | none => c.set ADC.GSTAT.RUNNING g 0
  match grp.latch with
  | some l => (c.set ADC.GSTAT.PEND g 1).set ADC.GSTAT.PENDQ g l.1
  | none => c.set ADC.GSTAT.PEND g 0

/-- Sequence q starts at instant t. -/
def Chip.startSeq (c : Chip) (g q src t : Nat) (dly : Bool) : Chip :=
  let grp := c.group g
  ((c.setGroup g { grp with
      cur := some { q := q, start := t, src := src, dly := dly, run := nget 0 grp.runs q + 1 }
      runs := nset 0 grp.runs q (nget 0 grp.runs q + 1) }).inc ADC.CNT.RUNS g).gstat g

/-- The running sequence of group g ends when its end instant has come; the latched one starts then (R276, order 1). -/
def Chip.endSeq (c : Chip) (g t : Nat) : Chip :=
  let grp := c.group g
  match grp.cur with
  | none => c
  | some r =>
    let e := c.seqEndAt g r
    if t < e then c
    else
      let c := c.setGroup g { grp with cur := none, ended := grp.ended ++ [r], latch := none }
      match grp.latch with
      | some (q, src, _) => c.startSeq g q src e true
      | none => c.gstat g

/-- SEQUENCE_END (R275). -/
def execSequenceEnd (t g : Nat) (s : State) : Host.Outcome State Fault Refusal :=
  run (fun _ c => let c := c.at_ t; if c.inRun then c.endSeq g c.now else c) s

/-- A trigger at its instant: starts the sequence, is latched, or is discarded (R276, order 2). -/
def Chip.seqTrigger (c : Chip) (g q src t : Nat) : Chip :=
  let c := c.endSeq g t
  let grp := c.group g
  if grp.cur.isNone then c.startSeq g q src t false
  else if grp.latch.isNone then (c.setGroup g { grp with latch := some (q, src, t) }).gstat g
  else
    (((c.setGroup g { grp with lost := Min.min 127 (grp.lost + 1) }).inc ADC.CNT.LOST g).flag ADC.EVT.OVR g).raise 32

/-- The trigger that comes first: the earliest instant, then the lowest group, in it the lowest sequence (R276). -/
def firstTrig (l : List (Nat × Nat × Nat × Nat)) : Option (Nat × Nat × Nat × Nat) :=
  l.foldl (fun best y => match best with
    | none => some y
    | some b => if y.2.2.2 < b.2.2.2 ∨ (y.2.2.2 = b.2.2.2 ∧ 4 * y.1 + y.2.1 < 4 * b.1 + b.2.1) then some y else some b) none

/-- SEQUENCE_TRIGGER (R276): the first trigger at the sequencers whose instant has come is handled. -/
def execSequenceTrigger (t : Nat) (s : State) : Host.Outcome State Fault Refusal :=
  run (fun _ c =>
    let c := c.at_ t
    match firstTrig (c.adc.trigs.filter (fun y => decide (y.2.2.2 ≤ c.now))) with
    | none => c
    | some (g, q, src, x) =>
      let c := { c with adc := { c.adc with trigs := c.adc.trigs.erase (g, q, src, x) } }
      if c.inRun && c.adcReady g && c.on ADC.QCFG.EN (4 * g + q) then c.seqTrigger g q src x else c) s

/-- A trigger of generator m or of the host reaches every sequence it is the source of, ascending (R276). -/
def Chip.mtrigSequences (c : Chip) (m t : Nat) : Chip :=
  let l := (upTo 16).filter (fun i => c.on ADC.QCFG.EN i && c.get ADC.QCFG.SRC i == m)
  { c with adc := { c.adc with trigs := c.adc.trigs ++ l.map (fun i => (i / 4, i % 4, m, t)) } }

/-- A write of ADC.QSTART: host triggers for the enabled sequences named, at instant t (R277); sequences run only in RUN. -/
def Chip.qstart (c : Chip) (go t : Nat) : Chip :=
  if c.inRun then
    let l := (setBits 16 go).filter (fun i => c.on ADC.QCFG.EN i)
    { c with adc := { c.adc with trigs := c.adc.trigs ++ l.map (fun i => (i / 4, i % 4, 16, t)) } }
  else c

/-- ADC_HOST_TRIGGER (R277): at the coming tick reference in RUN. -/
def execAdcHostTrigger (t go : Nat) (s : State) : Host.Outcome State Fault Refusal :=
  run (fun _ c => let c := c.at_ t; c.qstart go (if c.dev.ticking then c.dev.nextT0 else c.now)) s

/-- The record of R280. -/
def Chip.seqRecord (c : Chip) (g : Nat) (r : SeqRun) : List Nat :=
  let es := c.seqEntries g r.q
  let grp := c.group g
  let st := c.stamp (c.raw (r.start + 2000))
  let missing := fun (e : Nat) =>
    let i := 16 * g + e
    resultWord false false false (c.get ADC.SEQ.CH i) (c.get ADC.SEQ.SLOT i) (c.get ADC.SEQ.ROUND i) 0
  (2 ^ 28 + 2 ^ 26 * r.q + 2 ^ 21 * r.src + 2 ^ 16 * es.length + 2 ^ 8 * (r.run % 256) + 2 ^ 7 * bit r.dly +
      grp.lost) :: st.2 :: st.1 % 2 ^ 32 :: st.1 / 2 ^ 32 ::
    es.map (fun e => if nget 0 r.res e = 0 then missing e else nget 0 r.res e)

/-- Entries of a sequence in the order in which their rounds convert (R275). -/
def Chip.byRound (c : Chip) (g : Nat) (es : List Nat) : List Nat :=
  (upTo 16).flatMap (fun r => es.filter (fun e => c.get ADC.SEQ.ROUND (16 * g + e) == r))

/-- SEQUENCE_RECORD (R275): 0.25 us after a sequence has ended, its record goes to the ring, and its results to the engine when ENG
is 1. The triggers lost are counted from header to header (R280). -/
def execSequenceRecord (t g : Nat) (s : State) : Host.Outcome State Fault Refusal :=
  run (fun _ c =>
    let c := c.at_ t
    match (c.group g).ended with
    | [] => c
    | r :: l =>
      if c.now < r.readyAt (c.topRound g r.q) then c else
      let i := 4 * g + r.q
      let rec_ := c.seqRecord g r
      let es := c.seqEntries g r.q
      let c := c.setGroup g { c.group g with ended := l, lost := if c.on ADC.QCFG.RINGEN i then 0 else (c.group g).lost }
      let c := if c.on ADC.QCFG.RINGEN i then c.ringRecord (c.get ADC.QCFG.RING i) rec_ else c
      if c.on ADC.QCFG.ENG i then
        { c with adc := { c.adc with
            eng := (c.byRound g es).foldl (fun m e => nset 0 m (8 * g + c.get ADC.SEQ.SLOT (16 * g + e)) (nget 0 r.res e)) c.adc.eng } }
      else c) s

/-- Leaving RUN abandons the running sequences, the latches, records due and triggers (R278); decimators stop (R272). -/
def Chip.abandonSequences (c : Chip) : Chip :=
  let c := c.each (upTo 4) (fun c g => (c.setGroup g { c.group g with cur := none, latch := none, ended := [] }).gstat g)
  { c with adc := { c.adc with trigs := [], strobed := false, tick := [], dec := [] } }

/-! Calibration and rotation -/

/-- Slot j of group g is idle: no entry of the running sequence uses it, nor the tick set while it converts (R284, R287). -/
def Chip.slotIdle (c : Chip) (g j : Nat) : Bool :=
  let uses := fun (trg : Nat) => (upTo 16).any (fun e =>
    c.on ADC.SEQ.EN (16 * g + e) && c.get ADC.SEQ.TRG (16 * g + e) == trg && c.get ADC.SEQ.SLOT (16 * g + e) == j)
  (match (c.group g).cur with
    | some r => !uses (r.q + 1)
    | none => true) && !(c.adc.strobed && uses 0)

/-- A service conversion can run: on the out-of-service slice, or, for a readback, on an idle slot in mode SEQ when there is none
(R287). -/
def Chip.serviceFree (c : Chip) (g : Nat) (readback : Bool) : Bool :=
  (c.outSlice g).isSome || (readback && (upTo 8).any (fun j =>
    !c.inSet g j && c.get ADC.SLOT.MODE (8 * g + j) == 2 && (c.sliceOf g j).isSome && c.slotIdle g j))

/-- The waiting slice of group g starts its shadow conversions (R284). -/
def Chip.shadowStart (c : Chip) (g : Nat) : Chip := c.setGroup g { c.group g with shadowAt := c.now }

/-- t_cal of R283. -/
def calTaps : Nat := 2 * msTaps

/-- Gain and offset corrections inside the limits of ADC.CAL (R283). -/
def calGood (gerr oerr : Int) : Bool := decide (gerr.natAbs ≤ 2000) && decide (oerr.natAbs ≤ 512)

/-- Slice s of group g records a calibration (ADC.CAL) as the group's newest. -/
def Chip.calibrated (c : Chip) (g s : Nat) (gerr oerr : Int) : Chip :=
  let i := 9 * g + s
  let c := ((c.setI ADC.CAL.GERR i gerr).setI ADC.CAL.OERR i oerr).set ADC.CAL.AGE i 0
  let grp := c.group g
  let n := grp.calCount + 1
  c.setGroup g { grp with calNo := nset 0 grp.calNo s n, calCount := n, calAt := nset 0 grp.calAt s c.now }

/-- FOREGROUND_CALIBRATION_DONE (R282): corrections of all nine slices; slices outside the limits fail (R285). -/
def execForegroundCalibrationDone (t g : Nat) (errs : List (Int × Int)) (s : State) : Host.Outcome State Fault Refusal :=
  run (fun _ c =>
    let c := c.at_ t
    if c.released 2 && !c.on ADC.GSTAT.READY g && decide (g < 4) then
      let c := c.set ADC.GSTAT.READY g 1
      let grp := c.group g
      let c := c.setGroup g { grp with calAt := (upTo 9).foldl (fun m k => nset 0 m k c.now) grp.calAt, calFrom := c.now }
      let c := c.each ((upTo 9).zip errs) (fun c se =>
        ((c.setI ADC.CAL.GERR (9 * g + se.1) se.2.1).setI ADC.CAL.OERR (9 * g + se.1) se.2.2).set ADC.CAL.AGE (9 * g + se.1) 0)
      c.each ((upTo 9).zip errs) (fun c se => if calGood se.2.1 se.2.2 then c else c.failSlice g se.1)
    else c) s

/-- SLICE_CALIBRATION_END (R283): after t_cal the out-of-service slice of group g waits as SPARE, or fails. -/
def execSliceCalibrationEnd (t g : Nat) (gerr oerr : Int) (s : State) : Host.Outcome State Fault Refusal :=
  run (fun _ c =>
    let c := c.at_ t
    match (upTo 9).find? (fun s => c.slice g s == 8) with
    | some sl =>
      if c.adcReady g && c.state != stBoot && decide ((c.group g).calFrom + calTaps ≤ c.now) then
        let c := c.calibrated g sl gerr oerr
        if calGood gerr oerr then (c.setSlice g sl 9).shadowStart g else c.failSlice g sl
      else c
    | none => c) s

/-- The slice of a slot whose calibration is oldest, the lower number when equal (R283). -/
def Chip.oldestSlice (c : Chip) (g : Nat) : Option Nat :=
  ((upTo 9).filter (fun s => decide (c.slice g s < 8))).foldl
    (fun best s => match best with
      | none => some s
      | some b => if nget 0 (c.group g).calNo s < nget 0 (c.group g).calNo b then some s else some b) none

/-- SLICE_HANDOVER (R284): the waiting slice takes the slot of the oldest calibration: a slot that converts continuously after 16
shadow conversions, `sum` being the sum of the differences of their pairs in converter steps, another one when it is idle. -/
def execSliceHandover (t g : Nat) (sum : Int) (s : State) : Host.Outcome State Fault Refusal :=
  run (fun _ c =>
    let c := c.at_ t
    match (upTo 9).find? (fun s => c.slice g s == 9), c.oldestSlice g with
    | some sp, some v =>
      let j := c.slice g v
      let shadow := c.isCont g j && c.inRun
      let due := if shadow then decide ((c.group g).shadowAt + 16 * usTaps ≤ c.now) else c.slotIdle g j
      if c.adcReady g && c.on ADC.GCFG.CALEN g && c.state != stBoot && due then
        let c := if shadow && decide (16 * c.get ADC.GCFG.SHTOL g < sum.natAbs)
          then (c.flag ADC.EVT.SHDIFF g).raise 33 else c
        let c := (c.setSlice g sp j).setSlice g v 8
        let grp := c.group g
        let c := (c.setGroup g { grp with swap := grp.swap.filter (fun k => k != j) ++ [j], calFrom := c.now }).inc ADC.CNT.SWAPS g
        c.each ((upTo 9).filter (fun s => s != sp)) (fun c s => c.inc ADC.CAL.AGE (9 * g + s))
      else c
    | _, _ => c) s

/-- SLICE_FAIL (R285). -/
def execSliceFail (t g s_ : Nat) (s : State) : Host.Outcome State Fault Refusal :=
  run (fun _ c => let c := c.at_ t; if c.adcReady g && decide (s_ < 9) then c.failSlice g s_ else c) s

/-- SERVICE_CONVERSION (R287): a sample of channel ch on the out-of-service slice, for readback and self-tests; a readback without
such a slice uses an idle slot in mode SEQ. -/
def execServiceConversion (t g ch : Nat) (vd : Int) (s : State) : Host.Outcome State Fault Refusal :=
  run (fun _ c =>
    let c := c.at_ t
    if c.adcReady g && c.state != stBoot && c.serviceFree g (decide (32 ≤ ch)) then
      let grp := c.group g
      c.setGroup g { grp with service := nset none grp.service ch (some ((convert vd).1, c.now)) }
    else c) s

/-- A reset of the ADC block (R292): sequences abandoned, fields that are not RWL at reset, foreground calibration starts,
failed slices return. -/
def Chip.resetAdc (c : Chip) : Chip :=
  let rwl := fun (k : Key) =>
    k.id == 0x3801 || k.id == 0x3802 || k.id == 0x3803 || k.id == 0x3804 || (k.id == 0x3800 && (k.lo == 30 || k.lo == 24))
  let own := fun (k : Key) => decide (0x3800 ≤ k.id ∧ k.id < 0x3C00)
  { c with adc := {}, regs := c.regs.filter (fun e => !own e.1 || rwl e.1) }

end Sys2Proof.Machine
end

