-- ==== Sys2Proof/Machine/KeeperStore.lean ====
section
/-! DEFINITION. Retention RAM and record store of the keeper: pending copies, admission and bursts (R520, R527 to R533). -/

namespace Sys2Proof.Machine

open Reg

/-! Contents of records -/

/-- All fields of an attribute as stored, as one number. -/
def Chip.stored (c : Chip) (r : AttrRow) (i : Nat) : Nat :=
  r.fields.foldl (fun a f => a + c.get f.fld i * 2 ^ f.fld.lo) 0

/-- The words of a value, word 0 first (R79). -/
def valueWords (words v : Nat) : List Nat := (upTo words).map (fun k => v / 2 ^ (32 * k) % 2 ^ 32)

/-- The attribute keeps a setting: it has an RW or RWL field. -/
def AttrRow.keeps (r : AttrRow) : Bool := r.fields.any (fun f => f.access == .rw || f.access == .rwl)

/-- The settings of an attribute as one number: its RW and RWL fields. -/
def Chip.settings (c : Chip) (r : AttrRow) (i : Nat) : Nat :=
  (r.fields.filter (fun f => f.access == .rw || f.access == .rwl)).foldl (fun a f => a + c.get f.fld i * 2 ^ f.fld.lo) 0

/-- The configuration image: SET entries in ascending ID and instance (R527). -/
def Chip.imageWords (c : Chip) : List Nat :=
  ((upTo 21).flatMap blockRows).flatMap (fun r =>
    if r.keeps then (upTo r.insts).flatMap (fun i => (r.id * 65536 + i * 256) :: valueWords r.words (c.settings r i)) else [])

/-- The configuration image as a record: as many payload blocks as its bytes need, and the commit block. -/
def Chip.imageRec (c : Chip) : NvRec :=
  let w := c.imageWords
  { nums := w, blks := ceilDiv (4 * w.length) 256 + 1 }

/-- The fault set of the keeper's copies (R527): newest 32 FLT records, newest 16 PMU records. -/
def Chip.faultRec (c : Chip) : NvRec :=
  { nums := c.kpr.flts.map (·.2) ++ c.kpr.pmus.flatMap (·.2), blks := 8
    flt := (c.kpr.flts.map (·.1)).getLast?, pmu := (c.kpr.pmus.map (·.1)).getLast? }

/-- The energy record of a copy. -/
def meterNv (m : MeterRec) : NvRec := { nums := m.tag :: m.vals, blks := 4 }

/-! Pending copies -/

/-- The pending copy of a set is replaced (R531). -/
def Chip.pend (c : Chip) (set : Nat) (r : NvRec) : Chip :=
  let k := c.kpr
  let b := k.burst.map (fun b => if b.set = set then { b with newer := true } else b)
  let c := { c with kpr := { k with pend := nset none k.pend set (some r), burst := b } }
  (c.set KPR.NVS.PEND set 1).set KPR.NVS.PBLKS set r.blks

/-- An FLT record is copied for commit (R485). -/
def Chip.copyFlt (c : Chip) (num value : Nat) : Chip :=
  let l := c.kpr.flts ++ [(num, value)]
  let c := { c with kpr := { c.kpr with flts := l.drop (l.length - 32) } }
  c.pend 2 c.faultRec

/-- A PMU record is copied for commit (R413). -/
def Chip.copyPmu (c : Chip) (num : Nat) (vals : List Nat) : Chip :=
  let l := c.kpr.pmus ++ [(num, vals)]
  let c := { c with kpr := { c.kpr with pmus := l.drop (l.length - 16) } }
  c.pend 2 c.faultRec

/-! Valid records -/

/-- Half h of a set. -/
def Chip.nvHalf (c : Chip) (set h : Nat) : Option NvRec := nget none c.kpr.half (2 * set + h)

/-- The half that holds the valid record: the one that checks, of greater SEQ by signed difference (R528). -/
def Chip.nvValid (c : Chip) (set : Nat) : Option (Nat × NvRec) :=
  match c.nvHalf set 0, c.nvHalf set 1 with
  | none, none => none
  | some a, none => some (0, a)
  | none, some b => some (1, b)
  | some a, some b => if toSigned 32 ((b.seq + 2 ^ 32 - a.seq) % 2 ^ 32) > 0 then some (1, b) else some (0, a)

/-- KPR.NVS shows the set's valid record. -/
def Chip.showNv (c : Chip) (set : Nat) : Chip :=
  match c.nvValid set with
  | none => ((c.set KPR.NVS.VALID set 0).set KPR.NVS.SEQ set 0).set KPR.NVS.BLKS set 0
  | some (_, r) => ((c.set KPR.NVS.VALID set 1).set KPR.NVS.SEQ set r.seq).set KPR.NVS.BLKS set r.blks

/-- Byte b of a record of a set: payload, then the commit block (R527, R528, log entry 11). -/
def nvByte (set : Nat) (r : NvRec) (b : Nat) : Nat :=
  let payload := 256 * (r.blks - 1)
  if 256 * r.blks ≤ b then 0
  else if payload ≤ b then (Config.commitByte set r.seq r.blks (b - payload)).toNat
  else if set = 0 then (r.nums.getD (b / 4) 0) / 2 ^ (24 - 8 * (b % 4)) % 256
  else if set = 1 then (Config.energyByte r.nums b).toNat
  else (Config.faultByte r.nums b).toNat

/-- KPR.NVDATA: 32 bytes of the selected record, first byte uppermost (R533). -/
def Chip.nvData (c : Chip) : Nat :=
  let set := c.get KPR.NVSEL.SET
  match c.nvValid set with
  | none => 0
  | some (_, r) => (upTo 32).foldl (fun a i => a * 256 + nvByte set r (32 * c.get KPR.NVSEL.OFS + i)) 0

/-! Admission and bursts -/

/-- KCELL, VABT and NVPER as the keeper uses them: of KPR.CFG, or as last in force while the main domain is in reset. -/
def Chip.kprCfg (c : Chip) : Nat × Nat × Nat :=
  if c.fabric then (c.get KPR.CFG.KCELL, c.get KPR.CFG.VABT, c.get KPR.CFG.NVPER) else c.kpr.cfg

/-- The admission test of R529 for a VSTORE sample in mV, energies in uJ. -/
def admits (kcell vst blks : Nat) : Bool :=
  kcell != 0 && decide (2 * (2 * blks + 4) + kcell * 300 ≤ kcell * (vst - 3000))

/-- A VSTORE sample is taken (R529). -/
def Chip.sampleVst (c : Chip) (vst : Nat) : Chip :=
  { c.set KPR.VMON.VST 0 vst with kpr := { c.kpr with vstAt := some c.now } }

/-- A change of the main domain's part of KPR: lost while that domain is in reset. -/
def Chip.whenMain (c : Chip) (f : Chip → Chip) : Chip := c.when c.fabric f

/-- A reply enters the queue (R92). -/
def Chip.answer (c : Chip) (r : Reply) : Chip := { c with hpp := { c.hpp with replies := c.hpp.replies ++ [r] } }

/-- A reply that comes later enters the queue when the port is ready; else the queue stays empty (R54, log entry 20). -/
def Chip.replyIf (c : Chip) (rdy : Bool) (r : Reply) : Chip := if rdy then c.answer r else c

/-- A reply that comes later. -/
def Chip.reply (c : Chip) (r : Reply) : Chip := c.replyIf c.hpp.rdy r

/-- The COMMIT_NV that waits is answered (R532). -/
def Chip.nvReply (c : Chip) (status : Nat) : Chip :=
  match c.dev.wait with
  | some (.nv tag flg) =>
    { c with dev := { c.dev with wait := none } }.reply { status := status, tag := tag, flg := flg, words := if status = 0 then [] else [0] }
  | _ => c

/-- Status ENERGY. -/
def sEnergy : Nat := 0x0B

/-- A burst of a pending copy starts (R528): the half without the valid record is overwritten. -/
def Chip.startBurst (c : Chip) (set : Nat) (r : NvRec) (host : Bool) : Chip :=
  let v := c.nvValid set
  let h := match v with
    | some (0, _) => 1
    | _ => 0
  let seq := match v with
    | some (_, o) => (o.seq + 1) % 2 ^ 32
    | none => 1
  let k := c.kpr
  let c := { c with kpr := { k with half := nset none k.half (2 * set + h) none
                                    burst := some { set := set, body := { r with seq := seq }, host := host } } }
  (c.set KPR.STAT.BURST 0 1).set KPR.STAT.BSET 0 set

/-- A set's pending copy is judged on a VSTORE sample (R529): a burst, or a refusal. -/
def Chip.judge (c : Chip) (set vst : Nat) (host : Bool) : Chip :=
  match nget none c.kpr.pend set with
  | none => c
  | some r =>
    if admits c.kprCfg.1 vst r.blks then c.startBurst set r host
    else
      let c := (c.set KPR.NVS.LAST set 2).whenMain (fun c => (c.flag KPR.EVT.REFUSE).inc KPR.CNT.REFUSED)
      let seen := nget 0 c.kpr.refusing set == 1
      let c := { c with kpr := { c.kpr with refusing := nset 0 c.kpr.refusing set 1 } }
      let c := if seen then c else c.raise 3
      if host then c.nvReply sEnergy else c

/-- Pending copies are judged in the order fault set, energy record, configuration image, until a burst starts (R531). -/
def Chip.judgeAll (c : Chip) (vst : Nat) : Chip :=
  [2, 1, 0].foldl (fun c set => if c.kpr.burst.isSome then c else c.judge set vst false) c

/-- The commit block is written: the burst's record is its set's valid record (R528, R532). -/
def Chip.burstDone (c : Chip) : Chip :=
  match c.kpr.burst with
  | none => c
  | some b =>
    let h := match c.nvValid b.set with
      | some (0, _) => 1
      | _ => 0
    let k := c.kpr
    let c := { c with kpr := { k with half := nset none k.half (2 * b.set + h) (some b.body), burst := none
                                      refusing := nset 0 k.refusing b.set 0
                                      pend := if b.newer then k.pend else nset none k.pend b.set none } }
    let c := if b.newer then c else (c.set KPR.NVS.PEND b.set 0).set KPR.NVS.PBLKS b.set 0
    let c := ((c.showNv b.set).set KPR.NVS.LAST b.set 1).whenMain (fun c => c.inc KPR.CNT.COMMITS)
    let c := (c.set KPR.STAT.BURST 0 0).set KPR.STAT.BSET 0 0
    if b.host then c.nvReply 0 else c

/-- The burst stops after the block in progress (R530): the record stays pending. -/
def Chip.burstAbort (c : Chip) : Chip :=
  match c.kpr.burst with
  | none => c
  | some b =>
    let c := { c with kpr := { c.kpr with burst := none } }
    let c := ((c.set KPR.NVS.LAST b.set 3).whenMain (fun c => (c.flag KPR.EVT.ABORT).inc KPR.CNT.ABORTED)).raise 3
    let c := (c.set KPR.STAT.BURST 0 0).set KPR.STAT.BSET 0 0
    if b.host then c.nvReply sEnergy else c

end Sys2Proof.Machine
end

