-- ==== Sys2Proof/Machine/Meter.lean ====
section
/-! DEFINITION. Energy meter: channels, power samples, accumulators, pulses, snapshots, records (chapter 15, R416 to R434). -/

namespace Sys2Proof.Machine

open Reg

/-- Channel ch. -/
def Chip.mch (c : Chip) (ch : Nat) : MeterCh := nget {} c.mtr.chs ch

/-- Channel ch takes a new record. -/
def Chip.setMch (c : Chip) (ch : Nat) (v : MeterCh) : Chip := { c with mtr := { c.mtr with chs := nset {} c.mtr.chs ch v } }

/-- Pulse output k. -/
def Chip.pls (c : Chip) (k : Nat) : PulseOut := nget {} c.mtr.outs k

/-- Pulse output k takes a new record; its residue shows in MTR.PST. -/
def Chip.setPls (c : Chip) (k : Nat) (v : PulseOut) : Chip :=
  { c with mtr := { c.mtr with outs := nset {} c.mtr.outs k v } }.set MTR.PST.RES k (v.res / 2 ^ 24)

/-- The meter runs (R272). -/
def Chip.meterRuns (c : Chip) : Bool := c.inRun && c.on MTR.CFG.EN

/-! Channels -/

/-- Samples that a channel keeps: the window, the Hilbert filter, its delay and the range of PHC. -/
def mtrKeep : Nat := 3600

/-- eps of R417: 2 pi × fc × 32 us as binary32, fc 0.01, 0.03 or 0.1 Hz. -/
def leakEps (leak : Nat) : Word :=
  let fc := if leak = 0 then 1 else if leak = 1 then 3 else 10
  F32.ofRat ((F32.twoPi60 * fc * 32 : Nat) : Int) (100 * 1000000 * 2 ^ 60)

/-- Half the sample period T = 32 us, in seconds. -/
def halfT : Word := F32.ofRat 16 1000000

/-- One input sample of channel ch with its mark (R416 to R419). -/
def Chip.meterIn (c : Chip) (ch : Nat) (s : Word × Bool) : Chip :=
  let m := c.mch ch
  let k := c.getW MTR.CH.K ch
  let bad := F32.isNaN s.1
  let x := if bad then m.x else s.1
  let rogo := decide (3 ≤ ch) && c.get MTR.CH.SENS ch == 2
  let eps := leakEps (c.get MTR.CH.LEAK ch)
  let y := F32.add (F32.mul (F32.sub F32.one eps) m.y) (F32.mul halfT (F32.add x m.x))
  let ys := if rogo then (y :: m.ys).take 16 else []
  let v := if rogo then F32.mul k (Config.rogowskiInverse (c.get MTR.CH.LEAK ch) (c.get MTR.NOM.FNOM) ys) else F32.mul k x
  let run := if bad then m.bad + 1 else 0
  let enters := bad && run == 3125
  let need := if enters then 3125 else if bad then m.need else m.need - 1
  let fresh := enters && m.need == 0
  let c := c.setMch ch { m with
    hist := ((v, s.2) :: m.hist).take mtrKeep, y := if rogo then y else m.y, x := x, ys := ys, bad := run, need := need }
  if fresh then (c.flag MTR.EVT.INPUT).raise 55 0 else c

/-- Channel ch takes the metering outputs of its decimator up to raw instant x. -/
def Chip.meterTake (c : Chip) (ch x : Nat) : Chip :=
  let from_ := (c.mch ch).lastX
  let l := ((c.decim (c.get MTR.CH.DEC ch)).meter.filter (fun o =>
    decide (o.2.1 ≤ x) && (match from_ with
      | some f => decide (f < o.2.1)
      | none => true))).reverse
  let c := c.each l (fun c o => c.meterIn ch (o.1, o.2.2))
  match l.getLast? with
  | some o => c.setMch ch { c.mch ch with lastX := some o.2.1 }
  | none => c

/-- Phase element e is invalid (R419). -/
def Chip.elemInvalid (c : Chip) (e : Nat) : Bool := decide (0 < (c.mch e).need) || decide (0 < (c.mch (3 + e)).need)

/-- MTR.STAT follows the channels (R417, R419). -/
def Chip.meterStat (c : Chip) : Chip :=
  let rogo := (upTo 3).any (fun i => c.get MTR.CH.SENS (3 + i) == 2)
  let c := c.set MTR.STAT.INVAL 0 (ofBits ((upTo 3).filter c.elemInvalid))
  c.setB MTR.STAT.SETTLE 0 (rogo && decide (c.now < c.mtr.runAt + 5 * secTaps))

/-- METER_INPUT_INVALID (R419): channel ch takes its samples up to t; 100 ms of replacements make its element invalid. -/
def execMeterInputInvalid (t ch : Nat) (s : State) : Host.Outcome State Fault Refusal :=
  run (fun _ c =>
    let c := c.at_ t
    if c.meterRuns ∧ ch < 6 then (c.meterTake ch (c.raw c.now)).meterStat else c) s

/-! Power samples -/

/-- Largest advance that a channel's PHC asks for, in whole samples (log entry 41). -/
def Chip.phcBase (c : Chip) : Nat :=
  (upTo 6).foldl (fun a ch => Nat.max a ((63 - c.getI MTR.CH.PHC ch) / 64).toNat) 0

/-- Samples of a channel with PHC applied by linear interpolation (R418), newest first. -/
def Chip.corrSamples (c : Chip) (base ch : Nat) : List Word :=
  let d := (64 * base : Int) + c.getI MTR.CH.PHC ch
  let k := (d / 64).toNat
  let fr := (d % 64).toNat
  let h := ((c.mch ch).hist.map (·.1)).drop k
  if fr = 0 then h
  else
    let w := F32.ofRat fr 64
    List.zipWith (fun a b => F32.add a (F32.mul w (F32.sub b a))) h (h.drop 1)

/-- The lists that start at the newest, at the one before, and so on, n of them. -/
def tails (n : Nat) (l : List Word) : List (List Word) := (upTo n).map (fun i => (l.drop i).take 255)

/-- The mean of a window held exactly (R421). -/
def windowMean (l : List Word) : Word := F32.div (F32.sumExact l) (F32.ofNat 3125)

/-- P, Q, VRMS and IRMS of phase element e (R420, R421); none until the window is full. -/
def Chip.elemSample (c : Chip) (e : Nat) : Option (Word × Word × Word × Word) :=
  let base := c.phcBase
  let v := c.corrSamples base e
  let i := c.corrSamples base (3 + e)
  if v.length < 3125 + 254 ∨ i.length < 3125 + 127 then none
  else
    let p := List.zipWith F32.mul (v.take 3125) (i.take 3125)
    let q := List.zipWith F32.mul ((tails 3125 v).map Config.hilbert) ((i.drop 127).take 3125)
    let rms := fun l => F32.sqrt (windowMean (l.map (fun a => F32.mul a a)))
    some (windowMean p, windowMean q, rms (v.take 3125), rms (i.take 3125))

/-- |w| × 125 in units of 2^-24, to nearest, ties to even (R422, R424). -/
def energyOf (w : Word) : Nat :=
  let x := F32.expo w + 24
  let m := F32.mant w * 125
  if 0 ≤ x then m * 2 ^ x.toNat else F32.shiftRound m (-x).toNat false

/-- Units of a pulse in 2^-24 uJ (R428). -/
def Chip.pulseUnit (c : Chip) (k : Nat) : Nat := c.get MTR.PLS.EPP k * 1000000 * 2 ^ 24

/-- Output k receives an increment (R428, R429). -/
def Chip.pulseAdd (c : Chip) (k inc : Nat) : Chip :=
  let u := c.pulseUnit k
  if u = 0 then c
  else
    let o := c.pls k
    let r := o.res + inc
    let n := r / u
    let c := c.setPls k { o with res := r % u }
    let pend := c.get MTR.PST.PEND k
    let room := 65535 - pend
    let c := c.set MTR.PST.PEND k (pend + Nat.min n room)
    if n ≤ room then c
    else
      let c := (c.incBy MTR.CNT.PLSLOST 0 (n - room)).flag MTR.EVT.PLSOVR
      let c := if o.lost then c else c.raise 55 1
      c.setPls k { c.pls k with lost := true }

/-- Accumulator i receives an increment; 80 bits and 24 bits of fraction wrap (R424). -/
def Chip.accAdd (c : Chip) (i inc : Nat) : Chip :=
  let c := { c with mtr := { c.mtr with acc := nset 0 c.mtr.acc i ((nget 0 c.mtr.acc i + inc) % 2 ^ 104) } }
  c.each ((upTo 4).filter (fun k => c.on MTR.PLS.EN k && 7 * c.get MTR.PLS.ELEM k + c.get MTR.PLS.QTY k == i &&
    c.get MTR.PLS.QTY k != 7)) (fun c k => c.pulseAdd k inc)

/-- Active and reactive quantity of signs (R422). -/
def quantities (p q : Word) : Option Nat × Option Nat :=
  let pp := F32.lt F32.zeroP p
  let pn := F32.lt p F32.zeroP
  let qp := F32.lt F32.zeroP q
  let qn := F32.lt q F32.zeroP
  let act := if pp then some 0 else if pn then some 1 else none
  let rea :=
    if qp then (if pn then some 3 else some 2)
    else if qn then (if pn then some 4 else some 5)
    else none
  (act, rea)

/-- The no-load limit of element e (R423). -/
def Chip.creep (c : Chip) (e : Nat) : Word :=
  let v := toWord (c.get MTR.NOM.VNOM * 2)
  let l := F32.mul (F32.mul (F32.ofRat (c.get MTR.CFG.CREEP) 100000) v) (c.getW MTR.NOM.INOM)
  if e = 3 then F32.mul (F32.ofNat 3) l else l

/-- S of R421. -/
def apparent (p q : Word) : Word := F32.sqrt (F32.add (F32.mul p p) (F32.mul q q))

/-- Accumulator i receives w × 125 us; the increment of a value that is not finite is free (R424 gives none, log entry 104). -/
def Chip.accEnergy (c : Chip) (i : Nat) (w : Word) : Chip :=
  if F32.isFinite w then c.accAdd i (energyOf w) else c.freeNat.2.accAdd i (c.freeNat.1 % 2 ^ 104)

/-- One element's sample (R422, R423). -/
def Chip.elemAdd (c : Chip) (e : Nat) (p q v i : Word) : Chip :=
  let s := apparent p q
  let lim := c.creep e
  let lowP := F32.lt (F32.abs p) lim
  let lowQ := F32.lt (F32.abs q) lim
  let k := quantities p q
  let c := match k.1 with
    | some n => if lowP then c else c.accEnergy (7 * e + n) p
    | none => c
  let c := match k.2 with
    | some n => if lowQ then c else c.accEnergy (7 * e + n) q
    | none => c
  let c := if lowP && lowQ then c else c.accEnergy (7 * e + 6) s
  let pf := if F32.isZero s then F32.zeroP else F32.div p s
  let c := ((c.setW MTR.INST.P e p).setW MTR.INST.Q e q).setW MTR.INST.S e s
  (((c.setW MTR.INST.PF e pf).setW MTR.INST.VRMS e v).setW MTR.INST.IRMS e i).inc MTR.CNT.SAMPLES

/-- The power samples of the grid instant last reached (R421). -/
def Chip.powerSample (c : Chip) : Chip :=
  let x := c.raw c.now
  let k := x / (125 * usTaps)
  let c := c.each (upTo 6) (fun c ch => c.meterTake ch (k * (125 * usTaps)))
  let c := { c with mtr := { c.mtr with lastK := k } }.meterStat
  let base := c.phcBase
  let c := c.setB MTR.STAT.INTERP 0 ((upTo 6).any (fun ch => (((c.mch ch).hist.drop base).take 3125).any (·.2)))
  let zero := F32.zeroP
  let get := fun (c : Chip) (e : Nat) => if c.elemInvalid e then some (zero, zero, zero, zero) else c.elemSample e
  match get c 0, get c 1, get c 2 with
  | some a, some b, some d =>
    let c := c.each ((upTo 3).filter c.elemInvalid) (fun c _ => c.inc MTR.CNT.INVAL)
    let c := ((c.elemAdd 0 a.1 a.2.1 a.2.2.1 a.2.2.2).elemAdd 1 b.1 b.2.1 b.2.2.1 b.2.2.2).elemAdd 2 d.1 d.2.1 d.2.2.1 d.2.2.2
    c.elemAdd 3 (F32.add (F32.add a.1 b.1) d.1) (F32.add (F32.add a.2.1 b.2.1) d.2.1) zero zero
  | _, _, _ => c

/-- The grid instant k × 125 us last reached has its power samples, once. -/
def Chip.dueSample (c : Chip) : Chip :=
  if c.meterRuns ∧ c.mtr.lastK < c.raw c.now / (125 * usTaps) then c.powerSample else c

/-- POWER_SAMPLE (R421). -/
def execPowerSample (t : Nat) (s : State) : Host.Outcome State Fault Refusal := run (fun _ c => (c.at_ t).dueSample) s

/-! Pulses -/

/-- Output k may pulse. -/
def Chip.plsOn (c : Chip) (k : Nat) : Bool := c.meterRuns && c.on MTR.PLS.EN k && decide (k < 4)

/-- PULSE_START (R429): a queued pulse starts once the inactive time has passed. -/
def execPulseStart (t k : Nat) (s : State) : Host.Outcome State Fault Refusal :=
  run (fun _ c =>
    let c := c.at_ t
    let o := c.pls k
    let n := c.get MTR.PST.PEND k
    if c.plsOn k ∧ n ≠ 0 ∧ o.until_ = none ∧ o.free ≤ c.now then
      (c.set MTR.PST.PEND k (n - 1)).setPls k { o with
        until_ := some (c.now + c.get MTR.PLS.PW k * msTaps), lost := o.lost && decide (n ≠ 1) }
    else c) s

/-- PULSE_END (R429): PW ms after its start. -/
def execPulseEnd (t k : Nat) (s : State) : Host.Outcome State Fault Refusal :=
  run (fun _ c =>
    let c := c.at_ t
    let o := c.pls k
    match o.until_ with
    | some e =>
      if e ≤ c.now ∧ k < 4 then c.setPls k { o with until_ := none, free := c.now + c.get MTR.PLS.PW k * msTaps } else c
    | none => c) s

/-- Level of PLSk out of reset (R429). -/
def Chip.plsPin (c : Chip) (k : Nat) : Bool := (c.plsOn k && (c.pls k).until_.isSome) != c.on MTR.PLS.POL k

/-! Snapshots and records -/

/-- Bits [79:64] of accumulator i. -/
def Chip.accHigh (c : Chip) (i : Nat) : Nat := nget 0 c.mtr.acc i / 2 ^ 88

/-- A write of MTR.CTL.SNAP takes effect (R425): the power samples of this instant and before it are in. -/
def Chip.meterSnap (c : Chip) : Chip :=
  let c := c.dueSample
  let st := c.stamp (c.raw c.now)
  let c := c.each (upTo 28) (fun c i =>
    let h := c.accHigh i
    let w := (h + 65536 - nget 0 c.mtr.hprev i) % 65536
    let c := (c.set MTR.SNAP.VALUE i (nget 0 c.mtr.acc i / 2 ^ 24)).set MTR.SNAP.WRAP i (Nat.min w 255)
    let c := c.setB MTR.SNAP.OVF i (decide (255 < w))
    { c with mtr := { c.mtr with hprev := nset 0 c.mtr.hprev i h } })
  ((c.incMod MTR.SNAPH.NUM).set MTR.SNAPH.TIME 0 st.1).set MTR.SNAPH.TAP 0 st.2

/-- METER_SNAPSHOT (R425). -/
def execMeterSnapshot (t : Nat) (s : State) : Host.Outcome State Fault Refusal :=
  run (fun _ c => let c := c.at_ t; if c.fabric then c.meterSnap else c) s

/-- A write of MTR.CTL.ZERO takes effect (R427). -/
def Chip.meterZero (c : Chip) : Chip :=
  let c := { c with mtr := { c.mtr with acc := [], hprev := [] } }
  c.each (upTo 4) (fun c k => (c.setPls k { c.pls k with res := 0, lost := false }).set MTR.PST.PEND k 0)

/-- METER_ZERO (R427): refused in RUN. -/
def execMeterZero (t : Nat) (s : State) : Host.Outcome State Fault Refusal :=
  run (fun _ c => let c := c.at_ t; if c.fabric && !c.inRun then c.meterZero else c) s

/-- The meter's record (R430): accumulators, residues, PEND, Hprev, last snapshot number. -/
def Chip.meterRec (c : Chip) (tag : Nat) : MeterRec :=
  { tag := tag
    vals := (upTo 28).map (fun i => nget 0 c.mtr.acc i) ++ (upTo 4).map (fun k => (c.pls k).res) ++
      (upTo 4).map (fun k => c.get MTR.PST.PEND k) ++ (upTo 28).map (fun i => nget 0 c.mtr.hprev i) ++
      [c.get MTR.SNAPH.NUM] }

/-- A copy to retention RAM (R430); WARNING and RESET copies become pending at once (R531). -/
def Chip.meterCopy (c : Chip) (tag : Nat) : Chip :=
  let m := c.meterRec tag
  let c := { c with kpr := { c.kpr with meter := some m } }
  if tag = 0 then c else c.pend 1 (meterNv m)

/-- METER_RECORD_COPY (R430, R531): every ECPER s; every NVPER minutes the copy becomes pending for commit. -/
def execMeterRecordCopy (t : Nat) (s : State) : Host.Outcome State Fault Refusal :=
  run (fun _ c =>
    let c := c.at_ t
    if c.meterRuns ∧ c.mtr.copyAt + c.get MTR.CFG.ECPER * secTaps ≤ c.now then
      let c := { c.meterCopy 0 with mtr := { c.mtr with copyAt := c.now } }
      if c.kpr.nvAt + c.get KPR.CFG.NVPER * 60 * secTaps ≤ c.now then
        { c with kpr := { c.kpr with nvAt := c.now } }.pend 1 (meterNv (c.meterRec 0))
      else c
    else c) s

/-- The meter takes over a record (R431). -/
def Chip.meterLoad (c : Chip) (m : MeterRec) (src : Nat) : Chip :=
  let v := fun i => m.vals.getD i 0
  let tab := fun (l : List (Nat × Nat)) => l.foldl (fun (a : NTab Nat) x => nset 0 a x.1 x.2) []
  let c := { c with mtr := { c.mtr with
    acc := tab ((upTo 28).map (fun i => (i, v i))), hprev := tab ((upTo 28).map (fun i => (i, v (36 + i)))) } }
  let c := c.each (upTo 4) (fun c k => (c.setPls k { c.pls k with res := v (28 + k) }).set MTR.PST.PEND k (v (32 + k)))
  let c := (c.set MTR.SNAPH.NUM 0 (v 64)).set MTR.STAT.RSRC 0 src
  if m.tag = 0 then (c.flag MTR.EVT.RLOSS).raise 55 2 else c

/-- Entry to RUN (R417, R429, R431): channels start afresh, no pulse is in progress; after L0, L1 or main POR the newest valid record is restored. -/
def Chip.meterEnter (c : Chip) : Chip :=
  let due := c.mtr.restore
  let c := { c with mtr := { c.mtr with
    chs := [], lastK := c.raw c.now / (125 * usTaps), runAt := c.now, copyAt := c.now, restore := false
    outs := c.mtr.outs.map (fun e => (e.1, { e.2 with until_ := none })) } }
  if !due then c
  else
    match c.kpr.meter, c.nvValid 1 with
    | some m, _ => c.meterLoad m 1
    | none, some (_, r) => c.meterLoad { tag := r.nums.headD 0, vals := r.nums.drop 1 } 2
    | none, none => ((c.meterZero.set MTR.STAT.RSRC 0 0).flag MTR.EVT.RLOSS).raise 55 2

/-- A reset of the MTR block or of level L2 (R431): energy is kept, windows restart, the integrators go on (R417). -/
def Chip.resetMtr (c : Chip) : Chip :=
  let drop := fun (k : Key) => (decide (0x4C10 ≤ k.id ∧ k.id < 0x5000) && k.id != 0x4C13) || k.id == 0x4C04 ||
    (k.id == 0x4C00 && k.lo != 31) || (k.id == 0x4C01 && k.lo == 12)
  { c with
    regs := c.regs.filter (fun e => !drop e.1)
    mtr := { c.mtr with chs := c.mtr.chs.map (fun e => (e.1, { e.2 with hist := [] })), lastK := c.raw c.now / (125 * usTaps) } }

end Sys2Proof.Machine
end

