-- ==== Sys2Proof/Machine/Keeper.lean ====
section
/-! DEFINITION. Keeper: supply, cell, charger, harvester, RTC, log, bursts, slack servo (chapter 20, R511 to R536). -/

namespace Sys2Proof.Machine

open Reg

/-! RTC and log -/

/-- The KEEP domain runs (R501). -/
def Chip.keepRuns (c : Chip) : Bool := c.on RST.DOM.KEEP

/-- The RTC in 1/32,768 s units (R519). -/
def Chip.rtcNow (c : Chip) : Nat := c.kpr.rtc + (c.now - c.kpr.rtcAt) * 32768 / secTaps

/-- A number of 1/32,768 s units in units of 8 ns. -/
def rtcTo8ns (r : Nat) : Nat := r * 125000000 / 32768

/-- The keeper rail loses its supply (R518, R524): RTC, retention RAM and log are lost; the record store survives. -/
def Chip.keeperLost (c : Chip) : Chip :=
  let c := { c with kpr := { half := c.kpr.half, srv := c.kpr.srv, asleep := c.kpr.asleep, wake := c.kpr.wake, osc := false } }
  let c := c.each (upTo 3) (fun c i => (c.set KPR.NVS.PEND i 0).set KPR.NVS.PBLKS i 0)
  let c := ((c.set RST.DOM.KEEP 0 0).set KPR.STAT.RTCV 0 0).set KPR.STAT.BURST 0 0
  (((c.set RST.LOG.START 0 0).set RST.LOG.OPEN 0 0).set RST.LOG.DUR 0 0).set KPR.STAT.BSET 0 0

/-- The newest log entry changes. -/
def Chip.logLast (c : Chip) (f : LogEntry → LogEntry) : Chip :=
  match c.kpr.log.getLast? with
  | none => c
  | some e => { c with kpr := { c.kpr with log := c.kpr.log.dropLast ++ [f e] } }

/-- A load cut ends (R523): its entry records its duration. -/
def Chip.cutEnds (c : Chip) : Chip :=
  match c.kpr.cutAt with
  | none => c
  | some x =>
    let dur := (c.now - x) / msTaps
    let log := c.kpr.log.map (fun e => if !e.rst && e.open_ then { e with open_ := false, dur := dur } else e)
    { c with kpr := { c.kpr with cutAt := none, log := log } }

/-- RTC_WRITE (R519): once per second while TVALID is 1, at a whole corrected second; lands on the next KEEP edge. -/
def execRtcWrite (t : Nat) (s : State) : Host.Outcome State Fault Refusal :=
  run (fun _ c =>
    let c := c.at_ t
    let tc := c.corrected (c.raw c.now)
    let sec := tc / (secTaps : Int)
    if tc % (secTaps : Int) < 8 ∧ c.on TIM.STAT.TVALID ∧ c.released 1 ∧ c.keepRuns ∧ c.kpr.rtcSec ≠ some sec then
      { c with kpr := { c.kpr with rtc := (sec % 2 ^ 49).toNat * 32768, rtcAt := c.now, rtcSec := some sec } }.set
        KPR.STAT.RTCV 0 1
    else c) s

/-! Supply, cell and charger -/

/-- The charger draws from VIN33 (R522): pre-charge below 3.00 V, then charging, none at charge end. -/
def Chip.chargerOn (c : Chip) : Chip :=
  if c.kpr.full then c.set KPR.STAT.CHG 0 3
  else
    let c := { c with kpr := { c.kpr with chargeFrom := some c.now, chargeLate := false } }
    c.set KPR.STAT.CHG 0 (if c.get KPR.VMON.VST < 3000 then 1 else 2)

/-- SUPPLY_WARNING (R516): VIN33 falls through V_WARN. -/
def execSupplyWarning (t : Nat) (s : State) : Host.Outcome State Fault Refusal :=
  run (fun _ c =>
    let c := c.at_ t
    if c.rst.vin ∧ c.on KPR.STAT.RAIL then
      let c := (c.set KPR.STAT.RAIL 0 0).set KPR.STAT.CHG 0 0
      let c := { c with kpr := { c.kpr with chargeFrom := none } }
      let c := c.whenMain (fun c => (((c.raise 0).inc KPR.CNT.WARN).flag KPR.EVT.WARN).meterCopy 1)
      if c.on KPR.STAT.CONN then c else c.keeperLost
    else c) s

/-- SUPPLY_RESTORED (R516): VIN33 rises through the rising V_WARN before main POR. -/
def execSupplyRestored (t : Nat) (s : State) : Host.Outcome State Fault Refusal :=
  run (fun _ c =>
    let c := c.at_ t
    if c.rst.vin ∧ ¬ c.on KPR.STAT.RAIL then ((c.set KPR.STAT.RAIL 0 1).cutEnds).chargerOn else c) s

/-- KEEPER_POR (R518): the rail first rises after having been without supply; every keeper state is cleared. -/
def execKeeperPor (t : Nat) (s : State) : Host.Outcome State Fault Refusal :=
  run (fun _ c =>
    let c := c.at_ t
    if !c.keepRuns && !c.kpr.kpor && (c.rst.vin || c.on KPR.STAT.CONN) then
      let c := c.keeperLost
      let c := { c with kpr := { c.kpr with kpor := true } }
      let c := c.setB KPR.STAT.RAIL 0 c.rst.vin
      if c.rst.vin then c.chargerOn else c
    else c) s

/-- CRYSTAL_OSCILLATOR_START (R562): the KEEP domain leaves keeper POR; the RTC counts from 0. -/
def execCrystalOscillatorStart (t : Nat) (s : State) : Host.Outcome State Fault Refusal :=
  run (fun _ c =>
    let c := c.at_ t
    if !c.keepRuns && c.kpr.kpor then
      { c with kpr := { c.kpr with osc := true, rtc := 0, rtcAt := c.now } }.set RST.DOM.KEEP 0 1
    else c) s

/-- LOAD_CUT (R523): VSTORE falls through load cut while the rail is fed from VSTORE. -/
def execLoadCut (t : Nat) (s : State) : Host.Outcome State Fault Refusal :=
  run (fun _ c =>
    let c := c.at_ t
    if c.keepRuns ∧ ¬ c.on KPR.STAT.RAIL ∧ c.kpr.cutAt = none then
      { c with kpr := { c.kpr with
        cutAt := some c.now, lcuts := c.kpr.lcuts + 1
        log := c.kpr.log ++ [{ rst := false, start := rtcTo8ns c.rtcNow, open_ := true }] } }
    else c) s

/-- CELL_DISCONNECT (R524, R526): the cell switch opens; a rail fed from VSTORE loses supply. -/
def execCellDisconnect (t : Nat) (s : State) : Host.Outcome State Fault Refusal :=
  run (fun _ c =>
    let c := c.at_ t
    if c.on KPR.STAT.CONN then
      let c := (c.set KPR.STAT.CONN 0 0).raise 2
      if c.on KPR.STAT.RAIL then c else (c.set KPR.STAT.HARV 0 0).keeperLost
    else c) s

/-- CELL_RECONNECT (R522, R523): VSTORE reaches reconnect; the switch closes and a load cut ends. -/
def execCellReconnect (t : Nat) (s : State) : Host.Outcome State Fault Refusal :=
  run (fun _ c =>
    let c := c.at_ t
    (c.set KPR.STAT.CONN 0 1).cutEnds) s

/-- PRE_CHARGE_END (R522): VSTORE rises through 3.00 V. -/
def execPreChargeEnd (t : Nat) (s : State) : Host.Outcome State Fault Refusal :=
  run (fun _ c =>
    let c := c.at_ t
    if c.get KPR.STAT.CHG = 1 then c.set KPR.STAT.CHG 0 2 else c) s

/-- CHARGE_END (R522): charging stops, harvester included (R525). -/
def execChargeEnd (t : Nat) (s : State) : Host.Outcome State Fault Refusal :=
  run (fun _ c =>
    let c := c.at_ t
    if c.kpr.full then c
    else
      let c := { c with kpr := { c.kpr with full := true, chargeFrom := none } }
      (c.set KPR.STAT.CHG 0 (if c.on KPR.STAT.RAIL then 3 else 0)).set KPR.STAT.HARV 0 0) s

/-- CHARGE_RESTART (R522): VSTORE falls below charge restart. -/
def execChargeRestart (t : Nat) (s : State) : Host.Outcome State Fault Refusal :=
  run (fun _ c =>
    let c := c.at_ t
    if c.kpr.full then
      let c := { c with kpr := { c.kpr with full := false } }
      if c.on KPR.STAT.RAIL then c.chargerOn else c
    else c) s

/-- CHARGE_TIMEOUT (R526): VIN33 has fed the charger for 24 h without the cell reaching charge end. -/
def execChargeTimeout (t : Nat) (s : State) : Host.Outcome State Fault Refusal :=
  run (fun _ c =>
    let c := c.at_ t
    match c.kpr.chargeFrom with
    | some x =>
      if x + 86400 * secTaps ≤ c.now ∧ ¬ c.kpr.chargeLate then { c with kpr := { c.kpr with chargeLate := true } }.raise 2 else c
    | none => c) s

/-- MPPSET_SAMPLE (R525): at keeper POR and every 64 s the resistance at MPPSET in ohms is taken; vteg is the harvester's input in
0.1 mV. It runs from 20 mV up while charging is allowed. -/
def execMppsetSample (t ohms vteg : Nat) (s : State) : Host.Outcome State Fault Refusal :=
  run (fun _ c =>
    let c := c.at_ t
    let due := match c.kpr.mppAt with
      | none => true
      | some x => decide (x + 64 * secTaps ≤ c.now)
    if c.keepRuns && due then
      let c := { c with kpr := { c.kpr with mppAt := some c.now, rmpp := ohms } }
      (c.set KPR.VMON.VTEG 0 vteg).setB KPR.STAT.HARV 0 (!c.kpr.full && decide (200 ≤ vteg))
    else c) s

/-- HARVESTER_COLD_START (R525): with the cell switch open and no VIN33 the harvester starts; the rail stays down. -/
def execHarvesterColdStart (t : Nat) (s : State) : Host.Outcome State Fault Refusal :=
  run (fun _ c =>
    let c := c.at_ t
    if ¬ c.on KPR.STAT.CONN ∧ ¬ c.rst.vin then c.set KPR.STAT.HARV 0 1 else c) s

/-! Record store -/

/-- NV_JUDGE (R531, R523): once per second, once per 16 s in a load cut, on a VSTORE sample in mV. -/
def execNvJudge (t vst : Nat) (s : State) : Host.Outcome State Fault Refusal :=
  run (fun _ c =>
    let c := c.at_ t
    let due := match c.kpr.judgedAt with
      | none => true
      | some x => decide (x + (if c.kpr.cutAt.isSome then 16 else 1) * secTaps ≤ c.now)
    if c.keepRuns && due && c.kpr.burst.isNone then
      let c := { c.sampleVst vst with kpr := { c.kpr with judgedAt := some c.now, vstAt := some c.now } }
      if c.kpr.cutAt.isSome then c else c.judgeAll vst
    else c) s

/-- NV_BURST_DONE (R528, R531): the record is valid; what is pending is judged on a new sample. -/
def execNvBurstDone (t vst : Nat) (s : State) : Host.Outcome State Fault Refusal :=
  run (fun _ c =>
    let c := c.at_ t
    if c.kpr.burst.isSome then
      let c := c.burstDone.sampleVst vst
      if c.kpr.cutAt.isSome then c else c.judgeAll vst
    else c) s

/-- NV_BURST_ABORT (R530, R531): VSTORE falls below VABT before the commit block. -/
def execNvBurstAbort (t vst : Nat) (s : State) : Host.Outcome State Fault Refusal :=
  run (fun _ c =>
    let c := c.at_ t
    if c.kpr.burst.isSome then
      let c := c.burstAbort.sampleVst vst
      if c.kpr.cutAt.isSome then c else c.judgeAll vst
    else c) s

/-- What the keeper reports at main start-up (R518, R526). -/
def Chip.keeperReport (c : Chip) : Chip :=
  let any := c.kpr.kpor || decide (0 < c.kpr.lcuts)
  let c := if c.kpr.kpor then c.flag KPR.EVT.KPOR else c
  let c := if 0 < c.kpr.lcuts then (c.flag KPR.EVT.LCUT).incBy KPR.CNT.LCUT 0 c.kpr.lcuts else c
  let c := { c with kpr := { c.kpr with kpor := c.kpr.kpor && !c.keepRuns, lcuts := 0 } }
  if any then c.raise 2 else c

/-! Slack servo -/

/-- Servo modes of KPR.STAT.SMODE. -/
def smNormal : Nat := 0
def smEmerg : Nat := 1
def smFixed : Nat := 2
def smIdle : Nat := 3

/-- Entry to RUN (R513): NORMAL, or FIXED when FIX is 1. -/
def Chip.servoEnter (c : Chip) : Chip :=
  { c with kpr := { c.kpr with srv := {} } }.set KPR.STAT.SMODE 0 (if c.on KPR.SERVO.FIX then smFixed else smNormal)

/-- Exit from RUN (R512). -/
def Chip.servoExit (c : Chip) : Chip := (c.set KPR.STAT.SMODE 0 smIdle).set KPR.STAT.VSET 0 60

/-- Taps that the buck takes at most for a 5 mV code: 4 mV/us at full slew in EMERG, 0.4 mV/us otherwise (R511, R513). -/
def slewTaps (mode : Nat) : Nat := if mode = smEmerg then 5 * usTaps / 4 else 25 * usTaps / 2

/-- The setpoint or the slew rate has changed since `b`: the new setpoint is reached at most 20 us plus the slew time later (R513). -/
def Chip.vcoreMoved (c b : Chip) : Chip :=
  let v := c.get KPR.STAT.VSET
  let mode := c.get KPR.STAT.SMODE
  let old := b.get KPR.STAT.VSET
  if v = old ∧ (mode = smEmerg ↔ b.get KPR.STAT.SMODE = smEmerg) then c
  else
    let low : Nat := Nat.min v (if c.kpr.srv.reachAt ≤ c.now then old else c.kpr.srv.low)
    { c with kpr := { c.kpr with srv := { c.kpr.srv with
      low := low, reachAt := c.now + 20 * usTaps + (v - low) * slewTaps mode } } }

/-- A write of KPR.SERVO takes effect (R514). -/
def Chip.servoWritten (c : Chip) : Chip :=
  if ¬ c.inRun ∨ c.get KPR.STAT.SMODE = smEmerg then c
  else
    (if c.on KPR.SERVO.FIX then (c.set KPR.STAT.SMODE 0 smFixed).set KPR.STAT.VSET 0 (c.get KPR.SERVO.VFIX)
     else c.set KPR.STAT.SMODE 0 smNormal).vcoreMoved c

/-- VCORE has reached 0.90 V (R511, R513): never while its setpoint is lower, surely when the setpoint has had its time; before that
it is open. -/
def Chip.vcoreTop (c : Chip) : Bool × Chip :=
  if c.get KPR.STAT.VSET ≠ 60 then (false, c)
  else if c.kpr.srv.reachAt ≤ c.now then (true, c)
  else c.freeBit

/-- The servo's evaluation at a tick reference for the tick just completed, slack s in 8 ns units (R513). -/
def Chip.servoTick (c : Chip) (s : Nat) : Chip :=
  let b := c
  let c := c.set KPR.SLACK.LAST 0 s
  let smin : Nat := Nat.min c.kpr.srv.smin s
  let mode := c.get KPR.STAT.SMODE
  let c := { c with kpr := { c.kpr with srv := { c.kpr.srv with smin := smin } } }
  let c :=
    if s * 8 < 100 then
      let top := c.vcoreTop
      let c := if top.1 then top.2.raise 1 else top.2
      let c := if mode = smEmerg then c else c.inc KPR.CNT.EMERG
      let c := { c with kpr := { c.kpr with srv := { c.kpr.srv with good := 0 } } }
      (c.set KPR.STAT.SMODE 0 smEmerg).set KPR.STAT.VSET 0 60
    else if mode = smEmerg then
      let good := if c.get KPR.SERVO.SLO < s then c.kpr.srv.good + 1 else 0
      if good = 16 then
        { c with kpr := { c.kpr with srv := { c.kpr.srv with good := 16, n := 0, smin := 0xFFFF } } }.set
          KPR.STAT.SMODE 0 (if c.on KPR.SERVO.FIX then smFixed else smNormal)
      else { c with kpr := { c.kpr with srv := { c.kpr.srv with good := good } } }
    else c
  let n := c.kpr.srv.n + 1
  let c :=
    if n = c.get KPR.SERVO.SWIN then
      let v : Nat := c.get KPR.STAT.VSET
      let m : Nat := c.kpr.srv.smin
      let step := c.get KPR.SERVO.VSTEP
      let c :=
        if c.get KPR.STAT.SMODE ≠ smNormal then c
        else if m < c.get KPR.SERVO.SLO then c.set KPR.STAT.VSET 0 (Nat.min (v + step) 60)
        else if decide (Chip.get c KPR.SERVO.SHI < m) then c.set KPR.STAT.VSET 0 (Nat.max (v - step) (c.get KPR.SERVO.VFLOOR))
        else c
      { c with kpr := { c.kpr with srv := { c.kpr.srv with n := 0, smin := 0xFFFF } } }.set KPR.SLACK.MIN 0 m
    else { c with kpr := { c.kpr with srv := { c.kpr.srv with n := n } } }
  (if c.get KPR.STAT.SMODE = smFixed then c.set KPR.STAT.VSET 0 (c.get KPR.SERVO.VFIX) else c).vcoreMoved b

/-- A reset of the KPR block (R536, R509): its settings return, and with them the servo's mode (DEDUCED from R514: FIX is then 0); the
servo window restarts, the keeper domain is untouched. -/
def Chip.resetKpr (c : Chip) : Chip :=
  let drop := fun (k : Key) => decide (0x1000 ≤ k.id ∧ k.id < 0x1010) || k.id == 0x1016
  let c : Chip := { c with
    regs := c.regs.filter (fun e => !drop e.1)
    kpr := { c.kpr with srv := { c.kpr.srv with n := 0, smin := 0xFFFF } } }
  c.servoWritten

end Sys2Proof.Machine
end

