-- ==== Sys2Proof/Machine/FaultRecord.lean ====
section
/-! DEFINITION. Opening of the fault records of the locator (R412), which trips, fault events and travelling waves share. -/

namespace Sys2Proof.Machine

open Reg

/-- A corrected time in 1/16 tap as TIME, TAP and FINE. -/
def fineTime (t : Int) : Nat × Nat × Nat := (((t / 1024) % 2 ^ 64).toNat, ((t / 16) % 64).toNat, (t % 16).toNat)

/-- Slot of a record (R413). -/
def frecSlot (num : Nat) : Nat := num % 16

/-- Record NUM opens at corrected time `t16` (1/16 tap), raw instant x; the arrivals shown are those of the new record. -/
def Chip.openRecord (c : Chip) (x : Nat) (t16 : Int) (tw : Bool) : Chip :=
  let num := c.pmu.num
  let i := frecSlot num
  let c := { c with regs := c.regs.filter (fun e => !(e.1.id == 0x4812 && e.1.inst == i) && !(e.1.id == 0x4811)) }
  let ft := fineTime t16
  let c := (((c.set PMU.FREC.NUM i num).set PMU.FREC.TIME i ft.1).set PMU.FREC.TAP i ft.2.1).set PMU.FREC.FINE i ft.2.2
  let c := (c.setB PMU.FREC.TWV i tw).set PMU.STAT.REC 0 1
  { c with pmu := { c.pmu with
      num := (num + 1) % 65536, openAt := some x, lastOpen := some x, arrivals := [], collecting := false } }

/-- Slot of the record opened last. -/
def Chip.openSlot (c : Chip) : Nat := frecSlot (c.pmu.num + 65535)

/-- A trigger finds a record open and is ignored (R412). -/
def Chip.recordBusy (c : Chip) : Chip := (c.flag PMU.EVT.FLBUSY).inc PMU.CNT.FLBUSY

/-- The locator runs: RUN and its block out of reset. -/
def Chip.pmuRuns (c : Chip) : Bool := c.inRun && c.fabric

/-- The source named by FSRC at raw instant x (R412): within 20 ms of its opening it joins the last record, open or complete; later it
finds a record open and is ignored, or opens one. -/
def Chip.recordSource (c : Chip) (src x : Nat) : Chip :=
  if ¬ c.pmuRuns ∨ c.get PMU.FLCFG.FSRC ≠ src then c
  else
    let recent := match c.pmu.lastOpen with
      | some o => decide (x ≤ o + 20 * msTaps)
      | none => false
    if recent then c.set PMU.FREC.FSJ c.openSlot 1
    else if c.pmu.openAt.isSome then c.recordBusy
    else c.openRecord x (16 * c.corrected x) false

end Sys2Proof.Machine
end

