-- ==== Sys2Proof/Machine/Monitor.lean ====
section
/-! DEFINITION. Window monitors, trip inputs, latches, routing and holds (chapter 8, R244 to R268). -/

namespace Sys2Proof.Machine

open Reg

/-! Holds -/

/-- Targets held by a trip or by a reaction, as bits of MON.ROUTE's layout. -/
def Chip.heldMask (c : Chip) : Nat := c.get MON.HOLD.HELD ||| c.get FLT.HOLD.HELD

/-- What follows a change of the holds (R256, R258): arms that pass to held send their bursts, arms held no more are released,
ports and outputs follow. -/
def Chip.holdsChanged (c : Chip) (before : Nat) : Chip :=
  let after := c.heldMask
  let c := c.each ((upTo 6).filter (fun a => after.testBit a && !before.testBit a)) Chip.holdArm
  let c := c.each ((upTo 6).filter (fun a => before.testBit a && !after.testBit a)) Chip.releaseArm
  c.portsUpdate.refreshSdo

/-- Targets of source j in the layout of MON.ROUTE bits [21:0]. -/
def Chip.route (c : Chip) (j : Nat) : Nat :=
  2 ^ 18 * c.get MON.ROUTE.SDO j + 2 ^ 6 * c.get MON.ROUTE.DHB j + c.get MON.ROUTE.ARM j

/-- Targets to which a set latch routes (R255). -/
def Chip.latchedTargets (c : Chip) : Nat := (setBits 104 (c.get MON.LATCH.LATCH)).foldl (fun a j => a ||| c.route j) 0

/-- Targets `m` become held by a trip as well. -/
def Chip.addHolds (c : Chip) (m : Nat) : Chip :=
  let before := c.heldMask
  (c.set MON.HOLD.HELD 0 (c.get MON.HOLD.HELD ||| m)).holdsChanged before

/-- Holds to which no set latch routes end (R258). -/
def Chip.endHolds (c : Chip) : Chip :=
  let before := c.heldMask
  (c.set MON.HOLD.HELD 0 c.latchedTargets).holdsChanged before

/-! Latches -/

/-- The latch of source j is set (R252 to R255). -/
def Chip.setLatch (c : Chip) (j : Nat) : Chip :=
  if c.bitOn MON.LATCH.LATCH 0 j then c
  else
    let none_ := !c.on MON.LATCH.LATCH
    let same := c.mon.firstAt == some c.now && decide (j < c.get MON.FIRST.SRC)
    let c := c.setBit MON.LATCH.LATCH 0 j true
    let c :=
      if none_ then
        let st := c.stamp (c.raw c.now)
        let c := ((c.set MON.FIRST.SRC 0 j).set MON.FIRST.TIME 0 st.1).set MON.FIRST.TAP 0 st.2
        { c with mon := { c.mon with firstAt := some c.now } }
      else if same then c.set MON.FIRST.SRC 0 j
      else c
    let c := (if j < 96 then (c.flag MON.EVT.TCOMP).raise 24 else (c.flag MON.EVT.TEXT).raise 25).inc MON.CNT.LATCH j
    c.addHolds (c.route j)

/-- Decision of source j as the latches see it. -/
def Chip.decision (c : Chip) (j : Nat) : Bool := if j < 96 then c.bitOn MON.DEC.CMP 0 j else c.bitOn MON.DEC.PIN 0 (j - 96)

/-- The latch is level-set (R252). -/
def Chip.latchLevel (c : Chip) (j : Nat) : Chip := if c.decision j && c.on MON.ROUTE.LEN j then c.setLatch j else c

/-- A decision of comparator k as MON.DEC shows it changes (R215, R252, R254). -/
def Chip.setDecision (c : Chip) (k : Nat) (b : Bool) : Chip :=
  let was := c.bitOn MON.DEC.CMP 0 k
  let c := (c.setBit MON.DEC.CMP 0 k b).setB MON.STAT.ACTIVE k b
  let c := if b && !was then c.inc MON.CNT.ACT k else c
  let c := if b then c.latchLevel k else c
  if b != was && c.on MOD.CMT.SRC then c.portsUpdate else c

/-! Comparators -/

/-- Comparator k is MONn_HI (R110). -/
def isHi (k : Nat) : Bool := k % 2 == 0

/-- V_th of a code in nV: (CODE - 512) × 2.5 V / 512 (R244). -/
def vth (code : Nat) : Int := ((code : Int) - 512) * 2500000000 / 512

/-- Limits of the hysteresis in nV (R247). -/
def hystRange : Nat → Int × Int
  | 0 => (0, 0)
  | 1 => (6000000, 10000000)
  | 2 => (13000000, 19000000)
  | _ => (27000000, 37000000)

/-- A value limited to a span. -/
def clampInt (lo hi v : Int) : Int := Max.max lo (Min.min hi v)

/-- Hysteresis at work: h, kept inside R247; a new HYST applies from the next transition of the decision (R250). -/
def Chip.hyst (c : Chip) (k : Nat) (h : Int) : Int :=
  let r := hystRange ((nget none c.mon.hyst k).getD (c.get MON.CFG.HYST k))
  clampInt r.1 r.2 h

/-- Comparator k is in its self-test window. -/
def Chip.inTest (c : Chip) (k : Nat) : Bool := match c.mon.test with
  | some x => x.cmp == k
  | none => false

/-- The least and the greatest code at which the DAC of comparator k may stand: its CODE; while it settles also the codes it comes
from, and in a self-test window the test code (R247, R262). -/
def Chip.dacSpan (c : Chip) (k : Nat) : Nat × Nat :=
  let v := c.get MON.CFG.CODE k
  let s := match nget none c.mon.codeAt k with
    | some (t, lo, hi) => if c.now < t + usTaps then (Nat.min v lo, Nat.max v hi) else (v, v)
    | none => (v, v)
  match c.mon.test with
  | some x => if x.cmp = k then (Nat.min s.1 x.code, Nat.max s.2 x.code) else s
  | none => s

/-- Threshold at work: th, kept within 10 mV of V_th, or of the span of the thresholds while the DAC settles (R247). -/
def Chip.threshold (c : Chip) (k : Nat) (th : Int) : Int :=
  let s := c.dacSpan k
  clampInt (vth s.1 - 10000000) (vth s.2 + 10000000) th

/-- The decision of R245 for a differential input vd. -/
def decide_ (hi was : Bool) (vd th h : Int) : Bool :=
  if hi then (if th < vd then true else if vd < th - h then false else was)
  else (if vd < th then true else if th + h < vd then false else was)

/-- The comparator runs: enabled, its block released. -/
def Chip.cmpOn (c : Chip) (k : Nat) : Bool := decide (k < 96) && c.on MON.CFG.MODE k && c.fabric

/-- The raw decision of comparator k is b; at a transition the hysteresis as configured applies (R250). -/
def Chip.setRaw (c : Chip) (k : Nat) (b : Bool) : Chip :=
  { c with mon := { c.mon with
    raw := nset false c.mon.raw k b
    hyst := if b == nget false c.mon.raw k then c.mon.hyst else nset none c.mon.hyst k none } }

/-- COMPARATOR_DECISION (R245): the input vd (nV) of comparator k is judged at instant t against the threshold th and hysteresis
h at work, both within R247. During a self-test window the decision stays held (R262). -/
def execComparatorDecision (t k : Nat) (vd th h : Int) (s : State) : Host.Outcome State Fault Refusal :=
  run (fun _ c =>
    let c := c.at_ t
    if c.cmpOn k && (nget none c.mon.settle k).isNone then
      let was := nget false c.mon.raw k
      let b := decide_ (isHi k) was vd (c.threshold k th) (c.hyst k h)
      let c := c.setRaw k b
      if c.inTest k then c else if b != was then c.setDecision k b else c
    else c) s

/-- t_set of a mode, in taps (R246). -/
def settleTaps : Nat → Nat
  | 1 => 1600
  | 2 => 8000
  | 3 => 80000
  | _ => 400000

/-- The DAC of comparator k leaves the span of codes s for its CODE (R247). -/
def Chip.dacMoves (c : Chip) (k : Nat) (s : Nat × Nat) : Chip :=
  { c with mon := { c.mon with codeAt := nset none c.mon.codeAt k (some (c.now, s.1, s.2)) } }

/-- A self-test window of comparator k ends without a result: the comparator is turned OFF or enabled anew, and its DAC returns to CODE
(log entry 103). -/
def Chip.dropTest (c : Chip) (k : Nat) : Chip :=
  if c.inTest k then
    let s := c.dacSpan k
    ({ c with mon := { c.mon with test := none } }.set MON.STAT.TESTING k 0).dacMoves k s
  else c

/-- Comparator k is enabled, or OFF (R246, R248): its decision is inactive; in a mode it settles for t_set. -/
def Chip.monEnable (c : Chip) (k : Nat) : Chip :=
  let mode := c.get MON.CFG.MODE k
  let c := c.dropTest k
  let c := { c with mon := { c.mon with
    raw := nset false c.mon.raw k false
    hyst := nset none c.mon.hyst k none
    settle := nset none c.mon.settle k (if mode = 0 then none else some (c.now + settleTaps mode)) } }
  (c.setDecision k false).setB MON.STAT.SETTLE k (mode != 0)

/-- COMPARATOR_FIRST_DECISION (R249): t_set ends and comparator k decides without hysteresis. -/
def execComparatorFirstDecision (t k : Nat) (vd th h : Int) (s : State) : Host.Outcome State Fault Refusal :=
  run (fun _ c =>
    let c := c.at_ t
    match nget none c.mon.settle k with
    | none => c
    | some e =>
      if c.now < e ∨ ¬ c.cmpOn k then c
      else
        let th := c.threshold k th
        let h := c.hyst k h
        let b := decide_ (isHi k) false vd th 0
        let band := !b && (if isHi k then decide (th - h < vd) else decide (vd < th + h))
        let c := { c with mon := { c.mon with
          raw := nset false c.mon.raw k b, settle := nset none c.mon.settle k none } }
        let c := (c.set MON.STAT.SETTLE k 0).setB MON.STAT.INBAND k band
        (if band then c.flag MON.EVT.INBAND else c).setDecision k b) s

/-- A write of MON.CFG.HYST takes effect from the next transition on: until then the one before stays (R250). -/
def Chip.monHyst (c : Chip) (k old : Nat) : Chip :=
  if (nget none c.mon.hyst k).isSome then c
  else { c with mon := { c.mon with hyst := nset none c.mon.hyst k (some old) } }

/-- A write of MON.ROUTE takes effect: latches are level-set, holds follow the routes (R252, R255). -/
def Chip.monRoute (c : Chip) (j : Nat) : Chip := (c.latchLevel j).endHolds

/-! Trip inputs -/

/-- TRIP_INPUT (R251): pin TRIPn_N goes low or high at instant t; a low pulse lasts `ps` picoseconds. One of 2 ns or more sets
the latch, one below 0.5 ns sets nothing, between them either may happen. While the fabric is held only the pin's level is kept. -/
def execTripInput (t n : Nat) (low : Bool) (ps : Nat) (s : State) : Host.Outcome State Fault Refusal :=
  run (fun _ c =>
    let c := c.at_ t
    if ¬ n < 8 then c
    else if !low then c.setBit MON.DEC.PIN 0 n false
    else
      let r := c.freeBit
      let seen := decide (2000 ≤ ps) || (decide (500 ≤ ps) && r.1)
      let c := if 500 ≤ ps ∧ ps < 2000 then r.2 else c
      if seen && !c.bitOn MON.DEC.PIN 0 n then
        let c := c.setBit MON.DEC.PIN 0 n true
        if ¬ c.fabric then c else
        let c := c.inc MON.CNT.ACT (96 + n)
        let x := c.raw c.now
        let c := (c.captureSource (64 + n) x).recordSource (64 + n) x
        c.latchLevel (96 + n)
      else c) s

/-- TRIP_HOLD_END (R258): at the coming tick reference holds without a latch end. -/
def execTripHoldEnd (s : State) : Host.Outcome State Fault Refusal :=
  run (fun _ c => if c.dev.ticking then (c.at_ c.dev.nextT0).endHolds else c) s

/-- A named source is active (R111, R260). -/
def Chip.tripActive (c : Chip) (mask : Nat) : Nat := ofBits ((setBits 104 mask).filter (fun j => c.decision j))

/-- TRIP_CLEAR's effect (R110 to R112, R258): the latches named are cleared; without ticks the holds end at once. -/
def Chip.tripClear (c : Chip) (mask : Nat) : Chip :=
  let c := c.set MON.LATCH.LATCH 0 (ofBits ((setBits 104 (c.get MON.LATCH.LATCH)).filter (fun j => !mask.testBit j)))
  if c.dev.ticking then c else c.endHolds

/-! Self-test and readback -/

/-- t_r of a mode in taps (R246). -/
def responseTaps : Nat → Nat
  | 1 => 24
  | 2 => 320
  | 3 => 3200
  | _ => 16000

/-- Group and channel code of the input of comparator k, and of its threshold DAC (R271). -/
def cmpGroup (k : Nat) : Nat := k / 24
def cmpInput (k : Nat) : Nat := k / 2 % 12
def cmpDac (k : Nat) : Nat := 32 + k % 24

/-- VALUE of the last sample of comparator k's input, taken within the last 100 us (R261). -/
def Chip.cmpSample (c : Chip) (k : Nat) : Option Int :=
  match nget none (c.group (cmpGroup k)).service (cmpInput k) with
  | some (v, t) => if c.now ≤ t + 100 * usTaps then some v else none
  | none => none

/-- Test code of R262: round(v) -+ MARGIN, v = VALUE / 4 + 512. -/
def Chip.testCode (c : Chip) (k : Nat) (v : Int) : Int :=
  let m : Int := c.get MON.TST.MARGIN
  let r := (v + 2) / 4 + 512
  if isHi k then r - m else r + m

/-- Comparator k starts its self-test (R261): the window opens, or TRES records why the test is skipped. -/
def Chip.monTestStart (c : Chip) (k : Nat) : Chip :=
  if !c.cmpOn k || !c.on MON.TST.TSTEN || (nget none c.mon.settle k).isSome || c.mon.test.isSome then c
  else if c.bitOn MON.DEC.CMP 0 k then c.set MON.STAT.TRES k 4
  else if (c.outSlice (cmpGroup k)).isNone then c.set MON.STAT.TRES k 6
  else
    match c.cmpSample k with
    | none => c.set MON.STAT.TRES k 6
    | some v =>
      let code : Int := c.get MON.CFG.CODE k
      let guard : Int := c.get MON.TST.GUARD
      let dist := if isHi k then 4 * code - (v + 2048) else v + 2048 - 4 * code
      let tc := c.testCode k v
      if dist < 4 * guard ∨ tc < 0 ∨ 1023 < tc then c.set MON.STAT.TRES k 5
      else { c.set MON.STAT.TESTING k 1 with mon := { c.mon with test := some { cmp := k, start := c.now, code := tc.toNat } } }

/-- The self-test window of comparator k closes (R262 to R264): raw decision active at step 3 (`on`), still active at step 5
(`stuck`), and the sample of step 5a. The real decision takes over. -/
def Chip.monTestEnd (c : Chip) (on stuck : Bool) (sample : Int) : Chip :=
  match c.mon.test with
  | none => c
  | some x =>
    let k := x.cmp
    let code : Int := c.get MON.CFG.CODE k
    let beyond := if isHi k then decide (4 * code < sample + 2048) else decide (sample + 2048 < 4 * code)
    let res := if !on then 2 else if !stuck then 1 else if beyond then 7 else 3
    let c := { c with mon := { c.mon with test := none } }.setRaw k stuck
    let c := (c.set MON.STAT.TESTING k 0).set MON.STAT.TRES k res
    let c := c.setDecision k stuck
    if res = 1 then c.inc MON.CNT.TPASS k
    else if res = 7 then c
    else
      let c := ((c.inc MON.CNT.TFAIL k).flag MON.EVT.TFAIL).raise 26
      if c.on MON.CFG.FAILTRIP k && c.on MON.ROUTE.LEN k then c.setLatch k else c

/-- A readback of comparator k's DAC gives MEAS (R266). -/
def Chip.monReadback (c : Chip) (k : Nat) (meas : Int) : Chip :=
  let settling := match nget none c.mon.codeAt k with
    | some (t, _, _) => decide (c.now < t + usTaps)
    | none => false
  if settling || c.inTest k then c
  else
    let exp : Int := ((c.get MON.CFG.CODE k : Int) - 512) * 4
    let c := (c.setI MON.RB.EXP k exp).setI MON.RB.MEAS k meas
    if (c.get MON.TST.RBTOL : Int) < (meas - exp).natAbs then
      (((c.set MON.STAT.RBFAIL k 1).flag MON.EVT.RBFAIL).inc MON.CNT.RBFAIL k).raise 27
    else c.set MON.STAT.RBFAIL k 0

/-- A reset of the MON block (R268): latches, holds and RWL fields kept; the DACs move to the codes that return, enabled comparators
settle again. -/
def Chip.resetMon (c : Chip) : Chip :=
  let kept := fun (k : Key) =>
    (k.id == 0x3400 && (k.lo == 29 || k.lo == 26)) || k.id == 0x3401 || k.id == 0x3411 || k.id == 0x3412 ||
      (k.id == 0x3410 && k.lo == 96)
  let own := fun (k : Key) => decide (0x3400 ≤ k.id ∧ k.id < 0x3800)
  let spans := (upTo 96).map c.dacSpan
  let c := { c with mon := {}, regs := c.regs.filter (fun e => !own e.1 || kept e.1) }
  let c := c.each ((upTo 96).zip spans) (fun c e =>
    let v := c.get MON.CFG.CODE e.1
    if e.2 = (v, v) then c else c.dacMoves e.1 e.2)
  let c := c.each ((upTo 96).filter (fun k => c.on MON.CFG.MODE k)) Chip.monEnable
  c.portsUpdate

end Sys2Proof.Machine
end

