-- ==== Sys2Proof/Machine/Faults.lean ====
section
/-! DEFINITION. Fault collector: classification, reactions, records, acknowledgement (chapter 18, R470 to R487). -/

namespace Sys2Proof.Machine

open Reg

/-! Records -/

/-- Number of record slots. -/
def recSlots : List Nat := upTo 32

/-- Slot i holds an unacknowledged record. -/
def Chip.unacked (c : Chip) (i : Nat) : Bool := c.on FLT.REC.VALID i && !c.on FLT.REC.ACKD i

/-- The slots in the order they were filled. -/
def Chip.oldestRec (c : Chip) (l : List Nat) : Option Nat :=
  l.foldl (fun a i => match a with
    | none => some i
    | some j => if nget 0 c.flt.order i < nget 0 c.flt.order j then some i else some j) none

/-- The newest of some slots. -/
def Chip.newestRec (c : Chip) (l : List Nat) : Option Nat :=
  l.foldl (fun a i => match a with
    | none => some i
    | some j => if nget 0 c.flt.order j < nget 0 c.flt.order i then some i else some j) none

/-- The lost-record aggregate is not empty (R482). -/
def Chip.aggregate (c : Chip) : Bool := c.flt.aggPend != 0

/-- Gravest class among unacknowledged records plus one, 0 when there is none (R476). -/
def Chip.gravest (c : Chip) : Nat :=
  Nat.max (if c.aggregate then c.flt.aggCls + 1 else 0)
    ((recSlots.filter c.unacked).foldl (fun a i => Nat.max a (c.get FLT.REC.CLASS i + 1)) 0)

/-- A record of class C3 exists. -/
def Chip.fatalRecord (c : Chip) : Option Nat := c.oldestRec (recSlots.filter (fun i => c.on FLT.REC.VALID i && c.get FLT.REC.CLASS i == 3))

/-- FLT.STAT.NUNACK. -/
def Chip.nunack (c : Chip) : Nat := (recSlots.filter c.unacked).length

/-- The level of DEVOK (R486, R506). -/
def Chip.devok (c : Chip) : Bool :=
  (c.state == stConfig || c.inRun) && c.fabric && decide (c.gravest < 3) && !(c.rst.pinLow && c.rst.seq.isSome)

/-! Classification -/

/-- Source j's class is fixed (R470). -/
def fixedSource (j : Nat) : Bool := j == 62 || j == 63

/-- The window of source j is open (R474). -/
def Chip.windowOpen (c : Chip) (j : Nat) : Bool := c.on FLT.SRC.WOPEN j && decide (c.now < nget 0 c.flt.winAt j)

/-- Class of the event that brings WCNT of source j to n (R474). -/
def Chip.classAt (c : Chip) (j n : Nat) : Nat :=
  if fixedSource j then 3
  else
    let e := c.get FLT.SCFG.NESC j
    if e ≠ 0 ∧ e ≤ n then c.get FLT.SCFG.ESC j else c.get FLT.SCFG.CLASS j

/-- FLT.SRC.CUR: class of the source's next event (R474). -/
def Chip.curClass (c : Chip) (j : Nat) : Nat := c.classAt j ((if c.windowOpen j then c.get FLT.SRC.WCNT j else 0) + 1)

/-- An event of source j is counted and classified; `fatal` is the override of R471 (R473, R474). -/
def Chip.classify (c : Chip) (j : Nat) (fatal : Bool) : Nat × Chip :=
  let c := (c.setBit FLT.STATUS.STATUS 0 j true).inc FLT.SRC.EVENTS j
  let c := { c with flt := { c.flt with lastEv := nset none c.flt.lastEv j (some c.now) } }
  let c :=
    if c.windowOpen j then c
    else
      let c := (c.set FLT.SRC.WOPEN j 1).set FLT.SRC.WCNT j 0
      { c with flt := { c.flt with winAt := nset 0 c.flt.winAt j (c.now + c.get FLT.SCFG.WIN j * msTaps) } }
  let c := c.inc FLT.SRC.WCNT j
  (if fatal then 3 else c.classAt j (c.get FLT.SRC.WCNT j), c)

/-! Holds -/

/-- Targets of a profile (R477). -/
def Chip.profile (c : Chip) (p : Nat) : Nat :=
  2 ^ 18 * c.get FLT.PROF.SDO p + 2 ^ 6 * c.get FLT.PROF.DHB p + c.get FLT.PROF.ARM p

/-- Targets of a set of profiles. -/
def Chip.profiles (c : Chip) (m : Nat) : Nat := (setBits 4 m).foldl (fun a p => a ||| c.profile p) 0

/-- What unacknowledged records hold (R478): their profiles; everything while a record is of class C3 (R479). -/
def Chip.faultTargets (c : Chip) : Nat :=
  if c.fatalRecord.isSome ∨ c.flt.aggCls = 3 then 2 ^ 22 - 1
  else (recSlots.filter c.unacked).foldl (fun a i => a ||| c.profiles (c.get FLT.REC.PROFS i))
    (if c.aggregate then c.profiles c.flt.aggProfs else 0)

/-- Fault holds follow the records. -/
def Chip.faultHolds (c : Chip) (m : Nat) : Chip :=
  let before := c.heldMask
  (c.set FLT.HOLD.HELD 0 m).holdsChanged before

/-- The fatal reaction begins (R479 step 1): everything is held and every lane not in OFF sends its burst. From BOOT the device does
not enter FATAL (R74); in FATAL nothing further starts. -/
def Chip.fatalBegins (c : Chip) : Chip :=
  if c.state = stFatal then c
  else
    let c := c.faultHolds (2 ^ 22 - 1)
    let c := c.each (upTo 6) Chip.holdArm
    { c with flt := { c.flt with fatalPend := c.state != stBoot } }

/-! Events -/

/-- The event joins the record of the executing reaction (R481, case 1). -/
def Chip.merge (c : Chip) (r : React) (j cls : Nat) : Chip :=
  let p := if cls = 2 then 2 ^ c.get FLT.SCFG.PROF j else 0
  let c := match r.slot with
    | some i =>
      let c := ((c.setBit FLT.REC.SRC i j true).setBit FLT.REC.PEND i j true).inc FLT.REC.COUNT i
      let c := (c.set FLT.REC.CLASS i (Nat.max cls (c.get FLT.REC.CLASS i))).set FLT.REC.ACKD i 0
      c.set FLT.REC.PROFS i (c.get FLT.REC.PROFS i ||| p)
    | none => { c with flt := { c.flt with
        aggPend := putBit c.flt.aggPend j true, aggProfs := c.flt.aggProfs ||| p, aggCls := Nat.max c.flt.aggCls cls } }
  let c := c.inc FLT.CNT.MERGED
  if cls = 3 then c.fatalBegins
  else if cls = 2 then c.faultHolds (c.get FLT.HOLD.HELD ||| c.profiles p)
  else c

/-- The newest unacknowledged record whose FIRST is j, when it has this class (R481, case 2). -/
def Chip.matching (c : Chip) (j cls : Nat) : Option Nat :=
  match c.newestRec (recSlots.filter (fun i => c.unacked i && c.get FLT.REC.FIRST i == j)) with
  | some i => if c.get FLT.REC.CLASS i = cls then some i else none
  | none => none

/-- The slot that a new record of a class takes (R482). -/
def Chip.takeSlot (c : Chip) (cls : Nat) : Option Nat :=
  match recSlots.find? (fun i => !c.on FLT.REC.VALID i) with
  | some i => some i
  | none =>
    match c.oldestRec (recSlots.filter (fun i => c.on FLT.REC.ACKD i)),
        c.oldestRec (recSlots.filter (fun i => c.get FLT.REC.CLASS i == 0)) with
    | some i, _ => some i
    | none, some i => some i
    | none, none =>
      if cls = 3 then
        let least := recSlots.foldl (fun a i => Nat.min a (c.get FLT.REC.CLASS i)) 3
        c.oldestRec (recSlots.filter (fun i => c.get FLT.REC.CLASS i == least))
      else none

/-- All fields of a record as one number, for the keeper's copy. -/
def Chip.recValue (c : Chip) (i : Nat) : Nat :=
  match findRow 0x0814 with
  | some r => c.stored r i
  | none => 0

/-- One classified event: source, class, DETAIL, raw instant. -/
abbrev ClassedEvent := Nat × Nat × Nat × Nat

/-- The fields of a new record in slot i; slot 32 stands for a record that is lost. -/
def Chip.fillRec (c : Chip) (i num cls first detail profs count mask x : Nat) : Chip :=
  let st := c.stamp x
  let c := (((c.set FLT.REC.NUM i num).set FLT.REC.VALID i 1).set FLT.REC.ACKD i 0).set FLT.REC.CLASS i cls
  let c := (((c.set FLT.REC.FIRST i first).set FLT.REC.PROFS i profs).set FLT.REC.COUNT i count).set FLT.REC.DETAIL i detail
  (((c.set FLT.REC.TAP i st.2).set FLT.REC.TIME i st.1).set FLT.REC.PEND i mask).set FLT.REC.SRC i mask

/-- A new record opens for events recognised together, lowest source first (R481, case 3, R482); one of class NVMIN or graver is copied
to the keeper, a lost one as well, which exists for every purpose but FLT.REC and NUNACK (R482, R485). -/
def Chip.openFault (c : Chip) (evs : List ClassedEvent) : Chip :=
  match evs with
  | [] => c
  | (first, _, detail, x) :: _ =>
    let cls := evs.foldl (fun a e => Nat.max a e.2.1) 0
    let mask := evs.foldl (fun a e => putBit a e.1 true) 0
    let profs := evs.foldl (fun a e => if e.2.1 = 2 then putBit a (c.get FLT.SCFG.PROF e.1) true else a) 0
    let num := c.flt.num
    let c := { c.inc FLT.CNT.RECORDS with flt := { c.flt with num := (num + 1) % 65536, count := c.flt.count + 1 } }
    let slot := c.takeSlot cls
    let filled := fun (c : Chip) (i : Nat) => c.fillRec i num cls first detail profs evs.length mask x
    let value := (filled c 32).recValue 32
    let c := if c.get FLT.CFG.NVMIN ≤ cls then c.copyFlt num value else c
    let c := match slot with
      | some i => filled { c with flt := { c.flt with order := nset 0 c.flt.order i c.flt.count } } i
      | none => { c.inc FLT.CNT.RLOST with flt := { c.flt with
          aggPend := c.flt.aggPend ||| mask, aggProfs := c.flt.aggProfs ||| profs, aggCls := Nat.max c.flt.aggCls cls } }
    if 2 ≤ cls ∧ c.state ≠ stFatal then
      let c := { c with flt := { c.flt with react := some ⟨slot, cls⟩ } }.set FLT.STAT.REACTING 0 1
      let c := c.faultHolds (c.get FLT.HOLD.HELD ||| c.profiles profs)
      if cls = 3 then c.fatalBegins else c
    else c

/-- Events recognised together (R472, R481); captures and fault records take the instant at which they latch (R303, R412). -/
def Chip.recognise (c : Chip) (evs : List Raised) : Chip :=
  let evs := evs.foldl (fun (a : List Raised) e =>
    a.filter (fun x => decide (x.src ≤ e.src)) ++ [e] ++ a.filter (fun x => decide (e.src < x.src))) []
  let r := evs.foldl (fun (a : Chip × List ClassedEvent) e =>
    let k := a.1.classify e.src e.fatal
    let x := k.2.raw e.at_
    let latched := k.2.raw k.2.now
    let c := (k.2.captureSource e.src latched).recordSource e.src latched
    (c, a.2 ++ [(e.src, k.1, e.detail, x)])) (c, [])
  let c := r.1
  match c.flt.react, r.2 with
  | some q, l => c.each l (fun c e => c.merge (c.flt.react.getD q) e.1 e.2.1)
  | none, [e] =>
    match c.matching e.1 e.2.1 with
    | some i => (c.setBit FLT.REC.PEND i e.1 true).inc FLT.REC.COUNT i
    | none => c.openFault [e]
  | none, l => c.openFault l

/-- FAULT_EVENT (R472, R481): the first n events in flight reach the collector at the same instant, with an FW_FAULT event of the
interpreter's watchdog or firmware check when `fw`. -/
def execFaultEvent (t n : Nat) (fw : Bool) (s : State) : Host.Outcome State Fault Refusal :=
  run (fun _ c =>
    let c := c.at_ t
    if ¬ c.fabric then c
    else
      let evs := c.flt.raised.take n ++ (if fw then [⟨63, 0, c.now, false⟩] else [])
      let c := { c with flt := { c.flt with raised := c.flt.raised.drop n } }
      if evs.isEmpty then c else c.recognise evs) s

/-- REACTION_DONE (R480): the last action of the reaction has reached its output stage. -/
def execReactionDone (t : Nat) (s : State) : Host.Outcome State Fault Refusal :=
  run (fun _ c =>
    let c := c.at_ t
    if c.flt.react.isSome then { c with flt := { c.flt with react := none } }.set FLT.STAT.REACTING 0 0 else c) s

/-- FAULT_WINDOW_CLOSE (R474): the window of source j closes WIN ms after it opened. -/
def execFaultWindowClose (t j : Nat) (s : State) : Host.Outcome State Fault Refusal :=
  run (fun _ c =>
    let c := c.at_ t
    if c.on FLT.SRC.WOPEN j && !c.windowOpen j && decide (j < 64) then (c.set FLT.SRC.WOPEN j 0).set FLT.SRC.WCNT j 0 else c) s

/-! Acknowledgement -/

/-- Records of class C2 let source j go: its window is closed and QUIET has passed since its last event (R483). -/
def Chip.quiet (c : Chip) (j : Nat) : Bool :=
  !c.windowOpen j && (match nget none c.flt.lastEv j with
    | some x => decide (x + c.get FLT.CFG.QUIET * msTaps ≤ c.now)
    | none => true)

/-- A record of a class that holds bit j in PEND lets it be acknowledged (R483). -/
def Chip.lets (c : Chip) (cls j : Nat) : Bool := cls < 2 || (cls == 2 && c.quiet j)

/-- Source j can be acknowledged (R483). -/
def Chip.ackable (c : Chip) (j : Nat) : Bool :=
  c.bitOn FLT.STATUS.STATUS 0 j &&
    (recSlots.filter (fun i => c.unacked i && c.bitOn FLT.REC.PEND i j)).all (fun i => c.lets (c.get FLT.REC.CLASS i) j) &&
    (!c.flt.aggPend.testBit j || c.lets c.flt.aggCls j)

/-- Fault holds that no unacknowledged record asks for end (R478). -/
def Chip.endFaultHolds (c : Chip) : Chip := c.faultHolds c.faultTargets

/-- Source j is acknowledged (R483); an event of the same instant keeps its bit and its newest record's (R484). -/
def Chip.ackSource (c : Chip) (j : Nat) : Chip :=
  let tie := nget none c.flt.lastEv j == some c.now
  let holders := recSlots.filter (fun i => c.unacked i && c.bitOn FLT.REC.PEND i j)
  let kept := if tie then c.newestRec holders else none
  let c := c.each (holders.filter (fun i => kept != some i)) (fun c i =>
    let c := c.setBit FLT.REC.PEND i j false
    if c.get FLT.REC.PEND i = 0 then c.set FLT.REC.ACKD i 1 else c)
  let pend := putBit c.flt.aggPend j false
  let c := { c with flt := { c.flt with
    aggPend := pend, aggProfs := if pend = 0 then 0 else c.flt.aggProfs, aggCls := if pend = 0 then 0 else c.flt.aggCls } }
  if tie then c else c.setBit FLT.STATUS.STATUS 0 j false

/-- FAULT_ACK's effect on the sources of a mask, and the mask acknowledged (R483, R484, R478). -/
def Chip.faultAck (c : Chip) (mask : Nat) : Nat × Chip :=
  let l := (setBits 64 mask).filter c.ackable
  let c := c.each l Chip.ackSource
  (ofBits l, if c.dev.ticking then c else c.endFaultHolds)

/-- FAULT_HOLD_END (R478): at the coming tick reference holds of acknowledged records end. -/
def execFaultHoldEnd (s : State) : Host.Outcome State Fault Refusal :=
  run (fun _ c => if c.dev.ticking then (c.at_ c.dev.nextT0).endFaultHolds else c) s

/-! Reset of the collector -/

/-- Records, windows, status, aggregate and holds are cleared; NUM is kept, and so are the events in flight (R487). -/
def Chip.resetFlt (c : Chip) : Chip :=
  let before := c.heldMask
  let drop := fun (k : Key) => decide (0x0810 ≤ k.id ∧ k.id < 0x0C00) || k.id == 0x0800
  let c := { c with
    regs := c.regs.filter (fun e => !drop e.1)
    flt := { raised := c.flt.raised, num := c.flt.num, count := c.flt.count } }
  c.holdsChanged before

end Sys2Proof.Machine
end

