-- ==== Sys2Proof/Machine/Ist.lean ====
section
/-! DEFINITION. In-service test (chapter 21, R537 to R546, R549; units R261 to R266, R309). -/

namespace Sys2Proof.Machine

open Reg

/-! Scheduling -/

/-- The pacing period of a check in taps (R540). -/
def Chip.istPeriod (c : Chip) (k : Nat) : Nat :=
  match k with
  | 1 => c.get IST.CFG.CPER * msTaps
  | 2 => c.get IST.CFG.RPER * msTaps
  | 3 => 100 * msTaps
  | 4 => c.get IST.PER.SCRPER * secTaps
  | 5 => c.get IST.PER.ROMPER * secTaps
  | 6 => c.get IST.PER.ROMPER * secTaps
  | _ => c.get IST.PER.LWIN * secTaps

/-- Check k is enabled (R540). -/
def Chip.istEnabled (c : Chip) (k : Nat) : Bool := decide (1 ≤ k ∧ k ≤ 7) && c.bitOn IST.CFG.CHKEN 0 (k - 1)

/-- The scheduler runs (R540). -/
def Chip.istRuns (c : Chip) : Bool := c.state != stBoot && c.state != stFatal && c.on IST.CFG.EN

/-- A pass of check k is in progress. -/
def Chip.istActive (c : Chip) (k : Nat) : Bool := c.bitOn IST.STAT.ACTIVE 0 (k - 1)

/-- The host pass runs check k (R544). -/
def Chip.istHost (c : Chip) (k : Nat) : Bool :=
  match c.ist.host with
  | some (h, _) => h == k
  | none => false

/-- The next start of check k by pacing falls due. -/
def Chip.istDue (c : Chip) (k : Nat) : Bool := decide (nget c.ist.base c.ist.last k + c.istPeriod k ≤ c.now)

/-- Check k was started by pacing now. -/
def Chip.istPaced (c : Chip) (k : Nat) : Chip := { c with ist := { c.ist with last := nset c.ist.base c.ist.last k c.now } }

/-- A pass of check k begins with its first unit; a comparator window that is open is not interrupted (R542) and is no visit of it. -/
def Chip.istBegin (c : Chip) (k : Nat) : Chip :=
  let c := c.setBit IST.STAT.ACTIVE 0 (k - 1) true
  { c with ist := { c.ist with
    next := nset 0 c.ist.next k 0, failed := c.ist.failed.filter (fun j => j != k)
    foreign := c.ist.foreign || k == 1 && c.mon.test.isSome } }

/-- The comparator that check k (COMP or RDBK) visits next: eligible while its MODE is not OFF (R538). -/
def Chip.istNext (c : Chip) (k : Nat) : Option Nat :=
  (upTo 96).find? (fun i => decide (nget 0 c.ist.next k ≤ i) && c.on MON.CFG.MODE i)

/-! Ends of passes -/

/-- A unit of check k failed. -/
def Chip.istFailUnit (c : Chip) (k : Nat) (unit : Option Nat) : Chip :=
  let c := { c with ist := { c.ist with failed := k :: c.ist.failed.filter (fun j => j != k) } }
  match unit with
  | some u => c.set IST.RES.UNIT (k - 1) u
  | none => c

/-- The host pass goes on to its next check (R537, R544). -/
def Chip.istHostNext (c : Chip) : Chip :=
  match c.ist.host with
  | none => c
  | some (_, []) => ({ c with ist := { c.ist with host := none } }.set IST.STAT.HOST 0 0).set IST.STAT.HCHK 0 0
  | some (_, k :: ks) =>
    ({ c with ist := { c.ist with host := some (k, ks) } }.set IST.STAT.HCHK 0 k).istBegin k

/-- The pass of check k in progress has ended (R549, R543, R544). -/
def Chip.istEnd (c : Chip) (k : Nat) : Chip :=
  let failed := c.ist.failed.contains k
  let late := c.ist.late.contains k
  let c := (c.setBit IST.STAT.ACTIVE 0 (k - 1) false).inc IST.RES.PASSES (k - 1)
  let c := if failed then c.inc IST.RES.FAILS (k - 1) else c
  let c := c.set IST.RES.LAST (k - 1) (if failed then 2 else if late then 3 else 1)
  let c := if failed && (k == 3 || k == 6) then (c.flag IST.EVT.FAIL).raise 60 else c
  let c := if failed && k == 5 then c.raise 63 else c
  let c := { c with ist := { c.ist with late := c.ist.late.filter (fun j => j != k), next := nset 0 c.ist.next k 0 } }
  if c.istHost k then c.istPaced k |>.istHostNext
  else if late then (c.istPaced k).istBegin k
  else c

/-- SCAL: in a group whose CALEN is 1 and NFAIL 0, the first serving slice calibrated longer ago than SCALMAX (R537, R538). -/
def Chip.scalBad (c : Chip) (g : Nat) : Bool :=
  c.on ADC.GCFG.CALEN g && c.get ADC.GSTAT.NFAIL g == 0 &&
    ((upTo 9).filter (fun s => decide (c.slice g s < 8))).any (fun s =>
      decide (nget 0 (c.group g).calAt s + c.get IST.PER.SCALMAX * msTaps < c.now))

/-- Errors of a lane since the start of the window; a saturated counter counts as above LERR (R538). -/
def Chip.laneBad (c : Chip) (n : Nat) : Bool :=
  let crc := c.get LNK.CNT.CRC n
  let code := c.get LNK.CNT.CODE n
  decide (crc = 2 ^ LNK.CNT.CRC.width - 1 ∨ code = 2 ^ LNK.CNT.CODE.width - 1) ||
    decide (c.get IST.LANE.LERR < crc + code - nget 0 c.ist.errs n)

/-- LANE: every lane in ADMIT or ACTIVE is judged; IST_FAIL once per episode (R538, R539). -/
def Chip.istLanes (c : Chip) : Chip :=
  c.each ((upTo 192).filter (fun n => c.lstate n == lsAdmit || c.lstate n == lsActive)) (fun c n =>
    let inEpi := c.ist.epi.contains n
    if c.laneBad n then
      let c := (((c.setBit IST.LFAIL.LANE 0 n true).noteSet IST.LFAIL.LANE 0 (2 ^ n)).flag IST.EVT.LANE).istFailUnit 7 (some n)
      if inEpi then c else { c with ist := { c.ist with epi := n :: c.ist.epi } }.raise 60
    else { c with ist := { c.ist with epi := c.ist.epi.filter (fun j => j != n) } })

/-- The units of a pass of checks 3 to 7 (R537): SRAM words that SCRUB found in error (page, 64-bit word, uncorrectable), and
whether the CRC of ROM, of an active patch or of the shadow agreed. -/
def Chip.istUnits (c : Chip) (k : Nat) (ok : Bool) (errs : List (Nat × Nat × Bool)) : Chip :=
  match k with
  | 3 => c.each ((upTo 4).filter (fun g => c.scalBad g)) (fun c g => c.istFailUnit 3 (some g))
  | 4 => c.each (errs.filter (fun e => decide (e.1 < 2048 ∧ e.2.1 < 512))) (fun c e =>
      (c.sramError e.1 e.2.1 e.2.2).istFailUnit 4 (some (e.1 / 8)))
  | 5 => if ok then c else c.istFailUnit 5 none
  | 6 =>
    let w := c.rst.shadow
    let good := w.isEmpty || crc32c ((w.take 31).flatMap wordBytes) == w.getD 31 0
    if ok && good then c else c.istFailUnit 6 none
  | 7 => c.istLanes
  | _ => c

/-- IST_PASS_START (R540 to R544): a pass of check k in progress comes to its end, or, at its pacing instant, a background pass
starts and, when `done`, is complete with this command. `errs` and `ok` are what the pass found. COMP and RDBK start here and
proceed by their own commands. -/
def execIstPassStart (t k : Nat) (done ok : Bool) (errs : List (Nat × Nat × Bool)) (s : State) :
    Host.Outcome State Fault Refusal :=
  run (fun _ c =>
    let c := c.at_ t
    let rom := c.istEnabled 5 && (c.istActive 5 || c.istDue 5)
    let start := c.istRuns && c.istEnabled k && c.istDue k && decide (k < 7) && !(k == 6 && rom)
    if c.istActive k && decide (3 ≤ k ∧ k ≤ 7) then if done then (c.istUnits k ok errs).istEnd k else c
    else if !c.istActive k && start then
      if k < 3 ∧ (c.istNext k).isNone then c.istPaced k
      else
        let c := (if k < 3 then c else c.istPaced k).istBegin k
        if done ∧ 3 ≤ k then (c.istUnits k ok errs).istEnd k else c
    else c) s

/-- IST_PASS_LATE (R543): the pass of check k is still in progress when its next falls due; of COMP, the window of the comparator
visited is still open. -/
def execIstPassLate (t k : Nat) (s : State) : Host.Outcome State Fault Refusal :=
  run (fun _ c =>
    let c := c.at_ t
    if c.istRuns && c.istEnabled k && c.istActive k && !c.istHost k && c.istDue k && !c.ist.late.contains k &&
        (decide (3 ≤ k) || (k == 1 && c.mon.test.isSome)) then
      let c := { c with ist := { c.ist with late := k :: c.ist.late } }
      ((c.flag IST.EVT.LATE).set IST.RES.LAST (k - 1) 3).raise 60
    else c) s

/-- LANE_WINDOW_END (R538, R540): LWIN seconds after the last end the lanes are judged and the next window starts. -/
def execLaneWindowEnd (t : Nat) (s : State) : Host.Outcome State Fault Refusal :=
  run (fun _ c =>
    let c := c.at_ t
    if c.ist.winAt + c.istPeriod 7 ≤ c.now ∧ c.state ≠ stBoot then
      let c := if c.istRuns && c.istEnabled 7 && !c.istHost 7 then ((c.istPaced 7).istBegin 7 |>.istUnits 7 true []).istEnd 7 else c
      { c with ist := { c.ist with
        winAt := c.now
        errs := (upTo 192).foldl (fun m n => nset 0 m n (c.get LNK.CNT.CRC n + c.get LNK.CNT.CODE n)) [] } }
    else c) s

/-! Comparator tests and readbacks -/

/-- Check k may visit a comparator now: a host pass back to back, a background pass at its pacing (R540, R544). -/
def Chip.istVisits (c : Chip) (k : Nat) : Bool :=
  if c.istHost k then c.istActive k else c.istRuns && c.istEnabled k && c.istDue k

/-- Comparator i has been visited by check k: the pass goes on, or ends after the last eligible one (R538). -/
def Chip.istVisited (c : Chip) (k i : Nat) (bad : Bool) : Chip :=
  let c := if bad then c.istFailUnit k (some i) else c
  let c := { c with ist := { c.ist with next := nset 0 c.ist.next k (i + 1) } }
  if (c.istNext k).isSome then c else c.istEnd k

/-- COMPARATOR_SELF_TEST (R261 to R264): without a result, the visit of the next comparator starts: its window opens or the test is
skipped; with one, the open window closes: raw decision active at step 3, still active at step 5, sample of step 5a. -/
def execComparatorSelfTest (t : Nat) (res : Option (Bool × Bool × Int)) (s : State) : Host.Outcome State Fault Refusal :=
  run (fun _ c =>
    let c := c.at_ t
    match res, c.mon.test with
    | some r, some x =>
      let c := c.monTestEnd r.1 r.2.1 r.2.2
      let v := c.get MON.STAT.TRES x.cmp
      if c.ist.foreign then { c with ist := { c.ist with foreign := false } }
      else if c.istActive 1 then c.istVisited 1 x.cmp (v == 2 || v == 3)
      else c
    | none, none =>
      match c.istNext 1 with
      | some i =>
        if c.istVisits 1 then
          let c := if c.istActive 1 then c else c.istBegin 1
          let c := { (c.istPaced 1).monTestStart i with ist := { (c.istPaced 1).ist with foreign := false } }
          if c.mon.test.isSome then c else c.istVisited 1 i false
        else c
      | none => if c.istActive 1 then c.istEnd 1 else c
    | _, _ => c) s

/-- A self-test window of a comparator of group g is open: the group's out-of-service slice is reserved for it (R287). -/
def Chip.testsGroup (c : Chip) (g : Nat) : Bool := match c.mon.test with
  | some x => cmpGroup x.cmp == g
  | none => false

/-- THRESHOLD_READBACK (R266, R287): the DAC of the next comparator is converted on its group's out-of-service slice, or on an idle slot
in mode SEQ when there is none; `vd` in nV. -/
def execThresholdReadback (t : Nat) (vd : Int) (s : State) : Host.Outcome State Fault Refusal :=
  run (fun _ c =>
    let c := c.at_ t
    match c.istNext 2 with
    | some i =>
      if c.istVisits 2 && c.adcReady (cmpGroup i) && c.serviceFree (cmpGroup i) true && !c.testsGroup (cmpGroup i) then
        let c := if c.istActive 2 then c else c.istBegin 2
        let fails := c.get MON.CNT.RBFAIL i
        let evt := c.flt.raised.length
        let c := (c.istPaced 2).monReadback i (convert vd).1
        c.istVisited 2 i (decide (fails < c.get MON.CNT.RBFAIL i) || decide (evt < c.flt.raised.length))
      else c
    | none => if c.istActive 2 then c.istEnd 2 else c) s

/-! Host passes -/

/-- SELFTEST may not start while a host pass runs (R116). -/
def Chip.selftestBusy (c : Chip) : Bool := c.ist.host.isSome

/-- SELFTEST of check k starts (R544); 0: every enabled check once, ascending (R537). A COMP or RDBK pass without an eligible
comparator is complete at once. -/
def Chip.selftest (c : Chip) (k : Nat) : Chip :=
  let l := if k = 0 then (upTo 8).filter (fun i => c.istEnabled i) else [k]
  let some_ := (upTo 96).any (fun j => c.on MON.CFG.MODE j)
  let c := c.each (l.filter (fun i => decide (i < 3) && !some_)) (fun c i =>
    (c.inc IST.RES.PASSES (i - 1)).set IST.RES.LAST (i - 1) 1)
  match l.filter (fun i => decide (3 ≤ i) || some_) with
  | [] => c
  | i :: is =>
    ({ c with ist := { c.ist with host := some (i, is) } }.set IST.STAT.HOST 0 1 |>.set IST.STAT.HCHK 0 i).istBegin i

/-- A reset of the IST block (R549): passes end, settings that are not RWL return, pacing restarts. -/
def Chip.resetIst (c : Chip) : Chip :=
  let own := fun (k : Key) => decide (0x5000 ≤ k.id ∧ k.id < 0x5400) && k.id != 0x5001
  { c with
    regs := c.regs.filter (fun e => !own e.1)
    ist := { base := c.now, winAt := c.now, errs := (upTo 192).foldl (fun m n => nset 0 m n (c.get LNK.CNT.CRC n + c.get LNK.CNT.CODE n)) [] } }

/-- The commit checks of R545 fail. -/
def Chip.istFails (c : Chip) : Bool :=
  decide (c.get IST.PER.SCRPER < 3 ∨ c.get IST.PER.ROMPER < 1 ∨ c.get IST.PER.SCALMAX < 40)

end Sys2Proof.Machine
end

