-- ==== Sys2Proof/Machine/Engine.lean ====
section
/-! DEFINITION. Control engine (chapter 12, R344 to R370): sources and destinations, sections, slots, Weir groups, probes, schedule,
commit checks of the CTL block, compare fan-out. Every slot of a tick is evaluated at the tick reference, on the values then in force
(log entry 13). -/

namespace Sys2Proof.Machine

open Reg

/-- Slot s. -/
def Chip.slot (c : Chip) (s : Nat) : SlotRec := nget {} c.ctl.slots s

/-- Slot s takes a new record. -/
def Chip.setSlot (c : Chip) (s : Nat) (v : SlotRec) : Chip := { c with ctl := { c.ctl with slots := nset {} c.ctl.slots s v } }

/-! Sources and destinations -/

/-- Sum of VCAP over the lanes of arm a counted in NACT at the tick reference, and their number (R165, R347). -/
def Chip.capSum (c : Chip) (a : Nat) : Nat × Nat := ((c.armRec a).cap, (c.armRec a).nact)

/-- The value of a source code (R347, R357, R372). -/
def Chip.src (c : Chip) (code : Nat) : Word :=
  if code = 1 then F32.one
  else if 0x08 ≤ code ∧ code < 0x28 then resVolts (nget 0 c.adc.eng (code - 8))
  else if 0x30 ≤ code ∧ code < 0x48 then c.getW CTL.OUT.Y (code - 0x30)
  else if 0x48 ≤ code ∧ code < 0x4E then c.getW CTL.WST.W (code - 0x48)
  else if 0x50 ≤ code ∧ code < 0x60 then c.getW CTL.REF.VALUE (code - 0x50)
  else if 0x60 ≤ code ∧ code < 0x66 then F32.ofRat (c.capSum (code - 0x60)).1 20
  else if 0x68 ≤ code ∧ code < 0x6E then
    let x := c.capSum (code - 0x68)
    if x.2 = 0 then F32.nan else F32.ofRat x.1 (20 * x.2)
  else if 0x70 ≤ code ∧ code < 0x80 then c.grd.out.getD (code - 0x70) (if code = 0x7B then F32.one else 0)
  else 0

/-- A source code that R347 lists. -/
def sourceCode (code : Nat) : Bool :=
  decide (code ≤ 1) || decide (8 ≤ code ∧ code < 0x28) || decide (0x30 ≤ code ∧ code < 0x4E) || decide (0x50 ≤ code ∧ code < 0x66) ||
    decide (0x68 ≤ code ∧ code < 0x6E) || decide (0x70 ≤ code ∧ code < 0x80)

/-- A destination of an arm (R348). -/
def armDest (code : Nat) : Bool := decide (0x10 ≤ code ∧ code < 0x26) && decide (code % 8 < 6)

/-- A destination of a direct port (R348). -/
def dhbDest (code : Nat) : Bool := decide (0x40 ≤ code ∧ code < 0x70) && decide (code % 16 < 12)

/-- A destination code that R348 lists. -/
def destCode (code : Nat) : Bool := code == 0 || armDest code || dhbDest code

/-- A value reaches the destination with a DEST code; 0x40 + p is both compares of port p (R348). -/
def Chip.deliverDest (c : Chip) (code : Nat) (v : Word) : Chip :=
  let put := fun (m : NTab Word) (k : Nat) => nset 0 m k v
  if code = 0 then c
  else if 0x40 ≤ code ∧ code < 0x50 then
    { c with ctl := { c.ctl with dest := put (put c.ctl.dest (code + 0x10)) (code + 0x20) } }
  else { c with ctl := { c.ctl with dest := put c.ctl.dest code } }

/-! Coefficients in force -/

/-- A coefficient as in force at the latest tick reference not after instant x (R362). -/
def Chip.coefAt (c : Chip) (x : Nat) (f : Fld) (n : Nat) : Word :=
  toWord ((c.ctl.hist.filter (fun h => decide (x < h.1) && decide (h.2.1 = (⟨f.id, f.lo, n⟩ : Key)))).foldl
    (fun _ h => h.2.2) (c.get f n))

/-- The fields of one CTL attribute that hold coefficients, limits and scales (R362). -/
def coefFields (id : Nat) : List Fld :=
  if id = 0x4001 then [CTL.SIO.KREF, CTL.SIO.KMEAS, CTL.SIO.KFF]
  else if id = 0x4002 then [CTL.SEC.C1, CTL.SEC.C2, CTL.SEC.C3, CTL.SEC.C4, CTL.SEC.C5, CTL.SEC.C6]
  else if id = 0x4003 then [CTL.LIM.YLO, CTL.LIM.YHI]
  else []

/-- The slot that a coefficient attribute belongs to. -/
def coefSlot (id inst : Nat) : Nat := if id = 0x4002 then inst / 4 else inst

/-- The values that a write at reference x replaces are kept for firings before it; those of references more than 1 ms old, and older
than every pending firing, are dropped. -/
def Chip.keepCoef (c : Chip) (id inst x : Nat) : Chip :=
  let oldest := (upTo 24).foldl (fun m s => match (c.slot s).trig with
    | some f => Min.min m (c.raw f)
    | none => m) (x - msTaps)
  let keep := c.ctl.hist.filter (fun h => decide (oldest ≤ h.1))
  let add : List (Nat × Key × Nat) := (coefFields id).map (fun f => (x, (⟨f.id, f.lo, inst⟩ : Key), c.get f inst))
  { c with ctl := { c.ctl with hist := add ++ keep } }

/-! Sections -/

/-- What a section computes: output, new states, new sat (0 NONE, 1 HIGH, 2 LOW), and its term p. -/
structure SecRes where
  out : Word
  x1 : Word
  x2 : Word
  sat : Nat
  p : Word
  deriving DecidableEq, Repr

/-- BIQ (R350). -/
def biq (b0 b1 b2 a1 a2 x s1 s2 : Word) : SecRes :=
  let out := F32.add (F32.mul b0 x) s1
  { out := out
    x1 := F32.sub (F32.add (F32.mul b1 x) s2) (F32.mul a1 out)
    x2 := F32.sub (F32.mul b2 x) (F32.mul a2 out), sat := 0, p := 0 }

/-- The integrator of a PI section and its sat (R351). -/
def piStep (kp ki ilo ihi ylo yhi ts x xi : Word) (sat : Nat) : Word × Nat :=
  let p := F32.mul kp x
  let d := F32.mul (F32.mul ki ts) x
  let sat := if sat = 1 ∧ F32.lt x 0 then 0 else sat
  let sat := if sat = 2 ∧ F32.lt 0 x then 0 else sat
  if sat = 1 then (F32.min xi ihi, 1)
  else if sat = 2 then (F32.max xi ilo, 2)
  else
    let xn := F32.add xi d
    if F32.lt ihi xn then (ihi, 1)
    else if F32.lt xn ilo then (ilo, 2)
    else if F32.lt yhi (F32.add p xn) && F32.lt 0 x then (xi, 1)
    else if F32.lt (F32.add p xn) ylo && F32.lt x 0 then (xi, 2)
    else (xn, 0)

/-- PI (R351); a preset takes the place of the integrator's update (R365). -/
def piSec (kp ki ilo ihi ylo yhi ts x xi : Word) (sat : Nat) (preset : Option Word) : SecRes :=
  let p := F32.mul kp x
  let r := match preset with
    | some yf => (F32.sub yf p, 0)
    | none => piStep kp ki ilo ihi ylo yhi ts x xi sat
  { out := F32.min (F32.max (F32.add p r.1) ylo) yhi, x1 := r.1, x2 := 0, sat := r.2, p := p }

/-- PR (R353). -/
def prSec (kp g cc ss rmax x x1 x2 : Word) : SecRes :=
  let n1 := F32.add (F32.sub (F32.mul cc x1) (F32.mul ss x2)) (F32.mul g x)
  let n2 := F32.add (F32.mul ss x1) (F32.mul cc x2)
  let q := F32.add (F32.mul n1 n1) (F32.mul n2 n2)
  let lim := F32.lt (F32.mul rmax rmax) q
  let f := F32.div rmax (F32.sqrt q)
  let n1 := if lim then F32.mul n1 f else n1
  let n2 := if lim then F32.mul n2 f else n2
  { out := F32.add (F32.mul kp x) n1, x1 := n1, x2 := n2, sat := bit lim, p := 0 }

/-- sat of section k of slot s. -/
def Chip.sat (c : Chip) (s k : Nat) : Nat := bitsOf (c.get CTL.SST.SAT s) (2 * k + 1) (2 * k)

/-- sat of section k of slot s takes v. -/
def Chip.setSecSat (c : Chip) (s k v : Nat) : Chip :=
  c.set CTL.SST.SAT s (c.get CTL.SST.SAT s - c.sat s k * 4 ^ k + v * 4 ^ k)

/-- TYPE of section k of slot s: 0 not set, 1 BIQ, 2 PI, 3 PR. -/
def Chip.secType (c : Chip) (s k : Nat) : Nat := c.get CTL.SEC.TYPE (4 * s + k)

/-- Section k of slot s with input v, coefficients of instant x; `preset` is yh − f when a preset is due in it (R365). -/
def Chip.section_ (c : Chip) (x s k : Nat) (v : Word) (preset : Option Word) : SecRes :=
  let i := 4 * s + k
  let k1 := c.coefAt x CTL.SEC.C1 i
  let k2 := c.coefAt x CTL.SEC.C2 i
  let k3 := c.coefAt x CTL.SEC.C3 i
  let k4 := c.coefAt x CTL.SEC.C4 i
  let k5 := c.coefAt x CTL.SEC.C5 i
  let k6 := c.coefAt x CTL.SEC.C6 i
  let x1 := c.getW CTL.ISTATE.X1 i
  let x2 := c.getW CTL.ISTATE.X2 i
  match c.secType s k with
  | 1 => biq k1 k2 k3 k4 k5 v x1 x2
  | 2 => piSec k1 k2 k3 k4 k5 k6 (c.slot s).ts v x1 (c.sat s k) preset
  | _ => prSec k1 k2 k3 k4 k5 v x1 x2

/-- The chain of sections k, k + 1, … of slot s, results in order (R346). -/
def Chip.sections (c : Chip) (x s : Nat) (preset : Option Word) : Nat → Nat → Word → List SecRes
  | 0, _, _ => []
  | n + 1, k, v =>
    let r := c.section_ x s k v (if n = 0 then preset else none)
    r :: c.sections x s preset n (k + 1) r.out

/-! Probes -/

/-- Value of a node of slot s (R366). -/
def Chip.node (c : Chip) (s node : Nat) : Word :=
  let r := c.slot s
  if node < 5 then r.nodes.getD node 0
  else if node = 5 then c.getW CTL.OUT.Y s
  else if 8 ≤ node ∧ node < 12 then r.outs.getD (node - 8) 0
  else if 12 ≤ node ∧ node < 16 then
    (if node - 12 < c.get CTL.SCFG.NSEC s then c.getW CTL.ISTATE.X1 (4 * s + (node - 12)) else 0)
  else if node = 16 then c.getW CTL.WST.W (c.get CTL.SCFG.WEIR s)
  else 0

/-- Flags of a probe record (R366); the mixed-set flag comes when it is settled. -/
def Chip.probeFlags (c : Chip) (s node : Nat) : Nat :=
  let satAny := (upTo (c.get CTL.SCFG.NSEC s)).any (fun k => c.sat s k != 0)
  let sat := if 3 ≤ node ∧ node ≤ 5 then satAny
    else if 8 ≤ node ∧ node < 16 then c.sat s (node % 4) != 0
    else false
  bit (c.on CTL.SST.NANH s) + 2 * bit (c.on CTL.SCTL.HOLD s) + 4 * bit sat + 8 * bit (c.on CTL.SST.WIN s)

/-- The records of the probes on slot s at one evaluation, or at an evaluation instant while HOLD holds y (R366). They are written at
once unless a write of a coefficient may still show the set mixed (log entry 14). -/
def Chip.probes (c : Chip) (s k x : Nat) (hold : Bool) : Chip :=
  let r := c.slot s
  let ps := (upTo 8).filter (fun t => c.on CTL.PRB.EN t && c.get CTL.PRB.SLOT t == s &&
    (hold || r.evals % (c.get CTL.PRB.PDIV t + 1) == 0))
  let items : List Item := ps.map (fun t =>
    let node := c.get CTL.PRB.NODE t
    { ring := c.get CTL.PRB.RING t, words := [(c.node s node).toNat, 65536 * (k % 65536) + c.probeFlags s node] })
  let wait := !hold && (match r.wrote with
    | some w => decide (x < w + r.tsTaps)
    | none => false)
  if wait then c.setSlot s { r with recs := r.recs ++ items } else c.each items Chip.ringItem

/-- The mixed-set flag of slot s's waiting records is settled: they are written (R366). -/
def Chip.settleProbes (c : Chip) (s : Nat) (mixed : Bool) : Chip :=
  let r := c.slot s
  let out := r.recs.map (fun i => if mixed then { i with words := i.words.zipIdx.map (fun w => if w.2 = 1 then w.1 + 16 else w.1) } else i)
  (c.setSlot s { r with recs := [] }).each out Chip.ringItem

/-- Coefficients of slot s are written at tick reference x: an evaluation between two such references within one ts used a mixed
set (R363, R366). -/
def Chip.coefWritten (c : Chip) (s x : Nat) : Chip :=
  let r := c.slot s
  let mixed := match r.wrote, r.evAt with
    | some w, some e => decide (w < x ∧ x ≤ w + r.tsTaps ∧ w ≤ e ∧ e < x)
    | _, _ => false
  let c := if mixed then (c.settleProbes s true).set CTL.SST.MIXED s 1 else c
  c.setSlot s { c.slot s with wrote := some x }

/-- At a tick reference x: records of slots whose last write is a sample interval old are settled. -/
def Chip.settleOld (c : Chip) (x : Nat) : Chip :=
  c.each (upTo 24) (fun c s =>
    match (c.slot s).wrote with
    | some w => if w + (c.slot s).tsTaps ≤ x then c.settleProbes s false else c
    | none => c)

/-! Slots -/

/-- The results of slot s's sections are committed (R359). -/
def Chip.keepSections (c : Chip) (s : Nat) (l : List SecRes) : Chip :=
  c.each l.zipIdx (fun c e =>
    let i := 4 * s + e.2
    (((c.setW CTL.ISTATE.X1 i e.1.x1).setW CTL.ISTATE.X2 i e.1.x2)).setSecSat s e.2 e.1.sat)

/-- An evaluation held on a non-finite value (R346). -/
def Chip.heldEval (c : Chip) (s : Nat) : Chip :=
  let r := c.slot s
  let c := ((c.set CTL.SST.NANH s 1).inc CTL.CNT.NAN).flag CTL.EVT.NAN
  let c := (c.set CTL.SST.SLIM s 0).setSlot s { r with epi := true }
  if r.epi then c else c.raise 48

/-- Evaluation of slot s (R346) with the coefficients of instant x; k is the tick number since commit. While HOLD is 1 the slot is not
evaluated (R364). -/
def Chip.evalSlot (c : Chip) (s k x : Nat) : Chip :=
  if c.on CTL.SCTL.HOLD s then c.probes s k x true
  else
    let c := c.settleProbes s false
    let rec_ := c.slot s
    let r := F32.mul (c.coefAt x CTL.SIO.KREF s) (c.src (c.get CTL.SIO.REFSRC s))
    let m := F32.mul (c.coefAt x CTL.SIO.KMEAS s) (c.src (c.get CTL.SIO.MEASSRC s))
    let e := F32.sub r m
    let f := F32.mul (c.coefAt x CTL.SIO.KFF s) (c.src (c.get CTL.SIO.FFSRC s))
    let nsec := c.get CTL.SCFG.NSEC s
    let yh := c.getW CTL.OUT.Y s
    let preset := if rec_.preset && decide (0 < nsec) && c.secType s (nsec - 1) == 2 then some (F32.sub yh f) else none
    let l := c.sections x s preset nsec 0 e
    let v := match l.getLast? with
      | some q => q.out
      | none => e
    let u := F32.add v f
    let ok := F32.isFinite e && l.all (fun q => F32.isFinite q.out) && F32.isFinite f && F32.isFinite u
    let rec1 := { rec_ with
      evals := rec_.evals + 1, nodes := [r, m, e, f, u], outs := l.map (·.out), evAt := some (c.raw c.now), trig := none }
    let c := ((c.setSlot s rec1).inc CTL.CNT.EVALS).set CTL.SST.MIXED s 0
    let c :=
      if ok then
        let y := F32.min (F32.max u (c.coefAt x CTL.LIM.YLO s)) (c.coefAt x CTL.LIM.YHI s)
        let lim := !(F32.le y u && F32.le u y)
        let p := match l.getLast? with
          | some q => q.p
          | none => 0
        let c := (c.keepSections s l).setW CTL.OUT.Y s y
        let c := (c.set CTL.SST.NANH s 0).set CTL.SST.SLIM s (bit lim)
        let c := c.setSlot s { rec1 with epi := false, preset := false, lastP := p, lastF := f }
        let c := if lim then c.flag CTL.EVT.SLIM else c
        c.deliverDest (c.get CTL.SIO.DEST s) y
      else c.heldEval s
    c.probes s k (c.raw c.now) false

/-- Slot s is enabled. -/
def Chip.slotOn (c : Chip) (s : Nat) : Bool := c.on CTL.SCFG.EN s

/-- Members of Weir group w, ascending (R360). -/
def Chip.members (c : Chip) (w : Nat) : List Nat := (upTo 24).filter (fun s => c.slotOn s && c.get CTL.SCFG.WEIR s == w)

/-- A loser tracks W (R361). -/
def Chip.track (c : Chip) (s : Nat) (w : Word) : Chip :=
  let nsec := c.get CTL.SCFG.NSEC s
  if c.on CTL.SST.NANH s || c.on CTL.SCTL.HOLD s || nsec == 0 || c.secType s (nsec - 1) != 2 then c
  else
    let i := 4 * s + (nsec - 1)
    let r := c.slot s
    let ilo := c.getW CTL.SEC.C3 i
    let ihi := c.getW CTL.SEC.C4 i
    let xi := F32.clamp (F32.sub (F32.sub w r.lastF) r.lastP) ilo ihi
    let same := fun (a b : Word) => F32.le a b && F32.le b a
    (c.setW CTL.ISTATE.X1 i xi).setSecSat s (nsec - 1) (if same xi ihi then 1 else if same xi ilo then 2 else 0)

/-- The preferred candidate of a Weir group: least value (SEL 0) or greatest, the lower slot when equal (R360). -/
def Chip.preferred (c : Chip) (sel : Bool) (l : List Nat) : Option Nat :=
  l.foldl (fun best s => match best with
    | none => some s
    | some b =>
      let x := c.getW CTL.OUT.Y s
      let y := c.getW CTL.OUT.Y b
      if (if sel then F32.lt y x else F32.lt x y) then some s else some b) none

/-- Resolution of Weir group w (R360, R361). -/
def Chip.resolveWeir (c : Chip) (w : Nat) : Chip :=
  if ¬ (w < 6) ∨ ¬ c.on CTL.WEIR.EN w then c
  else
    let mem := c.members w
    let sel := c.on CTL.WEIR.SEL w
    let cands := mem.filter (fun s => !F32.isNaN (c.getW CTL.OUT.Y s))
    match c.preferred sel cands with
    | none => c.flag CTL.EVT.WNAN
    | some best =>
      let inc := c.get CTL.WST.WINNER w
      let yb := c.getW CTL.OUT.Y best
      let yi := c.getW CTL.OUT.Y inc
      let stays := cands.contains inc && !F32.lt (c.getW CTL.WEIR.WHYS w) (if sel then F32.sub yb yi else F32.sub yi yb)
      let win := if stays then inc else best
      let c := if inc != 0xFF && win != inc then c.inc CTL.CNT.WSW else c
      let v := c.getW CTL.OUT.Y win
      let c := (c.set CTL.WST.WINNER w win).setW CTL.WST.W w v
      let c := c.each mem (fun c s => c.set CTL.SST.WIN s (bit (s == win)))
      let c := c.each (mem.filter (fun s => s != win)) (fun c s => c.track s v)
      c.deliverDest (c.get CTL.WEIR.DEST w) v

/-! Running a phase -/

/-- Slot s is due in the tick with number k since commit (R355). -/
def Chip.slotDue (c : Chip) (s k : Nat) : Bool :=
  k % (c.get CTL.SCFG.DIV s + 1) == c.get CTL.SCFG.DOFS s

/-- The due slots of a list in order, at most n evaluations; a Weir group is resolved after its last member (R356). Answers the
evaluations left. -/
def Chip.runSlots (k x : Nat) : List Nat → Chip × Nat → Chip × Nat
  | [], cn => cn
  | s :: l, (c, n) =>
    match n with
    | 0 => (c, 0)
    | n + 1 =>
      let w := c.get CTL.SCFG.WEIR s
      let c := c.evalSlot s k x
      let c := if l.any (fun q => c.get CTL.SCFG.WEIR q == w) then c else c.resolveWeir w
      Chip.runSlots k x l (c, n)

/-- The due slots of a phase. -/
def Chip.dueSlots (c : Chip) (l : List Nat) (k : Nat) : List Nat := l.filter (fun s => c.slotDue s k)

/-- TRIG slots that wait for their evaluation, in the order of R356. -/
def Chip.trigPending (c : Chip) : List Nat := c.ctl.trig.filter (fun s => (c.slot s).trig.isSome)

/-- The first waiting TRIG slot is evaluated with the coefficients of the latest reference before its firing (R358, R362); its Weir group is resolved when no other
member waits. -/
def Chip.runTrig (c : Chip) (k : Nat) : Chip :=
  match c.trigPending with
  | [] => c
  | s :: l =>
    let w := c.get CTL.SCFG.WEIR s
    let r := c.slot s
    let c := c.setSlot s { r with trig := none }
    let c := c.evalSlot s k (c.raw (r.trig.getD c.now) - 1)
    if l.any (fun q => c.get CTL.SCFG.WEIR q == w) then c else c.resolveWeir w

/-- The tick number since commit of the running tick. -/
def Chip.tickNo (c : Chip) : Nat := c.dev.tick - 1 - c.tim.firstTick

/-- Up to m of the POST slots still due are evaluated, with the coefficients of the tick reference (R356, R358, R362). -/
def Chip.runPost (c : Chip) (m : Nat) : Chip :=
  let n := Min.min m c.ctl.left
  let r := (Chip.runSlots c.tickNo (c.raw c.tickAt) c.ctl.due (c, n)).1
  { r with ctl := { r.ctl with due := c.ctl.due.drop n, left := c.ctl.left - n } }

/-- TRIG_SLOT_EVALUATION (R358): between ticks so many POST slots end their evaluation, then the engine serves the first waiting TRIG
slot ahead of those that have not started. -/
def execTrigSlotEvaluation (w : TrigTurn) (s : State) : Host.Outcome State Fault Refusal :=
  run (fun _ c => let c := c.at_ w.t; if c.inRun && c.dev.ticking then (c.runPost w.posts).runTrig c.tickNo else c) s

/-- The firing of generator m at instant x reaches the TRIG slots bound to it: one that still waits loses it (R358). -/
def Chip.mtrigSlots (c : Chip) (m x : Nat) : Chip :=
  c.each (c.ctl.trig.filter (fun s => c.get CTL.SCFG.TSRC s == m)) (fun c s =>
    let r := c.slot s
    if r.trig.isSome then (c.inc CTL.CNT.TRGLOST).flag CTL.EVT.TRGLOST
    else c.setSlot s { r with trig := some x })

/-- The firing to be delivered next: earliest instant, first in the list when equal. -/
def nextFiring : List (Nat × Nat) → Option (Nat × Nat)
  | [] => none
  | e :: l => match nextFiring l with
    | none => some e
    | some b => if b.2 < e.2 then some b else some e

/-- MTRIG_DELIVERY (R204): the earliest firing whose delay has passed reaches the sequencers and the engine. -/
def execMtrigDelivery (t : Nat) (s : State) : Host.Outcome State Fault Refusal :=
  run (fun _ c =>
    let c := c.at_ t
    match nextFiring c.mod.fired with
    | some (m, d) =>
      if c.inRun && decide (d ≤ c.now) then
        let c := { c with mod := { c.mod with fired := c.mod.fired.erase (m, d) } }
        (c.mtrigSequences m d).mtrigSlots m (d - 64 * c.get MOD.TRG.DELAY m)
      else c
    | none => c) s

/-! Compare fan-out -/

/-- Both compares of lane n of arm a in mode PSC (R349). -/
def Chip.fanOut (c : Chip) (a n : Nat) : Word :=
  let t1 := F32.sub (c.src (0x68 + a)) (F32.ofRat (c.get LNK.UPL.VCAP n) 20)
  let t2 := F32.mul (c.getW CTL.PSC.KB a) t1
  let t3 := if (c.armRec a).dis then F32.neg t2 else t2
  let t4 := F32.add F32.one (c.destVal (0x20 + a))
  let t5 := F32.mul 0x3F000000#32 t4
  F32.add t5 t3

/-! Schedule at commit -/

/-- Sources that slot s names. -/
def Chip.slotSources (c : Chip) (s : Nat) : List Nat := [c.get CTL.SIO.REFSRC s, c.get CTL.SIO.MEASSRC s, c.get CTL.SIO.FFSRC s]

/-- Slots that slot s reads; a Weir output depends on every member (R356). -/
def Chip.slotReads (c : Chip) (s : Nat) : List Nat :=
  (c.slotSources s).flatMap (fun code =>
    if 0x30 ≤ code ∧ code < 0x48 then (if c.slotOn (code - 0x30) then [code - 0x30] else [])
    else if 0x48 ≤ code ∧ code < 0x4E then c.members (code - 0x48)
    else [])

/-- Destination of slot s itself or of its enabled Weir group. -/
def Chip.slotDests (c : Chip) (s : Nat) : List Nat :=
  let w := c.get CTL.SCFG.WEIR s
  c.get CTL.SIO.DEST s :: (if decide (w < 6) && c.on CTL.WEIR.EN w then [c.get CTL.WEIR.DEST w] else [])

/-- The output of slot s goes to an arm or to a port. -/
def Chip.drives (c : Chip) (s : Nat) : Bool := (c.slotDests s).any (fun d => armDest d || dhbDest d)

/-- Enabled slots, ascending. -/
def Chip.slotsOn (c : Chip) : List Nat := (upTo 24).filter (fun s => c.slotOn s)

/-- A set of slots grown n times by the slots of `cand` that one of its members reads. -/
def Chip.growReaders (c : Chip) (cand : List Nat) : Nat → List Nat → List Nat
  | 0, l => l
  | n + 1, l => c.growReaders cand n (l ++ cand.filter (fun s => !l.contains s && l.any (fun q => (c.slotReads q).contains s)))

/-- Slots placed in LRP (R355): by their PHASE field, or AUTO and reaching an arm or port destination or an LRP slot. -/
def Chip.lrpSlots (c : Chip) : List Nat :=
  let auto := c.slotsOn.filter (fun s => c.get CTL.SCFG.PHASE s == 3)
  c.growReaders auto 24 (c.slotsOn.filter (fun s => c.get CTL.SCFG.PHASE s == 0 || (c.get CTL.SCFG.PHASE s == 3 && c.drives s)))

/-- Placed phase of slot s: 0 LRP, 1 POST, 2 TRIG, 3 not placed (R355). -/
def Chip.placed (c : Chip) (s : Nat) : Nat :=
  if !c.slotOn s then 3
  else if c.lrpSlots.contains s then 0
  else if c.get CTL.SCFG.PHASE s = 2 then 2 else 1

/-- Levels of the slots of one phase after n rounds (R356). -/
def Chip.levels (c : Chip) (l : List Nat) : Nat → NTab Nat
  | 0 => []
  | n + 1 =>
    let m := c.levels l n
    l.foldl (fun r s => nset 0 r s (((c.slotReads s).filter (fun q => l.contains q)).foldl
      (fun a q => Max.max a (nget 0 m q + 1)) 0)) []

/-- Slots of a phase in the order of R356, or none when they read one another in a cycle (R367). -/
def Chip.orderSlots (c : Chip) (l : List Nat) : Option (List Nat) :=
  let m := c.levels l 25
  let reach := c.growReaders c.slotsOn 24 (c.slotsOn.filter (fun s => c.drives s))
  if l.any (fun s => decide (24 ≤ nget 0 m s)) then none
  else some ((upTo 24).flatMap (fun v =>
    let here := l.filter (fun s => nget 0 m s == v)
    here.filter (fun s => reach.contains s) ++ here.filter (fun s => !reach.contains s)))

/-- Operations of slot s (R354). -/
def Chip.slotOps (c : Chip) (s : Nat) : Nat :=
  (upTo (c.get CTL.SCFG.NSEC s)).foldl (fun n k =>
    n + (match c.secType s k with | 1 => 9 | 2 => 12 | 3 => 18 | _ => 0)) 8

/-- Exact firing interval of a generator in taps (R355). -/
def Chip.mtrigInterval (c : Chip) (m : Nat) : Nat :=
  let per := match c.get MOD.TRG.KIND m with
    | 0 => c.get MOD.ACFG.PER (c.get LNK.STATE.ARM (c.get MOD.TRG.SRC m))
    | 1 => c.get DHB.CAR.PER (c.get MOD.TRG.SRC m)
    | _ => c.period
  (c.get MOD.TRG.PRESC m + 1) * per

/-- Sample interval of slot s in taps (R355). -/
def Chip.slotTaps (c : Chip) (s : Nat) : Nat :=
  if c.get CTL.SCFG.PHASE s = 2 then c.mtrigInterval (c.get CTL.SCFG.TSRC s) else (c.get CTL.SCFG.DIV s + 1) * c.period

/-- Operations of slot s with its share in a Weir group. -/
def Chip.slotCount (c : Chip) (s : Nat) : Nat :=
  let w := c.get CTL.SCFG.WEIR s
  c.slotOps s + (if decide (w < 6) && c.on CTL.WEIR.EN w then 3 else 0)

/-- Operations of the probes on slot s. -/
def Chip.probeOps (c : Chip) (s : Nat) : Nat := ((upTo 8).filter (fun t => c.on CTL.PRB.EN t && c.get CTL.PRB.SLOT t == s)).length

/-- Operations of slot s with its share in a Weir group and its probes. -/
def Chip.slotWork (c : Chip) (s : Nat) : Nat := c.slotCount s + c.probeOps s

/-- Lanes in the maps of arms in mode PSC. -/
def Chip.pscLanes (c : Chip) : Nat := ((upTo 6).filter (fun a => c.get ARM.CFG.MODE a == 1)).foldl (fun n a => n + (c.armLanes a).length) 0

/-- F of R367. -/
def Chip.opsF (c : Chip) : Nat :=
  let lrp := c.lrpSlots
  lrp.foldl (fun n s => n + c.slotWork s) 0 + 6 * c.pscLanes + (if c.slotsOn.any (fun s => !lrp.contains s) then 18 else 0)

/-- FPT of R367: a TRIG slot's own count once for each firing that a tick can hold. -/
def Chip.opsFpt (c : Chip) : Nat :=
  (c.slotsOn.filter (fun s => c.placed s != 0)).foldl (fun n s =>
    n + (if c.placed s = 2 then c.slotCount s * (c.period / c.slotTaps s + 1) else c.slotCount s) + c.probeOps s) 0

/-- Slots of one placed phase. -/
def Chip.phaseSlots (c : Chip) (p : Nat) : List Nat := c.slotsOn.filter (fun s => c.placed s == p)

/-- The schedule fails with RESULT 6 (R367). -/
def Chip.scheduleFails (c : Chip) : Bool :=
  (upTo 3).any (fun p => (c.orderSlots (c.phaseSlots p)).isNone) || decide (c.get DEV.TICK.PERIOD * 8 < c.opsF + c.opsFpt + 100)

/-- An ADC slot, as a source code, is in a tick set (R274). -/
def Chip.inTickSet (c : Chip) (code : Nat) : Bool :=
  decide (8 ≤ code ∧ code < 0x28) && (upTo 16).any (fun e =>
    let i := 16 * ((code - 8) / 8) + e
    c.on ADC.SEQ.EN i && c.get ADC.SEQ.TRG i == 0 && c.get ADC.SEQ.SLOT i == (code - 8) % 8)

/-- An ADC slot, as a source code, is in a sequence with ENG = 1. -/
def Chip.inEngSeq (c : Chip) (code : Nat) : Bool :=
  decide (8 ≤ code ∧ code < 0x28) && (upTo 16).any (fun e =>
    let g := (code - 8) / 8
    let i := 16 * g + e
    c.on ADC.SEQ.EN i && c.get ADC.SEQ.TRG i != 0 && c.get ADC.SEQ.SLOT i == (code - 8) % 8 &&
      c.on ADC.QCFG.ENG (4 * g + (c.get ADC.SEQ.TRG i - 1)))

/-- No value of a list occurs twice. -/
def noTwice : List Nat → Bool
  | [] => true
  | x :: l => !l.contains x && noTwice l

/-- Enabled Weir groups. -/
def Chip.groupsOn (c : Chip) : List Nat := (upTo 6).filter (fun w => c.on CTL.WEIR.EN w)

/-- Every destination named, other than none. -/
def Chip.destsNamed (c : Chip) : List Nat :=
  (c.slotsOn.map (fun s => c.get CTL.SIO.DEST s) ++ c.groupsOn.map (fun w => c.get CTL.WEIR.DEST w)).filter (fun d => d != 0)

/-- Items 1 to 3 of R368. -/
def Chip.destFails (c : Chip) : Bool :=
  let ds := c.destsNamed
  !noTwice ds || (upTo 12).any (fun p => ds.contains (0x40 + p) && (ds.contains (0x50 + p) || ds.contains (0x60 + p))) ||
    c.slotsOn.any (fun s => c.placed s != 0 && armDest (c.get CTL.SIO.DEST s)) ||
    c.groupsOn.any (fun w => armDest (c.get CTL.WEIR.DEST w) && (c.members w).any (fun s => c.placed s != 0)) ||
    (upTo 6).any (fun a => !(c.armLanes a).isEmpty &&
      ((c.get ARM.CFG.MODE a == 0 && !ds.contains (0x10 + a)) || (c.get ARM.CFG.MODE a == 1 && !ds.contains (0x20 + a))))

/-- Items 4 and 5 of R368. -/
def Chip.sourceFails (c : Chip) : Bool :=
  (upTo 12).any (fun p => c.destsNamed.any (fun d => dhbDest d && d % 16 == p) && (c.on DHB.CFG.CSRC p || c.get DHB.CFG.MODE p == 0)) ||
    c.slotsOn.any (fun s => (c.slotSources s).any (fun code =>
      (decide (0x30 ≤ code ∧ code < 0x48) && !c.slotOn (code - 0x30)) ||
      (decide (0x48 ≤ code ∧ code < 0x4E) && (c.members (code - 0x48)).isEmpty) ||
      (decide (8 ≤ code ∧ code < 0x28) && !c.inTickSet code && !c.inEngSeq code)))

/-- Items 6 and 7 of R368. -/
def Chip.weirFails (c : Chip) : Bool :=
  (upTo 6).any (fun w =>
    let mem := c.members w
    mem.any (fun s =>
      let nsec := c.get CTL.SCFG.NSEC s
      c.get CTL.SIO.DEST s != 0 || nsec == 0 || c.secType s (nsec - 1) != 2 ||
        mem.any (fun q => c.placed q != c.placed s || c.get CTL.SCFG.DIV q != c.get CTL.SCFG.DIV s ||
          c.get CTL.SCFG.DOFS q != c.get CTL.SCFG.DOFS s)) ||
      (c.on CTL.WEIR.EN w && (c.get CTL.WEIR.DEST w == 0 || mem.isEmpty)))

/-- Items 8 and 9 of R368. -/
def Chip.slotFails (c : Chip) : Bool :=
  c.slotsOn.any (fun s => decide (c.get CTL.SCFG.DIV s < c.get CTL.SCFG.DOFS s) ||
      (c.get CTL.SCFG.PHASE s == 2 && !c.on MOD.TRG.EN (c.get CTL.SCFG.TSRC s)) ||
      (upTo (c.get CTL.SCFG.NSEC s)).any (fun k => c.secType s k == 0)) ||
    (upTo 8).any (fun t => c.on CTL.PRB.EN t &&
      (let s := c.get CTL.PRB.SLOT t
       let node := c.get CTL.PRB.NODE t
       !c.slotOn s || (decide (8 ≤ node ∧ node < 16) && decide (c.get CTL.SCFG.NSEC s ≤ node % 4)) ||
         (node == 16 && c.get CTL.SCFG.WEIR s == 7)))

/-- The commit checks of R368 fail (RESULT 7). -/
def Chip.engineFails (c : Chip) : Bool := c.destFails || c.sourceFails || c.weirFails || c.slotFails

/-- A source names the grid unit (R387). -/
def Chip.namesGrid (c : Chip) : Bool := c.slotsOn.any (fun s => (c.slotSources s).any (fun code => decide (0x70 ≤ code ∧ code < 0x80)))

/-! Commit, writes, reset -/

/-- The states of R369 return to 0, NONE and none; the section states named stand. -/
def Chip.zeroEngine (c : Chip) (keep : List Nat) : Chip :=
  let gone := fun (k : Key) => decide (0x4011 ≤ k.id ∧ k.id ≤ 0x4014) && !(k.id == 0x4011 && k.lo == 22) &&
    !(k.id == 0x4013 && keep.contains k.inst)
  { c with
    regs := c.regs.filter (fun e => !gone e.1)
    ctl := { c.ctl with dest := [], hist := [] } }

/-- A successful commit fixes the schedule (R355, R356, R367, R369). -/
def Chip.commitEngine (c : Chip) : Chip :=
  let c := c.each (upTo 24) (fun c s => c.set CTL.SST.PLACED s (c.placed s))
  let c := c.zeroEngine c.ctl.written
  let order := fun (p : Nat) => (c.orderSlots (c.phaseSlots p)).getD []
  let slots : NTab SlotRec := (upTo 24).foldl (fun m s =>
    if c.slotOn s then
      let n := c.slotTaps s
      nset {} m s { preset := (c.slot s).preset, tsTaps := n, ts := F32.ofRat n 8000000000 }
    else nset {} m s { preset := (c.slot s).preset }) []
  { c with ctl := { slots := slots, lrp := order 0, post := order 1, trig := order 2 } }

/-- A write of CTL.SCTL has taken effect on slot s: a release with PRESET makes the preset due (R365). -/
def Chip.sctlWritten (c : Chip) (s : Nat) (oldHold : Bool) : Chip :=
  let r := c.slot s
  let hold := c.on CTL.SCTL.HOLD s
  if oldHold && !hold then c.setSlot s { r with preset := c.on CTL.SCTL.PRESET s }
  else if hold then c.setSlot s { r with preset := false }
  else c

/-- A write of CTL.ISTATE has taken effect on section i (R364, R369). -/
def Chip.istateWritten (c : Chip) (i : Nat) : Chip :=
  let ty := c.secType (i / 4) (i % 4)
  let c := if ty = 2 ∨ ty = 3 then c.setSecSat (i / 4) (i % 4) 0 else c
  if c.inRun then c else { c with ctl := { c.ctl with written := i :: c.ctl.written.filter (fun k => k != i) } }

/-- A reset of the CTL block (R369): states as at commit, configuration, coefficients and the schedule kept. -/
def Chip.resetCtl (c : Chip) : Chip :=
  let c := c.zeroEngine []
  let slots : NTab SlotRec := (upTo 24).foldl (fun m s =>
    nset {} m s { preset := (c.slot s).preset, tsTaps := (c.slot s).tsTaps, ts := (c.slot s).ts }) []
  { c with
    regs := c.regs.filter (fun e => !(e.1.id == 0x4015 || e.1.id == 0x4016))
    ctl := { c.ctl with slots := slots, written := [] } }

end Sys2Proof.Machine
end

