-- ==== Sys2Proof/Machine/Grid.lean ====
section
/-! DEFINITION. Grid unit (chapter 13, R371 to R388): phase-locked loop, oscillator, ride-through, islanding. -/

namespace Sys2Proof.Machine

open Reg

/-! Constants -/

/-- 2π as the manual's formulas write it: 6.2831853. -/
def gTwoPi : Word := 0x40C90FDB#32

/-- FNOM in Hz. -/
def Chip.fnom (c : Chip) : Nat := if c.on GRD.CFG.FNOM then 60 else 50

/-- FNOM as a pattern. -/
def Chip.fnomW (c : Chip) : Word := F32.ofNat c.fnom

/-- ω0 = 2π × FNOM (R374). -/
def Chip.omega0 (c : Chip) : Word := F32.mul gTwoPi c.fnomW

/-- VDREF = √2 × VBASE (R374). -/
def Chip.vdref (c : Chip) : Word := F32.mul 0x3FB504F3#32 (c.getW GRD.CFG.VBASE)

/-- ts = t_tick in seconds (R374). -/
def Chip.tickSec (c : Chip) : Word := F32.ofRat c.period 8000000000

/-- N of R375: ticks in a nominal cycle. -/
def Chip.cycleTicks (c : Chip) : Nat :=
  let d := c.fnom * c.get DEV.TICK.PERIOD * 8
  (2000000000 + d) / (2 * d)

/-! Inputs -/

/-- The result word behind a source code (R373). -/
def Chip.gridWord (c : Chip) (code : Nat) : Nat := nget 0 c.adc.eng (code - 8)

/-- Codes of the three voltage inputs. -/
def Chip.gridVolts (c : Chip) : List Nat := [c.get GRD.IN.VA, c.get GRD.IN.VB, c.get GRD.IN.VC]

/-- Codes of the three current inputs. -/
def Chip.gridAmps (c : Chip) : List Nat := [c.get GRD.IN.IA, c.get GRD.IN.IB, c.get GRD.IN.IC]

/-- α and β of three phase values (R374). -/
def clarke (a b d : Word) : Word × Word :=
  (F32.div (F32.sub (F32.sub (F32.mul 0x40000000#32 a) b) d) 0x40400000#32, F32.mul (F32.sub b d) 0x3F13CD3A#32)

/-- d and q of a vector at angle th (R374). -/
def park (ab : Word × Word) (th : Word) : Word × Word :=
  let co := F32.cos th
  let si := F32.sin th
  (F32.add (F32.mul ab.1 co) (F32.mul ab.2 si), F32.add (F32.mul (F32.neg ab.1) si) (F32.mul ab.2 co))

/-- The three inputs scaled by k; an input with code 0x00 has none and counts as source 0x00, zero (DEDUCED, log entry 105). -/
def Chip.gridScaled (c : Chip) (codes : List Nat) (k : Word) : List Word :=
  codes.map (fun code => if code = 0 then 0 else F32.mul k (resVolts (c.gridWord code)))

/-- d and q of three inputs. -/
def Chip.gridDq (c : Chip) (codes : List Nat) (k th : Word) : Word × Word :=
  let l := c.gridScaled codes k
  park (clarke (l.getD 0 0) (l.getD 1 0) (l.getD 2 0)) th

/-! RMS windows -/

/-- The windows take the tick's VALUEs, a held phase its previous valid one (R373, R375). -/
def Chip.gridWindows (c : Chip) : Chip :=
  let g := c.grd
  let vals := (c.gridVolts.zip g.lastV).map (fun e =>
    let w := c.gridWord e.1
    if resValid w then resValue w else e.2)
  let n := c.cycleTicks
  { c with grd := { g with
      lastV := vals
      win := (vals.zip g.win).map (fun e => ((e.1 * e.1).toNat :: e.2).take n) } }

/-- Per-unit RMS of one window (R375). -/
def Chip.rmsPu (c : Chip) (w : List Nat) : Word :=
  let s := w.foldl (fun a x => a + x) 0
  let m := F32.div (F32.ofNat s) (F32.ofNat c.cycleTicks)
  F32.div (F32.mul (F32.mul (c.getW GRD.IN.KV) 0x3AA00000#32) (F32.sqrt m)) (c.getW GRD.CFG.VBASE)

/-- Vmin and Vmax (R375). -/
def Chip.vminmax (c : Chip) : Word × Word :=
  match c.grd.win.map (fun w => c.rmsPu w) with
  | [a, b, d] => (F32.min (F32.min a b) d, F32.max (F32.max a b) d)
  | _ => (0, 0)

/-! Loop and oscillator -/

/-- The phase-locked loop of one tick (R374); answers the angle error too. -/
def Chip.pll (c : Chip) : Word × Chip :=
  let g := c.grd
  let ts := c.tickSec
  let v := c.gridDq c.gridVolts (c.getW GRD.IN.KV) g.thp
  let vn := F32.div v.2 c.vdref
  let dw := c.getW GRD.PLL.DWMAX
  let xi := F32.clamp (F32.add g.xi (F32.mul (F32.mul (c.getW GRD.PLL.KIP) ts) vn)) (F32.neg dw) dw
  let wp := F32.add (F32.add c.omega0 (F32.mul (c.getW GRD.PLL.KPP) vn)) xi
  let thp := F32.wrap (F32.add g.thp (F32.mul wp ts))
  let fp := F32.div wp gTwoPi
  let ff := F32.add g.ff (F32.mul (c.getW GRD.FILT.AF) (F32.sub fp g.ff))
  let rocof := F32.add g.rocof (F32.mul (c.getW GRD.FILT.AR) (F32.sub (F32.div (F32.sub ff g.ff) ts) g.rocof))
  let amps := c.gridAmps
  let pq : Word × Word :=
    if c.get GRD.IN.IA = 0 then (0, 0)
    else if amps.any (fun k => k != 0 && !resValid (c.gridWord k)) then (g.p, g.q)
    else
      let i := c.gridDq amps (c.getW GRD.IN.KI) g.thp
      (F32.mul 0x3FC00000#32 (F32.add (F32.mul v.1 i.1) (F32.mul v.2 i.2)),
        F32.mul 0x3FC00000#32 (F32.sub (F32.mul v.2 i.1) (F32.mul v.1 i.2)))
  (F32.atan2 v.2 v.1,
    { c with grd := { g with
        xi := xi, wp := wp, thp := thp, ff := ff, rocof := rocof, vd := v.1, vq := v.2, p := pq.1, q := pq.2 } })

/-- LOCK (R374). -/
def Chip.lockStep (c : Chip) (phi : Word) : Chip :=
  let g := c.grd
  let a := F32.abs phi
  let n := if F32.le a 0x3D4CCCCD#32 then g.lockRun + 1 else 0
  let lock := if F32.lt 0x3E4CCCCD#32 a then false else if c.cycleTicks ≤ n then true else g.lock
  { c with grd := { g with lockRun := n, lock := lock } }

/-- Filters, droop oscillator and voltage reference (R376). -/
def Chip.oscillator (c : Chip) : Chip :=
  let g := c.grd
  let ap := c.getW GRD.FILT.AP
  let pf := F32.add g.pf (F32.mul ap (F32.sub g.p g.pf))
  let qf := F32.add g.qf (F32.mul ap (F32.sub g.q g.qf))
  let g := { g with pf := pf, qf := qf }
  if g.form then
    let wo := F32.add c.omega0 (F32.mul (c.getW GRD.FORM.MP) (F32.sub (c.getW GRD.FORM.PSET) pf))
    { c with grd := { g with
        wo := wo, tho := F32.wrap (F32.add g.tho (F32.mul wo c.tickSec))
        e := F32.sub c.vdref (F32.mul (c.getW GRD.FORM.MQ) (F32.sub qf (c.getW GRD.FORM.QSET))) } }
  else { c with grd := { g with e := c.vdref } }

/-- The mode of the tick is applied (R377): on a change the angle does not step. FORM is not available without current inputs: a MODE
or an automatic change that asks for it is not applied (R373, log entry 105). -/
def Chip.applyMode (c : Chip) : Chip × Bool :=
  let g := c.grd
  let auto := g.autoForm || g.autoDue
  let form := c.on GRD.IN.IA && (auto || c.get GRD.CTL.MODE == 1)
  let g := { g with autoForm := auto, autoDue := false, form := form }
  if form && !c.grd.form then ({ c with grd := { g with tho := g.th } }, true)
  else if !form && c.grd.form then ({ c with grd := { g with delta := F32.wrapSym (F32.sub g.tho g.thp) } }, true)
  else ({ c with grd := g }, false)

/-- Output angle (R377): δ slews toward 0, not in the tick of the change. -/
def Chip.outputAngle (c : Chip) (changed : Bool) : Chip :=
  let g := c.grd
  if g.form then { c with grd := { g with th := g.tho } }
  else
    let ds := c.getW GRD.FILT.DSLEW
    let delta := if changed then g.delta
      else if F32.le (F32.abs g.delta) ds then 0
      else if F32.sign g.delta then F32.add g.delta ds else F32.sub g.delta ds
    { c with grd := { g with delta := delta, th := F32.wrap (F32.add g.thp delta) } }

/-- Angle bias of R384. -/
def Chip.bias (c : Chip) : Word :=
  if c.on GRD.ISL.ACTEN && !c.grd.form then
    let m := c.getW GRD.ISL.AFDMAX
    F32.clamp (F32.add (c.getW GRD.ISL.AFD0) (F32.mul (c.getW GRD.ISL.AFDG) (F32.sub c.grd.ff c.fnomW))) (F32.neg m) m
  else 0

/-! Ride-through -/

/-- The condition of point i (R379) for the values given. -/
def Chip.pointCond (c : Chip) (i : Nat) (vmin vmax ff : Word) : Bool :=
  let lv := c.getW GRD.RTP.LEVEL i
  c.get GRD.RTP.ACT i != 0 &&
    (match i / 16 with
      | 0 => F32.lt vmin lv
      | 1 => F32.lt lv vmax
      | 2 => F32.lt ff lv
      | _ => F32.lt lv ff)

/-- Timers of all points take the tick's conditions (R379). -/
def Chip.pointTimers (c : Chip) (vm : Word × Word) : Chip :=
  let ff := c.grd.ff
  let taus := (upTo 64).foldl (fun m i =>
    if c.pointCond i vm.1 vm.2 ff then
      nset 0 m i (match nget 0 c.grd.taus i with
        | 0 => 1
        | t + 1 => t + 1 + c.period)
    else m) []
  { c with grd := { c.grd with taus := taus } }

/-- Point i is reached: its condition holds and τ ≥ TIME × 100 us. -/
def Chip.reached (c : Chip) (i : Nat) : Bool :=
  match nget 0 c.grd.taus i with
  | 0 => false
  | t + 1 => decide (800000 * c.get GRD.RTP.TIME i ≤ t)

/-- Entry to a ride-through state: event, flag, count (R382). -/
def Chip.enterRts (c : Chip) (v : Nat) : Chip :=
  match v with
  | 1 => ((c.inc GRD.CNT.RIDE).flag GRD.EVT.RIDE).raise 50
  | 2 => ((c.inc GRD.CNT.CESS).flag GRD.EVT.CESS).raise 51
  | 3 => ((c.inc GRD.CNT.TRIP).flag GRD.EVT.TRIP).raise 52
  | _ => c

/-- The return time of CESS (R380, R381). -/
def Chip.returnTime (c : Chip) : Nat :=
  if c.grd.entd then c.get GRD.RET.ENTD * 100 * msTaps else c.get GRD.RET.TRET * msTaps

/-- The ride-through state of the tick (R380, R381); `isl` is an island detection with ISLACT 1 (R385). A CLR taken at the tick's
reference entered CESS there, unless this evaluation reaches a TRIP point (R381, R382). -/
def Chip.rideThrough (c : Chip) (isl : Bool) : Chip :=
  let g := c.grd
  let any := !g.taus.isEmpty
  let trip := (upTo 64).find? (fun i => c.get GRD.RTP.ACT i == 2 && c.reached i)
  let cess := (upTo 64).find? (fun i => c.get GRD.RTP.ACT i == 1 && c.reached i)
  let ret := if any then none else some (match g.ret with
    | some r => r + c.period
    | none => 0)
  let back := match ret with
    | some r => decide (c.returnTime ≤ r)
    | none => false
  let v :=
    if g.rts = 3 ∨ trip.isSome ∨ isl then 3
    else if cess.isSome then 2
    else if g.rts = 2 then (if back then 0 else 2)
    else if any then 1 else 0
  let at_ : Option (Nat × Nat) :=
    if v = 3 then
      (if g.rts = 3 then none
        else match trip with
          | some i => some (i / 16, i % 16)
          | none => some (0xF, 0xF))
    else if v = 2 ∧ g.rts ≠ 2 then cess.map (fun i => (i / 16, i % 16))
    else none
  let g := { g with
    rts := v, ret := ret, clred := false
    entd := if v = 2 then g.entd && g.rts == 2 else false
    hit := g.hit || at_.isSome
    curve := match at_ with | some x => x.1 | none => g.curve
    point := match at_ with | some x => x.2 | none => g.point }
  let old := c.grd.rts
  let c := (if c.grd.clred && v != 3 then c.enterRts 2 else c).when (v != old) (fun c => c.enterRts v)
  { c with grd := g }

/-! Islanding -/

/-- Passive tests of the tick (R383): |rocof| above ROCTH for ROCT ms; a phase jump while LOCK was 1. Answers ICAUSE. -/
def Chip.passive (c : Chip) (phi : Word) (locked : Bool) : Nat × Chip :=
  let g := c.grd
  if !c.on GRD.ISL.PASEN || g.form then (0, { c with grd := { g with roc := none, pas := false } })
  else
    let beyond := F32.lt (c.getW GRD.ISL.ROCTH) (F32.abs g.rocof)
    let roc := if beyond then some (match g.roc with
      | some r => r + c.period
      | none => 0) else none
    let r := match roc with
      | some r => decide (c.get GRD.ISL.ROCT * msTaps ≤ r)
      | none => false
    let j := locked && F32.lt (c.getW GRD.ISL.PJTH) (F32.abs phi)
    let cause := bit r + 2 * bit j
    (cause, { c with grd := { g with roc := roc, pas := cause != 0 } })

/-- A passive detection (R385). -/
def Chip.islanded (c : Chip) (cause : Nat) : Chip :=
  if cause = 0 ∨ c.grd.isl then c
  else
    let c := { c with grd := { c.grd with isl := true, icause := cause, autoDue := c.get GRD.ISL.ISLACT == 2 } }
    ((c.inc GRD.CNT.ISL).flag GRD.EVT.ISL).raise 53

/-! One tick -/

/-- The results of the evaluation just made (R372, R378). -/
def Chip.gridResults (c : Chip) (vm : Word × Word) (nanh : Bool) : GrdRes :=
  let g := c.grd
  { out := [g.th, F32.cos g.th, F32.sin g.th, if g.form then g.wo else g.wp, g.ff, g.vd, g.vq, F32.div g.vd c.vdref, g.p, g.q, g.e,
      if g.rts < 2 then F32.one else 0, vm.1, g.thb, F32.ofNat g.rts, g.rocof]
    vmax := vm.2, rts := g.rts, form := g.form, isl := g.isl, icause := g.icause, nanh := nanh, lock := g.lock
    curve := g.curve, point := g.point, pas := g.pas, hit := g.hit }

/-- A tick held on an invalid voltage (R373); the bias of R384 is output in every tick. -/
def Chip.gridHeld (c : Chip) : Chip :=
  let first := !c.grd.epi
  let c := c.applyMode.1
  let g := c.grd
  let c := { c with grd := { g with thp := F32.wrap (F32.add g.thp (F32.mul g.wp c.tickSec)), epi := true } }
  let g := c.grd
  let c := { c with grd := { g with th := if g.form then g.tho else F32.wrap (F32.add g.thp g.delta) } }
  let c := c.gridWindows
  let c := if c.grd.clred then { c.enterRts 2 with grd := { c.grd with clred := false } } else c
  let c := { c.flag GRD.EVT.NAN with grd := { c.grd with thb := c.bias } }
  let c := if first then (c.inc GRD.CNT.NAN).raise 49 else c
  { c with grd := { c.grd with next := some (c.gridResults c.vminmax true) } }

/-- The evaluation of a tick (R371 to R385). -/
def Chip.gridTick (c : Chip) : Chip :=
  if !c.on GRD.CFG.EN then c
  else if c.gridVolts.any (fun k => !resValid (c.gridWord k)) then c.gridHeld
  else
    let m := c.applyMode
    let c := m.1
    let locked := c.grd.lock
    let c := c.gridWindows
    let r := c.pll
    let c := (r.2.lockStep r.1).oscillator
    let c := c.outputAngle m.2
    let vm := c.vminmax
    let c := c.pointTimers vm
    let ps := c.passive r.1 locked
    let detected := ps.1 != 0 && !ps.2.grd.isl
    let c := ps.2.islanded ps.1
    let c := c.rideThrough (detected && c.get GRD.ISL.ISLACT == 1)
    let c := { c with grd := { c.grd with thb := c.bias, epi := false } }
    { c with grd := { c.grd with next := some (c.gridResults vm false) } }

/-- The results of the last tick become visible at a tick reference (R372). -/
def Chip.gridPublish (c : Chip) : Chip :=
  match c.grd.next with
  | none => c
  | some r =>
    let c := { c with grd := { c.grd with out := r.out, next := none, shown := r.hit } }
    let c := ((((c.set GRD.STAT.RTS 0 r.rts).setB GRD.STAT.MODEA 0 r.form).setB GRD.STAT.ISL 0 r.isl).set GRD.STAT.ICAUSE 0 r.icause)
    let c := (((c.setB GRD.STAT.NANH 0 r.nanh).setB GRD.STAT.LOCK 0 r.lock).set GRD.STAT.CURVE 0 r.curve).set GRD.STAT.POINT 0 r.point
    let o := fun (i : Nat) => r.out.getD i 0
    let c := (((c.setW GRD.VAL.W 0 (o 3)).setW GRD.VAL.TH 0 (o 0)).setW GRD.VAL.Q 0 (o 9)).setW GRD.VAL.P 0 (o 8)
    (((c.setW GRD.VAL.VMAX 0 r.vmax).setW GRD.VAL.VMIN 0 (o 12)).setW GRD.VAL.ROCOF 0 (o 15)).setW GRD.VAL.F 0 (o 4)

/-! Host writes -/

/-- GRD.CTL.CLR is refused with status STATE (R381): RTS is not TRIP, or a TRIP point's condition holds in the latest results. -/
def Chip.gridClrRefused (c : Chip) : Bool :=
  c.get GRD.STAT.RTS != 3 || (upTo 64).any (fun i => c.get GRD.RTP.ACT i == 2 &&
    c.pointCond i (c.getW GRD.VAL.VMIN) (c.getW GRD.VAL.VMAX) (c.getW GRD.VAL.F))

/-- GRD.CTL.CLR takes effect (R381): RTS becomes CESS, also in the results that become visible at this reference; its return timer is
ENTD. -/
def Chip.gridClr (c : Chip) : Chip :=
  if c.grd.rts = 3 then
    { c.set GRD.STAT.RTS 0 2 with grd := { c.grd with
        rts := 2, clred := true, entd := true, ret := none, next := c.grd.next.map (fun r => { r with rts := 2 }) } }
  else c

/-- GRD.CTL.ISLCLR is refused with status STATE while a passive condition holds (R385). -/
def Chip.gridIslRefused (c : Chip) : Bool := c.grd.pas

/-- GRD.CTL.ISLCLR takes effect (R385), also on the results that become visible at this reference. -/
def Chip.gridIslClr (c : Chip) : Chip :=
  let c := (c.set GRD.STAT.ISL 0 0).set GRD.STAT.ICAUSE 0 0
  { c with grd := { c.grd with
      isl := false, icause := 0, next := c.grd.next.map (fun r => { r with isl := false, icause := 0 }) } }

/-- A host write of GRD.CTL.MODE takes effect: it ends the automatic change of an earlier reference (R377). -/
def Chip.gridModeWritten (c : Chip) : Chip := { c with grd := { c.grd with autoForm := false } }

/-- GRD_TRIP_CLEAR (R381). -/
def execGrdTripClear (t : Nat) (s : State) : Host.Outcome State Fault Refusal :=
  run (fun _ c => let c := c.at_ t; if c.fabric && !c.gridClrRefused then c.gridClr else c) s

/-- GRD_ISLAND_CLEAR (R385). -/
def execGrdIslandClear (t : Nat) (s : State) : Host.Outcome State Fault Refusal :=
  run (fun _ c => let c := c.at_ t; if c.fabric && !c.gridIslRefused then c.gridIslClr else c) s

/-! Commit and reset -/

/-- At commit and on a reset of the GRD block every state returns to its commit value (R388). -/
def Chip.startGrid (c : Chip) : Chip :=
  let c := { c with regs := c.regs.filter (fun e => e.1.id != 0x4410) }
  { c with grd := { ff := c.fnomW, wp := c.omega0, e := c.vdref } }

/-- A reset of the GRD block (R388, R488): every field but the RWL ones of GRD.CFG and GRD.IN at its reset value (R508). -/
def Chip.resetGrd (c : Chip) : Chip :=
  ({ c with regs := c.regs.filter (fun e => !(decide (0x4402 ≤ e.1.id ∧ e.1.id < 0x4800))) }).startGrid

/-- The commit checks of R387 fail. -/
def Chip.gridFails (c : Chip) : Bool :=
  let en := c.on GRD.CFG.EN
  let amps := c.gridAmps
  let noAmps := c.get GRD.IN.IA == 0
  (c.namesGrid && !en) || (en && c.gridVolts.any (fun k => !c.inTickSet k)) ||
    amps.any (fun k => k != 0 && !c.inTickSet k) || (noAmps && amps.any (fun k => k != 0)) ||
    (noAmps && (c.get GRD.CTL.MODE == 1 || c.get GRD.ISL.ISLACT == 2))

end Sys2Proof.Machine
end

