-- ==== Sys2Proof/Machine/Pmu.lean ====
section
/-! DEFINITION. Synchrophasors and fault location (chapter 14, R389 to R415). -/

namespace Sys2Proof.Machine

open Reg

/-! Complex arithmetic in binary32 (R394) -/

/-- A complex value: real and imaginary part. -/
abbrev Cpx := Word × Word

/-- Sum. -/
def cAdd (x y : Cpx) : Cpx := (F32.add x.1 y.1, F32.add x.2 y.2)
/-- Difference. -/
def cSub (x y : Cpx) : Cpx := (F32.sub x.1 y.1, F32.sub x.2 y.2)
/-- Product. -/
def cMul (x y : Cpx) : Cpx :=
  (F32.sub (F32.mul x.1 y.1) (F32.mul x.2 y.2), F32.add (F32.mul x.1 y.2) (F32.mul x.2 y.1))
/-- A complex value times a real one. -/
def cScale (k : Word) (x : Cpx) : Cpx := (F32.mul k x.1, F32.mul k x.2)
/-- A complex value over a real one. -/
def cOver (x : Cpx) (k : Word) : Cpx := (F32.div x.1 k, F32.div x.2 k)
/-- Quotient. -/
def cDiv (x y : Cpx) : Cpx :=
  let d := F32.add (F32.mul y.1 y.1) (F32.mul y.2 y.2)
  (F32.div (F32.add (F32.mul x.1 y.1) (F32.mul x.2 y.2)) d, F32.div (F32.sub (F32.mul x.2 y.1) (F32.mul x.1 y.2)) d)
/-- Magnitude. -/
def cAbs (x : Cpx) : Word := F32.sqrt (F32.add (F32.mul x.1 x.1) (F32.mul x.2 x.2))
/-- Angle. -/
def cArg (x : Cpx) : Word := F32.atan2 x.2 x.1
/-- NaN in both parts. -/
def cNan : Cpx := (F32.nan, F32.nan)

/-! Settings -/

/-- Nominal frequency in Hz. -/
def Chip.pmuF0 (c : Chip) : Nat := if c.on PMU.CFG.FNOM then 60 else 50
/-- M class. -/
def Chip.pmuM (c : Chip) : Bool := c.on PMU.CFG.CLASS
/-- Fs. -/
def Chip.pmuFs (c : Chip) : Nat := c.get PMU.CFG.RATE
/-- Half the window, L/2, in taps (R393). -/
def Chip.pmuHalf (c : Chip) (m : Bool) : Nat := if m then 2 * secTaps / c.pmuFs else secTaps / c.pmuF0
/-- Δ of R395 in taps. -/
def Chip.pmuDelta (c : Chip) : Nat := if c.pmuM then 10 * msTaps else 2 * msTaps

/-- Fs is allowed for class and nominal frequency (R389). -/
def Chip.rateOk (c : Chip) : Bool :=
  let f := c.pmuFs
  if c.on PMU.CFG.FNOM then [10, 12, 15, 20, 30, 60].contains f || (c.pmuM && f == 120)
  else [10, 25, 50].contains f || (c.pmuM && f == 100)

/-! Estimator -/

/-- Window W(d) of R393, d in taps. -/
def Chip.pmuWindow (c : Chip) (m : Bool) (d : Int) : Word :=
  let ds := F32.ofRat d 8000000000
  if m then
    if d = 0 then F32.one
    else
      let l := F32.ofRat 4 c.pmuFs
      let ffr := F32.mul 0x3E4CCCCD#32 (F32.ofNat c.pmuFs)
      let a := F32.mul (F32.mul 0x41490FDB#32 ffr) ds
      F32.mul (F32.add 0x3F0A3D71#32 (F32.mul 0x3EEB851F#32 (F32.cos (F32.div (F32.mul gTwoPi ds) l)))) (F32.div (F32.sin a) a)
  else F32.sub F32.one (F32.mul (F32.abs ds) (F32.ofNat c.pmuF0))

/-- Angle ω0 τ reduced by whole turns, τ in taps. -/
def Chip.pmuPhase (c : Chip) (tau : Int) : Word :=
  let cyc := (tau * c.pmuF0) % (secTaps : Int)
  F32.ofDyadic (cyc * F32.twoPi60 / (secTaps : Int)) (-60)

/-- What one window gives: phasor before the magnitude correction, the distances of its samples from the centre, no absent data, an
INTERP sample in it. -/
structure Est where
  x : Cpx
  ds : List Int
  ok : Bool
  interp : Bool
  deriving DecidableEq, Repr

/-- A step of OFS lies in the corrected span [lo, hi] (R392): the span reaches into the times between which it jumped. -/
def Chip.stepIn (c : Chip) (lo hi : Int) : Bool :=
  c.pmu.steps.any (fun o => decide (Min.min o.2.1 o.2.2 ≤ hi ∧ lo ≤ Max.max o.2.1 o.2.2))

/-- The window of decimator d, scaled by k, centred at corrected time tc; `sec` is the second that phases count from (R394). A window
whose samples are not all there is absent data too (log entry 16). -/
def Chip.estimate (c : Chip) (m : Bool) (d : Nat) (k : Word) (tc sec : Int) : Est :=
  let half : Int := c.pmuHalf m
  let l := ((c.decim d).sync.filter (fun s => decide ((s.2.2.1 - tc).natAbs ≤ c.pmuHalf m))).reverse
  let full := match l.head?, l.getLast? with
    | some a, some b => decide (a.2.2.1 - (tc - half) < 800000) && decide (tc + half - b.2.2.1 < 800000)
    | _, _ => false
  let acc := l.foldl (fun (a : Word × Cpx) s =>
    let w := c.pmuWindow m (s.2.2.1 - tc)
    let v := F32.mul w (F32.mul k s.1)
    let th := c.pmuPhase (s.2.2.1 - sec)
    (F32.add a.1 w, cAdd a.2 (F32.mul v (F32.cos th), F32.neg (F32.mul v (F32.sin th))))) ((0, (0, 0)) : Word × Cpx)
  { x := cScale (F32.div 0x3FB504F3#32 acc.1) acc.2
    ds := l.map (fun s => s.2.2.1 - tc)
    ok := full && l.all (fun s => !F32.isNaN s.1) && !c.stepIn (tc - half) (tc + half)
    interp := l.any (fun s => s.2.2.2) }

/-- Magnitude response of the synchrophasor decimator at f hertz: its coefficients against a cosine (R288, log entry 12). -/
def decResponse (f : Word) : Word :=
  let w := F32.mul gTwoPi f
  F32.abs ((upTo 701).foldl (fun a i =>
    F32.add a (F32.mul (F32.ofRat (Config.decTap 1 (Nat.min i (700 - i))) (2 ^ 40))
      (F32.cos (F32.mul w (F32.ofRat ((i : Int) - 350) 1000000))))) 0)

/-- Magnitude response of a window over samples at the distances ds, at f hertz: f0 is where the phasor is taken (R393, R394). -/
def Chip.winResponse (c : Chip) (m : Bool) (ds : List Int) (f : Word) : Word :=
  let w := F32.mul gTwoPi (F32.sub f (F32.ofNat c.pmuF0))
  let r := ds.foldl (fun (a : Word × Word) d =>
    let v := c.pmuWindow m d
    (F32.add a.1 v, F32.add a.2 (F32.mul v (F32.cos (F32.mul w (F32.ofRat d 8000000000)))))) (0, 0)
  F32.abs (F32.div r.2 r.1)

/-- The phasor of a window after the magnitude correction at f hertz (R394). -/
def Chip.magCorrect (c : Chip) (m : Bool) (e : Est) (f : Word) : Cpx :=
  cOver e.x (F32.mul (decResponse f) (c.winResponse m e.ds f))

/-- Decimators of the three voltages and the three currents. -/
def Chip.pmuInputs (c : Chip) : List Nat :=
  [c.get PMU.IN.VA, c.get PMU.IN.VB, c.get PMU.IN.VC, c.get PMU.IN.IA, c.get PMU.IN.IB, c.get PMU.IN.IC]

/-- Estimates of inputs n to n + 2 at tc. -/
def Chip.estimate3 (c : Chip) (m : Bool) (n : Nat) (tc sec : Int) : List Est :=
  let k := c.getW (if n = 0 then PMU.KSC.KV else PMU.KSC.KI)
  ((c.pmuInputs.drop n).take 3).map (fun d => c.estimate m d k tc sec)

/-- Positive sequence of three phasors (R394). -/
def posSeq (l : List Cpx) : Cpx :=
  let a : Cpx := (0xBF000000#32, 0x3F5DB3D7#32)
  let a2 : Cpx := (0xBF000000#32, 0xBF5DB3D7#32)
  let z : Cpx := (0, 0)
  cOver (cAdd (cAdd (l.getD 0 z) (cMul a (l.getD 1 z))) (cMul a2 (l.getD 2 z))) 0x40400000#32

/-- The start of the corrected second that holds a time in taps. -/
def secondOf (t : Int) : Int := t / (secTaps : Int) * (secTaps : Int)

/-- Everything a data frame carries beside its tags: eight phasors, FREQ, DFREQ, absent data, INTERP. -/
structure Synchro where
  phasors : List Cpx
  freq : Word
  dfreq : Word
  absent : Bool
  interp : Bool
  deriving DecidableEq, Repr

/-- The estimate for reporting instant tr in taps of corrected time (R394 to R396); frequency and the limit of 5 % come from V1 before the
magnitude correction, which depends on them (DEDUCED, log entry 76). -/
def Chip.synchro (c : Chip) (tr : Int) : Synchro :=
  let m := c.pmuM
  let sec := secondOf tr
  let d : Int := c.pmuDelta
  let at_ := fun (n : Nat) (t : Int) => c.estimate3 m n t sec
  let v := at_ 0 tr
  let vm := at_ 0 (tr - d)
  let vp := at_ 0 (tr + d)
  let i := at_ 3 tr
  let im := at_ 3 (tr - d)
  let ip := at_ 3 (tr + d)
  let ien := c.on PMU.IN.IEN
  let okAll := fun (l : List Est) (n : Nat) => (l.getD n ⟨cNan, [], false, false⟩).ok
  let vok := (upTo 3).map (fun n => okAll v n && okAll vm n && okAll vp n)
  let iok := (upTo 3).map (fun n => okAll i n && okAll im n && okAll ip n)
  let xs := fun (l : List Est) => l.map (·.x)
  let v1 := posSeq (xs v)
  let v1ok := vok.all id
  let low := F32.lt (cAbs v1) (F32.mul 0x3D4CCCCD#32 (c.getW PMU.KSC.VNOM))
  let dw := F32.ofRat d 8000000000
  let f0 := F32.ofNat c.pmuF0
  let ph0 := cArg v1
  let phm := cArg (posSeq (xs vm))
  let php := cArg (posSeq (xs vp))
  let f := F32.add f0 (F32.div (F32.wrapSym (F32.sub php phm)) (F32.mul 0x41490FDB#32 dw))
  let rf := F32.div (F32.sub (F32.wrapSym (F32.sub php ph0)) (F32.wrapSym (F32.sub ph0 phm)))
    (F32.mul (F32.mul gTwoPi dw) dw)
  let fok := v1ok && !low
  let put := fun (ok : Bool) (x : Cpx) => if ok then x else cNan
  let all4 := fun (l : List Est) (oks : List Bool) =>
    let ys := l.map (fun e => c.magCorrect m e (if fok then f else f0))
    (ys.zip oks).map (fun e => put e.2 e.1) ++ [put (oks.all id) (posSeq ys)]
  let vs := all4 v vok
  let is_ := if ien then all4 i iok else List.replicate 4 cNan
  { phasors := vs ++ is_, freq := if fok then f else F32.nan, dfreq := if fok then rf else F32.nan
    absent := !fok || (ien && !iok.all id)
    interp := (v ++ vm ++ vp).any (·.interp) || (ien && (i ++ im ++ ip).any (·.interp)) }

/-! Tags -/

/-- UTC offset of R391. -/
def Chip.utcOffset (c : Chip) : Int :=
  let slave := (upTo 2).any (fun i => c.get TIM.PSTAT.PSTATE i == psSlave || c.get TIM.PSTAT.PSTATE i == psPassive)
  if slave then c.getI TIM.PARENT.UTCOFS else c.get PMU.CFG2.UTCO

/-- Time is valid and not in holdover. -/
def Chip.timeGood (c : Chip) : Bool := c.on TIM.STAT.TVALID && !c.on TIM.STAT.HOLD

/-- Time-quality byte of FRACSEC (R391). -/
def Chip.timeQuality (c : Chip) : Nat :=
  let leap := match c.pmu.leapAt with
    | some x => decide (c.now ≤ x + 86400 * secTaps)
    | none => false
  64 * bit (c.on TIM.PARENT.LEAP59) + 32 * bit leap + 16 * bit (c.on TIM.PARENT.LEAP59 || c.on TIM.PARENT.LEAP61) +
    (if c.timeGood then 0 else if c.on TIM.STAT.TVALID then c.get PMU.CFG2.HTQ else 15)

/-- A trip latch is set. -/
def Chip.anyLatch (c : Chip) : Bool := c.get MON.LATCH.LATCH != 0

/-- STAT of R400. -/
def Chip.pmuStat (c : Chip) (absent interp : Bool) : Nat :=
  let trig := c.anyLatch || c.get GRD.STAT.RTS != 0
  let tv := c.on TIM.STAT.TVALID
  let q := if c.timeGood then 1 else if tv then c.get PMU.CFG2.HPTQ else 7
  let since := match c.pmu.goodAt with
    | some x => c.now - x
    | none => c.now
  let s := if c.timeGood ∨ since < 10 * secTaps then 0 else if since < 100 * secTaps then 1 else if since ≤ 1000 * secTaps then 2 else 3
  let curve := c.get GRD.STAT.CURVE
  let why := if !trig then 0 else if c.anyLatch then 7 else if c.on GRD.STAT.ISL then 5
    else if !c.grd.shown then 0 else if curve = 0 then 1 else if curve = 1 then 2 else if curve = 2 ∨ curve = 3 then 4 else 0
  (if absent then 0x8000 else 0) + 0x2000 * bit (!tv) + 0x800 * bit trig + 0x400 * bit (c.on PMU.CTL.CFGCHG) +
    0x200 * bit interp + 64 * q + 16 * s + why

/-- DIGITAL of R401. -/
def Chip.pmuDigital (c : Chip) : Nat :=
  let r := c.get GRD.STAT.RTS
  bit c.anyLatch + 2 * bit (r == 1) + 4 * bit (r == 2) + 8 * bit (r == 3) + 16 * bit (c.on GRD.STAT.ISL) +
    32 * bit (c.on TIM.STAT.HOLD) + 64 * bit (c.on GRD.STAT.MODEA)

/-! Frames -/

/-- A number as n octets, most significant first. -/
def msOctets (n v : Nat) : List Nat := (List.range n).map (fun i => v / 256 ^ (n - 1 - i) % 256)

/-- The words of an item that holds octets, first octet in the most significant byte, padded with zero octets (log entry 17). -/
def packWords : List Nat → List Nat
  | a :: b :: d :: e :: l => (((a * 256 + b) * 256 + d) * 256 + e) :: packWords l
  | [] => []
  | [a] => [a * 2 ^ 24]
  | [a, b] => [a * 2 ^ 24 + b * 2 ^ 16]
  | [a, b, d] => [a * 2 ^ 24 + b * 2 ^ 16 + d * 2 ^ 8]

/-- A frame with its CHK (R390). -/
def withChk (l : List Nat) : List Nat := l ++ msOctets 2 (crc16 l)

/-- SOC and FRACSEC octets for a corrected second and microseconds in it. -/
def Chip.tagOctets (c : Chip) (sec : Int) (us : Nat) : List Nat :=
  msOctets 4 ((sec - c.utcOffset) % 2 ^ 32).toNat ++ msOctets 4 (c.timeQuality * 2 ^ 24 + us)

/-- A phasor as sent. -/
def Chip.phasorOctets (c : Chip) (x : Cpx) : List Nat :=
  let y := if c.on PMU.CFG.POLAR && !F32.isNaN x.1 then (cAbs x, cArg x) else x
  msOctets 4 y.1.toNat ++ msOctets 4 y.2.toNat

/-- The data frame of R399. -/
def Chip.dataFrame (c : Chip) (sec : Int) (us : Nat) (y : Synchro) : List Nat :=
  withChk (msOctets 2 0xAA02 ++ msOctets 2 92 ++ msOctets 2 (c.get PMU.NET.IDCODE) ++ c.tagOctets sec us ++
    msOctets 2 (c.pmuStat y.absent y.interp) ++ y.phasors.flatMap (fun x => c.phasorOctets x) ++ msOctets 4 y.freq.toNat ++
    msOctets 4 y.dfreq.toNat ++ msOctets 2 c.pmuDigital)

/-- A name of 16 bytes, padded with spaces. -/
def name16 (s : String) : List Nat :=
  let l := s.toList.map Char.toNat
  l ++ List.replicate (16 - l.length) 0x20

/-- Names of the phasors and of the sixteen digital bits (R402). -/
def channelNames : List Nat :=
  (["VA", "VB", "VC", "V1", "IA", "IB", "IC", "I1", "TRIP", "RIDE", "CESS", "GTRIP", "ISL", "HOLD", "FORM"] ++
    List.replicate 9 "SPARE").flatMap name16

/-- A configuration frame (R402) with SYNC 0xAA22 or 0xAA32, tagged with the present time. -/
def Chip.configFrame (c : Chip) (syncWord : Nat) : List Nat :=
  let t := c.corrected (c.raw c.now)
  let sec := t / (secTaps : Int)
  let us := ((t % (secTaps : Int)) / 8000).toNat
  let id := msOctets 2 (c.get PMU.NET.IDCODE)
  withChk (msOctets 2 syncWord ++ msOctets 2 474 ++ id ++ c.tagOctets sec us ++ msOctets 4 1000000 ++ msOctets 2 1 ++
    msOctets 16 (c.get PMU.STN.STN) ++ id ++ msOctets 2 (if c.on PMU.CFG.POLAR then 0xB else 0xA) ++ msOctets 2 8 ++ msOctets 2 0 ++
    msOctets 2 1 ++ channelNames ++ (List.replicate 4 (msOctets 4 0)).flatten ++ (List.replicate 4 (msOctets 4 (2 ^ 24))).flatten ++
    msOctets 4 0x7F ++ msOctets 2 (if c.on PMU.CFG.FNOM then 0 else 1) ++ msOctets 2 c.pmu.cfgCount ++ msOctets 2 c.pmuFs)

/-- A frame enters the ring (R403); `dst` says where the internal consumer sends it: it takes the frame at once, and lets go the pages of
frames that it does not send. -/
def Chip.pmuWrite (c : Chip) (l : List Nat) (dst : Option UdpFrame) : Chip :=
  (c.ringItem
    { ring := c.get PMU.CFG.RING, words := packWords l, frame := if c.on PMU.NET.UEN then dst else none }).netCollect.netRelease

/-! Reporting -/

/-- Reporting instant k of corrected second s, in microseconds (R391). -/
def Chip.reportUs (c : Chip) (k : Nat) : Nat := (2 * k * 1000000 + c.pmuFs) / (2 * c.pmuFs)

/-- A forward step of OFS passed over a corrected time (R392): the time was to be reached when the step took effect. -/
def Chip.passedOver (c : Chip) (t : Int) : Bool := c.pmu.steps.any (fun o => decide (o.2.1 ≤ t ∧ t < o.2.2))

/-- The frame of reporting instant k of corrected second s may be formed: estimator on, its windows complete and later than a reset, the
instant not before entry to RUN, later than the last one reported and not passed over. -/
def Chip.reportReady (c : Chip) (s : Int) (k : Nat) : Bool :=
  let tr := s * (secTaps : Int) + (8000 * c.reportUs k : Nat)
  let w : Int := c.pmuHalf c.pmuM + c.pmuDelta
  c.pmuRuns && c.on PMU.CFG.EN && decide (k < c.pmuFs) && decide (tr + w ≤ c.corrected (c.raw c.now)) &&
    decide (c.corrected c.pmu.resume ≤ tr - w) && decide (c.corrected c.pmu.runAt ≤ tr) && !c.passedOver tr &&
    (match c.pmu.lastReport with
      | some l => decide (l < s * 1000000 + (c.reportUs k : Nat))
      | none => true)

/-- PMU_REPORT (R391 to R403): the frame of reporting instant k of corrected second s. -/
def execPmuReport (t : Nat) (sec : Int) (k : Nat) (s : State) : Host.Outcome State Fault Refusal :=
  run (fun _ c =>
    let c := c.at_ t
    if c.reportReady sec k then
      let us := c.reportUs k
      let y := c.synchro (sec * (secTaps : Int) + (8000 * us : Nat))
      let stat := c.pmuStat y.absent y.interp
      let dst : UdpFrame :=
        { octets := c.dataFrame sec us y, mac := c.get NET.DMAC.ADDR, ip := c.get PMU.NET.DIP, port := c.get PMU.NET.DPORT }
      let c := c.pmuWrite dst.octets (if c.on PMU.NET.TXON then some dst else none)
      let c := (c.inc PMU.CNT.FRAMES).when y.absent (fun c => c.inc PMU.CNT.DERR)
      let c := if y.absent && !c.pmu.absent then (c.flag PMU.EVT.DERR).raise 54 0 else c
      let c := ((c.set PMU.STAT.DERR 0 (stat / 0x4000)).set PMU.STAT.SYNCB 0 (stat / 0x2000)).set PMU.STAT.TRIGB 0 (stat / 0x800)
      { c with pmu := { c.pmu with absent := y.absent, lastReport := some (sec * 1000000 + (us : Nat)) } }
    else c) s

/-- The oldest command frame received, when it is of the kind wanted, and the chip without it. -/
def Chip.pmuCmd (c : Chip) (p : Nat → Bool) : Option (PmuCmd × Chip) :=
  match c.pmu.cmds with
  | x :: l => if p x.cmd then some (x, { c with pmu := { c.pmu with cmds := l } }) else none
  | [] => none

/-- A command frame writes TXON; at an instant at which the host has written it the host's write stands (R403). -/
def Chip.frameTxon (c : Chip) (b : Bool) : Chip := if c.pmu.txonAt = some c.now then c else c.setB PMU.NET.TXON 0 b

/-- TURN_OFF_TRANSMISSION (R403). -/
def execTurnOffTransmission (t : Nat) (s : State) : Host.Outcome State Fault Refusal :=
  run (fun _ c =>
    let c := c.at_ t
    match c.pmuCmd (fun k => k == 1) with
    | some (_, c) => c.frameTxon false
    | none => c) s

/-- TURN_ON_TRANSMISSION (R403). -/
def execTurnOnTransmission (t : Nat) (s : State) : Host.Outcome State Fault Refusal :=
  run (fun _ c =>
    let c := c.at_ t
    match c.pmuCmd (fun k => k == 2) with
    | some (_, c) => c.frameTxon true
    | none => c) s

/-- A configuration frame is written for its requester (R402, R403). -/
def Chip.sendConfig (c : Chip) (cmd syncWord : Nat) : Chip :=
  match c.pmuCmd (fun k => k == cmd) with
  | some (x, c) =>
    let f := c.configFrame syncWord
    c.pmuWrite f (some { octets := f, mac := x.mac, ip := x.ip, port := x.port })
  | none => c

/-- SEND_CFG1 (R402). -/
def execSendCfg1 (t : Nat) (s : State) : Host.Outcome State Fault Refusal :=
  run (fun _ c => (c.at_ t).sendConfig 4 0xAA22) s

/-- SEND_CFG2 (R402). -/
def execSendCfg2 (t : Nat) (s : State) : Host.Outcome State Fault Refusal :=
  run (fun _ c => (c.at_ t).sendConfig 5 0xAA32) s

/-- PMU_COMMAND_IGNORED (R390): any other command frame. -/
def execPmuCommandIgnored (t : Nat) (s : State) : Host.Outcome State Fault Refusal :=
  run (fun _ c =>
    let c := c.at_ t
    match c.pmuCmd (fun k => !([1, 2, 4, 5].contains k)) with
    | some (_, c) => (c.inc PMU.CNT.CMDX).flag PMU.EVT.CMDX
    | none => c) s

/-! Travelling waves -/

/-- 3 α, √3 β and 3 z of a sample, as integers (R404). -/
def twModes (x : TwSample) : Int × Int × Int := (2 * x.a - x.b - x.c, x.b - x.c, x.a + x.b + x.c)

/-- 3 Dα, √3 Dβ and 3 Dz between consecutive samples (R404); S takes the aerial modes. -/
def twDiff3 (x y : TwSample) : Int × Int × Int :=
  let p := twModes x
  let q := twModes y
  (q.1 - p.1, q.2.1 - p.2.1, q.2.2 - p.2.2)

/-- 3 Dα and √3 Dβ between consecutive samples (R404). -/
def twDiff (x y : TwSample) : Int × Int := ((twDiff3 x y).1, (twDiff3 x y).2.1)

/-- 9 S² (R404): an exact integer that orders as S does. -/
def twS9 (d : Int × Int) : Nat := Max.max (d.1 * d.1).toNat (3 * (d.2 * d.2).toNat)

/-- S in units of 2^-30. -/
def twS (d : Int × Int) : Int := F32.isqrt (twS9 d * 2 ^ 60) / 3

/-- 9 S² of sample i of a list. -/
def twAt (l : List TwSample) (i : Nat) : Int × Int :=
  match l[i - 1]?, l[i]? with
  | some x, some y => if i = 0 then (0, 0) else twDiff x y
  | _, _ => (0, 0)

/-- The index of greatest S among i to i + 15, the lowest on ties (R405). -/
def twPeak (l : List TwSample) (i : Nat) : Nat :=
  (upTo 16).foldl (fun b j => if twS9 (twAt l b) < twS9 (twAt l (i + j)) then i + j else b) i

/-- Line travel time 2 × LEN / VEL in microseconds (R406, R407). -/
def Chip.twTravel (c : Chip) : Word := F32.div (F32.mul 0x40000000#32 (c.getW PMU.TWCFG.LEN)) (c.getW PMU.TWCFG.VEL)

/-- A time in 1/16 tap as microseconds. -/
def twUs (d : Int) : Word := F32.ofRat d 128000

/-- The samples of the three streams strobed at raw instant x (R404). -/
def Chip.twSample (c : Chip) (x : Nat) : Option TwSample :=
  let at_ := fun (f : Fld) => ((nget [] c.pmu.streams (c.get f)).find? (fun e => e.1 == x)).map (·.2)
  match at_ PMU.TWCFG.GA, at_ PMU.TWCFG.GB, at_ PMU.TWCFG.GC with
  | some a, some b, some d => some ⟨a.1, b.1, d.1, a.2 && b.2 && d.2⟩
  | _, _, _ => none

/-- n samples from raw instant x on, none when one is not there. -/
def Chip.twSamples (c : Chip) : Nat → Nat → Option (List TwSample)
  | 0, _ => some []
  | n + 1, x => match c.twSample x, c.twSamples n (x + 1000) with
    | some s, some l => some (s :: l)
    | _, _ => none

/-- S exceeds TH at the sample strobed at raw instant x (R404). -/
def Chip.twAbove (c : Chip) (x : Nat) : Bool :=
  let th := c.get PMU.TWCFG.TH
  match c.twSamples 2 (x - 1000) with
  | some [p, q] => decide (9 * th * th < twS9 (twDiff p q))
  | _ => false

/-- A detection (R404): the first sample n that exceeds TH since the locator was armed, with samples n - 5 to n + 20 once they are
all there. -/
def Chip.twDetect (c : Chip) : Option (Nat × List TwSample) :=
  let xs := ((nget [] c.pmu.streams (c.get PMU.TWCFG.GA)).map (·.1)).reverse
  match xs.find? (fun x => decide (c.pmu.rearm ≤ x ∧ 5000 ≤ x) && c.twAbove x) with
  | some x => (c.twSamples 26 (x - 5000)).map (fun l => (x, l))
  | none => none

/-- An arrival is shown and counted in the open record (R406). -/
def Chip.twKeep (c : Chip) (t16 : Int) (neg : Bool) (mode amp : Nat) (x : Nat) : Chip :=
  let i := c.pmu.arrivals.length
  let ft := fineTime t16
  let c := ((c.set PMU.TWARR.AMP i amp).set PMU.TWARR.MODE i mode).setB PMU.TWARR.POL i neg
  let c := ((c.set PMU.TWARR.FINE i ft.2.2).set PMU.TWARR.TAP i ft.2.1).set PMU.TWARR.TIME i ft.1
  let c := c.set PMU.FREC.NARR c.openSlot (i + 1)
  { c with pmu := { c.pmu with arrivals := c.pmu.arrivals ++ [(t16, neg)], rearm := x + 2 * usTaps } }

/-- Arrival of a detection at sample n of raw instant x (R405); the list holds samples n − 5 to n + 20. -/
def Chip.twArrival (c : Chip) (x : Nat) (l : List TwSample) : Chip :=
  let p := twPeak l 5
  let d0 := twAt l p
  let valid := ((l.drop (p - 4)).take 9).all (·.ok)
  let x0 := x + 1000 * (p - 5)
  if !valid then { c.inc PMU.CNT.TWBAD with pmu := { c.pmu with rearm := x0 + 1000 } }
  else
    let sm := twS (twAt l (p - 1))
    let s0 := twS d0
    let sp := twS (twAt l (p + 1))
    let den := 2 * (sm - 2 * s0 + sp)
    let free := c.freeNat
    let c := if den = 0 then free.2 else c
    let delta : Int := if den = 0 then ((free.1 % 16001 : Nat) : Int) - 8000 else Int.fdiv (2 * 16000 * (sm - sp) + den) (2 * den)
    let t16 := 16 * c.corrected x0 + delta - 8000
    let alpha := decide (3 * (d0.2 * d0.2).toNat ≤ (d0.1 * d0.1).toNat)
    let neg := if alpha then decide (d0.1 < 0) else decide (d0.2 < 0)
    let amp := ((s0 + 2 ^ 29) / 2 ^ 30).toNat
    let mode := if alpha then 0 else 1
    if c.pmu.collecting then c.twKeep t16 neg mode amp x0
    else if c.pmu.openAt.isSome then { c.recordBusy with pmu := { c.recordBusy.pmu with rearm := x0 + 2 * usTaps } }
    else
      let raw16 : Int := 16 * x0 + delta - 8000
      let c := ((c.openRecord (raw16 / 16).toNat t16 true).flag PMU.EVT.TW).raise 54 1
      let fin := (raw16 + F32.floorMul c.twTravel 128000 1 + 1280000).toNat
      { c with pmu := { c.pmu with collecting := true, collEnd := fin } }.twKeep t16 neg mode amp x0

/-- TW_ARRIVAL (R404 to R406): the detection in the three streams, at sample n of raw instant x with samples n − 5 to n + 20 as in the
list, is timed; one that the streams do not show changes nothing. While arrivals are collected, one after the end of the
collection or after eight is left alone. -/
def execTwArrival (t x : Nat) (l : List TwSample) (s : State) : Host.Outcome State Fault Refusal :=
  run (fun _ c =>
    let c := c.at_ t
    let more := !c.pmu.collecting || (decide (16 * x ≤ c.pmu.collEnd) && decide (c.pmu.arrivals.length < 8))
    if c.pmuRuns && c.on PMU.CFG.TWEN && more && decide (c.twDetect = some (x, l)) then c.twArrival x l else c) s

/-- The single-ended distance (R407). -/
def Chip.twDistance (c : Chip) : Chip :=
  match c.pmu.arrivals with
  | (t1, p1) :: rest =>
    let lim := c.twTravel
    match rest.find? (fun e => e.2 == p1 && F32.lt (twUs (e.1 - t1)) lim) with
    | some (t2, _) =>
      let i := c.openSlot
      let dt := t2 - t1
      ((c.set PMU.FREC.SEV i 1).set PMU.FREC.DT i dt.toNat).setW PMU.FREC.DSE i
        (F32.div (F32.mul (c.getW PMU.TWCFG.VEL) (twUs dt)) 0x40000000#32)
    | none => c
  | [] => c

/-- TW_COLLECTION_END (R406, R407). -/
def execTwCollectionEnd (t : Nat) (s : State) : Host.Outcome State Fault Refusal :=
  run (fun _ c =>
    let c := c.at_ t
    if c.pmu.collecting && (decide (c.pmu.collEnd ≤ 16 * c.raw c.now) || decide (8 ≤ c.pmu.arrivals.length)) then
      { c with pmu := { c.pmu with collecting := false } }.twDistance
    else c) s

/-- A write of PMU.CTL.FLTRIG (R412). -/
def Chip.pmuFltrig (c : Chip) : Chip :=
  if !c.pmuRuns then c
  else if c.pmu.openAt.isSome then c.recordBusy
  else c.openRecord (c.raw c.now) (16 * c.corrected (c.raw c.now)) false

/-- PMU_FLTRIG (R412). -/
def execPmuFltrig (t : Nat) (s : State) : Host.Outcome State Fault Refusal :=
  run (fun _ c => (c.at_ t).pmuFltrig) s

/-! Impedance -/

/-- Phasors of an impedance estimate centred at a corrected time, P class, and no absent data in it (R410). -/
def Chip.impPhasors (c : Chip) (tc : Int) : List Cpx × Bool :=
  let sec := secondOf tc
  let l := c.estimate3 false 0 tc sec ++ c.estimate3 false 3 tc sec
  (l.map (fun e => c.magCorrect false e (F32.ofNat c.pmuF0)), l.all (·.ok))

/-- Faulted phases and ground of R410: bits A, B, C, ground as in PHS. -/
def Chip.faulted (c : Chip) (pre post : List Cpx) : Nat :=
  let kf := c.getW PMU.FLCFG.KF
  let imin := c.getW PMU.FLCFG.IMIN
  let z : Cpx := (0, 0)
  let hit := fun (n : Nat) =>
    let m := cAbs (post.getD (3 + n) z)
    F32.lt (F32.mul kf (cAbs (pre.getD (3 + n) z))) m && F32.lt imin m
  let g := F32.lt (c.getW PMU.FLCFG.I0TH) (cAbs (cAdd (cAdd (post.getD 3 z) (post.getD 4 z)) (post.getD 5 z)))
  8 * bit (hit 0) + 4 * bit (hit 1) + 2 * bit (hit 2) + bit g

/-- The apparent impedance of R411, none when no loop is chosen. -/
def Chip.apparent (c : Chip) (post : List Cpx) (phs : Nat) : Option Cpx :=
  let z : Cpx := (0, 0)
  let v := fun (n : Nat) => post.getD n z
  let i := fun (n : Nat) => post.getD (3 + n) z
  let ph := (upTo 3).filter (fun n => phs.testBit (3 - n))
  match ph with
  | [p] =>
    if phs.testBit 0 then
      let z1 : Cpx := (c.getW PMU.LINE.R1, c.getW PMU.LINE.X1)
      let z0 : Cpx := (c.getW PMU.LINE.R0, c.getW PMU.LINE.X0)
      let k0 := cDiv (cSub z0 z1) (cScale 0x40400000#32 z1)
      some (cDiv (v p) (cAdd (i p) (cMul k0 (cAdd (cAdd (i 0) (i 1)) (i 2)))))
    else none
  | p :: q :: _ => some (cDiv (cSub (v p) (v q)) (cSub (i p) (i q)))
  | [] => none

/-- The impedance distance of the open record (R410, R411). -/
def Chip.impDistance (c : Chip) : Chip :=
  let k := c.openSlot
  let t0 : Int := (c.get PMU.FREC.TIME k * 64 + c.get PMU.FREC.TAP k : Nat)
  let pre := c.impPhasors (t0 - ((2 * secTaps / c.pmuF0 : Nat) : Int))
  let post := c.impPhasors (t0 + ((c.get PMU.FLCFG.PSET * msTaps : Nat) : Int))
  let phs := c.faulted pre.1 post.1
  let c := c.set PMU.FREC.PHS k phs
  match c.apparent post.1 phs with
  | none => c
  | some z =>
    let d := F32.div (F32.mul 0x447A0000#32 z.2) (c.getW PMU.LINE.X1)
    let ok := pre.2 && post.2 && F32.le 0 d && F32.le d (c.getW PMU.TWCFG.LEN)
    (c.setW PMU.FREC.DIMP k d).setB PMU.FREC.IMV k ok

/-- The eight words of a record. -/
def Chip.frecWords (c : Chip) (k : Nat) : List Nat :=
  match rowsPMU.find? (fun r => r.id == 0x4812) with
  | some r => valueWords 8 (r.fields.foldl (fun v f => v + c.get f.fld k * 2 ^ f.fld.lo) 0)
  | none => []

/-- FAULT_RECORD_COMPLETE (R412, R413). -/
def execFaultRecordComplete (t : Nat) (s : State) : Host.Outcome State Fault Refusal :=
  run (fun _ c =>
    let c := c.at_ t
    let imp := c.on PMU.CFG.IMPEN
    match c.pmu.openAt with
    | some o =>
      let due := o + c.get PMU.FLCFG.PSET * msTaps + secTaps / c.pmuF0 + 12000000
      if !c.pmuRuns || c.pmu.collecting || (imp && decide (c.raw c.now < due)) then c
      else
        let k := c.openSlot
        let c := if imp then c.impDistance else c
        let c := (((c.set PMU.FREC.CMPL k 1).flag PMU.EVT.FLREC).set PMU.STAT.REC 0 0).set PMU.STAT.LASTNUM 0 (c.get PMU.FREC.NUM k)
        let c := { c with pmu := { c.pmu with openAt := none } }
        (c.raise 54 2).copyPmu (c.get PMU.FREC.NUM k) (c.frecWords k)
    | none => c) s

/-- A write of PMU.TWREM is refused with status STATE (R408). -/
def Chip.twremRefused (c : Chip) (num : Nat) : Bool :=
  let k := frecSlot num
  c.get PMU.FREC.NUM k != num || !c.on PMU.FREC.TWV k

/-- PMU.TWREM takes effect (R408): the double-ended distance of record NUM. -/
def Chip.twrem (c : Chip) : Chip :=
  let num := c.get PMU.TWREM.NUM
  let k := frecSlot num
  if c.twremRefused num then c
  else
    let t16 := fun (time tap fine : Nat) => (((time * 64 + tap) * 16 + fine : Nat) : Int)
    let t1 := t16 (c.get PMU.FREC.TIME k) (c.get PMU.FREC.TAP k) (c.get PMU.FREC.FINE k)
    let tb := t16 (c.get PMU.TWREM.TIME) (c.get PMU.TWREM.TAP) (c.get PMU.TWREM.FINE)
    let len := c.getW PMU.TWCFG.LEN
    let d := F32.div (F32.add len (F32.mul (c.getW PMU.TWCFG.VEL) (twUs (t1 - tb)))) 0x40000000#32
    (c.setW PMU.FREC.DDE k d).setB PMU.FREC.DEV k (F32.le 0 d && F32.le d len)

/-- TWREM_WRITE (R408). -/
def execTwremWrite (t num time tap fine : Nat) (s : State) : Host.Outcome State Fault Refusal :=
  run (fun _ c =>
    let c := c.at_ t
    if !c.fabric || c.twremRefused num then c
    else ((((c.set PMU.TWREM.NUM 0 num).set PMU.TWREM.TIME 0 time).set PMU.TWREM.TAP 0 tap).set PMU.TWREM.FINE 0 fine).twrem) s

/-! Commit and reset -/

/-- The commit checks of R414 fail. DEDUCED (log entry 88): item 3 is judged for a unit whose EN is 1, as the bring-up example's commit
shows. -/
def Chip.pmuFails (c : Chip) : Bool :=
  let en := c.on PMU.CFG.EN
  let dec := fun (n : Nat) => c.on ADC.DEC.EN (c.pmuInputs.getD n 0)
  let r := c.get PMU.CFG.RING
  let gs := [c.get PMU.TWCFG.GA, c.get PMU.TWCFG.GB, c.get PMU.TWCFG.GC]
  let plume := noTwice gs && gs.all (fun g => c.get ADC.GCFG.ILV g == 3 &&
    c.get ADC.SLOT.PHASE (8 * g) == c.get ADC.SLOT.PHASE (8 * gs.headD 0))
  (en && ((upTo 3).any (fun n => !dec n) || (c.on PMU.IN.IEN && (upTo 3).any (fun n => !dec (3 + n))))) ||
    !c.rateOk ||
    (en && (!c.on PGM.RCFG.EN r || c.get PGM.RCFG.MODE r != 1)) ||
    (c.on PMU.CFG.TWEN && (!plume || !F32.ieeeLt 0 (c.getW PMU.TWCFG.LEN) || !F32.ieeeLt 0 (c.getW PMU.TWCFG.VEL))) ||
    (c.on PMU.CFG.IMPEN && (!c.on PMU.IN.IEN || !en || !F32.ieeeLt 0 (c.getW PMU.LINE.X1)))

/-- A reset of the PMU block (R415). -/
def Chip.resetPmu (c : Chip) : Chip :=
  let gone := fun (k : Key) => decide (0x4810 ≤ k.id ∧ k.id < 0x4C00) && !(k.id == 0x4812)
  { c with
    regs := c.regs.filter (fun e => !gone e.1)
    pmu := { c.pmu with
      openAt := none, collecting := false, arrivals := [], rearm := c.raw c.now, absent := false, cmds := [], resume := c.raw c.now } }

end Sys2Proof.Machine
end

