-- ==== Sys2Proof/Machine/Resets.lean ====
section
/-! DEFINITION. Resets, fuses, release of the domains, start-up, loss of clocks and supplies, sleep and the entry to FATAL
(chapter 19, R488 to R510; R319 to R322, R479, R534, R535). -/

namespace Sys2Proof.Machine

open Reg

/-! Resets of one block -/

/-- A reset of the HPP block or domain (R73, R42, R497): every field at its reset value, basins and replies emptied, an open
transaction abandoned, single-lane mode, not ready. -/
def Chip.resetHpp (c : Chip) : Chip :=
  { c with
    regs := c.regs.filter (fun e => !decide (0x0400 ≤ e.1.id ∧ e.1.id < 0x0800))
    hpp := {} }

/-- A reset of the RST block (R509). -/
def Chip.resetRst (c : Chip) : Chip := { c with regs := c.regs.filter (fun e => !(e.1.id == 0x0C08)) }

/-- The SMP domain in reset at level L2 (R282, R488): conversions are abandoned, calibration starts; attributes stay. -/
def Chip.resetSmp (c : Chip) : Chip :=
  let c := c.abandonSequences
  c.each (upTo 4) (fun c g => c.set ADC.GSTAT.READY g 0) |> fun c => { c with adc := {} }

/-- The DHB domain in reset at level L2 (R488, R496): pins low, ports as after a reset; settings, force and counts stay. -/
def Chip.resetPins (c : Chip) : Chip :=
  { c.portsReset with
    regs := c.regs.filter (fun e => !(e.1.id == 0x2C10 && decide (2 ≤ e.1.lo))) }

/-- The ETHA and ETHB domains in reset at level L2 (R450, R488): frames, table and pairs are discarded; attributes stay. -/
def Chip.resetEth (c : Chip) : Chip :=
  { c with net := { prpSeq := c.net.prpSeq, supSeq := c.net.supSeq, supAt := c.net.supAt, rxAt := [(0, c.now), (1, c.now)] } }

/-- The timed domains that a block owns (R488). -/
def ownedDomains : Nat → List Nat
  | 5 => [1]
  | 0xE => [2]
  | 8 => [3]
  | 0xB => [4]
  | 6 => [5, 6]
  | 1 => [7]
  | _ => []

/-- Domains enter reset and wait for their release (R501): released and held bits fall. -/
def Chip.gate (c : Chip) (ds : List Nat) (lvl : Nat) (gapped : Bool) : Chip :=
  if ds.isEmpty then c else
  let c := c.each ds (fun c d => (c.setBit RST.DOM.REL 0 d false).setBit RST.DOM.HELD 0 d false)
  let old := match c.rst.seq with
    | some q => if q.level = lvl ∧ lvl = 4 then c.rst.queue.filter (fun d => !ds.contains d) else []
    | none => []
  { c with rst := { c.rst with
    queue := old ++ ds, from_ := c.now, gapped := gapped, clkStart := false
    seq := some ⟨lvl, false⟩ } }

/-- Each block's own reset rule, by block code (R78, R488). -/
def Chip.resetBlock (c : Chip) (b : Nat) : Chip :=
  match b with
  | 0x1 => c.resetHpp
  | 0x2 => c.resetFlt
  | 0x3 => c.resetRst
  | 0x4 => c.resetKpr
  | 0x5 => c.resetTim
  | 0x6 => c.resetNet
  | 0x7 => c.resetSio
  | 0x8 => c.resetLnk false
  | 0x9 => c.resetArm
  | 0xA => c.resetMod
  | 0xB => c.resetDhb
  | 0xC => c.resetGpr
  | 0xD => c.resetMon
  | 0xE => c.resetAdc
  | 0xF => c.resetPages
  | 0x10 => c.resetCtl
  | 0x11 => c.resetGrd
  | 0x12 => c.resetPmu
  | 0x13 => c.resetMtr
  | 0x14 => c.resetIst
  | _ => c

/-- An L3 reset of block b acts (R508): the block resets, its timed domains run the gating of R501 again. -/
def Chip.blockReset (c : Chip) (b : Nat) : Chip := (c.resetBlock b).gate (ownedDomains b) 4 false

/-- Blocks that the tick path reads (R508). -/
def tickPathBlocks : List Nat := [8, 9, 0xA, 0xB, 0xC, 0xD, 0xE, 0x10, 0x11]

/-- An L3 reset of block b waits for its instant (R508). -/
def Chip.awaitBlock (c : Chip) (b : Nat) : Chip :=
  { c with rst := { c.rst with blocks := c.rst.blocks.filter (fun k => k != b) ++ [b] } }

/-! The whole main domain -/

/-- Fields that a reset of level L0, L1 or main POR leaves (R488, R489, R509): RST.STAT, RST.LOG, RST.CNT, what the keeper shows,
levels of pins and clock monitors; the copies of the fuse shadow when it is kept. -/
def survives (fuse : Bool) (k : Key) : Bool :=
  k.id == 0x0C00 || k.id == 0x0C06 || k.id == 0x0C07 || (k.id == 0x0C01 && k.lo == 16) ||
    (k.id == 0x1010 && decide (k.lo < 24)) || k.id == 0x1011 || k.id == 0x1014 ||
    (k.id == 0x1C10 && decide (k.lo < 2)) || (k.id == 0x1C11 && (k.lo == 9 || k.lo == 10)) ||
    (k.id == 0x2C10 && decide (k.lo < 2)) || (k.id == 0x3410 && k.lo == 96) ||
    (k.id == 0x1410 && (k.lo == 4 || k.lo == 6)) ||
    (fuse && (decide (0x0C02 ≤ k.id ∧ k.id ≤ 0x0C05) || (k.id == 0 && k.lo == 10) || (k.id == 1 && k.lo == 0) || k.id == 3))

/-- The main domain at its reset values (R488): the keeper domain, the test access port, time itself and the reset unit are
untouched. Record numbers continue from the keeper's last committed records (R485, R413). -/
def Chip.coreReset (c : Chip) (fuse : Bool) : Chip :=
  let set := c.nvValid 2
  let after := fun (x : Option Nat) => match x with
    | some n => (n + 1) % 65536
    | none => 0
  let outs := (c.each (upTo 4) (fun c j => c.drive j false false)).sio.outs
  { regs := c.regs.filter (fun e => survives fuse e.1)
    now := c.now
    free := c.free
    rst := c.rst
    tap := c.tap
    flt := { num := after (set.bind (fun r => r.2.flt)) }
    pmu := { num := after (set.bind (fun r => r.2.pmu)), cfgCount := if fuse then c.pmu.cfgCount else 0 }
    tim := { goodAt := c.tim.goodAt, badAt := c.tim.badAt, failRaised := c.tim.failRaised }
    sio := { outs := outs.map (fun e => (e.1, { e.2 with test := none, dueA := c.now, dueB := c.now })) }
    ist := { base := c.now, winAt := c.now }
    kpr := { c.kpr with
      srv := {}, sleepDue := none, cfg := c.kprCfg
      burst := c.kpr.burst.map (fun b => { b with host := false })
      alarm := if !c.fabric then c.kpr.alarm else if c.on KPR.ALARM.EN then some (c.get KPR.ALARM.SEC) else none } }

/-- Lanes not in OFF: they send their block burst before a reset in RUN (R496). -/
def Chip.lanesInUse (c : Chip) : List Nat := if c.inRun then (upTo 192).filter (fun n => c.lstate n != lsOff) else []

/-- The bursts of R496 started at this instant. -/
def Chip.burstLanes (c : Chip) (l : List Nat) : Chip :=
  c.each l (fun c n => c.burst n)

/-! Reset sequences -/

/-- The fabric is released (R501); failed loads of the sequence are reported (R499). -/
def Chip.releaseFabric (c : Chip) : Chip :=
  let c := c.setBit RST.DOM.REL 0 0 true
  let c := { c with rst := { c.rst with queue := [1, 2, 3, 4, 5, 6, 7], from_ := c.now, gapped := true } }
  if 0 < c.rst.fails then c.raise 5 else c

/-- Main POR (R488, R489): the sequence waits for the supplies. `keepLatch`: VIN33 stayed above V_PORF. -/
def Chip.mainPor (c : Chip) (keepLatch : Bool) : Chip :=
  let latch := keepLatch && c.on RST.STAT.FATAL
  let c := c.coreReset false
  let c := { c with
    regs := c.regs.filter (fun e => !(e.1.id == 0x0C00 || e.1.id == 0x0C07))
    rst := { vin := c.rst.vin, pinLow := c.rst.pinLow, pinAt := c.rst.pinAt, logged := c.rst.logged, logNew := c.rst.logNew } }
  c.setB RST.STAT.FATAL 0 latch

/-- A reset of level L0 (code 1), L1 (2), L2 (3) or L3 (4) starts (R488, R496, R498, R500). -/
def Chip.startReset (c : Chip) (lvl blk : Nat) : Chip :=
  let used := c.lanesInUse
  if lvl = 4 then
    if tickPathBlocks.contains blk ∧ c.dev.ticking then c.awaitBlock blk else c.blockReset blk
  else if lvl = 3 then
    let c := c.each (upTo 4) (fun c j => c.drive j false false)
    let c := ((((c.resetTim.resetSmp.resetLnk true).resetPins).resetEth).resetHpp).burstLanes used
    { c with dev := { c.dev with resetReq := none } }.gate [1, 2, 3, 4, 5, 6, 7] 3 false |>.refreshSdo
  else
    let c := (c.coreReset (lvl == 2)).burstLanes used
    let c := { c with rst := { c.rst with
      seq := some ⟨lvl, lvl == 1⟩, fails := 0, clkStart := false, queue := [], blocks := [], gapped := true
      shadow := if lvl = 1 then [] else c.rst.shadow } }
    if lvl = 1 then ((c.set RST.STAT.FUSEOK 0 0).set RST.STAT.DEFAULTS 0 0).set RST.STAT.FAILS 0 0
    else if c.rst.pinLow then c
    else c.releaseFabric

/-- A reset is recognised (R492, R495): absorbed when less grave than the running sequence, else started; RST.STAT names it. -/
def Chip.beginReset (c : Chip) (lvl src blk : Nat) : Chip :=
  let absorbed := match c.rst.seq with
    | some q => decide (q.level < lvl)
    | none => false
  if absorbed then c.inc RST.CNT.MERGED
  else
    let c := ((c.set RST.STAT.LASTSRC 0 src).set RST.STAT.LASTLVL 0 (lvl - 1)).set RST.STAT.LASTBLK 0 (if lvl = 4 then blk else 0)
    c.startReset lvl blk

/-- RESET_BEGIN (R115): 1 us after the FETCH that removes the reply, or 100 ms after the reply was queued. An L3 reset of a block
that the tick path reads waits for the coming reference (R508). -/
def execResetBegin (t : Nat) (s : State) : Host.Outcome State Fault Refusal :=
  run (fun _ c =>
    let c := c.at_ t
    match c.dev.resetReq with
    | some r =>
      if r.due ≤ c.now then
        let c := { c with dev := { c.dev with resetReq := none } }.inc RST.CNT.CMD
        c.beginReset (r.level + 1) 3 r.block
      else c
    | none => c) s

/-- BLOCK_RESET (R508): the L3 reset of block b that waits for the coming tick reference acts there. -/
def execBlockReset (b : Nat) (s : State) : Host.Outcome State Fault Refusal :=
  run (fun _ c =>
    if c.rst.blocks.contains b then
      let c := if c.dev.ticking then c.at_ c.dev.nextT0 else c
      { c with rst := { c.rst with blocks := c.rst.blocks.filter (fun k => k != b) } }.blockReset b
    else c) s

/-! Supplies -/

/-- The keeper rail is no longer fed from VIN33 (R516, R518). -/
def Chip.railLost (c : Chip) : Chip :=
  let c := { (c.set KPR.STAT.RAIL 0 0).set KPR.STAT.CHG 0 0 with kpr := { c.kpr with chargeFrom := none } }
  if c.on KPR.STAT.CONN then c else c.keeperLost

/-- MAIN_POR (R492, R489, R490, R507): VIN33 falls below V_PORF (`vin`), or VCORE or VANA power-good is lost while VIN33 stands. -/
def execMainPor (t : Nat) (vin : Bool) (s : State) : Host.Outcome State Fault Refusal :=
  run (fun _ c =>
    let c := c.at_ t
    if vin then
      if c.rst.vin then
        let c := if c.on KPR.STAT.RAIL then c.railLost else c
        let c := c.mainPor false
        { c with rst := { c.rst with vin := false, logged := false }, kpr := { c.kpr with asleep := false } }.set
          KPR.STAT.WAKE 0 0
      else c
    else if c.rst.core then (c.mainPor true).set KPR.STAT.WAKE 0 0
    else c) s

/-- MAIN_POR_RELEASE (R494): VIN33 rises through V_PORR; buck and regulator start. A pin still low is timed anew (R507). -/
def execMainPorRelease (t : Nat) (s : State) : Host.Outcome State Fault Refusal :=
  run (fun _ c =>
    let c := c.at_ t
    if c.rst.vin then c
    else { c with rst := { c.rst with vin := true, pinAt := if c.rst.pinLow then c.now else c.rst.pinAt } }) s

/-- POWER_GOOD (R498): VCORE and VANA both reach power-good; the fuse load and the judgement of the clocks start. -/
def execPowerGood (t : Nat) (s : State) : Host.Outcome State Fault Refusal :=
  run (fun _ c =>
    let c := c.at_ t
    if c.rst.vin && !c.rst.core && !c.kpr.asleep then
      let c := (c.setClk false 3).setClk true 3
      { c with rst := { c.rst with core := true, seq := some ⟨0, true⟩ } }
    else c) s

/-- VIOH_LOSS (R492): an L3 reset of HPP. -/
def execViohLoss (t : Nat) (s : State) : Host.Outcome State Fault Refusal :=
  run (fun _ c =>
    let c := c.at_ t
    if c.released 7 then c.beginReset 4 6 1 else c) s

/-! RST_N -/

/-- RST_N_ASSERT (R493, R506): a low level of 1 us or more is recognised (`long`); of a pulse between 100 ns and 1 us it is open
whether it is. A reset of the fused level begins; asleep, the pin alone is noted (R535). -/
def execRstNAssert (t : Nat) (long : Bool) (s : State) : Host.Outcome State Fault Refusal :=
  run (fun _ c =>
    let c := c.at_ t
    let r := if long then (true, c) else c.freeBit
    let c := r.2
    if c.rst.pinLow ∨ r.1 = false then c
    else
      let c := { c with rst := { c.rst with pinLow := true, pinAt := c.now, logged := false } }
      if c.rst.core then (c.inc RST.CNT.RSTN).beginReset (if c.on RST.FLVL.RSTNL then 2 else 1) 2 0 else c) s

/-- The device wakes by a main POR (R535). -/
def Chip.wakeUp (c : Chip) (code : Nat) : Chip :=
  { c with kpr := { c.kpr with asleep := false } }.set KPR.STAT.WAKE 0 code

/-- RST_N_RELEASE (R506, R507, R535): the log entry is finalised; the waiting sequence proceeds; a sleeping device wakes. -/
def execRstNRelease (t : Nat) (s : State) : Host.Outcome State Fault Refusal :=
  run (fun _ c =>
    let c := c.at_ t
    if ¬ c.rst.pinLow then c
    else
      let c := if c.rst.logged then c.logLast (fun e => { e with open_ := false, dur := (c.now - c.rst.pinAt) / msTaps }) else c
      let c := { c with rst := { c.rst with pinLow := false, logged := false } }
      if c.kpr.asleep then c.wakeUp 1
      else match c.rst.seq with
        | some q => if c.rst.core && !q.loading && decide (q.level ≤ 2) && !c.fabric then c.releaseFabric else c
        | none => c) s

/-- RST_N_LOG (R507): at 100 ms the keeper enters the assertion in its log, then updates the duration once per second. -/
def execRstNLog (t : Nat) (s : State) : Host.Outcome State Fault Refusal :=
  run (fun _ c =>
    let c := c.at_ t
    let low := c.now - c.rst.pinAt
    if c.rst.pinLow ∧ c.keepRuns ∧ c.rst.vin then
      if ¬ c.rst.logged then
        if 100 * msTaps ≤ low then
          let e : LogEntry := { rst := true, start := rtcTo8ns (c.rtcNow - low * 32768 / secTaps), open_ := true, dur := low / msTaps }
          { c with rst := { c.rst with logged := true, logNew := true }, kpr := { c.kpr with log := c.kpr.log ++ [e] } }
        else c
      else c.logLast (fun e => if (e.dur + 1000) * msTaps ≤ low then { e with dur := low / msTaps } else e)
    else c) s

/-! Fuse load -/

/-- The shadow takes the words of a load (R500). -/
def Chip.applyFuses (c : Chip) (w : List Nat) : Chip :=
  let g := fun (k hi lo : Nat) => bitsOf (w.getD k 0) hi lo
  let c := (((c.set RST.FSEC.FUSEREV 0 (g 0 31 24)).set RST.FSEC.GRADE 0 (g 0 23 16)).set RST.FSEC.KEYREV 0 (g 0 7 4)).set
    RST.FSEC.PLOCK 0 (g 0 1 1)
  let c := ((c.set RST.FSEC.DBGLOCK 0 (g 0 0 0)).set RST.FSEC.CHGEND 0 (g 1 17 16)).set RST.FSEC.PATCHMIN 0 (g 1 15 0)
  let c := ((c.set RST.FLVL.DLLL 0 (g 4 2 2)).set RST.FLVL.CLKL 0 (g 4 1 1)).set RST.FLVL.RSTNL 0 (g 4 0 0)
  let c := (c.set RST.FGAP.GAP 0 (w.getD 5 0 + 2 ^ 32 * w.getD 6 0)).set RST.FPIN.ETHRS 0 (g 7 4 4)
  let c := ((c.set RST.FPIN.TIMRS 0 (g 7 3 3)).set RST.FPIN.PLSRS 0 (g 7 2 1)).set RST.FPIN.IRQRS 0 (g 7 0 0)
  let c := (c.set DEV.STATE.DBGLOCK 0 (g 0 0 0)).set DEV.ID.GRADE 0 (g 0 23 16)
  { c.set DEV.UID.UID 0 (w.getD 2 0 + 2 ^ 32 * w.getD 3 0) with rst := { c.rst with shadow := w } }

/-- The words of a load check (R498): CRC-32C of words 0 to 30, most significant byte first, in word 31. -/
def fusesGood (w : List Nat) : Bool := w.length == 32 && w.all (fun x => decide (x < 2 ^ 32)) &&
  crc32c ((w.take 31).flatMap wordBytes) == w.getD 31 0

/-- FUSE_LOAD_DONE (R498, R499, R501): the loader has read these 32 words. A failed load is retried; after the third the
hard-wired defaults stand. The fabric is released when RST_N is high. -/
def execFuseLoadDone (t : Nat) (words : List Nat) (s : State) : Host.Outcome State Fault Refusal :=
  run (fun _ c =>
    let c := c.at_ t
    match c.rst.seq with
    | some q =>
      if ¬ q.loading then c
      else
        let good := fusesGood words
        let n := c.rst.fails + 1
        let c := if good then (c.applyFuses words).set RST.STAT.FUSEOK 0 1
          else { (((c.set RST.STAT.FAILS 0 n).inc RST.CNT.FUSEF).flag RST.EVT.FUSEF) with rst := { c.rst with fails := n } }
        if good ∨ n = 3 then
          let c := if good then c else c.set RST.STAT.DEFAULTS 0 1
          let c := { c with rst := { c.rst with seq := some { q with loading := false } } }
          if c.rst.pinLow then c else c.releaseFabric
        else c
    | none => c) s

/-! Release of the domains -/

/-- Gap of domain d in taps: 16 x (GAPd + 1) REFCLK cycles; half of it at the least while TB is held (R501). -/
def Chip.gapTaps (c : Chip) (d : Nat) : Nat :=
  let n := 16 * (bitsOf (c.get RST.FGAP.GAP) (8 * d - 1) (8 * d - 8) + 1) * 64
  if c.bitOn RST.DOM.HELD 0 1 then n / 2 else n

/-- The instant at which the gap of the first waiting domain has elapsed. -/
def Chip.gapEnd (c : Chip) (d : Nat) : Nat := if c.rst.gapped then c.rst.from_ + c.gapTaps d else c.rst.from_

/-- The first waiting domain leaves the queue; after the last the sequence has ended (R495). -/
def Chip.nextDomain (c : Chip) : Chip :=
  let rest := c.rst.queue.drop 1
  let follows := match c.rst.queue with
    | a :: b :: _ => b == a + 1
    | _ => false
  { c with rst := { c.rst with
    queue := rest, from_ := c.now, gapped := follows, seq := if rest.isEmpty then none else c.rst.seq } }

/-- TB is released: the qualified input is selected, an episode of the other in LOSS or DRIFT is reported (R322); after a reset that
restarts C it starts at 0, and corrected time is taken from the keeper's RTC (R311, R341, R501). -/
def Chip.startTb (c : Chip) (refA : Bool) : Chip :=
  let c := c.setB TIM.STAT.SEL 0 (!refA)
  let c := if c.clk refA = 1 ∨ c.clk refA = 2 then c.clkFail refA else c
  if c.tim.run then c
  else
    let ofs := if c.on KPR.STAT.RTCV then c.rtcNow * secTaps / 32768 else 0
    let c := (c.setI TIM.OFS.OFS 0 ofs).setI TIM.RATE.RATE 0 0
    let c := c.setB TIM.STAT.RTCBAD 0 (!c.on KPR.STAT.RTCV)
    { c with tim := { c.tim with run := true, c0 := c.now, x0 := 0, old := [], ppsNext := (ofs / secTaps + 1 : Nat) } }

/-- HPP is released: outside BOOT the interpreter is ready again (R491). -/
def Chip.startHpp (c : Chip) : Chip :=
  if c.state = stBoot then c else { c with hpp := { c.hpp with rdy := true } }

/-- DOMAIN_RELEASE (R501, R502): the first waiting domain leaves reset at or after its gap, while its clock-good condition holds:
REFCLKA or REFCLKB has shown 4,096 edges (`refA`, `refB`), TB released and the DLL locked, VIOH power-good (`vioh`). -/
def execDomainRelease (t : Nat) (refA refB vioh : Bool) (s : State) : Host.Outcome State Fault Refusal :=
  run (fun _ c =>
    let c := c.at_ t
    match c.rst.queue with
    | d :: _ =>
      let good := if d = 1 then refA || refB else if d = 7 then vioh else c.released 1 && c.on TIM.STAT.DLLOCK
      if good && decide (c.gapEnd d ≤ c.now ∧ c.now ≤ c.gapEnd d + msTaps) then
        let c := (c.setBit RST.DOM.REL 0 d true).nextDomain
        let c := if d = 1 then (c.startTb refA).ptpRefresh else if d = 7 then c.startHpp else c
        let c := if d = 5 ∨ d = 6 then { c with net := { c.net with rxAt := nset 0 c.net.rxAt (d - 5) c.now } }.ptpRefresh else c
        if c.rst.seq.isNone then c.refreshSdo else c
      else c
    | [] => c) s

/-- CLOCK_GOOD_TIMEOUT (R502): 1 ms after its gap, or at its turn when TB is held, the first waiting domain stays in reset. -/
def execClockGoodTimeout (t : Nat) (s : State) : Host.Outcome State Fault Refusal :=
  run (fun _ c =>
    let c := c.at_ t
    match c.rst.queue with
    | d :: _ =>
      let withTb := decide (2 ≤ d ∧ d ≤ 6) && c.bitOn RST.DOM.HELD 0 1
      let good := decide (2 ≤ d ∧ d ≤ 6) && c.released 1 && c.on TIM.STAT.DLLOCK
      if ¬ good ∧ (if withTb then c.gapEnd d else c.gapEnd d + msTaps) ≤ c.now then
        let c := (c.setBit RST.DOM.HELD 0 d true).inc RST.CNT.CGFAIL
        let c := c.flag RST.EVT.CLKSTART
        let c := if c.rst.clkStart then c else { c with rst := { c.rst with clkStart := true } }.raise 4
        let c := c.nextDomain
        if c.rst.seq.isNone then c.refreshSdo else c
      else c
    | [] => c) s

/-- INTERPRETER_START (R504, R490, R507, R526): RDY becomes 1 and BOOT ends in CONFIG, in DIAG on hard-wired defaults, or in FATAL
while the latch is set. What the keeper holds is reported. -/
def execInterpreterStart (t : Nat) (s : State) : Host.Outcome State Fault Refusal :=
  run (fun _ c =>
    let c := c.at_ t
    if c.state = stBoot ∧ c.fabric ∧ c.released 7 ∧ c.rst.queue.isEmpty ∧ ¬ c.hpp.rdy then
      let st := if c.on RST.STAT.FATAL then stFatal else if c.on RST.STAT.DEFAULTS then stDiag else stConfig
      let c := c.set DEV.STATE.STATE 0 st
      let c := { c with hpp := { c.hpp with rdy := true } }
      let c := c.each (upTo 4) (fun c g => c.setGroup g { c.group g with calFrom := c.now })
      let c := c.keeperReport
      match (c.kpr.log.filter (fun e => e.rst)).getLast? with
      | some e =>
        let c := ((c.set RST.LOG.START 0 e.start).setB RST.LOG.OPEN 0 e.open_).set RST.LOG.DUR 0 (satN 31 e.dur)
        if c.rst.logNew then { c with rst := { c.rst with logNew := false } }.flag RST.EVT.RSTLOG else c
      | none => c
    else c) s

/-! Reference clocks and delay-locked line -/

/-- An input is in LOSS or DRIFT (R320 to R322, R492): the device switches to the other when that is GOOD, or resets. -/
def Chip.clkBad (c : Chip) (b : Bool) (code : Nat) : Chip :=
  let c := c.setClk b code
  if ¬ c.released 1 then c
  else if c.selB == b then
    if c.clk (!b) = 0 then c.switchClk.clkFail b
    else (c.inc RST.CNT.CLK).beginReset (if c.on RST.FLVL.CLKL then 1 else 2) 4 0
  else c.clkFail b

/-- REFCLK_LOSS (R320): no edge within 12 ns. -/
def execRefclkLoss (t : Nat) (b : Bool) (s : State) : Host.Outcome State Fault Refusal :=
  run (fun _ c => (c.at_ t).clkBad b 1) s

/-- REFCLK_DRIFT (R320): a 64 ms window shows an input's distance from 125 MHz; beyond FTOL it drifts. -/
def execRefclkDrift (t : Nat) (w : Drift) (s : State) : Host.Outcome State Fault Refusal :=
  run (fun _ c =>
    let c := c.at_ t
    if 1000 * c.get TIM.CLK.FTOL < w.ppb then c.clkBad w.b 2 else c) s

/-- DLL_RELOCK_TIMEOUT (R319, R492): the shadow chain has not locked within 1 ms. -/
def execDllRelockTimeout (t : Nat) (s : State) : Host.Outcome State Fault Refusal :=
  run (fun _ c =>
    let c := c.at_ t
    match c.tim.unlockAt with
    | some x =>
      if c.released 1 ∧ ¬ c.on TIM.STAT.DLLOCK ∧ x + msTaps ≤ c.now then
        (c.inc RST.CNT.CLK).beginReset (if c.on RST.FLVL.DLLL then 2 else 3) 5 0
      else c
    | none => c) s

/-! Sleep -/

/-- KPR_SLEEP (R534): the keeper judges what is pending, the main domain enters reset and VCORE and VANA are turned off. -/
def execKprSleep (t vst : Nat) (s : State) : Host.Outcome State Fault Refusal :=
  run (fun _ c =>
    let c := c.at_ t
    match c.kpr.sleepDue with
    | some x =>
      if x ≤ c.now then
        let c := c.sampleVst vst
        let c := if c.kpr.burst.isNone then c.judgeAll vst else c
        let c := c.mainPor true
        { c with kpr := { c.kpr with asleep := true } }
      else c
    | none => c) s

/-- RTC_ALARM (R535): the RTC reaches the armed second; a sleeping device wakes. -/
def execRtcAlarm (t : Nat) (s : State) : Host.Outcome State Fault Refusal :=
  run (fun _ c =>
    let c := c.at_ t
    match c.kpr.alarm with
    | some x => if c.kpr.asleep && c.keepRuns && c.on KPR.STAT.RTCV && decide (x * 32768 ≤ c.rtcNow) then c.wakeUp 2 else c
    | none => c) s

/-! FATAL -/

/-- Packets answered whose write of HPP.CFG.QUAD still waits for its tick reference. -/
def Chip.stagedQuads (c : Chip) : Nat :=
  (c.dev.staged.filter (fun x => x.reply.isNone && x.writes.any (fun w => w.id == 0x0400))).length

/-- The newest n lane modes on their way are dropped: their writes have been discarded (R42, R84). -/
def stripQuads : Nat → List Reply → Nat × List Reply
  | n, [] => (n, [])
  | n, r :: l =>
    let x := stripQuads n l
    if 0 < x.1 ∧ r.quad.isSome then (x.1 - 1, { r with quad := none } :: x.2) else (x.1, r :: x.2)

/-- Lane modes whose write is still staged are dropped. -/
def Chip.dropQuads (c : Chip) : Chip :=
  let x := stripQuads c.stagedQuads c.hpp.replies
  { c with hpp := { c.hpp with replies := x.2, quadNext := if 0 < x.1 then none else c.hpp.quadNext } }

/-- The device leaves RUN for FATAL: writes still staged are discarded, a packet that waits for its reference is answered with
STATE (R84). -/
def Chip.dropStaged (c : Chip) : Chip :=
  let refuse := fun (tag flg : Nat) => ({ status := 8, tag := tag, flg := flg, words := [0] } : Reply)
  let waits := c.dev.staged.filterMap (fun x => x.reply.map (fun r => refuse r.tag r.flg))
  let own := match c.dev.wait with
    | some (.modify tag flg _) => [refuse tag flg]
    | some (.admission tag flg _) => [refuse tag flg]
    | _ => []
  let wait := match c.dev.wait with
    | some (.nv tag flg) => some (Wait.nv tag flg)
    | _ => none
  let c := { c.dropQuads with dev := { c.dev with staged := [], wait := wait } }
  c.each (waits ++ own) (fun c r => c.reply r)

/-- The fatal record is committed (R479 step 4): its copy is made now where its class became C3 only after it opened (R485). -/
def Chip.copyFatal (c : Chip) : Chip :=
  match c.fatalRecord with
  | some i => if c.kpr.flts.any (fun e => e.1 == c.get FLT.REC.NUM i) then c else c.copyFlt (c.get FLT.REC.NUM i) (c.recValue i)
  | none => c

/-- FATAL_ENTRY (R479 steps 2 to 4): every burst, of four K28.7, is complete; the device leaves RUN, lanes go to OFF, ports are low,
outputs are de-energised, ticks stop and the latch is set (R490). -/
def execFatalEntry (t : Nat) (s : State) : Host.Outcome State Fault Refusal :=
  run (fun _ c =>
    let c := c.at_ t
    let busy := (upTo 192).any (fun n => match (c.lane n).burstAt with
      | some b => decide (c.now < c.burstEnd b)
      | none => false)
    if ¬ c.flt.fatalPend ∨ busy then c
    else
      let was := c.inRun
      let c := { c with flt := { c.flt with fatalPend := false } }
      let c := (c.set DEV.STATE.STATE 0 stFatal).set RST.STAT.FATAL 0 1
      let c := if was then
          let c := ((c.servoExit).lanesOff).abandonSequences.dropStaged
          { c with dev := { c.dev with ticking := false } }
        else c
      c.portsUpdate.refreshSdo.copyFatal) s

end Sys2Proof.Machine
end

