-- ==== Sys2Proof/Machine/Access.lean ====
section
/-! DEFINITION. Reading an attribute (R82): fields that hardware keeps elsewhere, and the word or words of a read. -/

namespace Sys2Proof.Machine

open Reg

/-! Basins (R58 to R60) -/

/-- Bank b is released (R59); `open_`: a transaction that goes to the basins is open. -/
def Chip.bankFree (c : Chip) (b : Nat) (open_ : Bool) : Bool :=
  c.hpp.unread.all (fun w => w.bank != b) && (c.hpp.bank != b || (c.hpp.unread.isEmpty && !open_))

/-! Fields that hardware keeps elsewhere -/

/-- HPP.STAT as read. -/
def Chip.liveHpp (c : Chip) (f : Fld) : Nat :=
  if f = HPP.STAT.AEMPTY then bit (c.bankFree 0 c.hpp.txn.isSome)
  else if f = HPP.STAT.BEMPTY then bit (c.bankFree 1 c.hpp.txn.isSome)
  else if f = HPP.STAT.FILL then c.hpp.bank
  else c.get f

/-- FLT.STAT as read. -/
def Chip.liveFlt (c : Chip) (f : Fld) : Nat :=
  if f = FLT.STAT.GRAVE then c.gravest
  else if f = FLT.STAT.DEVOK then bit c.devok
  else if f = FLT.STAT.FATSRC then
    (match c.fatalRecord with
     | some i => c.get FLT.REC.FIRST i
     | none => 0)
  else if f = FLT.STAT.LOSTU then bit c.aggregate
  else if f = FLT.STAT.NUNACK then c.nunack
  else c.get f

/-- DHB.STAT as read. -/
def Chip.liveDhb (c : Chip) (f : Fld) (p : Nat) : Nat :=
  if f = DHB.STAT.PSTATE then c.portState p
  else if f = DHB.STAT.GATEW then bit (c.portWaits p)
  else c.get f p

/-- DHB.CMP as read: with CSRC 0 the compares in force. -/
def Chip.liveCmp (c : Chip) (f : Fld) (p : Nat) : Nat :=
  if c.on DHB.CFG.CSRC p then c.get f p
  else
    let m := (c.port p).cmp.at_ c.now
    (if f = DHB.CMP.CMPA then m.a else m.b).toNat

/-- SIO.SDOSTAT.PSTATE. -/
def Chip.sdoState (c : Chip) (j : Nat) : Nat :=
  if !c.on SIO.SDOCFG.EN j then 0
  else if c.on SIO.SDOSTAT.FAULT j then 4
  else if (c.sdo j).test.isSome then 3
  else if (c.sdo j).a && (c.sdo j).b then 2
  else 1

/-- PGM.CAP.FIRST of ring r. -/
def Chip.firstPage (c : Chip) (r : Nat) : Nat :=
  if c.rstate r = rsQueue then (c.oldestClosed r).getD noPage else c.get PGM.CAP.FIRST r

/-- A field as read, apart from its access code. -/
def Chip.live (c : Chip) (f : Fld) (i : Nat) : Nat :=
  if f.id = 0x0401 then c.liveHpp f
  else if f.id = 0x0811 then c.liveFlt f
  else if f = FLT.SRC.CUR then c.curClass i
  else if f = KPR.RTC.SEC then c.rtcNow / 32768 % 2 ^ 49
  else if f = KPR.RTC.FRAC then c.rtcNow % 32768
  else if f = KPR.NVDATA.DATA then c.nvData
  else if f = PGM.POOL.FREE then c.freePages.length
  else if f = PGM.RSTAT.NPAGE then (c.ring i).pages.length
  else if f = PGM.RSTAT.NFROZ then (c.ring i).frozen.length
  else if f = PGM.CAP.FIRST then c.firstPage i
  else if f.id = 0x2C10 then c.liveDhb f i
  else if f.id = 0x2C02 then c.liveCmp f i
  else if f = SIO.SDOSTAT.PSTATE then c.sdoState i
  else if f = MOD.CMT.CODE then (if c.on MOD.CMT.SRC then c.maskCode else c.get f i)
  else c.get f i

/-! A read -/

/-- A read of an attribute's instance as one number (R12, R82): WO fields read 0, reserved bits read 0. -/
def Chip.readAttr (c : Chip) (r : AttrRow) (i : Nat) : Nat :=
  r.fields.foldl (fun a f => a + (if f.access = .wo then 0 else c.live f.fld i % 2 ^ f.fld.width) * 2 ^ f.fld.lo) 0

/-- Bits of an attribute's W1C fields that hardware has set at the present instant, in place. -/
def Chip.freshAttr (c : Chip) (r : AttrRow) (i : Nat) : Nat :=
  (r.fields.filter (fun f => f.access == .w1c)).foldl
    (fun a f => a + (c.freshBits f.fld i &&& c.get f.fld i) % 2 ^ f.fld.width * 2 ^ f.fld.lo) 0

/-- A read as words, word 0 first. -/
def Chip.readWords (c : Chip) (r : AttrRow) (i : Nat) : List Nat := valueWords r.words (c.readAttr r i)

end Sys2Proof.Machine
end

