-- ==== Sys2Proof/Machine/Checks.lean ====
section
/-! DEFINITION. The checks of a written value (R12, R79 to R100 and the field maps): each failure as a status and the bit at which
its field begins. A check that a field map states as "refused with status RANGE", or as a range of values, is a `bad` with status
RANGE; sign and comparison bounds of binary32 are judged by R582. -/

namespace Sys2Proof.Machine

open Reg

/-- The value that a write gives field f. -/
def fv (v : Nat) (f : Fld) : Nat := bitsOf v f.hi f.lo

/-- The written value as a pattern. -/
def fw (v : Nat) (f : Fld) : Word := toWord (fv v f)

/-- Status st at field f when the condition holds. -/
def bad (st : Nat) (f : Fld) (b : Bool) : List (Nat × Nat) := if b then [(st, f.lo)] else []

/-- RANGE outside lo to hi. -/
def inRange (v : Nat) (f : Fld) (lo hi : Nat) : List (Nat × Nat) := bad stRANGE f (decide (fv v f < lo ∨ hi < fv v f))

/-- RANGE for a value that is not finite. -/
def finite (v : Nat) (f : Fld) : List (Nat × Nat) := bad stRANGE f (!F32.isFinite (fw v f))

/-- RANGE for a value that is not finite and at least 0 (R582). -/
def notNegative (v : Nat) (f : Fld) : List (Nat × Nat) := bad stRANGE f (!(F32.isFinite (fw v f) && F32.ieeeLe 0 (fw v f)))

/-- RANGE for a value that is not finite and greater than 0 (R582). -/
def positive (v : Nat) (f : Fld) : List (Nat × Nat) := bad stRANGE f (!(F32.isFinite (fw v f) && F32.ieeeLt 0 (fw v f)))

/-- RANGE for a value outside 0 to 1. -/
def unit (v : Nat) (f : Fld) : List (Nat × Nat) := bad stRANGE f (!(F32.ieeeLe 0 (fw v f) && F32.ieeeLe (fw v f) F32.one))

/-- RANGE for NaN. -/
def number (v : Nat) (f : Fld) : List (Nat × Nat) := bad stRANGE f (F32.isNaN (fw v f))

/-- A channel code of R271. -/
def channelCode (k : Nat) : Bool := decide (k < 12 ∨ (16 ≤ k ∧ k ≤ 21) ∨ (32 ≤ k ∧ k ≤ 55))

/-- A node code of R366. -/
def nodeCode (k : Nat) : Bool := decide (k < 6 ∨ (8 ≤ k ∧ k ≤ 16))

/-- A slot of the mirror may copy the attribute: 32 bits or narrower, RO or W1C (R55). -/
def mirrors (id inst : Nat) : Bool :=
  match attrRow id inst with
  | some r => r.words == 1 && r.fields.all (fun f => f.access == .ro || f.access == .w1c)
  | none => false

/-- Blocks DEV, HPP, FLT (R55, R72, R124, R475, R486). -/
def Chip.checkHost (c : Chip) (id i v : Nat) : List (Nat × Nat) :=
  match id with
  | 0x0010 => inRange v DEV.TICK.PERIOD 250 12500
  | 0x0012 => inRange v DEV.APPLY.APPLY 0 25000
  | 0x0403 => inRange v HPP.LEVEL.LEVEL 1 511
  | 0x0404 => bad stBADATTR HPP.MIRSEL.ID
      (decide (4 ≤ i) && fv v HPP.MIRSEL.ID != 0xFFFF && !mirrors (fv v HPP.MIRSEL.ID) (fv v HPP.MIRSEL.INST))
  | 0x0801 =>
    let changes := fun (f : Fld) => bad stACCESS f (fixedSource i && fv v f != c.get f i)
    inRange v FLT.SCFG.WIN 1 4095 ++ changes FLT.SCFG.NESC ++ changes FLT.SCFG.ESC ++ changes FLT.SCFG.CLASS ++
      bad stRANGE FLT.SCFG.ESC (decide (fv v FLT.SCFG.ESC < fv v FLT.SCFG.CLASS))
  | _ => []

/-- Blocks KPR and TIM (R536, R340). -/
def Chip.checkKeeper (c : Chip) (id v : Nat) : List (Nat × Nat) :=
  match id with
  | 0x1000 => inRange v KPR.CFG.NVPER 1 255 ++ inRange v KPR.CFG.VABT 3050 3280
  | 0x1001 =>
    inRange v KPR.SERVO.SLO 13 65535 ++
      bad stRANGE KPR.SERVO.SHI (decide (fv v KPR.SERVO.SHI < fv v KPR.SERVO.SLO + 13)) ++
      inRange v KPR.SERVO.SWIN 1 255 ++ inRange v KPR.SERVO.VSTEP 1 7 ++ inRange v KPR.SERVO.VFLOOR 0 60 ++
      inRange v KPR.SERVO.VFIX 0 60
  | 0x1003 => bad stSTATE KPR.CTL.SLEEP (fv v KPR.CTL.SLEEP != 0 && c.state != stConfig)
  | 0x1004 => inRange v KPR.NVSEL.SET 0 2
  | 0x1400 => inRange v TIM.CFG.TICKSRC 0 2 ++ inRange v TIM.CFG.SRC 0 2
  | 0x1401 => inRange v TIM.CLK.FTOL 20 200
  | 0x1403 =>
    bad stRANGE TIM.SERVO.STEPTH (decide (fv v TIM.SERVO.STEPTH < fv v TIM.SERVO.TVTHR)) ++
      inRange v TIM.SERVO.TVTHR 1 4095 ++ inRange v TIM.SERVO.TVCNT 1 63
  | 0x1405 => inRange v TIM.PPS.WIDTH 1 900
  | _ => []

/-- Blocks NET and SIO (R437, R450, R453, R457, R460, R469). `mask` holds the bits that the host writes: all but for a MODIFY. -/
def Chip.checkNet (c : Chip) (id i v mask : Nat) : List (Nat × Nat) :=
  match id with
  | 0x1800 => inRange v NET.CFG.FORGET 10 10000 ++ inRange v NET.CFG.LANTO 1 255 ++ inRange v NET.CFG.LIFE 1 127
  | 0x1802 => inRange v NET.IP.TTL 1 255
  | 0x1804 => inRange v NET.PORT.SPEED 0 2
  | 0x1805 => inRange v NET.SAFE.WIN 10 65535
  | 0x1806 => bad stBUSY NET.MDIO.GO (fv v NET.MDIO.GO != 0 && c.on NET.MDIO.BUSY)
  | 0x1C00 => inRange v SIO.SICFG.TDISC 1 500 ++ inRange v SIO.SICFG.MODE 0 2
  | 0x1C01 => inRange v SIO.SDOCFG.RBT 1 255 ++ inRange v SIO.SDOCFG.TPW 5 30 ++ inRange v SIO.SDOCFG.TPER 1 60
  | 0x1C02 => inRange v SIO.FCFG.FPER 1 100 ++ inRange v SIO.FCFG.NODE 1 254
  | 0x1C03 => 
    inRange v SIO.RXCFG.RXTO 1 500 ++ (if fv v SIO.RXCFG.EN = 1 then inRange v SIO.RXCFG.NODE 1 254 else [])
  | 0x1C04 =>
    bad stSAFETY SIO.SDOCTL.ON (fv (v &&& mask) SIO.SDOCTL.ON != 0 && c.sdoOnRefused i) ++
      bad stSAFETY SIO.SDOCTL.ACK (fv v SIO.SDOCTL.ACK != 0 && c.sdoAckRefused i)
  | 0x1C05 => bad stSAFETY SIO.SICTL.ACK (c.siAckRefused (fv v SIO.SICTL.ACK))
  | _ => []

/-- Blocks LNK, ARM, MOD, DHB (R164, R188, R194, R205, R210, R213, R219). -/
def Chip.checkPower (c : Chip) (id i v : Nat) : List (Nat × Nat) :=
  match id with
  | 0x2000 => inRange v LNK.CFG.ADMTO 1 50 ++ inRange v LNK.CFG.LOLT 25 250
  | 0x2002 => bad stRANGE LNK.VPL.VMAX (decide (fv v LNK.VPL.VMAX < fv v LNK.VPL.VMIN))
  | 0x2400 =>
    inRange v ARM.CFG.TREF 1 4095 ++ inRange v ARM.CFG.LMAX 0 (if c.inRun then (c.armLanes i).length else 96) ++
      inRange v ARM.CFG.MODE 0 2
  | 0x2403 => notNegative v ARM.IDB.IDB
  | 0x2404 =>
    bad stRANGE ARM.VRET.VRHI (fv v ARM.VRET.VRHI != 0xFFFF && fv v ARM.VRET.VRLO != 0 &&
      decide (fv v ARM.VRET.VRHI ≤ fv v ARM.VRET.VRLO))
  | 0x2801 => bad stRANGE MOD.LPH.PH (c.inRun && decide (c.laneArm i < 6) &&
      decide (c.get MOD.ACFG.PER (c.laneArm i) ≤ fv v MOD.LPH.PH))
  | 0x2802 => inRange v MOD.CMT.MB0 0 95 ++ inRange v MOD.CMT.MB1 0 95 ++ inRange v MOD.CMT.MB2 0 95
  | 0x2804 =>
    inRange v MOD.TRG.SRC 0 (match fv v MOD.TRG.KIND with | 0 => 191 | 1 => 11 | _ => 255) ++ inRange v MOD.TRG.KIND 0 2
  | 0x2C00 => inRange v DHB.CFG.HS 1 31 ++ inRange v DHB.CFG.BREF 800 65535 ++ inRange v DHB.CFG.DEAD 80 65535
  | 0x2C01 => bad stRANGE DHB.CAR.PH (c.inRun && decide (fv v DHB.CAR.PER ≤ fv v DHB.CAR.PH))
  | 0x2C02 => bad stSTATE DHB.CMP.CMPA (!c.on DHB.CFG.CSRC i)
  | 0x2C03 =>
    bad stSAFETY DHB.FORCE.FL (fv v DHB.FORCE.FU != 0 && fv v DHB.FORCE.FL != 0) ++
      bad stRANGE DHB.FORCE.FL (c.forceRange i (v % 8))
  | 0x2C04 => bad stSTATE DHB.CTL.RESUME (fv v DHB.CTL.RESUME != 0 && c.resumeRefused i)
  | _ => []

/-- The condition of R231 for one switch of port i fails. -/
def Chip.profileLong (c : Chip) (i v : Nat) (tstr twk : Fld) : Bool :=
  decide (c.get DHB.CFG.MINPW i < fv v tstr + fv v twk + 192)

/-- Blocks GPR and MON (R231, R239, R243, R268). -/
def Chip.checkGate (c : Chip) (id i v : Nat) : List (Nat × Nat) :=
  match id with
  | 0x3000 =>
    bad stRANGE GPR.IBIN.ITH1 (decide (fv v GPR.IBIN.ITH2 < fv v GPR.IBIN.ITH1)) ++
      bad stRANGE GPR.IBIN.ITH2 (decide (fv v GPR.IBIN.ITH3 < fv v GPR.IBIN.ITH2))
  | 0x3001 =>
    bad stRANGE GPR.TBIN.TTH1 (decide (fv v GPR.TBIN.TTH2 < fv v GPR.TBIN.TTH1)) ++
      bad stRANGE GPR.TBIN.TTH2 (decide (fv v GPR.TBIN.TTH3 < fv v GPR.TBIN.TTH2))
  | 0x3003 => inRange v GPR.DCFG.OTN 1 15
  | 0x3004 =>
    let judged := c.inRun && c.on DHB.CFG.MODE i
    bad stRANGE GPR.PPROF.UTWK (judged && c.profileLong i v GPR.PPROF.UTSTR GPR.PPROF.UTWK) ++
      bad stRANGE GPR.PPROF.LTWK (judged && c.profileLong i v GPR.PPROF.LTSTR GPR.PPROF.LTWK)
  | 0x3005 => bad stSTATE GPR.ODG.REQ (fv v GPR.ODG.REQ != 0 && c.odiagRefused i)
  | 0x3400 => inRange v MON.CFG.MODE 0 4
  | 0x3402 =>
    inRange v MON.TST.MARGIN 5 255 ++
      bad stRANGE MON.TST.GUARD (decide (fv v MON.TST.GUARD < fv v MON.TST.MARGIN + 8)) ++ inRange v MON.TST.RBTOL 1 255
  | _ => []

/-- Blocks ADC and PGM (R271, R292, R309). -/
def checkConvert (id v : Nat) : List (Nat × Nat) :=
  match id with
  | 0x3800 => inRange v ADC.GCFG.SHTOL 1 255 ++ inRange v ADC.GCFG.ILVIN 0 11
  | 0x3801 =>
    inRange v ADC.SLOT.PHASE 0 7999 ++ bad stRANGE ADC.SLOT.CH (!channelCode (fv v ADC.SLOT.CH)) ++ inRange v ADC.SLOT.MODE 0 2
  | 0x3802 => bad stRANGE ADC.SEQ.CH (!channelCode (fv v ADC.SEQ.CH)) ++ inRange v ADC.SEQ.TRG 0 4
  | 0x3803 => inRange v ADC.QCFG.SRC 0 16
  | 0x3C01 => inRange v PGM.RCFG.MAXP 0 1888
  | _ => []

/-- CTL.SEC by section type (R350 to R353). -/
def checkSection (v : Nat) : List (Nat × Nat) :=
  match fv v CTL.SEC.TYPE with
  | 2 =>
    finite v CTL.SEC.C1 ++ notNegative v CTL.SEC.C2 ++ number v CTL.SEC.C3 ++ number v CTL.SEC.C4 ++ number v CTL.SEC.C5 ++
      number v CTL.SEC.C6 ++ bad stRANGE CTL.SEC.C3 (F32.ieeeLt (fw v CTL.SEC.C4) (fw v CTL.SEC.C3)) ++
      bad stRANGE CTL.SEC.C5 (F32.ieeeLt (fw v CTL.SEC.C6) (fw v CTL.SEC.C5))
  | 3 =>
    finite v CTL.SEC.C1 ++ finite v CTL.SEC.C2 ++ finite v CTL.SEC.C3 ++ finite v CTL.SEC.C4 ++
      bad stRANGE CTL.SEC.C5 (!F32.ieeeLt 0 (fw v CTL.SEC.C5)) ++ finite v CTL.SEC.C6
  | _ => ([CTL.SEC.C1, CTL.SEC.C2, CTL.SEC.C3, CTL.SEC.C4, CTL.SEC.C5, CTL.SEC.C6] : List Fld).flatMap (finite v)

/-- Block CTL (R346 to R370). -/
def Chip.checkEngine (c : Chip) (id i v : Nat) : List (Nat × Nat) :=
  match id with
  | 0x4000 => bad stRANGE CTL.SCFG.WEIR (fv v CTL.SCFG.WEIR == 6) ++ inRange v CTL.SCFG.NSEC 0 4
  | 0x4001 =>
    let src := fun (f : Fld) => bad stRANGE f (!sourceCode (fv v f))
    bad stRANGE CTL.SIO.DEST (!destCode (fv v CTL.SIO.DEST)) ++ src CTL.SIO.FFSRC ++ src CTL.SIO.MEASSRC ++
      src CTL.SIO.REFSRC ++ finite v CTL.SIO.KREF ++ finite v CTL.SIO.KMEAS ++ finite v CTL.SIO.KFF
  | 0x4002 => checkSection v
  | 0x4003 =>
    number v CTL.LIM.YLO ++ number v CTL.LIM.YHI ++ bad stRANGE CTL.LIM.YLO (F32.ieeeLt (fw v CTL.LIM.YHI) (fw v CTL.LIM.YLO))
  | 0x4004 =>
    let n := c.get CTL.SCFG.NSEC i
    bad stRANGE CTL.SCTL.PRESET (fv v CTL.SCTL.PRESET != 0 && (n == 0 || c.secType i (n - 1) != 2))
  | 0x4005 => finite v CTL.REF.VALUE
  | 0x4006 => bad stRANGE CTL.WEIR.DEST (!destCode (fv v CTL.WEIR.DEST)) ++ notNegative v CTL.WEIR.WHYS
  | 0x4007 => finite v CTL.PSC.KB
  | 0x4008 => bad stRANGE CTL.PRB.NODE (!nodeCode (fv v CTL.PRB.NODE)) ++ inRange v CTL.PRB.SLOT 0 23
  | 0x4013 =>
    bad stSTATE CTL.ISTATE.X1 (c.inRun && !c.on CTL.SCTL.HOLD (i / 4)) ++ finite v CTL.ISTATE.X1 ++
      (if c.secType (i / 4) (i % 4) = 2 then [] else finite v CTL.ISTATE.X2)
  | _ => []

/-- Block GRD (R381, R385, R388). -/
def Chip.checkGrid (c : Chip) (id v : Nat) : List (Nat × Nat) :=
  match id with
  | 0x4400 => positive v GRD.CFG.VBASE
  | 0x4401 => positive v GRD.IN.KV ++ finite v GRD.IN.KI
  | 0x4402 => finite v GRD.PLL.KPP ++ notNegative v GRD.PLL.KIP ++ notNegative v GRD.PLL.DWMAX
  | 0x4403 => unit v GRD.FILT.AF ++ unit v GRD.FILT.AR ++ unit v GRD.FILT.AP ++ positive v GRD.FILT.DSLEW
  | 0x4404 => finite v GRD.FORM.QSET ++ finite v GRD.FORM.MQ ++ finite v GRD.FORM.PSET ++ finite v GRD.FORM.MP
  | 0x4405 => inRange v GRD.RTP.ACT 0 2 ++ finite v GRD.RTP.LEVEL
  | 0x4407 =>
    inRange v GRD.ISL.ISLACT 0 2 ++ notNegative v GRD.ISL.AFDMAX ++ finite v GRD.ISL.AFD0 ++ finite v GRD.ISL.AFDG ++
      positive v GRD.ISL.PJTH ++ positive v GRD.ISL.ROCTH
  | 0x4408 =>
    bad stSTATE GRD.CTL.CLR (fv v GRD.CTL.CLR != 0 && c.gridClrRefused) ++
      bad stSTATE GRD.CTL.ISLCLR (fv v GRD.CTL.ISLCLR != 0 && c.gridIslRefused) ++ inRange v GRD.CTL.MODE 0 1
  | _ => []

/-- Blocks PMU, MTR, IST (R408, R415, R427, R434, R546). -/
def Chip.checkMeasure (c : Chip) (id v : Nat) : List (Nat × Nat) :=
  match id with
  | 0x4802 => positive v PMU.KSC.KV ++ finite v PMU.KSC.KI ++ positive v PMU.KSC.VNOM
  | 0x4803 => inRange v PMU.NET.IDCODE 1 65534
  | 0x4806 => inRange v PMU.TWCFG.TH 1 2047 ++ finite v PMU.TWCFG.VEL ++ finite v PMU.TWCFG.LEN
  | 0x4807 => finite v PMU.LINE.R1 ++ finite v PMU.LINE.X1 ++ finite v PMU.LINE.R0 ++ finite v PMU.LINE.X0
  | 0x4808 =>
    inRange v PMU.FLCFG.PSET 10 200 ++
      bad stRANGE PMU.FLCFG.FSRC (decide (71 < fv v PMU.FLCFG.FSRC) && fv v PMU.FLCFG.FSRC != 127) ++
      bad stRANGE PMU.FLCFG.KF (!(F32.isFinite (fw v PMU.FLCFG.KF) && F32.ieeeLt F32.one (fw v PMU.FLCFG.KF))) ++
      finite v PMU.FLCFG.IMIN ++ finite v PMU.FLCFG.I0TH
  | 0x4809 => bad stSTATE PMU.TWREM.NUM (c.twremRefused (fv v PMU.TWREM.NUM))
  | 0x4C00 => inRange v MTR.CFG.ECPER 1 255
  | 0x4C01 => inRange v MTR.CH.LEAK 0 2 ++ inRange v MTR.CH.SENS 0 2 ++ positive v MTR.CH.K
  | 0x4C02 =>
    bad stRANGE MTR.NOM.VNOM (!F32.isFinite (toWord (2 * fv v MTR.NOM.VNOM))) ++ finite v MTR.NOM.INOM
  | 0x4C04 => bad stSTATE MTR.CTL.ZERO (fv v MTR.CTL.ZERO != 0 && c.inRun)
  | 0x5000 => inRange v IST.CFG.RPER 1 255 ++ inRange v IST.CFG.CPER 1 255
  | 0x5001 => inRange v IST.PER.LWIN 1 255
  | _ => []

/-- The checks of the block that owns the attribute. -/
def Chip.blockChecks (c : Chip) (id i v mask : Nat) : List (Nat × Nat) :=
  match id / 1024 with
  | 0 | 1 | 2 => c.checkHost id i v
  | 4 | 5 => c.checkKeeper id v
  | 6 | 7 => c.checkNet id i v mask
  | 8 | 9 | 0xA | 0xB => c.checkPower id i v
  | 0xC | 0xD => c.checkGate id i v
  | 0xE | 0xF => checkConvert id v
  | 0x10 => c.checkEngine id i v
  | 0x11 => c.checkGrid id v
  | 0x12 | 0x13 | 0x14 => c.checkMeasure id v
  | _ => []

/-- An attribute in which no field can be written (R83). -/
def AttrRow.readOnly (r : AttrRow) : Bool := r.fields.all (fun f => f.access == .ro)

/-- Locked fields that a write would change (R12). -/
def Chip.lockedChanges (c : Chip) (r : AttrRow) (i v : Nat) : List (Nat × Nat) :=
  (r.fields.filter (fun f => f.access == .rwl)).flatMap (fun f =>
    bad stACCESS f.fld (c.dev.committed && fv v f.fld != c.get f.fld i))

/-- Every failure of a write of value v: status and first bit of the field. -/
def Chip.valueFaults (c : Chip) (r : AttrRow) (i v mask : Nat) : List (Nat × Nat) :=
  c.lockedChanges r i v ++ c.blockChecks r.id i v mask

end Sys2Proof.Machine
end

