-- ==== Sys2Proof/Machine/Writes.lean ====
section
/-! DEFINITION. Writing attributes (R12, R83 to R87): what a write stores, and what else it does when it takes effect. All writes of
one packet store first; then each has its effects, in packet order. -/

namespace Sys2Proof.Machine

open Reg

/-- A write of value v is stored: RW fields take it, RWL fields until the configuration is committed, a W1C field loses the bits
written 1 but those that hardware set at this instant (R87); RO and reserved bits are left (R12, R13). ON of SIO.SDOCTL is stored by its effect; the fixed slots of HPP.MIRSEL keep
their ID, a PI section its X2, EDGE of the stamp units of PPS_IN and SYNC_IN its 1 (R55, R456, R343, CTL.ISTATE). -/
def Chip.storeField (c : Chip) (i v : Nat) (f : FieldRow) : Chip :=
  if f.fld = SIO.SDOCTL.ON ∨ (f.fld = HPP.MIRSEL.ID ∧ i < 4) ∨ (f.fld = TIM.TSI.EDGE ∧ 16 ≤ i) ∨
      (f.fld = CTL.ISTATE.X2 ∧ c.secType (i / 4) (i % 4) = 2) then c
  else
    match f.access with
    | .rw => c.set f.fld i (fv v f.fld)
    | .rwl => if c.dev.committed then c else c.set f.fld i (fv v f.fld)
    | .w1c => c.set f.fld i (clearBits (c.get f.fld i) (fv v f.fld) (c.freshBits f.fld i))
    | .ro => c
    | .wo => c

/-- A write of a whole attribute is stored. -/
def Chip.storeAttr (c : Chip) (r : AttrRow) (i v : Nat) : Chip := c.each r.fields (fun c f => c.storeField i v f)

/-- One field of a WO kind is written 1. -/
def wo1 (v : Nat) (f : Fld) : Bool := fv v f != 0

/-- Effects in blocks FLT to NET. `c0` is the chip before the packet's writes. -/
def Chip.effectTime (c c0 : Chip) (id i v : Nat) : Chip :=
  match id with
  | 0x1001 => c.servoWritten
  | 0x1003 => if wo1 v KPR.CTL.SLEEP then { c with kpr := { c.kpr with sleepDue := some (c.now + 100 * msTaps) } } else c
  | 0x1400 => c.sourceWritten
  | 0x1401 => c.prefWritten
  | 0x1402 => c.rolesWritten
  | 0x1404 => c.ptpRefresh
  | 0x1806 => if wo1 v NET.MDIO.GO && !c0.on NET.MDIO.BUSY then c.mdioGo else c
  | 0x1C00 => (c.refreshSi i).refreshSdo
  | 0x1C01 | 0x1C03 => c.refreshSdo
  | 0x1C04 =>
    let c := if wo1 v SIO.SDOCTL.ACK && !c.sdoAckRefused i then c.sdoAck i else c
    c.sdoOn i (wo1 v SIO.SDOCTL.ON)
  | 0x1C05 => c.siAck (ofBits ((setBits 8 (fv v SIO.SICTL.ACK)).filter (fun k => !c.siAckRefused (2 ^ k))))
  | _ => c

/-- Effects in blocks MOD to PGM. -/
def Chip.effectPower (c c0 : Chip) (id i v : Nat) : Chip :=
  match id with
  | 0x2801 => c.phaseWritten i (c0.get MOD.LPH.PH i)
  | 0x2802 | 0x2803 | 0x2C00 | 0x2C01 | 0x2C02 => c.portsUpdate
  | 0x2C03 => c.force i (v % 8)
  | 0x2C04 => if wo1 v DHB.CTL.RESUME && !c.resumeRefused i then c.resume i else c
  | 0x3005 => if wo1 v GPR.ODG.REQ && !c.odiagRefused i then c.odiagStart i else c
  | 0x3400 =>
    let c := if c.get MON.CFG.MODE i = c0.get MON.CFG.MODE i then c else c.monEnable i
    let c := if c.get MON.CFG.HYST i = c0.get MON.CFG.HYST i then c else c.monHyst i (c0.get MON.CFG.HYST i)
    if c.get MON.CFG.CODE i = c0.get MON.CFG.CODE i then c else c.dacMoves i (c0.dacSpan i)
  | 0x3401 => c.monRoute i
  | 0x3800 => if c.on ADC.GCFG.CALEN i && !c0.on ADC.GCFG.CALEN i then c.shadowStart i else c
  | 0x3805 => c.qstart (fv v ADC.QSTART.GO) c.now
  | 0x3C01 => if c.dev.committed then c else c.ringMode i
  | 0x3C02 => c.hostTrigger (fv v PGM.HTRIG.GO) (c.raw c.now)
  | _ => c

/-- Effects in blocks CTL to MTR. -/
def Chip.effectControl (c c0 : Chip) (id i v : Nat) : Chip :=
  match id with
  | 0x4001 | 0x4002 | 0x4003 => if c.inRun then c.coefWritten (coefSlot id i) (c.raw c.now) else c
  | 0x4004 => c.sctlWritten i (c0.on CTL.SCTL.HOLD i)
  | 0x4013 => c.istateWritten i
  | 0x4408 =>
    let c := c.gridModeWritten
    let c := if wo1 v GRD.CTL.CLR && !c.gridClrRefused then c.gridClr else c
    if wo1 v GRD.CTL.ISLCLR && !c.gridIslRefused then c.gridIslClr else c
  | 0x4803 => { c with pmu := { c.pmu with txonAt := some c.now } }
  | 0x4805 => if wo1 v PMU.CTL.FLTRIG then c.pmuFltrig else c
  | 0x4809 => c.twrem
  | 0x4C04 =>
    let c := if wo1 v MTR.CTL.SNAP then c.meterSnap else c
    if wo1 v MTR.CTL.ZERO && !c.inRun then c.meterZero else c
  | _ => c

/-- What a write does beside storing. -/
def Chip.effect (c c0 : Chip) (id i v : Nat) : Chip :=
  match id / 1024 with
  | 4 | 5 | 6 | 7 => c.effectTime c0 id i v
  | 0xA | 0xB | 0xC | 0xD | 0xE | 0xF => c.effectPower c0 id i v
  | 0x10 | 0x11 | 0x12 | 0x13 => c.effectControl c0 id i v
  | _ => c

/-- One write is stored; in RUN the coefficients that it replaces are kept for evaluations of earlier firings (R362). -/
def Chip.storeWrite (c : Chip) (w : Write) : Chip :=
  match attrRow w.id w.inst with
  | none => c
  | some r =>
    let c := if c.inRun && !(coefFields w.id).isEmpty then c.keepCoef w.id w.inst (c.raw c.now) else c
    c.storeAttr r w.inst w.value

/-- Of several writes of one attribute the last (R86). -/
def lastWrites : List Write → List Write
  | [] => []
  | w :: l => if l.any (fun x => x.id == w.id && x.inst == w.inst) then lastWrites l else w :: lastWrites l

/-- The writes of a packet take effect together (R84); of several writes of one attribute the last has its effect (R86). -/
def Chip.applyWrites (c : Chip) (l : List Write) : Chip :=
  let c1 := c.each l (fun a w => a.storeWrite w)
  c1.each (lastWrites l) (fun a w => a.effect c w.id w.inst w.value)

end Sys2Proof.Machine
end

