-- ==== Sys2Proof/Machine/Interp.lean ====
section
/-! DEFINITION. The command interpreter (R50 to R52, R74 to R100): taking the oldest packet out of the basins, the checks that come
before every opcode, and the access opcodes. -/

namespace Sys2Proof.Machine

open Reg

/-! Packets in the basins -/

/-- A packet taken out of the basins: its header's fields, the bytes of its transaction, whether bytes were lost (R62). -/
structure Packet where
  opc : Nat
  tag : Nat
  len : Nat
  flg : Nat
  bytes : List Nat
  lost : Bool
  deriving DecidableEq, Repr

/-- Valid bytes of a basin word, first byte first (R58). -/
def BasinWord.bytes (w : BasinWord) : List Nat := (upTo w.vb).map (fun i => w.word / 256 ^ i % 256)

/-- The words up to and including the next one tagged EOT, and the rest; none while that word is not closed. -/
def splitEot : List BasinWord → Option (List BasinWord × List BasinWord)
  | [] => none
  | w :: l =>
    if w.eot then some ([w], l)
    else match splitEot l with
      | none => none
      | some (a, b) => some (w :: a, b)

/-- A packet of basin words. -/
def packetOf (l : List BasinWord) : Packet :=
  let b := l.flatMap BasinWord.bytes
  let h := ofBytes (b.take 4)
  { opc := hdrOpc h, tag := hdrTag h, len := hdrLen h, flg := hdrFlg h, bytes := b, lost := l.any (fun w => w.ovt) }

/-- The oldest whole packet and the words that stay. -/
def Chip.front (c : Chip) : Option (Packet × List BasinWord) :=
  (splitEot (c.hpp.taken ++ c.hpp.unread)).map (fun x => (packetOf x.1, x.2))

/-- The writer returns to the start of Basin A when every closed word has been read and no transaction is open (R59). -/
def Chip.rewind (c : Chip) : Chip :=
  if c.hpp.unread.isEmpty && c.hpp.txn.isNone then { c with hpp := { c.hpp with bank := 0, off := 0 } } else c

/-- All words of a packet, header first. -/
def Packet.words (p : Packet) : List Nat := wordsOfBytes p.bytes

/-- Parameter words. -/
def Packet.params (p : Packet) : List Nat := (p.words.drop 1).take p.len

/-- The framing is wrong (R51). -/
def Packet.badLen (p : Packet) : Bool := p.bytes.length != 4 * (p.len + 2) || decide (1022 < p.len)

/-- The CRC check fails (R49). -/
def Packet.badCrc (p : Packet) : Bool := p.words.getD (p.len + 1) 0 != finalWord (p.words.take (p.len + 1))

/-! The opcode table (R94) -/

/-- A row of R94: FLG bits the opcode defines, device states that allow it, its fixed LEN. -/
structure OpRow where
  flg : Nat
  states : List Nat
  len : Option Nat
  deriving DecidableEq, Repr

/-- States C R. -/
def inCR : List Nat := [stConfig, stRun]

/-- States C R D. -/
def inCRD : List Nat := [stConfig, stRun, stDiag]

/-- States C R D F. -/
def inCRDF : List Nat := [stConfig, stRun, stDiag, stFatal]

/-- The row of an opcode. -/
def opRow (opc : Nat) : Option OpRow :=
  match opc with
  | 0x00 => some ⟨0, inCRDF, some 0⟩
  | 0x01 => some ⟨63, inCRDF, some 0⟩
  | 0x02 => some ⟨0, inCRDF, none⟩
  | 0x03 => some ⟨1, inCR, none⟩
  | 0x04 => some ⟨2, inCRDF, some 1⟩
  | 0x05 => some ⟨3, inCR, none⟩
  | 0x06 => some ⟨1, inCR, none⟩
  | 0x08 => some ⟨1, inCRDF, some 0⟩
  | 0x10 => some ⟨0, [stConfig], some 0⟩
  | 0x11 => some ⟨0, [stConfig], some 7⟩
  | 0x12 => some ⟨0, [stConfig], some 0⟩
  | 0x20 => some ⟨0, [stRun], some 1⟩
  | 0x21 => some ⟨0, [stRun], some 1⟩
  | 0x30 => some ⟨0, inCR, some 2⟩
  | 0x31 => some ⟨0, inCR, some 1⟩
  | 0x32 => some ⟨0, inCRDF, some 2⟩
  | 0x40 => some ⟨0, inCRDF, some 0⟩
  | 0x41 => some ⟨0, inCR, some 2⟩
  | 0x42 => some ⟨0, inCR, some 1⟩
  | 0x50 => some ⟨0, inCR, some 4⟩
  | 0x51 => some ⟨0, inCRD, some 2⟩
  | 0x60 => some ⟨0, inCRD, some 1⟩
  | 0x61 => some ⟨0, inCRD, some 1⟩
  | 0x70 => some ⟨0, inCR, some 1⟩
  | 0x7F => some ⟨0, inCRDF, some 0⟩
  | 0xE0 => some ⟨3, [stConfig], none⟩
  | _ => none

/-! Replies -/

/-- HOST_PORT is raised (R470) when the port flags a fault of the host's traffic. -/
def Chip.hostFault (c : Chip) (f : Fld) : Chip := (c.flag f).raise 61

/-- An OK reply (R92). -/
def Chip.okay (c : Chip) (p : Packet) (words : List Nat) : Chip :=
  c.answer { status := stOK, tag := p.tag, flg := p.flg, words := words }

/-- A refusal with its words; BAD_LEN and BAD_CRC set their flags and counters (R50, R51). -/
def Chip.refuseWith (c : Chip) (p : Packet) (st : Nat) (words : List Nat) : Chip :=
  let c := if st = stBADLEN then (c.hostFault HPP.STAT.LENE).inc HPP.CNTLEN.COUNT
    else if st = stBADCRC then (c.hostFault HPP.STAT.CRCE).inc HPP.CNTCRC.COUNT else c
  c.answer { status := st, tag := p.tag, flg := p.flg, words := words }

/-- A refusal with the DETAIL word 0. -/
def Chip.refuse (c : Chip) (p : Packet) (st : Nat) : Chip := c.refuseWith p st [0]

/-- A refusal with the DETAIL word given. -/
def Chip.refuseAt (c : Chip) (p : Packet) (r : Nat × Nat) : Chip := c.refuseWith p r.1 [r.2]

/-! Before every opcode -/

/-- No load is open and the patch area is cleared. -/
def Chip.clearPatch (c : Chip) : Chip :=
  let c := { c.set DEV.STATE.LOADOPEN 0 0 with dev := { c.dev with load := none } }
  { c with pgm := { c.pgm with wq := c.pgm.wq ++ (upTo 16384).map (fun k => (4 * k, (0 : Word))) } }

/-- An open PATCH_LOAD closes, the patch area is cleared (R122). -/
def Chip.closeLoad (c : Chip) : Chip := if c.dev.load.isSome then c.clearPatch else c

/-- A FINISH is refused (R121): the load closes, the patch area is cleared and no patch is active. -/
def Chip.endPatch (c : Chip) : Chip := ((c.clearPatch.set DEV.STATE.PATCHED 0 0).set DEV.ROM.PATCHVER 0 0)

/-- The header names PATCH_LOAD FINISH. -/
def Packet.isFinish (p : Packet) : Bool := p.opc == 0xE0 && p.flg % 4 == 2

/-- Items 1 to 7 of R90 that hold for every opcode; `body` follows when none applies. Any opcode but PATCH_LOAD closes an open load
(R122), and any refusal of FINISH ends it too (R121). -/
def Chip.judge1 (c : Chip) (p : Packet) (body : Chip → Chip) : Chip :=
  let d := if p.isFinish then c.endPatch else c
  if p.lost then d.refuseWith p stBUSY []
  else if p.badLen then d.refuse p stBADLEN
  else if p.badCrc then d.refuseWith p stBADCRC []
  else
    let c := if p.opc = 0xE0 then c else c.closeLoad
    let d := if p.opc = 0xE0 then d else c
    match opRow p.opc with
    | none => d.refuse p stBADOPC
    | some o =>
      if p.flg &&& o.flg ≠ p.flg ∨ (p.opc = 0xE0 ∧ p.flg = 3) then d.refuse p stBADOPC
      else if ¬ c.state ∈ o.states then d.refuse p (if c.state = stDiag then stFUSE else stSTATE)
      else match o.len with
        | some n => if p.len ≠ n then d.refuse p stBADLEN else body c
        | none => body c

/-- The interpreter starts packets: RDY 1, fewer than 15 replies queued (R65), no packet waiting for its reply, no RESET or sleep
accepted and not completed (R115, R534). -/
def Chip.ready (c : Chip) : Bool :=
  c.hpp.rdy && decide (c.hpp.replies.length < 15) && c.dev.wait.isNone && c.dev.resetReq.isNone && c.rst.seq.isNone &&
    c.rst.blocks.isEmpty && c.kpr.sleepDue.isNone

/-- The interpreter starts the oldest packet at instant t, when its header satisfies `mine` (R52, R63). -/
def Chip.interpret (c : Chip) (t : Nat) (mine : Packet → Bool) (body : Chip → Packet → Chip) : Chip :=
  let c := c.at_ t
  match c.front with
  | none => c
  | some (p, rest) =>
    if c.ready && mine p then
      let c := { c with hpp := { c.hpp with unread := rest, taken := [], event := false } }.rewind
      c.judge1 p (fun c => body c p)
    else c

/-- The packet's opcode is k. -/
def opIs (k : Nat) (p : Packet) : Bool := p.opc == k

/-- The opcodes that have a row of their own in the table of commands. -/
def opHandled (p : Packet) : Bool :=
  [0x02, 0x03, 0x04, 0x05, 0x06, 0x10, 0x11, 0x12, 0x20, 0x21, 0x30, 0x31, 0x32, 0x40, 0x41, 0x42, 0x50, 0x51, 0x60, 0x61, 0x70,
    0x7F].contains p.opc || (p.opc == 0xE0 && p.flg % 4 != 3)

/-- UNASSIGNED_OPCODE (R94): an opcode that the table does not hold, PATCH_LOAD with FLG[1:0] = 3 (R119), and NOP, PEEK or FETCH with
LEN other than 0, which come to the interpreter and are answered BAD_LEN (R46). -/
def execUnassignedOpcode (t : Nat) (s : State) : Host.Outcome State Fault Refusal :=
  run (fun _ c => c.interpret t (fun p => !opHandled p) (fun c _ => c)) s

/-! Reading (R95, R97) -/

/-- Findings and rows of a list of ARWs: entry n at word n. `total` counts the words so far. -/
def getParse : Nat → Nat → List Nat → List Finding × List (AttrRow × Nat)
  | _, _, [] => ([], [])
  | n, total, w :: l =>
    match attrRow (arwId w) (arwInst w) with
    | none =>
      let r := getParse (n + 1) total l
      (⟨stBADATTR, n, n⟩ :: r.1, r.2)
    | some a =>
      let r := getParse (n + 1) (total + a.words) l
      let f := (if arwCount w = 0 then [] else [(⟨stRANGE, n, n⟩ : Finding)]) ++
        (if 1023 < total + a.words then [(⟨stRANGE, n, n⟩ : Finding)] else [])
      (f ++ r.1, (a, arwInst w) :: r.2)

/-- GET (R95). -/
def execGetAttr (t : Nat) (s : State) : Host.Outcome State Fault Refusal :=
  run (fun _ c => c.interpret t (opIs 0x02) (fun c p =>
    if p.len = 0 then c.refuse p stBADLEN
    else
      let r := getParse 0 0 p.params
      match refusal r.1 with
      | some x => c.refuseAt p x
      | none => c.okay p (r.2.flatMap (fun a => c.readWords a.1 a.2)))) s

/-- The attributes of a block opcode (R97): their rows and instances, and the number of the first one that is not defined. -/
def blockParse (w : Nat) (byInst : Bool) : Nat → Nat → List (AttrRow × Nat) × Option Nat
  | 0, _ => ([], none)
  | n + 1, k =>
    let x := if byInst then attrRow (arwId w) (arwInst w + k)
      else if arwId w % 1024 + k < 1024 then attrRow (arwId w + k) (arwInst w) else none
    match x with
    | none => ([], some k)
    | some a =>
      let r := blockParse w byInst n (k + 1)
      ((a, if byInst then arwInst w + k else arwInst w) :: r.1, r.2)

/-- Number of the first attribute of a list that does not fit in 1023 words. -/
def tooLong : Nat → Nat → List (AttrRow × Nat) → Option Nat
  | _, _, [] => none
  | n, total, a :: l => if 1023 < total + a.1.words then some n else tooLong (n + 1) (total + a.1.words) l

/-- GET_BLOCK (R97). -/
def execGetBlock (t : Nat) (s : State) : Host.Outcome State Fault Refusal :=
  run (fun _ c => c.interpret t (opIs 0x04) (fun c p =>
    let w := p.params.getD 0 0
    let r := blockParse w (p.flg.testBit 1) (arwCount w) 0
    match r.2 with
    | some k => c.refuseAt p (stBADATTR, 2 ^ 16 * k)
    | none =>
      if arwCount w = 0 then c.refuse p stRANGE
      else match tooLong 0 0 r.1 with
        | some k => c.refuseAt p (stRANGE, 2 ^ 16 * k)
        | none => c.okay p (r.1.flatMap (fun a => c.readWords a.1 a.2)))) s

/-! Writing (R83 to R86, R96 to R98) -/

/-- Findings of one write: entry n, its ARW at word `at_`, its first value word at `first`. -/
def Chip.writeFindings (c : Chip) (n first : Nat) (r : AttrRow) (i v mask : Nat) : List Finding :=
  if r.readOnly then [⟨stACCESS, n, first⟩]
  else (c.valueFaults r i v mask).map (fun x => ⟨x.1, n, first + x.2 / 32⟩)

/-- All bits. -/
def fullMask (r : AttrRow) : Nat := 2 ^ (32 * r.words) - 1

/-- The entries of a SET from entry n at word k on (R96): findings, writes, and the entry at which parsing stopped because its ARW
names nothing. `fuel` bounds the number of entries. -/
def Chip.setParse (c : Chip) : Nat → Nat → Nat → List Nat → List Finding × List Write × Option Finding
  | 0, _, _, _ => ([], [], none)
  | _, _, _, [] => ([], [], none)
  | fuel + 1, n, k, w :: l =>
    match attrRow (arwId w) (arwInst w) with
    | none => ([], [], some ⟨stBADATTR, n, k⟩)
    | some a =>
      if l.length < a.words then ([(⟨stBADLEN, n, k + 1 + l.length⟩ : Finding)], [], none)
      else
        let v := wordsValue (l.take a.words)
        let f := (if arwCount w = 0 then [] else [(⟨stRANGE, n, k⟩ : Finding)]) ++
          c.writeFindings n (k + 1) a (arwInst w) v (fullMask a)
        let r := c.setParse fuel (n + 1) (k + 1 + a.words) (l.drop a.words)
        (f ++ r.1, ⟨arwId w, arwInst w, v⟩ :: r.2.1, r.2.2)

/-- The lane mode that the writes of a packet ask for (R42). -/
def quadOf (l : List Write) : Option Nat := ((l.filter (fun w => w.id == 0x0400)).getLast?).map (fun w => w.value % 2)

/-- The OK reply to a packet that wrote attributes: it carries a new lane mode, and the start of sleep follows it (R42, R534). -/
def Chip.wroteReply (c : Chip) (tag flg : Nat) (l : List Write) (words : List Nat) : Reply :=
  { status := stOK, tag := tag, flg := flg, words := words, quad := quadOf l, reset := c.kpr.sleepDue.isSome }

/-- The writes of an accepted SET or SET_BLOCK: at once, or staged for the next tick reference in RUN, the reply with WAIT only then
(R84, R85). -/
def Chip.accept_ (c : Chip) (p : Packet) (l : List Write) : Chip :=
  if c.inRun then
    let r := c.wroteReply p.tag p.flg l []
    let wait := p.flg.testBit 0
    let x : Staged := { writes := l, reply := if wait then some r else none }
    let c := { c with dev := { c.dev with staged := c.dev.staged ++ [x], wait := if wait then some .applied else none } }
    if wait then c else c.answer r
  else
    let c := c.applyWrites l
    c.answer (c.wroteReply p.tag p.flg l [])

/-- SET (R96). -/
def execSetAttr (t : Nat) (s : State) : Host.Outcome State Fault Refusal :=
  run (fun _ c => c.interpret t (opIs 0x03) (fun c p =>
    if p.len = 0 then c.refuse p stBADLEN
    else
      let r := c.setParse p.params.length 0 0 p.params
      match r.2.2 with
      | some f => c.refuseAt p (stBADATTR, 2 ^ 16 * f.entry + f.word)
      | none =>
        match refusal r.1 with
        | some x => c.refuseAt p x
        | none => c.accept_ p r.2.1)) s

/-- The writes of a SET_BLOCK: entry n, first value word k, the values left. -/
def Chip.blockWrites (c : Chip) : Nat → Nat → List Nat → List (AttrRow × Nat) → List Finding × List Write
  | _, _, _, [] => ([], [])
  | n, k, l, a :: rest =>
    let v := wordsValue (l.take a.1.words)
    let r := c.blockWrites (n + 1) (k + a.1.words) (l.drop a.1.words) rest
    (c.writeFindings n k a.1 a.2 v (fullMask a.1) ++ r.1, ⟨a.1.id, a.2, v⟩ :: r.2)

/-- SET_BLOCK (R97). -/
def execSetBlock (t : Nat) (s : State) : Host.Outcome State Fault Refusal :=
  run (fun _ c => c.interpret t (opIs 0x05) (fun c p =>
    match p.params with
    | [] => c.refuse p stBADLEN
    | w :: l =>
      let r := blockParse w (p.flg.testBit 1) (arwCount w) 0
      match r.2 with
      | some k => c.refuseAt p (stBADATTR, 2 ^ 16 * k)
      | none =>
        if l.length ≠ r.1.foldl (fun n a => n + a.1.words) 0 then c.refuse p stBADLEN
        else if arwCount w = 0 then c.refuse p stRANGE
        else
          let x := c.blockWrites 0 1 l r.1
          match refusal x.1 with
          | some y => c.refuseAt p y
          | none => c.accept_ p x.2)) s

/-- STAGED_WRITES_APPLY (R32, R33): the oldest staged packet takes effect at the coming tick reference; its reply with WAIT is queued
then (R85). -/
def Chip.applyStaged (c : Chip) : Chip :=
  match c.dev.staged with
  | [] => c
  | x :: l =>
    let rdy := c.hpp.rdy
    let c := c.applyWrites x.writes
    let c := match x.arm with
      | some (r, pre, post, trig) => c.armRing r pre post trig
      | none => c
    let c := { c with dev := { c.dev with staged := l } }
    match x.reply with
    | none => c
    | some r => { c with dev := { c.dev with wait := none } }.replyIf rdy r

/-- Bits of an attribute's RW and RWL fields. -/
def keepMask (r : AttrRow) : Nat :=
  (r.fields.filter (fun f => f.access == .rw || f.access == .rwl)).foldl (fun m f => m ||| (2 ^ f.fld.width - 1) * 2 ^ f.fld.lo) 0

/-- Bits of an attribute's fields of one access code. -/
def accessMask (r : AttrRow) (a : Access) : Nat :=
  (r.fields.filter (fun f => f.access == a)).foldl (fun m f => m ||| (2 ^ f.fld.width - 1) * 2 ^ f.fld.lo) 0

/-- The entries of a MODIFY (R98). -/
def modEntries : List Nat → List ModEntry
  | w :: m :: v :: l => ⟨arwId w, arwInst w, m, v⟩ :: modEntries l
  | _ => []

/-- What MODIFY judges when it is accepted (R98): entry n at word 3n. -/
def modifyFindings : Nat → List Nat → List Finding
  | n, w :: _ :: _ :: l =>
    (match attrRow (arwId w) (arwInst w) with
     | none => [(⟨stBADATTR, n, 3 * n⟩ : Finding)]
     | some r =>
       (if r.words = 1 then [] else [(⟨stBADATTR, n, 3 * n⟩ : Finding)]) ++
       (if r.readOnly then [(⟨stACCESS, n, 3 * n⟩ : Finding)] else []) ++
       (if arwCount w = 0 then [] else [(⟨stRANGE, n, 3 * n⟩ : Finding)])) ++ modifyFindings (n + 1) l
  | _, _ => []

/-- The value that a MODIFY entry writes, from the value read (R98). -/
def modValue (r : AttrRow) (old : Nat) (e : ModEntry) : Nat :=
  (old &&& (keepMask r - (keepMask r &&& e.mask))) ||| (e.value &&& e.mask)

/-- The entries in the indivisible step, each on the values that the earlier ones leave: findings, writes, and for each entry its row,
the value read and the value written. -/
def Chip.modSteps (c : Chip) : Nat → List ModEntry → List Finding × List Write × List (AttrRow × Nat × Nat × Nat)
  | _, [] => ([], [], [])
  | n, e :: l =>
    match attrRow e.id e.inst with
    | none => c.modSteps (n + 1) l
    | some r =>
      let old := c.readAttr r e.inst
      let v := modValue r old e
      let f := (c.valueFaults r e.inst v e.mask).map (fun x => (⟨x.1, n, 3 * n + 1 + x.2 / 32⟩ : Finding))
      let x := (c.storeWrite ⟨e.id, e.inst, v⟩).modSteps (n + 1) l
      (f ++ x.1, ⟨e.id, e.inst, v⟩ :: x.2.1, (r, e.inst, old, v) :: x.2.2)

/-- The indivisible step of MODIFY (R98, R99). At a tick reference its reply shows also what the tick sets there. -/
def Chip.modifyNow (c : Chip) (tag flg : Nat) (l : List ModEntry) : Chip :=
  let x := c.modSteps 0 l
  match refusal x.1 with
  | some y => c.replyIf c.hpp.rdy { status := y.1, tag := tag, flg := flg, words := [y.2] }
  | none =>
    let d := c.applyWrites x.2.1
    let words := x.2.2.flatMap (fun e =>
      let r := e.1
      let now := d.readAttr r e.2.1
      let shown := accessMask r .w1c ||| accessMask r .ro
      [e.2.2.1, (e.2.2.2 &&& (keepMask r ||| accessMask r .wo)) ||| (now &&& shown)])
    let shown := if c.inRun then (upTo l.length).filterMap (fun k => (l[k]?).map (fun e => (2 * k + 1, e.id, e.inst))) else []
    d.replyIf c.hpp.rdy { d.wroteReply tag flg x.2.1 words with shown := shown }

/-- Bits that hardware set at the reference of a MODIFY after its writes show in its reply (R99). -/
def Chip.showSet (c : Chip) : Chip :=
  let late := fun (r : Reply) => r.shown.foldl (fun (r : Reply) e =>
    match attrRow e.2.1 e.2.2 with
    | some a => { r with words := r.words.set e.1 (r.words.getD e.1 0 ||| c.freshAttr a e.2.2) }
    | none => r) { r with shown := [] }
  { c with hpp := { c.hpp with replies := c.hpp.replies.map late } }

/-- MODIFY (R98): judged when it is accepted; in RUN its step waits for the tick reference. -/
def execModify (t : Nat) (s : State) : Host.Outcome State Fault Refusal :=
  run (fun _ c => c.interpret t (opIs 0x06) (fun c p =>
    if p.len = 0 ∨ p.len % 3 ≠ 0 then c.refuse p stBADLEN
    else
      match refusal (modifyFindings 0 p.params) with
      | some x => c.refuseAt p x
      | none =>
        let l := modEntries p.params
        if c.inRun then { c with dev := { c.dev with wait := some (.modify p.tag p.flg l) } }
        else c.modifyNow p.tag p.flg l)) s

/-- A change at the coming tick reference: the instant is that of the reference; none in a state without ticks. -/
def Chip.atReference (c : Chip) (f : Chip → Chip) : Chip :=
  if c.inRun && c.dev.ticking then f (c.at_ c.dev.nextT0) else c

/-- MODIFY in RUN, at its tick reference. -/
def Chip.modifyWaiting (c : Chip) : Chip :=
  match c.dev.wait with
  | some (.modify tag flg l) => { c with dev := { c.dev with wait := none } }.modifyNow tag flg l
  | _ => c

/-- MODIFY_STEP (R98). -/
def execModifyStep (s : State) : Host.Outcome State Fault Refusal := run (fun _ c => c.atReference Chip.modifyWaiting) s

/-- STAGED_WRITES_APPLY (R33). -/
def execStagedWritesApply (s : State) : Host.Outcome State Fault Refusal := run (fun _ c => c.atReference Chip.applyStaged) s

end Sys2Proof.Machine
end

