-- ==== Sys2Proof/Machine/Commands.lean ====
section
/-! DEFINITION. The opcodes for arms and lanes, rings and pages, time, trips, faults, reset, test, records and patches (R101, R104 to
R122). -/

namespace Sys2Proof.Machine

open Reg

/-- Parameter word k of a packet. -/
def Packet.word (p : Packet) (k : Nat) : Nat := p.params.getD k 0

/-! Arm map (R101) -/

/-- The lane mask of an ARM_MAP. -/
def mapMask (p : Packet) : Nat := wordsValue (p.params.drop 1)

/-- ARM_MAP is refused with status RANGE. DESIGN CHOICE (log entry 89): bits [31:3] of word 0, which R101 says are zero, are not
judged. -/
def Chip.mapRefused (c : Chip) (p : Packet) : Bool :=
  let a := p.word 0 % 8
  let l := setBits 192 (mapMask p)
  decide (5 < a) || decide (96 < l.length) || l.any (fun n => decide (c.laneArm n < 6) && c.laneArm n != a)

/-- Arm a takes the lanes l, in ascending order; its other lanes are in no arm. -/
def Chip.mapArm (c : Chip) (a : Nat) (l : List Nat) : Chip :=
  let c := c.each (c.armLanes a) (fun c n => (c.set LNK.STATE.ARM n 0xFF).set ARM.LST.POS n 0x7F)
  c.each l.zipIdx (fun c x => (c.set LNK.STATE.ARM x.1 a).set ARM.LST.POS x.1 x.2)

/-- ARM_MAP (R101). -/
def execArmMap (t : Nat) (s : State) : Host.Outcome State Fault Refusal :=
  run (fun _ c => c.interpret t (opIs 0x11) (fun c p =>
    if c.mapRefused p then c.refuse p stRANGE
    else (c.mapArm (p.word 0 % 8) (setBits 192 (mapMask p))).okay p [])) s

/-! Lanes (R104, R105) -/

/-- The lane that a packet names does not exist or is in no arm. -/
def Chip.laneRange (c : Chip) (n : Nat) : Bool := decide (191 < n) || decide (5 < c.laneArm n)

/-- LANE_ADMIT is allowed in the lane's state, and its arm is not held (R149, R257). -/
def Chip.admissible (c : Chip) (n : Nat) : Bool :=
  (c.lstate n == lsStandby || c.lstate n == lsBlocked && c.on LNK.STAT.LOCK n) && !c.laneHeld n

/-- LANE_ADMIT (R104, R105): it waits for the tick reference. -/
def execLaneAdmit (t : Nat) (s : State) : Host.Outcome State Fault Refusal :=
  run (fun _ c => c.interpret t (opIs 0x20) (fun c p =>
    let n := p.word 0 % 256
    if c.laneRange n then c.refuse p stRANGE
    else if !c.admissible n then c.refuse p stSTATE
    else { c with dev := { c.dev with wait := some (.admission p.tag p.flg n) } })) s

/-- The waiting LANE_ADMIT at its tick reference (R104). -/
def Chip.admitWaiting (c : Chip) : Chip :=
  match c.dev.wait with
  | some (.admission tag flg n) =>
    let c := { c with dev := { c.dev with wait := none } }
    if c.admissible n then
      let old := c.lstate n
      (c.startAdmission n).reply { status := stOK, tag := tag, flg := flg, words := [old] }
    else c.reply { status := stSTATE, tag := tag, flg := flg, words := [0] }
  | _ => c

/-- LANE_ADMIT_START (R104). -/
def execLaneAdmitStart (s : State) : Host.Outcome State Fault Refusal := run (fun _ c => c.atReference Chip.admitWaiting) s

/-- LANE_RETIRE (R104, R105, R149 to R151). -/
def execLaneRetire (t : Nat) (s : State) : Host.Outcome State Fault Refusal :=
  run (fun _ c => c.interpret t (opIs 0x21) (fun c p =>
    let n := p.word 0 % 256
    let old := c.lstate n
    if c.laneRange n then c.refuse p stRANGE
    else if old = lsBlocked ∨ old = lsOff then c.refuse p stSTATE
    else (c.toBlocked n 1 ((p.word 0).testBit 8)).okay p [old])) s

/-! Rings and pages (R106, R107, R302, R306) -/

/-- A code of TRIG. -/
def trigCode (k : Nat) : Bool := decide (k < 72) || k == 127

/-- CAPTURE_ARM (R302): at once, or at the tick reference in RUN; its reply carries ARMED. -/
def execCaptureArm (t : Nat) (s : State) : Host.Outcome State Fault Refusal :=
  run (fun _ c => c.interpret t (opIs 0x30) (fun c p =>
    let w := p.word 0
    let r := bitsOf w 28 24
    let pre := bitsOf w 15 8
    let post := bitsOf w 7 0
    let trig := bitsOf (p.word 1) 6 0
    let st := c.rstate r
    if !trigCode trig || decide (c.get PGM.RCFG.MINP r < pre + 1 + post) then c.refuse p stRANGE
    else if st = rsOff ∨ st = rsQueue then c.refuse p stSTATE
    else if st = rsPost ∨ st = rsFrozen then c.refuse p stBUSY
    else
      let x : Staged := { writes := [], reply := none, arm := some (r, pre, post, trig) }
      let d := if c.inRun then { c with dev := { c.dev with staged := c.dev.staged ++ [x] } } else c.armRing r pre post trig
      d.okay p [rsArmed])) s

/-- The consumer of ring r is the device itself (R306, R403). -/
def Chip.ringInternal (c : Chip) (r : Nat) : Bool := c.on PMU.CFG.EN && c.on PMU.NET.UEN && c.get PMU.CFG.RING == r

/-- CAPTURE_RELEASE (R306). -/
def execCaptureRelease (t : Nat) (s : State) : Host.Outcome State Fault Refusal :=
  run (fun _ c => c.interpret t (opIs 0x31) (fun c p =>
    let r := bitsOf (p.word 0) 28 24
    let frozen := c.rstate r == rsFrozen
    let queue := c.rstate r == rsQueue && (c.oldestClosed r).isSome && !c.ringInternal r
    if frozen || queue then
      let c := c.release r
      c.okay p [c.rstate r]
    else c.refuse p stSTATE)) s

/-- A word of a page as read: of the SRAM, or of the firmware's own pages (log entry 11). -/
def pageWord (mem : Memory) (p w n : Nat) : Nat :=
  (if p < 16 ∨ 160 ≤ p then mem.readWord (4096 * p + 4 * w) else Config.firmwareWord p w n).toNat

/-- READ_PAGE (R106, R107, R308), of the SRAM after what the packet's arrival cleared (R122): `errs` are the 64-bit words of the page in which the read found an error, true where it cannot be
corrected. -/
def execReadPage (t : Nat) (errs : List (Nat × Bool)) (s : State) : Host.Outcome State Fault Refusal :=
  run (fun mem c => c.interpret t (opIs 0x32) (fun c p =>
    let g := bitsOf (p.word 0) 10 0
    let ofs := bitsOf (p.word 1) 25 16
    let n := bitsOf (p.word 1) 9 0
    if g < 160 ∧ c.on RST.FSEC.DBGLOCK then c.refuse p stACCESS
    else if n = 0 ∨ 512 < n ∨ 1024 < ofs + n then c.refuse p stRANGE
    else
      let mem := c.pgm.wq.foldl (fun m aw => Memory.writeWord m aw.1 aw.2) mem
      let hits := errs.filter (fun e => decide (ofs ≤ 2 * e.1 + 1 ∧ 2 * e.1 < ofs + n))
      let word := fun (k : Nat) => if hits.any (fun e => e.1 == k / 2 && e.2) then 0 else pageWord mem g k c.free
      let ecc := bit (hits.any (fun e => !e.2)) + 2 * bit (hits.any (fun e => e.2))
      let words := (upTo n).map (fun k => word (ofs + k))
      let d := { c with free := c.free + 1 }.each hits (fun c e => c.sramError g e.1 e.2)
      d.okay p (words ++ [ecc]))) s

/-- PGM_HOST_TRIGGER (R303): PGM.HTRIG is written with the word go; it fires at the coming tick reference in RUN. -/
def execPgmHostTrigger (t go : Nat) (s : State) : Host.Outcome State Fault Refusal :=
  run (fun _ c =>
    let c := c.at_ t
    if !c.fabric then c
    else c.hostTrigger (go % 2 ^ 32) (c.raw (if c.inRun && c.dev.ticking then c.dev.nextT0 else c.now))) s

/-! Time (R108, R109) -/

/-- TIME_GET (R108). -/
def execTimeGet (t : Nat) (s : State) : Host.Outcome State Fault Refusal :=
  run (fun _ c => c.interpret t (opIs 0x40) (fun c p =>
    let x := c.stamp (c.raw c.now)
    c.okay p [x.1 % 2 ^ 32, x.1 / 2 ^ 32, x.2 + 256 * bit (c.on TIM.STAT.TVALID) + 512 * bit (c.on TIM.STAT.HOLD)])) s

/-- The PTP servo disciplines the time base: PTP is the source, the servo has made a correction from it, and there is no holdover
(R109, R330). -/
def Chip.ptpDisciplines (c : Chip) : Bool :=
  c.get TIM.CFG.SRC == 1 && decide (0 < c.tim.corrections) && !c.on TIM.STAT.HOLD

/-- TIME_STEP (R108, R109, R313). -/
def execTimeStep (t : Nat) (s : State) : Host.Outcome State Fault Refusal :=
  run (fun _ c => c.interpret t (opIs 0x41) (fun c p =>
    if c.ptpDisciplines then c.refuse p stSTATE
    else (c.stepOfs (toSigned 64 (p.word 0 + 2 ^ 32 * p.word 1))).okay p [])) s

/-- TIME_RATE (R108, R109, R313). -/
def execTimeRate (t : Nat) (s : State) : Host.Outcome State Fault Refusal :=
  run (fun _ c => c.interpret t (opIs 0x42) (fun c p =>
    let r := toSigned 32 (p.word 0)
    if r < -rateMax ∨ rateMax < r then c.refuse p stRANGE
    else if c.ptpDisciplines then c.refuse p stSTATE
    else (c.newRate r).okay p [])) s

/-! Trips and faults (R110 to R113) -/

/-- The words of a 104-bit source mask. -/
def maskWords (m : Nat) : List Nat := valueWords 4 m

/-- TRIP_CLEAR (R110 to R112, R258, R260). -/
def execTripClear (t : Nat) (s : State) : Host.Outcome State Fault Refusal :=
  run (fun _ c => c.interpret t (opIs 0x50) (fun c p =>
    let m := wordsValue p.params
    if 256 ≤ p.word 3 then c.refuse p stRANGE
    else
      let act := c.tripActive m
      if act ≠ 0 then (c.flag MON.EVT.CLRREF).refuseWith p stTRIP (maskWords act)
      else
        let gone := c.get MON.LATCH.LATCH &&& m
        (c.tripClear m).okay p (maskWords gone))) s

/-- FAULT_ACK (R113, R483). -/
def execFaultAck (t : Nat) (s : State) : Host.Outcome State Fault Refusal :=
  run (fun _ c => c.interpret t (opIs 0x51) (fun c p =>
    let x := c.faultAck (wordsValue p.params)
    x.2.okay p (valueWords 2 x.1))) s

/-! Reset, test, records (R114 to R118) -/

/-- RESET (R114, R115, R509): the reply is queued first; the meter's RESET record is copied for a reset of level L0 or L1 (R430). -/
def execResetCmd (t : Nat) (s : State) : Host.Outcome State Fault Refusal :=
  run (fun _ c => c.interpret t (opIs 0x60) (fun c p =>
    let lvl := bitsOf (p.word 0) 1 0
    let b := bitsOf (p.word 0) 13 8
    if lvl = 3 ∧ (b = 0 ∨ 0x14 < b) then c.refuse p stRANGE
    else if lvl = 3 ∧ b = 2 ∧ c.fatalRecord.isSome then c.refuse p stSTATE
    else
      let c := if lvl < 2 && c.meterRuns then c.meterCopy 2 else c
      let c := c.answer { status := stOK, tag := p.tag, flg := p.flg, words := [], reset := true }
      { c with dev := { c.dev with resetReq := some ⟨lvl, b, c.now + 100 * msTaps⟩ } })) s

/-- SELFTEST (R116, R544). -/
def execSelftest (t : Nat) (s : State) : Host.Outcome State Fault Refusal :=
  run (fun _ c => c.interpret t (opIs 0x61) (fun c p =>
    let k := p.word 0 % 256
    if 7 < k then c.refuse p stRANGE
    else if c.selftestBusy then c.refuse p stBUSY
    else (c.selftest k).okay p [])) s

/-- The record that COMMIT_NV writes (R117, R527). -/
def Chip.nvRecord (c : Chip) (set : Nat) : NvRec :=
  if set = 0 then c.imageRec else if set = 1 then meterNv (c.meterRec 3) else c.faultRec

/-- COMMIT_NV (R117, R529, R532): `vst` is the VSTORE sample in mV of the energy test; the reply waits for the burst. -/
def execCommitNv (t vst : Nat) (s : State) : Host.Outcome State Fault Refusal :=
  run (fun _ c => c.interpret t (opIs 0x70) (fun c p =>
    let set := p.word 0 % 4
    if set = 3 then c.refuse p stRANGE
    else if c.kpr.burst.isSome then c.refuse p stBUSY
    else
      let c := (c.sampleVst vst).pend set (c.nvRecord set)
      let c := { c with dev := { c.dev with wait := some (.nv p.tag p.flg) } }
      c.judge set vst true)) s

/-- The words of IDENTIFY (R118). -/
def Chip.identity (c : Chip) : List Nat :=
  let word := fun (id : Nat) => match attrRow id 0 with
    | some r => c.readWords r 0
    | none => []
  let w2 := bit (c.on RST.STAT.FUSEOK) + 2 * bit (c.on RST.FSEC.DBGLOCK) + 4 * bit (c.on RST.STAT.DEFAULTS) +
    2 ^ 24 * c.get RST.FSEC.FUSEREV
  word 1 ++ word 2 ++ [w2] ++ word 3

/-- IDENTIFY (R118). -/
def execIdentify (t : Nat) (s : State) : Host.Outcome State Fault Refusal :=
  run (fun _ c => c.interpret t (opIs 0x7F) (fun c p => c.okay p c.identity)) s

/-! Patches (R119 to R122) -/

/-- The packet is PATCH_LOAD of phase k. -/
def patchPhase (k : Nat) (p : Packet) : Bool := p.opc == 0xE0 && p.flg % 4 == k

/-- The refusal of a FINISH (R121). -/
def Chip.refuseFinish (c : Chip) (p : Packet) (st : Nat) : Chip := c.endPatch.refuse p st

/-- PATCH_LOAD BEGIN (R120): an active patch is deactivated, a load opens. -/
def execPatchBegin (t : Nat) (s : State) : Host.Outcome State Fault Refusal :=
  run (fun _ c => c.interpret t (patchPhase 0) (fun c p =>
    let version := p.word 0 % 65536
    let n := p.word 1
    if p.len ≠ 3 then c.refuse p stBADLEN
    else if n = 0 ∨ 16384 < n ∨ version < c.get RST.FSEC.PATCHMIN then c.refuse p stRANGE
    else if c.bitOn RST.FSEC.KEYREV 0 (p.word 2 % 4) || (c.on RST.FSEC.PLOCK && !c.on RST.FSEC.DBGLOCK) then c.refuse p stAUTH
    else
      let c := ((c.set DEV.STATE.PATCHED 0 0).set DEV.ROM.PATCHVER 0 0).set DEV.STATE.LOADOPEN 0 1
      let c := { c with dev := { c.dev with load := some ⟨p.word 0, n, p.word 2, 0⟩ } }
      c.okay p [])) s

/-- PATCH_LOAD DATA (R119, R120): image words enter the patch area in order. -/
def execPatchData (t : Nat) (s : State) : Host.Outcome State Fault Refusal :=
  run (fun _ c => c.interpret t (patchPhase 1) (fun c p =>
    if p.len = 0 then c.refuse p stBADLEN
    else match c.dev.load with
      | none => c.refuse p stSTATE
      | some l =>
        if l.length < l.arrived + p.len then c.refuse p stRANGE
        else
          let c := c.sramWrites 0 l.arrived p.params
          let c := { c with dev := { c.dev with load := some { l with arrived := l.arrived + p.len } } }
          c.okay p [])) s

/-- Eight words, most significant first, as a number. -/
def bigWord (l : List Nat) : Nat := l.foldl (fun a w => a * 2 ^ 32 + w % 2 ^ 32) 0

/-- The signature verifies over the BEGIN words and the image in the patch area (R121). -/
def patchGood (mem : Memory) (l : PatchLoad) (r s_ : Nat) : Bool :=
  let msg := [toWord l.begin0, toWord l.length, toWord l.key] ++ (upTo l.length).map (fun k => mem.readWord (4 * k))
  ecdsaVerify (Config.patchKey (l.key % 4)) (sha256 msg) r s_

/-- PATCH_LOAD FINISH (R121): the patch is active, or the load closes and the area is cleared. -/
def execPatchFinish (t : Nat) (s : State) : Host.Outcome State Fault Refusal :=
  run (fun mem c => c.interpret t (patchPhase 2) (fun c p =>
    let r := bigWord (p.params.take 8)
    let g := bigWord ((p.params.drop 8).take 8)
    if p.len ≠ 16 then c.refuseFinish p stBADLEN
    else match c.dev.load with
      | none => c.refuseFinish p stSTATE
      | some l =>
        if l.arrived < l.length ∨ r = 0 ∨ g = 0 then c.refuseFinish p stRANGE
        else if !patchGood mem l r g then c.refuseFinish p stAUTH
        else
          let c := ((c.set DEV.STATE.PATCHED 0 1).set DEV.ROM.PATCHVER 0 (l.begin0 % 65536)).set DEV.STATE.LOADOPEN 0 0
          let c := { c with dev := { c.dev with load := none } }
          c.okay p [])) s

end Sys2Proof.Machine
end

