-- ==== Sys2Proof/Machine/Commit.lean ====
section
/-! DEFINITION. COMMIT_CONFIG and CONFIG_CHECK (R25, R26, R102, R103): the checks of every block and the entry into RUN. -/

namespace Sys2Proof.Machine

open Reg

/-! Checks (R25, R162, R192 and the commit rules of the blocks) -/

/-- The least LAUNCH that satisfies the first condition of R25 (R103). -/
def Chip.leastLaunch (c : Chip) : Nat := ceilDiv (1050 + c.opsF) 8

/-- The least APPLY that satisfies the third condition of R25. -/
def Chip.leastApply (c : Chip) : Nat := ceilDiv (64 * c.get DEV.LAUNCH.LAUNCH + c.get LNK.CFG.DMAX + 288 * 8) 64

/-- Arms whose map is not empty. -/
def Chip.usedArms (c : Chip) : List Nat := (upTo 6).filter (fun a => !(c.armLanes a).isEmpty)

/-- The arm map is inconsistent (R192). -/
def Chip.mapFails (c : Chip) : Bool :=
  c.usedArms.any (fun a => c.get ARM.CFG.LMAX a == 0 || decide ((c.armLanes a).length < c.get ARM.CFG.LMAX a))

/-- NET (R449). -/
def Chip.netFails (c : Chip) : Bool :=
  let mac := c.get NET.MAC.ADDR
  (upTo 2).any (fun i => c.on NET.PORT.EN i && (mac == 0 || mac.testBit 40)) ||
    (c.on NET.CFG.MODE && (upTo 2).any (fun i => !c.on NET.PORT.EN i)) ||
    (c.on PMU.NET.UEN && (c.get NET.IP.IPA == 0 || c.get NET.DMAC.ADDR == 0)) ||
    (upTo 2).any (fun i => c.on TIM.PORT.PEN i && !c.on NET.PORT.EN i)

/-- TIM (R338). -/
def Chip.timFails (c : Chip) : Bool :=
  (c.get TIM.CFG.TICKSRC == 1 && !c.on TIM.STAT.TVALID) ||
    (c.get TIM.CFG.SRC == 1 && (upTo 2).all (fun i => !c.on TIM.PORT.PEN i)) ||
    decide (c.get DEV.TICK.PERIOD ≤ c.get TIM.GRID.GOFS) || (c.on TIM.SYNC.OEN && c.get TIM.SYNC.SDIV == 0)

/-- SIO (R468). -/
def Chip.sioFails (c : Chip) : Bool :=
  let rx := (upTo 4).filter (fun m => c.on SIO.RXCFG.EN m)
  let off := fun (mask : Nat) => (setBits 4 mask).any (fun j => !c.on SIO.SDOCFG.EN j)
  (c.on SIO.FCFG.TXEN && c.get NET.SAFE.SMC == 0) ||
    ((!rx.isEmpty || c.on SIO.FCFG.TXEN) && !c.on NET.PORT.EN 0) ||
    !noTwice (rx.map (fun m => c.get SIO.RXCFG.NODE m)) ||
    (upTo 4).any (fun m => c.get SIO.RXCFG.NODE m == c.get SIO.FCFG.NODE) ||
    (upTo 8).any (fun k => off (c.get SIO.SICFG.SDO k)) || (upTo 4).any (fun m => off (c.get SIO.RXCFG.SDO m))

/-- ARM: the edge offset (R192). -/
def Chip.armFails (c : Chip) : Bool := c.usedArms.any (fun a => decide (c.period ≤ c.get ARM.XOFF.XOFF a))

/-- MOD (R197, R204). -/
def Chip.modFails (c : Chip) : Bool :=
  (upTo 6).any (fun a => c.get ARM.CFG.MODE a == 1 &&
      (let per := c.get MOD.ACFG.PER a
       per % 2 == 1 || decide (per < 2 * c.period) || decide (c.get MOD.ACFG.MINPW a < c.period) ||
         (c.armLanes a).any (fun n => decide (per ≤ c.get MOD.LPH.PH n)))) ||
    (upTo 16).any (fun g => c.on MOD.TRG.EN g &&
      ((c.get MOD.TRG.KIND g == 0 &&
          (let a := c.laneArm (c.get MOD.TRG.SRC g)
           decide (5 < a) || c.get ARM.CFG.MODE a != 1)) ||
        decide (c.get MOD.TRG.PRESC g < c.get MOD.TRG.PHASE g)))

/-- DHB (R217). -/
def Chip.dhbFails (c : Chip) : Bool :=
  (upTo 12).any (fun p =>
    let per := c.get DHB.CAR.PER p
    (c.on DHB.CFG.MODE p && (per % 2 == 1 ||
        decide (per < 4 * c.get DHB.CFG.DEAD p + 2 * c.get DHB.CFG.MINPW p + 2 * c.get DHB.CFG.BREF p))) ||
      decide (per ≤ c.get DHB.CAR.PH p))

/-- GPR (R231). -/
def Chip.gprFails (c : Chip) : Bool :=
  (upTo 12).any (fun p => c.on DHB.CFG.MODE p &&
    (decide (c.get DHB.CFG.MINPW p < c.get GPR.PPROF.UTSTR p + c.get GPR.PPROF.UTWK p + 192) ||
      decide (c.get DHB.CFG.MINPW p < c.get GPR.PPROF.LTSTR p + c.get GPR.PPROF.LTWK p + 192)))

/-- Group g of ADC (R291). -/
def Chip.groupFails (c : Chip) (g : Nat) : Bool :=
  let slot := fun (f : Fld) (j : Nat) => c.get f (8 * g + j)
  let ent := fun (f : Fld) (e : Nat) => c.get f (16 * g + e)
  let es := (upTo 16).filter (fun e => c.on ADC.SEQ.EN (16 * g + e))
  let decs := (upTo 16).filter (fun d => c.on ADC.DEC.EN d && c.get ADC.DEC.G d == g)
  let qs := (upTo 4).filter (fun q => c.on ADC.QCFG.EN (4 * g + q))
  let ticks := es.filter (fun e => ent ADC.SEQ.TRG e == 0)
  let used := (upTo 8).any (fun j => slot ADC.SLOT.MODE j != 0) || !es.isEmpty || !decs.isEmpty
  (used && !c.on ADC.GSTAT.READY g) || (upTo 8).any (fun j => c.inSet g j && slot ADC.SLOT.MODE j != 0) ||
    es.any (fun e => slot ADC.SLOT.MODE (ent ADC.SEQ.SLOT e) != 2) ||
    !noTwice (es.map (fun e => (ent ADC.SEQ.TRG e * 8 + ent ADC.SEQ.SLOT e) * 8 + ent ADC.SEQ.ROUND e)) ||
    ticks.any (fun e => ent ADC.SEQ.ROUND e != 0 ||
      es.any (fun x => ent ADC.SEQ.TRG x != 0 && ent ADC.SEQ.SLOT x == ent ADC.SEQ.SLOT e)) ||
    qs.any (fun q => es.all (fun e => ent ADC.SEQ.TRG e != q + 1)) ||
    es.any (fun e => ent ADC.SEQ.TRG e != 0 && !qs.contains (ent ADC.SEQ.TRG e - 1)) ||
    (c.get ADC.GCFG.ILV g == 3 && !es.isEmpty) || decs.any (fun d => !c.isCont g (c.get ADC.DEC.SLOT d))

/-- Rings that producers name, one entry for each producer (R280, R281, R297, R340, R366, R402). -/
def Chip.producers (c : Chip) : List Nat :=
  let slots := (upTo 32).filter (fun i => c.on ADC.SLOT.RINGEN i && c.isCont (i / 8) (i % 8) && (i % 8 == 0 || !c.inSet (i / 8) (i % 8)))
  let seqs := (upTo 16).filter (fun i => c.on ADC.QCFG.EN i && c.on ADC.QCFG.RINGEN i)
  slots.map (fun i => c.get ADC.SLOT.RING i) ++ seqs.map (fun i => c.get ADC.QCFG.RING i) ++
    ((upTo 18).filter (fun u => c.on TIM.TSI.RINGEN u)).map (fun u => c.get TIM.TSI.RING u) ++
    ((upTo 8).filter (fun p => c.on CTL.PRB.EN p)).map (fun p => c.get CTL.PRB.RING p) ++
    (if c.on PMU.CFG.EN then [c.get PMU.CFG.RING] else [])

/-- PGM (R297). -/
def Chip.pgmFails (c : Chip) : Bool :=
  let l := c.producers
  let rings := (upTo 32).filter (fun r => c.on PGM.RCFG.EN r)
  l.any (fun r => !c.on PGM.RCFG.EN r) || !noTwice l ||
    rings.any (fun r => decide (c.get PGM.RCFG.MAXP r < c.get PGM.RCFG.MINP r) || c.get PGM.RCFG.MAXP r == 0) ||
    decide (1888 < rings.foldl (fun n r => n + c.get PGM.RCFG.MINP r) 0 + c.get PGM.POOL.RETIRED)

/-- MTR (R433). -/
def Chip.mtrFails (c : Chip) : Bool :=
  let en := c.on MTR.CFG.EN
  (en && (upTo 6).any (fun k => !c.on ADC.DEC.EN (c.get MTR.CH.DEC k))) ||
    (en && (!F32.ieeeLt 0 (toWord (2 * c.get MTR.NOM.VNOM)) || !F32.ieeeLt 0 (c.getW MTR.NOM.INOM))) ||
    (upTo 4).any (fun k => c.on MTR.PLS.EN k &&
      (c.get MTR.PLS.EPP k == 0 || c.get MTR.PLS.PW k == 0 || c.get MTR.PLS.QTY k == 7))

/-- The checks with RESULT 7, by ascending block code (log entry 35). -/
def Chip.blockFails (c : Chip) : List (Nat × Bool) :=
  [(0x03, c.on RST.DOM.HELD), (0x05, c.timFails), (0x06, c.netFails), (0x07, c.sioFails), (0x09, c.armFails), (0x0A, c.modFails),
    (0x0B, c.dhbFails), (0x0C, c.gprFails), (0x0E, (upTo 4).any c.groupFails), (0x0F, c.pgmFails), (0x10, c.engineFails),
    (0x11, c.gridFails), (0x12, c.pmuFails), (0x13, c.mtrFails), (0x14, c.istFails)]

/-- RESULT and BLOCK of the first check that fails (R25, R162, R192, R367 and DEV.CFGRES). -/
def Chip.configResult (c : Chip) : Nat × Nat :=
  if c.get DEV.LAUNCH.LAUNCH < c.leastLaunch then (1, 0)
  else if c.get DEV.TICK.PERIOD < c.get DEV.LAUNCH.LAUNCH + 12 then (2, 0)
  else if c.get DEV.APPLY.APPLY < c.leastApply then (3, 0)
  else if c.mapFails then (4, 0x09)
  else if 20000 < c.get LNK.CFG.DMAX then (5, 0x08)
  else if c.scheduleFails then (6, 0x10)
  else match c.blockFails.find? (fun x => x.2) with
    | some x => (7, x.1)
    | none => (0, 0)

/-- The check and its record in DEV.CFGRES and DEV.FOPS. -/
def Chip.checkConfig (c : Chip) : Nat × Chip :=
  let r := c.configResult
  (r.1, ((c.set DEV.CFGRES.RESULT 0 r.1).set DEV.CFGRES.BLOCK 0 r.2).set DEV.FOPS.F 0 c.opsF)

/-- The three words of R103. -/
def Chip.configWords (c : Chip) : List Nat :=
  [2 ^ 24 * c.get DEV.CFGRES.RESULT + 2 ^ 16 * c.get DEV.CFGRES.BLOCK, c.opsF % 2 ^ 24, c.leastLaunch % 2 ^ 14]

/-- CONFIG_CHECK (R102). -/
def execConfigCheck (t : Nat) (s : State) : Host.Outcome State Fault Refusal :=
  run (fun _ c => c.interpret t (opIs 0x12) (fun c p =>
    let x := c.checkConfig
    if x.1 = 0 then x.2.okay p x.2.configWords else x.2.refuseWith p stRANGE x.2.configWords)) s

/-- Entry into RUN: RWL fields are locked, every block starts, the first tick is placed (R74, R103, R337). -/
def Chip.enterRun (c : Chip) : Chip :=
  let c := { c with dev := { c.dev with committed := true } }.set DEV.STATE.STATE 0 stRun
  let c := c.each (upTo 32) (fun c r => c.setRing r { c.ring r with cut := 0 })
  let c := c.each (upTo 4) Chip.shadowStart
  let c := c.commitEngine.startGrid.runLanes.runPorts.runSio.meterEnter.servoEnter
  let c := { c with pmu := { c.pmu with
    cfgCount := (c.pmu.cfgCount + 1) % 65536, runAt := c.raw c.now, streams := [], steps := [] } }
  c.placeFirstTick

/-- COMMIT_CONFIG (R103); each one reports FPT (R367). -/
def execCommitConfig (t : Nat) (s : State) : Host.Outcome State Fault Refusal :=
  run (fun _ c => c.interpret t (opIs 0x10) (fun c p =>
    let x := c.checkConfig
    let words := x.2.configWords
    let c := x.2.set CTL.STAT.FPT 0 x.2.opsFpt
    if x.1 = 0 then c.enterRun.okay p words else c.refuseWith p stRANGE words)) s

end Sys2Proof.Machine
end

