-- ==== Sys2Proof/Machine/Flags.lean ====
section
/-! DEFINITION. What the port shows of the state: immediate status word, interrupt request, mirror slots (R53 to R56, R60, R70). -/

namespace Sys2Proof.Machine

open Reg

/-- Words of a bank (R59, R60). -/
def bankWords : Nat := 256

/-- Bytes the writer may still fill (R60). -/
def Chip.space (c : Chip) : Nat :=
  8 * (bankWords - c.hpp.off) + (if c.bankFree (1 - c.hpp.bank) c.hpp.txn.isSome then 8 * bankWords else 0)

/-- INFREE (R54, R60). -/
def Chip.infree (c : Chip) : Nat := if c.hpp.rdy then Min.min 64 (c.space / 64) else 0

/-- At least one trip latch is set. -/
def Chip.tripFlag (c : Chip) : Bool := c.get MON.LATCH.LATCH != 0

/-- HERR of the ISW. -/
def Chip.herr (c : Chip) : Bool := c.on HPP.STAT.CRCE || c.on HPP.STAT.LENE || c.on HPP.STAT.HTO

/-- OVF of the ISW. -/
def Chip.ovf (c : Chip) : Bool := c.on HPP.STAT.OVF || c.on HPP.STAT.HDRLOST

/-- The immediate status word (R53). -/
def Chip.isw (c : Chip) : Nat :=
  2 ^ 28 * 0xA + 2 ^ 27 * bit c.hpp.rdy + 2 ^ 26 * bit (c.on RST.STAT.FUSEOK) + 2 ^ 25 * bit (c.on TIM.STAT.TVALID) +
    2 ^ 24 * bit (c.on TIM.STAT.HOLD) + 2 ^ 23 * bit c.tripFlag + 2 ^ 20 * (c.gravest % 8) +
    2 ^ 16 * Min.min 15 c.hpp.replies.length + 2 ^ 15 * bit c.herr + 2 ^ 14 * bit c.ovf + 2 ^ 13 * (c.hpp.bank % 2) +
    2 ^ 6 * c.infree

/-- HPIRQ_N is asserted, that is low (R70). -/
def Chip.irq (c : Chip) : Bool :=
  c.on HPP.IRQEN.RPQ && !c.hpp.replies.isEmpty || c.on HPP.IRQEN.FLT && c.gravest != 0 || c.on HPP.IRQEN.TRIP && c.tripFlag ||
    c.on HPP.IRQEN.HERR && c.herr || c.on HPP.IRQEN.OVF && c.ovf ||
    c.on HPP.IRQEN.TIME && (!c.on TIM.STAT.TVALID || c.on TIM.STAT.HOLD)

/-- The value of mirror slot k (R55, R56). -/
def Chip.mirror (c : Chip) (k : Nat) : Nat :=
  if k = 0 then c.isw
  else if k = 1 then c.get FLT.STATUS.STATUS % 2 ^ 32
  else if k = 2 then c.get FLT.STATUS.STATUS / 2 ^ 32
  else
    let id := if k = 3 then 0x0401 else c.get HPP.MIRSEL.ID k
    let i := if k = 3 then 0 else c.get HPP.MIRSEL.INST k
    match attrRow id i with
    | some r => c.readAttr r i % 2 ^ 32
    | none => 0

end Sys2Proof.Machine
end

