-- ==== Sys2Proof/Machine/Port.lean ====
section
/-! DEFINITION. The host packet port (R41 to R71): transactions, the packets that the port serves itself, the writer of the basins. A
transaction takes place at one instant, that of its HPSEL_N fall (log entry 21). -/

namespace Sys2Proof.Machine

open Reg

/-! Edges and bytes (R44) -/

/-- Rising edges of the header phase. -/
def hdrEdges (quad : Bool) : Nat := if quad then 17 else 32

/-- Rising edges of one word. -/
def wordEdges (quad : Bool) : Nat := if quad then 8 else 32

/-- Whole bytes received after a number of rising edges. -/
def bytesOfEdges (quad : Bool) (edges : Nat) : Nat := if quad then (edges - 9) / 2 else edges / 8

/-- Rising edges to the end of the CRC word of a packet with LEN 0. -/
def crcEdges (quad : Bool) : Nat := hdrEdges quad + wordEdges quad

/-- Rising edges of a FETCH that clocks out the whole of a reply of LEN n. -/
def fetchEdges (quad : Bool) (n : Nat) : Nat := crcEdges quad + 4 + wordEdges quad * (n + 2)

/-! The writer (R58 to R64) -/

/-- Eight bytes as a word, the first in [7:0]. -/
def packWord (l : List Nat) : Nat := l.foldr (fun b a => b % 256 + 256 * a) 0

/-- Bytes in groups of eight; `fuel` is at least their number. -/
def groups8 : Nat → List Nat → List (List Nat)
  | _, [] => []
  | 0, _ => []
  | n + 1, l => l.take 8 :: groups8 n (l.drop 8)

/-- The writer stands where its next byte goes: in its bank, or in the other once that is released; none without space. DESIGN
CHOICE (log entry 85): a bank whose last word is closed stays the writer's until a further byte comes. -/
def Chip.enterWord (c : Chip) : Option Chip :=
  if c.hpp.off < bankWords then some c
  else if c.bankFree (1 - c.hpp.bank) true then some { c with hpp := { c.hpp with bank := 1 - c.hpp.bank, off := 0 } }
  else none

/-- A word is closed where the writer stands. LVL and the interpreter's event follow the count of closed unread words (R64). -/
def Chip.putWord (c : Chip) (l : List Nat) (eot : Bool) : Chip :=
  let u := c.hpp.unread ++ [⟨c.hpp.bank, packWord l, l.length, eot, false⟩]
  let d := { c with hpp := { c.hpp with off := c.hpp.off + 1, unread := u } }
  if c.hpp.unread.length < c.get HPP.LEVEL.LEVEL ∧ c.get HPP.LEVEL.LEVEL ≤ u.length then
    { d with hpp := { d.hpp with event := true } }.flag HPP.STAT.LVL
  else d

/-- A word is closed in the writer's bank, or in the other once it is released; none without space. -/
def Chip.closeWord (c : Chip) (l : List Nat) (eot : Bool) : Option Chip := c.enterWord.map (fun d => d.putWord l eot)

/-- The last word of a list changes its tag. -/
def tagLast (f : BasinWord → BasinWord) : List BasinWord → List BasinWord
  | [] => []
  | [w] => [f w]
  | w :: l => w :: tagLast f l

/-- The last word stored changes its tag, whether the interpreter has read it early or not. -/
def Chip.tagWord (c : Chip) (f : BasinWord → BasinWord) : Chip :=
  if c.hpp.unread.isEmpty then { c with hpp := { c.hpp with taken := tagLast f c.hpp.taken } }
  else { c with hpp := { c.hpp with unread := tagLast f c.hpp.unread } }

/-- Bytes of the transaction found no space (R62); `first`: its header among them. -/
def Chip.overflow (c : Chip) (first : Bool) : Chip :=
  let c := c.inc HPP.CNTOVF.COUNT
  if first then c.hostFault HPP.STAT.HDRLOST
  else (c.tagWord (fun w => { w with ovt := true, eot := true })).hostFault HPP.STAT.OVF

/-- Whole words of a transaction are stored as their eighth bytes arrive (R58); `first`: its header has not been stored yet. It says
also whether bytes found no space. -/
def Chip.storeBytes (c : Chip) (first : Bool) : List (List Nat) → Chip × Bool
  | [] => (c, false)
  | g :: l =>
    match c.closeWord g false with
    | some d => d.storeBytes false l
    | none => (c.overflow first, true)

/-! Packets that the port serves itself (R46, R57, R66 to R68) -/

/-- The port serves the packet of this header. -/
def portServes (h : Nat) : Bool := (hdrOpc h == 0x00 || hdrOpc h == 0x01 || hdrOpc h == 0x08) && hdrLen h == 0

/-- A CRC failure of a packet that the port serves (R50). -/
def Chip.portCrc (c : Chip) : Chip := (c.hostFault HPP.STAT.CRCE).inc HPP.CNTCRC.COUNT

/-- What the host clocks out of result l after the turnaround (R44): its words most significant bit first, zeros beyond its end (R69);
bits of the last word that were not clocked are 0. -/
def shifted (quad : Bool) (edges : Nat) (l : List Nat) : List Word :=
  let n := (edges - (crcEdges quad + 4)) * (if quad then 4 else 1)
  let r := 32 - n % 32
  (upTo (n / 32)).map (fun k => toWord (l.getD k 0)) ++
    (if n % 32 = 0 then [] else [toWord (l.getD (n / 32) 0 % 2 ^ 32 / 2 ^ r * 2 ^ r)])

/-- The device drives result l in a transaction of the given rising edges. -/
def Chip.drove (c : Chip) (edges : Nat) (l : List Nat) : Chip := { c with hpp := { c.hpp with out := shifted c.hpp.quad edges l } }

/-- P0 and P1 of a PEEK (R57). -/
def peekWords (p0 status slot : Nat) : List Nat :=
  let top := [status % 256, slot % 256]
  [p0, 2 ^ 16 * ofBytes top + crc16 (wordBytes p0 ++ top)]

/-- A reply leaves the queue (R42, R66, R67, R115, R534). -/
def Chip.removeReply (c : Chip) (r : Reply) : Chip :=
  let q := match r.quad with
    | some b => some (b == 1)
    | none => c.hpp.quadNext
  { c with hpp := { c.hpp with
      replies := c.hpp.replies.drop 1, last := some r, quadNext := q, resetRead := c.hpp.resetRead || r.reset } }

/-- The FETCH transaction that removed the reply of RESET or SLEEP has ended: the reset or the sleep begins 1 us later (R115, R534). -/
def Chip.startDue (c : Chip) : Chip :=
  if c.hpp.resetRead then
    let soon := fun (x : Nat) => Min.min x (c.now + usTaps)
    { c with
      hpp := { c.hpp with resetRead := false }
      dev := { c.dev with resetReq := c.dev.resetReq.map (fun q => { q with due := soon q.due }) }
      kpr := { c.kpr with sleepDue := c.kpr.sleepDue.map soon } }
  else c

/-- A FETCH is answered (R66 to R68). -/
def Chip.serveFetch (c : Chip) (again : Bool) (edges : Nat) : Chip :=
  match (if again then c.hpp.last else c.hpp.replies.head?) with
  | none => c.drove edges (markerPacket 0xFFFF0000)
  | some r =>
    let c := c.drove edges r.packet
    if !again && decide (fetchEdges c.hpp.quad r.words.length ≤ edges) then c.removeReply r else c

/-- The port serves a packet whose CRC word arrived: header h, final word w. -/
def Chip.serve (c : Chip) (rdy : Bool) (h w edges : Nat) : Chip :=
  let good := w == finalWord [h]
  let slot := hdrFlg h
  if hdrOpc h = 0x01 then
    if !rdy then c.drove edges (peekWords 0 stBUSY slot)
    else if good then c.drove edges (peekWords (c.mirror slot) stOK slot)
    else c.portCrc.drove edges (peekWords 0 stBADCRC 0xFF)
  else if hdrOpc h = 0x08 then
    if !rdy then c.drove edges (markerPacket 0xFFFF0000)
    else if good then c.serveFetch (slot.testBit 0) edges
    else c.portCrc.drove edges (markerPacket 0xFFFF0001)
  else if rdy && !good then c.portCrc else c

/-! Transactions -/

/-- The bytes of transaction x have arrived (R58, R62): with its header complete and not served by the port, whole words are closed, and
the bytes beyond them take their place in the writer. -/
def Chip.arrive (c : Chip) (x : Txn) : Chip :=
  let open_ := fun (c : Chip) (part : List Nat) (lost : Bool) =>
    { c with hpp := { c.hpp with txn := some { x with part := part, lost := lost } } }
  if x.rdy && decide (hdrEdges c.hpp.quad ≤ x.edges) && !portServes (ofBytes (x.data.take 4)) then
    let n := 8 * (x.data.length / 8)
    let r := c.storeBytes true (groups8 n (x.data.take n))
    let part := x.data.drop n
    if r.2 then open_ r.1 [] true
    else if part.isEmpty then open_ r.1 [] false
    else match r.1.enterWord with
      | some d => open_ d part false
      | none => open_ (r.1.overflow (n == 0)) [] true
  else open_ c [] false

/-- The transaction's last word is closed and tagged EOT (R58). -/
def Chip.endWords (c : Chip) (x : Txn) : Chip :=
  if x.lost then c
  else if x.part.isEmpty then c.tagWord (fun w => { w with eot := true })
  else c.putWord x.part true

/-- HPSEL_N rises, or the device closes the transaction (R47, R58). -/
def Chip.closeTxn (c : Chip) : Chip :=
  match c.hpp.txn with
  | none => c
  | some x =>
    let c := { c with hpp := { c.hpp with txn := none } }
    let c :=
      if !x.rdy then c
      else if x.edges < hdrEdges c.hpp.quad then (c.hostFault HPP.STAT.LENE).inc HPP.CNTLEN.COUNT
      else if portServes (ofBytes (x.data.take 4)) then c
      else c.endWords x
    c.startDue.rewind

/-- The interpreter, free and with no whole packet before it, may read the words of a packet whose transaction is still open (R63): a
free bit decides whether it has (log entry 86). -/
def Chip.readEarly (c : Chip) : Chip :=
  if c.ready && c.front.isNone && !c.hpp.unread.isEmpty then
    let b := c.freeBit
    if b.1 then { b.2 with hpp := { b.2.hpp with taken := b.2.hpp.taken ++ b.2.hpp.unread, unread := [] } } else b.2
  else c

/-- The lane mode at a falling edge of HPSEL_N (R42): a write whose reply left takes effect, once it has been applied. -/
def Chip.takeQuad (c : Chip) : Chip :=
  match c.hpp.quadNext with
  | none => c
  | some b =>
    if (c.hpp.replies.filter (fun r => r.quad.isSome)).length < c.stagedQuads then c
    else { c with hpp := { c.hpp with quad := b, quadNext := none } }

/-- HPSEL_N falls at instant t: a transaction still open ends first; the ISW is taken (R42, R53, R72). -/
def Chip.fall (c : Chip) : Chip :=
  let c := c.closeTxn.takeQuad
  let c := { c with hpp := { c.hpp with isw := toWord c.isw, out := [] } }
  if c.hpp.rdy then c.inc HPP.CNTTXN.COUNT else c

/-- A transaction with its rising edges and bytes; with `hold` HPSEL_N stays low. -/
def Chip.transact (c : Chip) (edges : Nat) (data : List Nat) (hold : Bool) : Chip :=
  if c.released 7 then
    let c := c.fall
    let quad := c.hpp.quad
    let b := (upTo (bytesOfEdges quad edges)).map (fun i => data.getD i 0 % 256)
    let h := ofBytes (b.take 4)
    let rdy := c.hpp.rdy
    let c := if decide (crcEdges quad ≤ edges) && portServes h then c.serve rdy h (ofBytes ((b.drop 4).take 4)) edges else c
    let c := c.arrive ⟨edges, b, rdy, c.now, [], false⟩
    if hold then c.readEarly else c.closeTxn
  else c

/-- A packet of one header, LEN 0 and a final word, as a whole transaction of the given rising edges. -/
def Chip.shortPacket (c : Chip) (opc tag flg crc edges : Nat) : Chip :=
  c.transact edges (wordBytes (mkHeader (opc % 256) (tag % 256) 0 (flg % 64)) ++ wordBytes (crc % 2 ^ 32)) false

/-- TRANSACTION (R44 to R47). -/
def execTransaction (t : Nat) (edges : Nat) (data : List Byte) (hold : Bool) (s : State) : Host.Outcome State Fault Refusal :=
  run (fun _ c => (c.at_ t).transact edges (data.map (·.toNat)) hold) s

/-- IDLE_TIMEOUT (R48). DESIGN CHOICE (log entry 87): a transaction that began with RDY 0 is closed without HTO, counter or event. -/
def execIdleTimeout (t : Nat) (s : State) : Host.Outcome State Fault Refusal :=
  run (fun _ c =>
    let c := c.at_ t
    match c.hpp.txn with
    | none => c
    | some x =>
      let n := c.get HPP.CFG.IDLETO
      if n = 0 ∨ c.now < x.at_ + n * 100 * usTaps then c
      else
        let c := c.closeTxn
        if x.rdy then (c.hostFault HPP.STAT.HTO).inc HPP.CNTHTO.COUNT else c) s

/-- The lane mode that the next transaction uses. -/
def Chip.nextQuad (c : Chip) : Bool := c.closeTxn.takeQuad.hpp.quad

/-- NOP (R44, R46): the host reads the ISW. -/
def execNop (t tag flg : Nat) (crc : Word) (s : State) : Host.Outcome State Fault Refusal :=
  run (fun _ c => let c := c.at_ t; c.shortPacket 0x00 tag flg crc.toNat (crcEdges c.nextQuad)) s

/-- PEEK (R55 to R57): the host reads a mirror slot. -/
def execPeek (t tag flg : Nat) (crc : Word) (s : State) : Host.Outcome State Fault Refusal :=
  run (fun _ c =>
    let c := c.at_ t
    let q := c.nextQuad
    c.shortPacket 0x01 tag flg crc.toNat (crcEdges q + 4 + 2 * wordEdges q)) s

/-- FETCH (R66 to R68): the host reads a reply. -/
def execFetch (t tag flg : Nat) (crc : Word) (edges : Nat) (s : State) : Host.Outcome State Fault Refusal :=
  run (fun _ c => (c.at_ t).shortPacket 0x08 tag flg crc.toNat edges) s

end Sys2Proof.Machine
end

