-- ==== Sys2Proof/Machine/TestPort.lean ====
section
/-! DEFINITION. The test access port (R547, R548). -/

namespace Sys2Proof.Machine

open Reg

/-- EXTEST and PTEST may act: RST_N holds the main domain in reset and debug is unlocked (R548). -/
def Chip.tapOpen (c : Chip) : Bool := c.rst.pinLow && !c.fabric && !c.on RST.FSEC.DBGLOCK

/-- The instruction that acts: EXTEST and PTEST act as BYPASS at any other time (R548). -/
def Chip.tapActs (c : Chip) : TapInstr :=
  if (c.tap.instr == .extest || c.tap.instr == .ptest) && !c.tapOpen then .bypass else c.tap.instr

/-- The levels that EXTEST drives on the digital outputs; none while it does not act. -/
def Chip.extestDrives (c : Chip) : Option (List Bool) := if c.tapActs == .extest then some c.tap.boundary else none

/-- What the data register selected by the acting instruction captures: the identification, the bypass register's 0 (PRESUMED from
IEEE 1149.1, log entry 81); none for the boundary register and the scan test, whose contents the manual does not give. -/
def Chip.tapData (c : Chip) : Option Nat :=
  match c.tapActs with
  | .idcode => some 0x1719254B
  | .bypass => some 0
  | .sample | .extest | .ptest => none

/-- An instruction is in force. -/
def Chip.tapLoad (c : Chip) (i : TapInstr) : Chip :=
  { c with tap := { c.tap with reset := false, instr := i } }

/-- TAP_BYPASS (R547): code 0xFF and every code that names no other instruction. -/
def execTapBypass (t code : Nat) (s : State) : Host.Outcome State Fault Refusal :=
  run (fun _ c =>
    let c := c.at_ t
    if code = 0 ∨ code = 1 ∨ code = 2 ∨ code = 0x10 ∨ 256 ≤ code then c else c.tapLoad .bypass) s

/-- TAP_IDCODE (R547). -/
def execTapIdcode (t : Nat) (s : State) : Host.Outcome State Fault Refusal :=
  run (fun _ c => (c.at_ t).tapLoad .idcode) s

/-- TAP_SAMPLE_PRELOAD (R547): the levels at the digital pins are sampled, levels for EXTEST are shifted in; no pin changes. -/
def execTapSamplePreload (t : Nat) (pins load : List Bool) (s : State) : Host.Outcome State Fault Refusal :=
  run (fun _ c =>
    let c := (c.at_ t).tapLoad .sample
    { c with tap := { c.tap with sampled := pins, boundary := load } }) s

/-- TAP_EXTEST (R547, R548). -/
def execTapExtest (t : Nat) (s : State) : Host.Outcome State Fault Refusal :=
  run (fun _ c => (c.at_ t).tapLoad .extest) s

/-- TAP_PTEST (R547, R548). -/
def execTapPtest (t : Nat) (s : State) : Host.Outcome State Fault Refusal :=
  run (fun _ c => (c.at_ t).tapLoad .ptest) s

/-- TEST_LOGIC_RESET (R547): TRST_N low; IDCODE is selected. -/
def execTestLogicReset (t : Nat) (s : State) : Host.Outcome State Fault Refusal :=
  run (fun _ c =>
    let c := (c.at_ t).tapLoad .idcode
    { c with tap := { c.tap with reset := true } }) s

end Sys2Proof.Machine
end

