-- ==== Sys2Proof/Machine/Tick.lean ====
section
/-! DEFINITION. TICK: the work of one tick reference (R24, R27 to R33). -/

namespace Sys2Proof.Machine

open Reg

/-! The end of the running tick -/

/-- Slack of the running tick in 8 ns units, rounded down (DESIGN CHOICE, log entry 90): from the completion of edge placement to the launch; 0 when the tick overran (R21, R27,
R513). -/
def Chip.slack (c : Chip) : Nat :=
  match c.arm.placedAt with
  | some d => if c.launchOk && !c.arm.abandoned then (64 * c.get DEV.LAUNCH.LAUNCH - d) / 64 else 0
  | none => 0

/-- The tick that ends at this reference: work still in progress is abandoned and counts as one overrun (R30), a block that did not
acknowledge raises FABRIC_STALL (R31), and the servo takes the tick's slack (R513). -/
def Chip.endTick (c : Chip) : Chip :=
  if c.dev.tick = c.tim.firstTick then c
  else
    let s := c.slack
    let c := if c.arm.abandoned && c.launchOk then c.raise 23 else c
    let c := if c.arm.stalled then c.raise 62 else c
    c.servoTick s

/-- What waits for a tick reference takes effect: staged writes, a waiting MODIFY or LANE_ADMIT, the end of trip and fault holds,
L3 resets, lanes that return to DOWN, ports that return to carrier control (R32, R33, R98, R104, R163, R219, R258, R478, R508). -/
def Chip.takeWaiting (c : Chip) : Chip :=
  let c := c.each c.rst.blocks (fun c b => { c with rst := { c.rst with blocks := c.rst.blocks.filter (fun k => k != b) } }.blockReset b)
  let c := c.each c.dev.staged (fun c _ => c.applyStaged)
  let c := c.modifyWaiting.admitWaiting.endHolds.endFaultHolds
  let c := if c.lnk.redown && c.released 3 then { c with lnk := { c.lnk with redown := false } }.lanesDown else c
  c.portsReturn c.now

/-! The work of the tick -/

/-- Each element is kept or not by a free bit. -/
def Chip.freeSubset (c : Chip) : List Nat → List Nat × Chip
  | [] => ([], c)
  | a :: l =>
    let r := Chip.freeSubset c l
    let b := r.2.freeBit
    (if b.1 then a :: r.1 else r.1, b.2)

/-- The work that completes: all of it, or what does not wait on the stuck request, which R31 leaves open. -/
def Chip.completing (c : Chip) (stall : Bool) (l : List Nat) : List Nat × Chip := if stall then c.freeSubset l else (l, c)

/-- Waiting TRIG slots run, at most the evaluations left (R358). -/
def Chip.runTrigs (k : Nat) : Nat → Chip × Nat → Chip × Nat
  | 0, cn => cn
  | fuel + 1, (c, n) =>
    if n = 0 ∨ c.trigPending = [] then (c, n) else Chip.runTrigs k fuel (c.runTrig k, n - 1)

/-- The current of arm a that step 4 delivers; NaN when none is bound (R225). -/
def Chip.armCurrent (c : Chip) (a : Nat) : Word := if c.destsNamed.contains (0x18 + a) then c.destVal (0x18 + a) else F32.nan

/-- Cascade, the profile codes and the carrier lanes of arm a (R24, steps 5 and 6); `done`: step 4 has delivered. -/
def Chip.armWork (t : Nat) (done : Bool) (c : Chip) (a : Nat) : Chip :=
  let i := c.armCurrent a
  if !done then c.cascadeCounts a (c.destVal (0x10 + a)) i else
  let c := (c.cascadeArm a (c.destVal (0x10 + a)) i).bins a i
  if c.get ARM.CFG.MODE a = 1 then
    c.each (c.armLanes a) (fun c n => let w := c.fanOut a n; c.placeCarrierLane n t w w)
  else c

/-- Steps 2 and 3 at reference t: the uplink snapshot, the tick samples, the grid results of the last tick (R24, R372). -/
def Chip.latchTick (c : Chip) (t : Nat) : Chip :=
  let c := (c.gridPublish.settleOld (c.raw t)).each (upTo 24) (fun c s => c.setB CTL.SST.HELD s (c.on CTL.SCTL.HOLD s))
  ((c.snapshots t).handTick).each (upTo 6) Chip.countArm

/-- What the destinations of LRP slots hold as the tick begins is kept (R359); 0x40 + p stands for both compares of port p. -/
def Chip.keepDests (c : Chip) : Chip :=
  let codes := (c.ctl.lrp.flatMap (fun s => c.slotDests s)).flatMap (fun d =>
    if 0x40 ≤ d ∧ d < 0x50 then [d + 0x10, d + 0x20] else if d = 0 then [] else [d])
  { c with ctl := { c.ctl with before := codes.map (fun d => (d, c.destVal d)) } }

/-- Steps 4 to 6 and 10 of tick k, reference t: edge placement completes at `place` after it (none: not before the next
reference), `n` slots due in the tick end their evaluation before it, and with `stall` a block does not acknowledge (R24, R27, R30,
R31, R358, R359). An overrun keeps what Cascade derives from the snapshot and from the level requests its destinations hold
(R182). POST slots are evaluated later in the tick. -/
def Chip.tickWork (c : Chip) (t k : Nat) (place : Option Nat) (n : Nat) (stall : Bool) : Chip :=
  let x := c.raw t
  let lrp := c.dueSlots c.ctl.lrp k
  let post := c.dueSlots c.ctl.post k
  let go := c.completing stall lrp
  let r := Chip.runSlots k x go.1 (go.2.keepDests, n)
  let done := go.1 == lrp && decide (lrp.length ≤ n)
  let placed := match place with
    | some d => if done && decide (d < c.period) then some d else none
    | none => none
  let arms := r.1.completing (stall && placed.isNone) (upTo 6)
  let c := (arms.2.each arms.1 (Chip.armWork t done)).placeEdges
  let tr := if done then Chip.runTrigs k c.ctl.trig.length (c, r.2) else (c, 0)
  let ps := tr.1.completing stall post
  let c := ps.2
  let late := placed.isNone || stall || decide (tr.2 < post.length)
  { c with
    ctl := { c.ctl with due := ps.1, left := Min.min tr.2 ps.1.length }
    arm := { c.arm with launchDue := true, placedAt := placed, abandoned := late, stalled := stall } }

/-- TICK (R24): the tick reference at which the device stands. -/
def execTick (place : Option Nat) (slots : Nat) (stall : Bool) (s : State) : Host.Outcome State Fault Refusal :=
  run (fun _ c =>
    if c.inRun && c.dev.ticking then
      let t := c.dev.nextT0
      let k := c.dev.tick
      let p := c.period
      let c := if c.arm.launchDue then c.launch else c
      let c := c.runPost c.ctl.left
      let c := ((c.at_ t).takeWaiting.endTick).mtrigEvent 2 0 0 t
      let c := (c.timTick t).latchTick t
      let g := if stall then c.freeBit else (true, c)
      let c := (if g.1 then g.2.gridTick else g.2).tickWork t (k - c.tim.firstTick) place slots stall
      { c.showSet with dev := { c.dev with nextT0 := t + p, tick := k + 1 } }
    else c) s

end Sys2Proof.Machine
end

