-- ==== Sys2Proof/Machine/Dispatch.lean ====
section
/-! DEFINITION. One arm per command: a direct call of its meaning. -/

namespace Sys2Proof.Machine

/-- The effect of a command on everything but the queue. -/
def exec (i : Instr) (s : State) : Host.Outcome State Fault Refusal :=
  match i with
  | .transaction t edges data hold => Sys2Proof.Machine.execTransaction t edges data hold s
  | .idleTimeout t => Sys2Proof.Machine.execIdleTimeout t s
  | .nop t tag flg crc => Sys2Proof.Machine.execNop t tag flg crc s
  | .peek t tag flg crc => Sys2Proof.Machine.execPeek t tag flg crc s
  | .fetch t tag flg crc edges => Sys2Proof.Machine.execFetch t tag flg crc edges s
  | .unassignedOpcode t => Sys2Proof.Machine.execUnassignedOpcode t s
  | .getAttr t => Sys2Proof.Machine.execGetAttr t s
  | .setAttr t => Sys2Proof.Machine.execSetAttr t s
  | .getBlock t => Sys2Proof.Machine.execGetBlock t s
  | .setBlock t => Sys2Proof.Machine.execSetBlock t s
  | .modify t => Sys2Proof.Machine.execModify t s
  | .modifyStep => Sys2Proof.Machine.execModifyStep s
  | .stagedWritesApply => Sys2Proof.Machine.execStagedWritesApply s
  | .commitConfig t => Sys2Proof.Machine.execCommitConfig t s
  | .configCheck t => Sys2Proof.Machine.execConfigCheck t s
  | .armMap t => Sys2Proof.Machine.execArmMap t s
  | .laneAdmit t => Sys2Proof.Machine.execLaneAdmit t s
  | .laneAdmitStart => Sys2Proof.Machine.execLaneAdmitStart s
  | .laneRetire t => Sys2Proof.Machine.execLaneRetire t s
  | .captureArm t => Sys2Proof.Machine.execCaptureArm t s
  | .captureRelease t => Sys2Proof.Machine.execCaptureRelease t s
  | .readPage t errs => Sys2Proof.Machine.execReadPage t errs s
  | .timeGet t => Sys2Proof.Machine.execTimeGet t s
  | .timeStep t => Sys2Proof.Machine.execTimeStep t s
  | .timeRate t => Sys2Proof.Machine.execTimeRate t s
  | .tripClear t => Sys2Proof.Machine.execTripClear t s
  | .faultAck t => Sys2Proof.Machine.execFaultAck t s
  | .resetCmd t => Sys2Proof.Machine.execResetCmd t s
  | .resetBegin t => Sys2Proof.Machine.execResetBegin t s
  | .selftest t => Sys2Proof.Machine.execSelftest t s
  | .commitNv t vst => Sys2Proof.Machine.execCommitNv t vst s
  | .identify t => Sys2Proof.Machine.execIdentify t s
  | .patchBegin t => Sys2Proof.Machine.execPatchBegin t s
  | .patchData t => Sys2Proof.Machine.execPatchData t s
  | .patchFinish t => Sys2Proof.Machine.execPatchFinish t s
  | .tick place slots stall => Sys2Proof.Machine.execTick place slots stall s
  | .tickStrobe => Sys2Proof.Machine.execTickStrobe s
  | .launch => Sys2Proof.Machine.execLaunch s
  | .uplinkFrame t n before comma frame => Sys2Proof.Machine.execUplinkFrame t n before comma frame s
  | .syncLoss t n => Sys2Proof.Machine.execSyncLoss t n s
  | .lossOfLight t n => Sys2Proof.Machine.execLossOfLight t n s
  | .admissionTimeout t n => Sys2Proof.Machine.execAdmissionTimeout t n s
  | .selfTestTimeout t n => Sys2Proof.Machine.execSelfTestTimeout t n s
  | .autoAdmissionStart n => Sys2Proof.Machine.execAutoAdmissionStart n s
  | .laneResumeDown => Sys2Proof.Machine.execLaneResumeDown s
  | .odiagRequest t n => Sys2Proof.Machine.execOdiagRequest t n s
  | .odiagTimeout t n => Sys2Proof.Machine.execOdiagTimeout t n s
  | .carrierEvent t lane p => Sys2Proof.Machine.execCarrierEvent t lane p s
  | .bootstrapRefreshEnd t p => Sys2Proof.Machine.execBootstrapRefreshEnd t p s
  | .mtrigDelivery t => Sys2Proof.Machine.execMtrigDelivery t s
  | .dhbTurnOn t p up => Sys2Proof.Machine.execDhbTurnOn t p up s
  | .dhbHandshakeTimeout t p up => Sys2Proof.Machine.execDhbHandshakeTimeout t p up s
  | .dhbAckChange t p up level held => Sys2Proof.Machine.execDhbAckChange t p up level held s
  | .dhbResume t p => Sys2Proof.Machine.execDhbResume t p s
  | .dhbForce t p v => Sys2Proof.Machine.execDhbForce t p v s
  | .comparatorDecision t k vd th h => Sys2Proof.Machine.execComparatorDecision t k vd th h s
  | .tripInput t n low ps => Sys2Proof.Machine.execTripInput t n low ps s
  | .tripHoldEnd => Sys2Proof.Machine.execTripHoldEnd s
  | .comparatorFirstDecision t k vd th h => Sys2Proof.Machine.execComparatorFirstDecision t k vd th h s
  | .comparatorSelfTest t res => Sys2Proof.Machine.execComparatorSelfTest t res s
  | .thresholdReadback t vd => Sys2Proof.Machine.execThresholdReadback t vd s
  | .conversionResult t g kind vd done => Sys2Proof.Machine.execConversionResult t g kind vd done s
  | .sequenceTrigger t => Sys2Proof.Machine.execSequenceTrigger t s
  | .adcHostTrigger t go => Sys2Proof.Machine.execAdcHostTrigger t go s
  | .sequenceEnd t g => Sys2Proof.Machine.execSequenceEnd t g s
  | .sequenceRecord t g => Sys2Proof.Machine.execSequenceRecord t g s
  | .foregroundCalibrationDone t g errs => Sys2Proof.Machine.execForegroundCalibrationDone t g errs s
  | .sliceCalibrationEnd t g gerr oerr => Sys2Proof.Machine.execSliceCalibrationEnd t g gerr oerr s
  | .sliceHandover t g sum => Sys2Proof.Machine.execSliceHandover t g sum s
  | .sliceFail t g s_ => Sys2Proof.Machine.execSliceFail t g s_ s
  | .serviceConversion t g ch vd => Sys2Proof.Machine.execServiceConversion t g ch vd s
  | .pageRequest t => Sys2Proof.Machine.execPageRequest t s
  | .captureTrigger t => Sys2Proof.Machine.execCaptureTrigger t s
  | .pgmHostTrigger t go => Sys2Proof.Machine.execPgmHostTrigger t go s
  | .pageRetire t p => Sys2Proof.Machine.execPageRetire t p s
  | .refclkLoss t b => Sys2Proof.Machine.execRefclkLoss t b s
  | .refclkDrift t w => Sys2Proof.Machine.execRefclkDrift t w s
  | .refclkGood t b => Sys2Proof.Machine.execRefclkGood t b s
  | .refclkRevert t => Sys2Proof.Machine.execRefclkRevert t s
  | .refclkPrefWrite t b => Sys2Proof.Machine.execRefclkPrefWrite t b s
  | .dllLock t => Sys2Proof.Machine.execDllLock t s
  | .dllChainSwitch t => Sys2Proof.Machine.execDllChainSwitch t s
  | .dllUnlock t => Sys2Proof.Machine.execDllUnlock t s
  | .dllRelockTimeout t => Sys2Proof.Machine.execDllRelockTimeout t s
  | .ptpMessage t p m => Sys2Proof.Machine.execPtpMessage t p m s
  | .ptpTransmit t p k => Sys2Proof.Machine.execPtpTransmit t p k s
  | .ptpAnnounceTimeout t p => Sys2Proof.Machine.execPtpAnnounceTimeout t p s
  | .ptpSyncTimeout t p => Sys2Proof.Machine.execPtpSyncTimeout t p s
  | .holdoverTimeout t => Sys2Proof.Machine.execHoldoverTimeout t s
  | .ppsInEdge p => Sys2Proof.Machine.execPpsInEdge p s
  | .ppsInMissing t => Sys2Proof.Machine.execPpsInMissing t s
  | .ppsOutPulse t => Sys2Proof.Machine.execPpsOutPulse t s
  | .ppsOutEnd t => Sys2Proof.Machine.execPpsOutEnd t s
  | .syncInEdge p => Sys2Proof.Machine.execSyncInEdge p s
  | .timestampInput t u e => Sys2Proof.Machine.execTimestampInput t u e s
  | .rtcWrite t => Sys2Proof.Machine.execRtcWrite t s
  | .trigSlotEvaluation w => Sys2Proof.Machine.execTrigSlotEvaluation w s
  | .grdTripClear t => Sys2Proof.Machine.execGrdTripClear t s
  | .grdIslandClear t => Sys2Proof.Machine.execGrdIslandClear t s
  | .pmuReport t sec k => Sys2Proof.Machine.execPmuReport t sec k s
  | .turnOffTransmission t => Sys2Proof.Machine.execTurnOffTransmission t s
  | .turnOnTransmission t => Sys2Proof.Machine.execTurnOnTransmission t s
  | .sendCfg1 t => Sys2Proof.Machine.execSendCfg1 t s
  | .sendCfg2 t => Sys2Proof.Machine.execSendCfg2 t s
  | .pmuCommandIgnored t => Sys2Proof.Machine.execPmuCommandIgnored t s
  | .twArrival t x l => Sys2Proof.Machine.execTwArrival t x l s
  | .twCollectionEnd t => Sys2Proof.Machine.execTwCollectionEnd t s
  | .pmuFltrig t => Sys2Proof.Machine.execPmuFltrig t s
  | .faultRecordComplete t => Sys2Proof.Machine.execFaultRecordComplete t s
  | .twremWrite t num time tap fine => Sys2Proof.Machine.execTwremWrite t num time tap fine s
  | .powerSample t => Sys2Proof.Machine.execPowerSample t s
  | .pulseStart t k => Sys2Proof.Machine.execPulseStart t k s
  | .pulseEnd t k => Sys2Proof.Machine.execPulseEnd t k s
  | .meterSnapshot t => Sys2Proof.Machine.execMeterSnapshot t s
  | .meterZero t => Sys2Proof.Machine.execMeterZero t s
  | .meterRecordCopy t => Sys2Proof.Machine.execMeterRecordCopy t s
  | .meterInputInvalid t ch => Sys2Proof.Machine.execMeterInputInvalid t ch s
  | .ethFrameRx t p f fcs full => Sys2Proof.Machine.execEthFrameRx t p f fcs full s
  | .discardEntryExpire t => Sys2Proof.Machine.execDiscardEntryExpire t s
  | .ethFrameTx t p => Sys2Proof.Machine.execEthFrameTx t p s
  | .prpSupervisionTx t => Sys2Proof.Machine.execPrpSupervisionTx t s
  | .lanSilent t p => Sys2Proof.Machine.execLanSilent t p s
  | .linkPoll t p up => Sys2Proof.Machine.execLinkPoll t p up s
  | .mdioAccess t v => Sys2Proof.Machine.execMdioAccess t v s
  | .mdioAccessDone t d => Sys2Proof.Machine.execMdioAccessDone t d s
  | .safetyPairTimeout t => Sys2Proof.Machine.execSafetyPairTimeout t s
  | .safetyFrameRx t => Sys2Proof.Machine.execSafetyFrameRx t s
  | .safetyFrameTx t => Sys2Proof.Machine.execSafetyFrameTx t s
  | .remoteWatchdogExpiry t m => Sys2Proof.Machine.execRemoteWatchdogExpiry t m s
  | .safetyInputChange t k ch level => Sys2Proof.Machine.execSafetyInputChange t k ch level s
  | .discrepancyTimeout t k => Sys2Proof.Machine.execDiscrepancyTimeout t k s
  | .siFaultAck t mask => Sys2Proof.Machine.execSiFaultAck t mask s
  | .sdoOn t j on => Sys2Proof.Machine.execSdoOn t j on s
  | .sdoFaultAck t j => Sys2Proof.Machine.execSdoFaultAck t j s
  | .sdoReadbackChange t j ch level => Sys2Proof.Machine.execSdoReadbackChange t j ch level s
  | .sdoReadbackDeadline t j ch => Sys2Proof.Machine.execSdoReadbackDeadline t j ch s
  | .testPulse t j ch => Sys2Proof.Machine.execTestPulse t j ch s
  | .testPulseEnd t j => Sys2Proof.Machine.execTestPulseEnd t j s
  | .testReturnTimeout t j => Sys2Proof.Machine.execTestReturnTimeout t j s
  | .faultEvent t n fw => Sys2Proof.Machine.execFaultEvent t n fw s
  | .fatalEntry t => Sys2Proof.Machine.execFatalEntry t s
  | .reactionDone t => Sys2Proof.Machine.execReactionDone t s
  | .faultWindowClose t j => Sys2Proof.Machine.execFaultWindowClose t j s
  | .faultHoldEnd => Sys2Proof.Machine.execFaultHoldEnd s
  | .mainPor t vin => Sys2Proof.Machine.execMainPor t vin s
  | .rstNAssert t long => Sys2Proof.Machine.execRstNAssert t long s
  | .rstNRelease t => Sys2Proof.Machine.execRstNRelease t s
  | .rstNLog t => Sys2Proof.Machine.execRstNLog t s
  | .viohLoss t => Sys2Proof.Machine.execViohLoss t s
  | .blockReset b => Sys2Proof.Machine.execBlockReset b s
  | .fuseLoadDone t words => Sys2Proof.Machine.execFuseLoadDone t words s
  | .domainRelease t refA refB vioh => Sys2Proof.Machine.execDomainRelease t refA refB vioh s
  | .clockGoodTimeout t => Sys2Proof.Machine.execClockGoodTimeout t s
  | .interpreterStart t => Sys2Proof.Machine.execInterpreterStart t s
  | .supplyWarning t => Sys2Proof.Machine.execSupplyWarning t s
  | .supplyRestored t => Sys2Proof.Machine.execSupplyRestored t s
  | .keeperPor t => Sys2Proof.Machine.execKeeperPor t s
  | .loadCut t => Sys2Proof.Machine.execLoadCut t s
  | .cellDisconnect t => Sys2Proof.Machine.execCellDisconnect t s
  | .cellReconnect t => Sys2Proof.Machine.execCellReconnect t s
  | .chargeEnd t => Sys2Proof.Machine.execChargeEnd t s
  | .chargeRestart t => Sys2Proof.Machine.execChargeRestart t s
  | .chargeTimeout t => Sys2Proof.Machine.execChargeTimeout t s
  | .mppsetSample t ohms vteg => Sys2Proof.Machine.execMppsetSample t ohms vteg s
  | .nvJudge t vst => Sys2Proof.Machine.execNvJudge t vst s
  | .nvBurstDone t vst => Sys2Proof.Machine.execNvBurstDone t vst s
  | .nvBurstAbort t vst => Sys2Proof.Machine.execNvBurstAbort t vst s
  | .kprSleep t vst => Sys2Proof.Machine.execKprSleep t vst s
  | .rtcAlarm t => Sys2Proof.Machine.execRtcAlarm t s
  | .istPassStart t k done ok errs => Sys2Proof.Machine.execIstPassStart t k done ok errs s
  | .istPassLate t k => Sys2Proof.Machine.execIstPassLate t k s
  | .laneWindowEnd t => Sys2Proof.Machine.execLaneWindowEnd t s
  | .tapBypass t code => Sys2Proof.Machine.execTapBypass t code s
  | .tapIdcode t => Sys2Proof.Machine.execTapIdcode t s
  | .tapSamplePreload t pins load => Sys2Proof.Machine.execTapSamplePreload t pins load s
  | .tapExtest t => Sys2Proof.Machine.execTapExtest t s
  | .tapPtest t => Sys2Proof.Machine.execTapPtest t s
  | .mainPorRelease t => Sys2Proof.Machine.execMainPorRelease t s
  | .powerGood t => Sys2Proof.Machine.execPowerGood t s
  | .crystalOscillatorStart t => Sys2Proof.Machine.execCrystalOscillatorStart t s
  | .preChargeEnd t => Sys2Proof.Machine.execPreChargeEnd t s
  | .harvesterColdStart t => Sys2Proof.Machine.execHarvesterColdStart t s
  | .testLogicReset t => Sys2Proof.Machine.execTestLogicReset t s

end Sys2Proof.Machine
end

