-- ==== Sys2Proof/Safety.lean ====
section
/-! DEFINITION. What counts as a sound state, and what a command leaves alone, in the terms that statements use. -/

namespace Sys2Proof.Machine

/-- Between commands the SRAM is in its canonical form, and no SRAM write is left to be entered. -/
def State.Inv (s : State) : Prop := Memory.wf s.sram = true ∧ s.chip.pgm.wq = []

/-- The instant at which a command with time operand t acts (log entry 1). -/
def State.at_ (s : State) (t : Nat) : Nat := Max.max s.chip.now t

/-- Field f of instance n is one of those listed. -/
def Listed (l : List (Fld × Nat)) (f : Fld) (n : Nat) : Prop := ∃ e ∈ l, f.id = e.1.id ∧ f.lo = e.1.lo ∧ n = e.2

/-- t differs from s in nothing but the fields listed, the time, the record of bits set at this
instant, and the parts of the chip that `parts` takes from t: SRAM, queue,
every other field and every other part are those of s. -/
structure Only (s t : State) (l : List (Fld × Nat)) (parts : Chip → Chip → Chip) : Prop where
  sram : t.sram = s.sram
  pending : t.pending = s.pending
  rest : t.chip = { parts s.chip t.chip with now := t.chip.now, regs := t.chip.regs, fresh := t.chip.fresh }
  fields : ∀ (f : Fld) (n : Nat), ¬ Listed l f n → t.chip.get f n = s.chip.get f n

/-- t differs from s in nothing but attributes with the IDs listed, the time, and the parts of the chip that `parts` takes from t. -/
structure Apart (s t : State) (ids : List Nat) (parts : Chip → Chip → Chip) : Prop where
  sram : t.sram = s.sram
  pending : t.pending = s.pending
  rest : t.chip = { parts s.chip t.chip with now := t.chip.now, regs := t.chip.regs, fresh := t.chip.fresh }
  fields : ∀ (f : Fld) (n : Nat), f.id ∉ ids → t.chip.get f n = s.chip.get f n

/-- A command that finds nothing to do lets time pass and changes nothing else. -/
def State.waits (s : State) (t : Nat) : State := { s with chip := s.chip.at_ t }

/-- No part of the chip beside fields and time changes. -/
def noPart (a _ : Chip) : Chip := a

/-- What queues and faults share: the event in flight that `raise` adds (R472). -/
def State.raised (s : State) (t src : Nat) (detail : Nat := 0) : List Raised :=
  if s.chip.fabric then s.chip.flt.raised ++ [⟨src, detail, s.at_ t, false⟩] else s.chip.flt.raised

/-! The host packet port -/

/-- The port takes a transaction with nothing pending on it: HPP released, RDY 1, HPSEL_N high, no lane mode and no reset to come, the
writer at the start of Basin A when it holds nothing (R59). -/
def State.PortIdle (s : State) : Prop :=
  s.Inv ∧ s.chip.released 7 = true ∧ s.chip.hpp.rdy = true ∧ s.chip.hpp.txn = none ∧ s.chip.hpp.quadNext = none ∧
    s.chip.hpp.resetRead = false ∧ s.chip.rewind = s.chip

/-- `out` is what the host clocks out of result l in a transaction of the given rising edges: after the header, the CRC word and the
turnaround (R44), every word whose last bit is clocked is the result's, and zero beyond its end (R69). -/
def ShiftedOut (quad : Bool) (edges : Nat) (l : List Nat) (out : List Word) : Prop :=
  ∀ k, crcEdges quad + 4 + wordEdges quad * (k + 1) ≤ edges → out[k]? = some (toWord (l.getD k 0))

/-! The interpreter -/

/-- The packets that a command of the interpreter is for (R94, R119). -/
def serves (i : Instr) (p : Packet) : Bool :=
  match i with
  | .unassignedOpcode _ => !opHandled p
  | .getAttr _ => opIs 0x02 p
  | .setAttr _ => opIs 0x03 p
  | .getBlock _ => opIs 0x04 p
  | .setBlock _ => opIs 0x05 p
  | .modify _ => opIs 0x06 p
  | .commitConfig _ => opIs 0x10 p
  | .armMap _ => opIs 0x11 p
  | .configCheck _ => opIs 0x12 p
  | .laneAdmit _ => opIs 0x20 p
  | .laneRetire _ => opIs 0x21 p
  | .captureArm _ => opIs 0x30 p
  | .captureRelease _ => opIs 0x31 p
  | .readPage _ _ => opIs 0x32 p
  | .timeGet _ => opIs 0x40 p
  | .timeStep _ => opIs 0x41 p
  | .timeRate _ => opIs 0x42 p
  | .tripClear _ => opIs 0x50 p
  | .faultAck _ => opIs 0x51 p
  | .resetCmd _ => opIs 0x60 p
  | .selftest _ => opIs 0x61 p
  | .commitNv _ _ => opIs 0x70 p
  | .identify _ => opIs 0x7F p
  | .patchBegin _ => patchPhase 0 p
  | .patchData _ => patchPhase 1 p
  | .patchFinish _ => patchPhase 2 p
  | _ => false

/-- The instant operand of a command of the interpreter. -/
def startAt (i : Instr) : Nat :=
  match i with
  | .unassignedOpcode t | .getAttr t | .setAttr t | .getBlock t | .setBlock t | .modify t | .commitConfig t | .armMap t
  | .configCheck t | .laneAdmit t | .laneRetire t | .captureArm t | .captureRelease t | .readPage t _ | .timeGet t | .timeStep t
  | .timeRate t | .tripClear t | .faultAck t | .resetCmd t | .selftest t | .commitNv t _ | .identify t | .patchBegin t
  | .patchData t | .patchFinish t => t
  | _ => 0

/-- The oldest packet in the basins is p, `rest` are the words behind it, and the interpreter starts it (R52, R63, R65, R115). -/
def State.HasPacket (s : State) (p : Packet) (rest : List BasinWord) : Prop :=
  s.Inv ∧ s.chip.front = some (p, rest) ∧ s.chip.ready = true

/-- Packet p is whole, framed and checked (R50, R51, R62), and its opcode is allowed: FLG, device state, LEN (R90, R94). -/
def State.Accepts (s : State) (p : Packet) : Prop :=
  p.lost = false ∧ p.badLen = false ∧ p.badCrc = false ∧
    ∃ o, opRow p.opc = some o ∧ p.flg &&& o.flg = p.flg ∧ ¬(p.opc = 0xE0 ∧ p.flg = 3) ∧ s.chip.state ∈ o.states ∧
      ∀ n, o.len = some n → p.len = n

/-- The chip from which a packet is executed: at its instant, the packet's words taken out of the basins. -/
def State.taken (s : State) (t : Nat) (rest : List BasinWord) : Chip :=
  Chip.rewind { s.chip.at_ t with hpp := { s.chip.hpp with unread := rest, taken := [], event := false } }

/-- The chip from which packet p is refused: a refused FINISH ends its load besides (R121). -/
def State.ended (s : State) (t : Nat) (rest : List BasinWord) (p : Packet) : Chip :=
  if p.isFinish then (s.taken t rest).endPatch else s.taken t rest

/-- The packet is executed from chip c and answered OK with words (R92). -/
def State.answered (s : State) (c : Chip) (p : Packet) (words : List Nat) : State :=
  { s with chip := c.answer { status := 0, tag := p.tag, flg := p.flg, words := words } }

/-- The packet is refused with a status and words, from chip c (R92). -/
def State.refused (s : State) (c : Chip) (p : Packet) (status : Nat) (words : List Nat) : State :=
  { s with chip := c.answer { status := status, tag := p.tag, flg := p.flg, words := words } }

/-- The chip after HPP.STAT flag f and counter k report a framing or CRC failure (R50, R51). -/
def faulted (c : Chip) (f k : Fld) : Chip := (c.hostFault f).inc k

/-- Packet p is whole, framed and checked (R50, R51, R62). -/
def sound (p : Packet) : Prop := p.lost = false ∧ p.badLen = false ∧ p.badCrc = false

/-! Writes -/

/-- Attributes of the blocks whose writes do nothing but store: DEV, HPP, FLT, RST, LNK, ARM, the mirror selectors apart. -/
def plainAttr (r : AttrRow) : Bool := [0, 1, 2, 3, 8, 9].contains (r.id / 1024) && r.id != 0x0404

/-- What field f of instance i holds after value v has been written to its attribute (R12). -/
def written (c : Chip) (f : FieldRow) (i v : Nat) : Nat :=
  match f.access with
  | .rw => fv v f.fld
  | .rwl => if c.dev.committed then c.get f.fld i else fv v f.fld
  | .w1c => clearBits (c.get f.fld i) (fv v f.fld) (c.freshBits f.fld i) % 2 ^ f.fld.width
  | _ => c.get f.fld i

/-- d is c with value v stored in instance i of plain attribute r: each of its fields holds what R12 says, every other field of every
attribute, and of every other instance, what it held. -/
def Stored (c d : Chip) (r : AttrRow) (i v : Nat) : Prop :=
  (∀ f ∈ r.fields, d.get f.fld i = written c f i v) ∧
    ∀ (f : Fld) (n : Nat), (∀ x ∈ r.fields, ¬(f.id = x.fld.id ∧ f.lo = x.fld.lo ∧ n = i)) → d.get f n = c.get f n

/-- Word w names instance i of attribute r, with COUNT 0 (R81). -/
def Names (w : Nat) (r : AttrRow) (i : Nat) : Prop := attrRow (arwId w) (arwInst w) = some r ∧ i = arwInst w ∧ arwCount w = 0

/-- The k-th attribute that a block packet's first word names (R97). -/
def blockAttr (p : Packet) (k : Nat) : Option AttrRow :=
  let w := p.word 0
  if p.flg.testBit 1 then attrRow (arwId w) (arwInst w + k)
  else if arwId w % 1024 + k < 1024 then attrRow (arwId w + k) (arwInst w) else none

/-- Its instance. -/
def blockInst (p : Packet) (k : Nat) : Nat := if p.flg.testBit 1 then arwInst (p.word 0) + k else arwInst (p.word 0)

/-- No check refuses value v for instance i of attribute r in chip c (R83, R90). -/
def Writable (c : Chip) (r : AttrRow) (i v : Nat) : Prop := r.readOnly = false ∧ c.valueFaults r i v (fullMask r) = []

/-- The state after an accepted SET or SET_BLOCK of writes l: stored and in effect at once outside RUN, staged in RUN (R84, R85). -/
def State.wrote (s : State) (c : Chip) (p : Packet) (l : List Write) : State := flush { s with chip := c.accept_ p l }

/-- The reply to packet p with a status and words joins the queue (R92). -/
def replyTo (s : State) (p : Packet) (status : Nat) (words : List Nat) : List Reply :=
  s.chip.hpp.replies ++ [{ status := status, tag := p.tag, flg := p.flg, words := words }]

/-! Lanes -/

/-- The code groups of a frame on a lane (R125, R128, R133, R134): K28.5, its eight bytes, its CRC. -/
def frameOnLine (rd : Bool) (b : List Nat) : List Nat := (frameGroups rd (b ++ [crc16 b / 256, crc16 b % 256])).1

/-- What a lane's receiver keeps of code groups (R126, R139): its running disparity, the end of the last valid one. -/
def LaneRec.heard (l : LaneRec) (groups : List Nat) (now : Nat) : LaneRec :=
  { l with
    rxRd := (l.receive groups).rd
    litAt := match (l.receive groups).dark with
      | some k => now - 64 * k
      | none => l.litAt }

/-! Safety inputs and outputs -/

/-- The block of SIO attributes (R78). -/
def sioStatus : List Nat := [0x1C04, 0x1C10, 0x1C11, 0x1C13, 0x1C14]

/-- In u every output on which s has no test is driven on both channels as its sources say (R455). -/
def Follows (s u : State) : Prop :=
  ∀ j, j < 4 → (s.chip.sdo j).test = none → (u.chip.sdo j).a = u.chip.sdoWanted j ∧ (u.chip.sdo j).b = u.chip.sdoWanted j

/-- The event that `raise` adds in u, after l (R472). -/
def State.event (s : State) (t src detail : Nat) : Raised := ⟨src, detail, s.at_ t, false⟩

/-! Holds -/

/-- Attributes in which a hold of arms, ports and outputs shows (R256, R258, R455). -/
def holdShown : List Nat :=
  [Reg.MON.HOLD.HELD.id, Reg.SIO.SDOSTAT.HOST.id, Reg.SIO.SDOCTL.ON.id, Reg.DHB.STAT.TRK.id, Reg.DHB.EVT.FAULT.id,
    Reg.DHB.CNT.FAULT.id, Reg.LNK.STAT.TRIPHOLD.id, Reg.MOD.LST.TRK.id]

/-- Parts in which it shows. -/
def holdParts (a b : Chip) : Chip := { a with sio := b.sio, dhb := b.dhb, lnk := b.lnk, arm := b.arm }

/-- Attributes that a latch of a comparator changes beside them (R251 to R254). -/
def latchShown : List Nat :=
  [Reg.MON.DEC.CMP.id, Reg.MON.STAT.ACTIVE.id, Reg.MON.CNT.ACT.id, Reg.MON.LATCH.LATCH.id, Reg.MON.FIRST.SRC.id,
    Reg.MON.EVT.TCOMP.id]

/-- Threshold th of comparator k is one that R247 allows at instant t: within 10 mV of its V_th, or of a threshold on the way of a DAC
that settles. -/
def State.mayThreshold (s : State) (t k : Nat) (th : Int) : Prop :=
  vth ((s.chip.at_ t).dacSpan k).1 - 10000000 ≤ th ∧ th ≤ vth ((s.chip.at_ t).dacSpan k).2 + 10000000

/-- Hysteresis h of comparator k is one that R247 and R250 allow: of the code in force until the decision's next transition. -/
def State.mayHysteresis (s : State) (k : Nat) (h : Int) : Prop :=
  let code := (nget none s.chip.mon.hyst k).getD (s.chip.get Reg.MON.CFG.HYST k)
  (hystRange code).1 ≤ h ∧ h ≤ (hystRange code).2

/-! Resets -/

/-- What a reset of level L0, L1 or main POR leaves (R488, R489): BOOT, the port as at reset, every field of these blocks at its reset
value, the keeper's figures, its record store, pending copies and log untouched. -/
structure MainReset (s u : State) : Prop where
  boot : u.chip.state = stBoot
  port : u.chip.hpp = {}
  fields : ∀ (f : Fld) (n : Nat), f.id / 1024 ∈ [1, 2, 6, 8, 9, 10, 12, 14, 15, 16, 17, 18, 19, 20] → u.chip.get f n = fieldReset f n
  keeper : ∀ (f : Fld) (n : Nat), f.id ∈ [0x0C06, 0x1011, 0x1014] → u.chip.get f n = s.chip.get f n
  store : u.chip.kpr.half = s.chip.kpr.half ∧ u.chip.kpr.pend = s.chip.kpr.pend ∧ u.chip.kpr.log = s.chip.kpr.log
  sram : u.sram = s.sram
  pending : u.pending = s.pending

/-- Command i recognises in s a reset of level code lvl (1 L0, 2 L1, 3 L2, 4 L3) of block blk: its source code in RST.STAT, and the
counters of RST.CNT that count it (R492, R115, R319, R321, R493, R506). -/
def Causes (s : State) (t : Nat) (i : Instr) (lvl src blk : Nat) (cnt : List Fld) : Prop :=
  (i = .resetBegin t ∧ src = 3 ∧ cnt = [Reg.RST.CNT.CMD] ∧
    ∃ r, s.chip.dev.resetReq = some r ∧ r.due ≤ s.at_ t ∧ lvl = r.level + 1 ∧ blk = r.block) ∨
  (i = .rstNAssert t true ∧ src = 2 ∧ cnt = [Reg.RST.CNT.RSTN] ∧ s.chip.rst.pinLow = false ∧ s.chip.rst.core = true ∧
    lvl = (if s.chip.on Reg.RST.FLVL.RSTNL then 2 else 1) ∧ blk = 0) ∨
  ((i = .refclkLoss t s.chip.selB ∨
    ∃ ppb, i = .refclkDrift t ⟨s.chip.selB, ppb⟩ ∧ 1000 * s.chip.get Reg.TIM.CLK.FTOL < ppb) ∧ src = 4 ∧ cnt = [Reg.RST.CNT.CLK] ∧ s.chip.released 1 = true ∧
    s.chip.clk (!s.chip.selB) ≠ 0 ∧ lvl = (if s.chip.on Reg.RST.FLVL.CLKL then 1 else 2) ∧ blk = 0) ∨
  (i = .dllRelockTimeout t ∧ src = 5 ∧ cnt = [Reg.RST.CNT.CLK] ∧ s.chip.released 1 = true ∧ s.chip.on Reg.TIM.STAT.DLLOCK = false ∧
    (∃ x, s.chip.tim.unlockAt = some x ∧ x + msTaps ≤ s.at_ t) ∧ lvl = (if s.chip.on Reg.RST.FLVL.DLLL then 2 else 3) ∧ blk = 0) ∨
  (i = .viohLoss t ∧ src = 6 ∧ cnt = [] ∧ s.chip.released 7 = true ∧ lvl = 4 ∧ blk = 1)

/-- A running reset sequence is graver than level code lvl (R495). -/
def Absorbed (s : State) (lvl : Nat) : Prop := ∃ q, s.chip.rst.seq = some q ∧ q.level < lvl

end Sys2Proof.Machine
end

