-- ==== Sys2Proof/Certificates/Slice0/Obligations.lean ====
section
/-! DEFINITION. The statements for the provers. -/

open Sys2Proof Sys2Proof.Machine Sys2Proof.Machine.Reg

/-- For every command i and state s: one step of s with i at the front of its queue is exec of i on s with the queue's rest. On an
empty queue the step leaves the state as it is; that the block idles then is the model's choice, log entry 18. -/
def Obligations.FrontCommandIsExecuted : Prop :=
  (∀ (i : Instr) (s : State) (l : List Instr), step { s with pending := i :: l } = exec i { s with pending := l }) ∧
  (∀ s : State, s.pending = [] → step s = .next s)

/-- For every state s in which the SRAM is in canonical form and no SRAM write is left to be entered, whatever command of the 183 is
at the front, one step answers a next state, in which the same holds and the queue is the old queue without its front. -/
def Obligations.StepKeepsSoundState : Prop :=
  ∀ s : State, s.Inv → ∃ u, step s = .next u ∧ u.Inv ∧ u.pending = s.pending.tail

/-- State.reset satisfies the invariant of StepKeepsSoundState. Its queue and its SRAM list nothing, the device state is BOOT (R74),
the port is not ready, and every field of every attribute instance reads its reset value. Where the manual gives a field no
reset value the value is the model's (log entry 4); what the blocks hold beside fields is the model's (log entry 5). -/
def Obligations.ResetLeaves : Prop :=
  State.reset.Inv ∧ State.reset.pending = [] ∧ State.reset.sram = [] ∧ State.reset.chip.state = 0 ∧
    State.reset.chip.hpp.rdy = false ∧ ∀ (f : Fld) (n : Nat), State.reset.chip.get f n = fieldReset f n

/-- At an idle, ready port, a TRANSACTION of fewer rising edges than the header phase has (32 single-lane, 17 quad-lane) leaves the
basins and the reply queue as they are, sets HPP.STAT.LENE, increments HPP.CNTLEN (saturating) and, as a begun transaction,
HPP.CNTTXN, and raises HOST_PORT. Nothing else changes but the writer's place, the instant and the ISW taken at the fall. -/
def Obligations.TruncatedHeaderDiscarded : Prop :=
  ∀ (s : State) (t edges : Nat) (data : List Byte), s.PortIdle → edges < hdrEdges s.chip.hpp.quad →
    ∃ u, exec (.transaction t edges data false) s = .next u ∧
      u.chip.hpp = { s.chip.hpp with isw := toWord s.chip.isw, out := [] } ∧
      u.chip.get HPP.STAT.LENE = 1 ∧ u.chip.get HPP.CNTLEN.COUNT = satN 32 (s.chip.get HPP.CNTLEN.COUNT + 1) ∧
      u.chip.get HPP.CNTTXN.COUNT = satN 32 (s.chip.get HPP.CNTTXN.COUNT + 1) ∧
      u.chip.flt = { s.chip.flt with raised := s.raised t 61 } ∧
      Only s u [(HPP.STAT.LENE, 0), (HPP.CNTLEN.COUNT, 0), (HPP.CNTTXN.COUNT, 0)] (fun a b => { a with hpp := b.hpp, flt := b.flt })

/-- At an idle, ready port whose basins hold nothing, a TRANSACTION of n whole bytes, 4 <= n <= 2048, none of them read early, that
the port does not serve itself leaves in the basins one packet, and the oldest whole packet is that one: its bytes are the bytes
sent, in order, none lost, with no words behind it. HPP.CNTTXN counts it; HPP.STAT.LVL may be set; no other field, no reply and
no other part of the chip changes. -/
def Obligations.TransactionStoresPacket : Prop :=
  ∀ (s : State) (t edges : Nat) (data : List Byte), s.PortIdle → s.chip.hpp.unread = [] → s.chip.hpp.taken = [] →
    bytesOfEdges s.chip.hpp.quad edges = data.length → 4 ≤ data.length → data.length ≤ 2048 →
    portServes (ofBytes ((data.map (·.toNat)).take 4)) = false →
    ∃ u p, exec (.transaction t edges data false) s = .next u ∧ u.chip.front = some (p, []) ∧
      p.bytes = data.map (·.toNat) ∧ p.lost = false ∧ u.chip.hpp.replies = s.chip.hpp.replies ∧ u.chip.hpp.txn = none ∧
      u.chip.get HPP.CNTTXN.COUNT = satN 32 (s.chip.get HPP.CNTTXN.COUNT + 1) ∧
      Only s u [(HPP.CNTTXN.COUNT, 0), (HPP.STAT.LVL, 0)] (fun a b => { a with hpp := b.hpp })

/-- At an idle, ready port, NOP with a right CRC word is served by the port: the ISW of the fall is shifted out, CNTTXN increments,
nothing enters the basins, no reply is queued, nothing else changes. With a wrong CRC word CRCE is set, CNTCRC increments and
HOST_PORT is raised besides. At a port that is not ready nothing is checked or counted and the ISW is that with RDY 0. With a
transaction open since x.at_ whose ISW was ready and IDLETO not 0, IDLE_TIMEOUT at an instant at least IDLETO x 100 us later
closes the transaction as a rise of HPSEL_N does, then sets HPP.STAT.HTO, increments HPP.CNTHTO and raises HOST_PORT: the chip
is that of the rise with these. One that was begun with RDY 0 is closed likewise, and nothing is flagged, counted or raised (the
model's choice, log entry 87). With no transaction open, with IDLETO 0, or earlier, it changes only the instant. -/
def Obligations.StatusWordAndIdleTimeout : Prop :=
  (∀ (s : State) (t tag flg : Nat) (crc : Word), s.PortIdle → tag < 256 → flg < 64 →
    crc.toNat = finalWord [mkHeader 0 tag 0 flg] →
    ∃ u, exec (.nop t tag flg crc) s = .next u ∧ u.chip.hpp = { s.chip.hpp with isw := toWord s.chip.isw, out := [] } ∧
      u.chip.get HPP.CNTTXN.COUNT = satN 32 (s.chip.get HPP.CNTTXN.COUNT + 1) ∧
      Only s u [(HPP.CNTTXN.COUNT, 0)] (fun a b => { a with hpp := b.hpp })) ∧
  (∀ (s : State) (t tag flg : Nat) (crc : Word), s.PortIdle → tag < 256 → flg < 64 →
    crc.toNat ≠ finalWord [mkHeader 0 tag 0 flg] →
    ∃ u, exec (.nop t tag flg crc) s = .next u ∧ u.chip.hpp = { s.chip.hpp with isw := toWord s.chip.isw, out := [] } ∧
      u.chip.get HPP.STAT.CRCE = 1 ∧ u.chip.get HPP.CNTCRC.COUNT = satN 32 (s.chip.get HPP.CNTCRC.COUNT + 1) ∧
      u.chip.flt = { s.chip.flt with raised := s.raised t 61 } ∧
      Only s u [(HPP.CNTTXN.COUNT, 0), (HPP.STAT.CRCE, 0), (HPP.CNTCRC.COUNT, 0)] (fun a b => { a with hpp := b.hpp, flt := b.flt })) ∧
  (∀ (s : State) (t tag flg : Nat) (crc : Word), s.Inv → s.chip.released 7 = true → s.chip.hpp.rdy = false →
    s.chip.hpp.txn = none → s.chip.hpp.quadNext = none → s.chip.hpp.resetRead = false → s.chip.rewind = s.chip → tag < 256 → flg < 64 →
    exec (.nop t tag flg crc) s =
      .next { s with chip := { s.chip.at_ t with hpp := { s.chip.hpp with isw := toWord s.chip.isw, out := [] } } }) ∧
  (∀ (s : State) (t : Nat) (x : Txn), s.Inv → s.chip.hpp.txn = some x → x.rdy = true → s.chip.get HPP.CFG.IDLETO ≠ 0 →
    x.at_ + s.chip.get HPP.CFG.IDLETO * 100 * usTaps ≤ s.at_ t →
    ∃ u, exec (.idleTimeout t) s = .next u ∧ u.chip.hpp.txn = none ∧ u.chip.get HPP.STAT.HTO = 1 ∧
      u.chip.get HPP.CNTHTO.COUNT = satN 32 (s.chip.get HPP.CNTHTO.COUNT + 1) ∧
      u.chip.hpp.replies = s.chip.hpp.replies ∧ u.sram = s.sram ∧
      u.chip = (((s.chip.at_ t).closeTxn.flag HPP.STAT.HTO).raise 61).inc HPP.CNTHTO.COUNT) ∧
  (∀ (s : State) (t : Nat) (x : Txn), s.Inv → s.chip.hpp.txn = some x → x.rdy = false → s.chip.hpp.resetRead = false →
    s.chip.get HPP.CFG.IDLETO ≠ 0 → x.at_ + s.chip.get HPP.CFG.IDLETO * 100 * usTaps ≤ s.at_ t →
    exec (.idleTimeout t) s = .next { s with chip := Chip.rewind { s.chip.at_ t with hpp := { s.chip.hpp with txn := none } } }) ∧
  (∀ (s : State) (t : Nat), s.Inv → (∀ x, s.chip.hpp.txn = some x → s.chip.get HPP.CFG.IDLETO = 0 ∨
      s.at_ t < x.at_ + s.chip.get HPP.CFG.IDLETO * 100 * usTaps) →
    exec (.idleTimeout t) s = .next { s with chip := s.chip.at_ t })

/-- At an idle, ready port with a right CRC word: PEEK drives P0 = the value of the slot named by FLG and P1 = status OK, slot and
their CRC. FETCH with FLG[0] = 0, given edges to the end of the reply at the head, drives that reply, zeros beyond its end, and
removes it; the reply becomes the last removed. FETCH with FLG[0] = 1 drives the last removed reply again and leaves the queue.
FETCH of an empty queue, or of the last reply where none has been removed, drives the marker 0xFFFF_0000, and one with a wrong
CRC word the marker 0xFFFF_0001. Each changes no field but CNTTXN (and the CRC flag and counter). A reply that carries a lane
mode or starts a reset is covered by its queue effects; for the others nothing else changes. -/
def Obligations.PeekAndFetchDrive : Prop :=
  (∀ (s : State) (t tag flg : Nat) (crc : Word), s.PortIdle → tag < 256 → flg < 64 →
    crc.toNat = finalWord [mkHeader 1 tag 0 flg] →
    ∃ u, exec (.peek t tag flg crc) s = .next u ∧
      u.chip.hpp = { s.chip.hpp with isw := toWord s.chip.isw, out := (peekWords (u.chip.mirror flg) 0 flg).map toWord } ∧
      Only s u [(HPP.CNTTXN.COUNT, 0)] (fun a b => { a with hpp := b.hpp })) ∧
  (∀ (s : State) (t tag flg edges : Nat) (crc : Word) (r : Reply) (l : List Reply), s.PortIdle → tag < 256 → flg < 64 →
    flg.testBit 0 = false → crc.toNat = finalWord [mkHeader 8 tag 0 flg] → s.chip.hpp.replies = r :: l → r.reset = false →
    r.quad = none → fetchEdges s.chip.hpp.quad r.words.length ≤ edges →
    ∃ u, exec (.fetch t tag flg crc edges) s = .next u ∧ ShiftedOut s.chip.hpp.quad edges r.packet u.chip.hpp.out ∧
      u.chip.hpp = { s.chip.hpp with isw := toWord s.chip.isw, out := u.chip.hpp.out, replies := l, last := some r } ∧
      Only s u [(HPP.CNTTXN.COUNT, 0)] (fun a b => { a with hpp := b.hpp })) ∧
  (∀ (s : State) (t tag flg edges : Nat) (crc : Word) (r : Reply), s.PortIdle → tag < 256 → flg < 64 →
    flg.testBit 0 = true → crc.toNat = finalWord [mkHeader 8 tag 0 flg] → s.chip.hpp.last = some r →
    crcEdges s.chip.hpp.quad ≤ edges →
    ∃ u, exec (.fetch t tag flg crc edges) s = .next u ∧ ShiftedOut s.chip.hpp.quad edges r.packet u.chip.hpp.out ∧
      u.chip.hpp = { s.chip.hpp with isw := toWord s.chip.isw, out := u.chip.hpp.out } ∧
      Only s u [(HPP.CNTTXN.COUNT, 0)] (fun a b => { a with hpp := b.hpp })) ∧
  (∀ (s : State) (t tag flg edges : Nat) (crc : Word), s.PortIdle → tag < 256 → flg < 64 →
    (crc.toNat = finalWord [mkHeader 8 tag 0 flg] →
      (flg.testBit 0 = false ∧ s.chip.hpp.replies = []) ∨ (flg.testBit 0 = true ∧ s.chip.hpp.last = none)) →
    crcEdges s.chip.hpp.quad ≤ edges →
    ∃ u, exec (.fetch t tag flg crc edges) s = .next u ∧
      ShiftedOut s.chip.hpp.quad edges (markerPacket
        (if crc.toNat = finalWord [mkHeader 8 tag 0 flg] then 0xFFFF0000 else 0xFFFF0001)) u.chip.hpp.out ∧
      u.chip.hpp = { s.chip.hpp with isw := toWord s.chip.isw, out := u.chip.hpp.out } ∧
      Only s u [(HPP.CNTTXN.COUNT, 0), (HPP.STAT.CRCE, 0), (HPP.CNTCRC.COUNT, 0)] (fun a b => { a with hpp := b.hpp, flt := b.flt }))

/-- At an idle, ready port and with a right CRC word: a FETCH with FLG[0] = 0 drives the reply at the head from its first word; the
reply leaves the queue, and becomes the last removed one, exactly when the edges of the transaction reach the last bit of its
final word; a FETCH that ends earlier, whatever its CRC word, leaves the queue and the last removed reply. A FETCH with FLG[0] =
1 drives the last removed reply again and leaves the queue. Whatever command of the port is executed, in any state, the last
removed reply changes only by the removal of another from the head of the queue. -/
def Obligations.FetchesReturnReplies : Prop :=
  (∀ (s : State) (t tag flg edges : Nat) (crc : Word) (r : Reply) (l : List Reply), s.PortIdle → tag < 256 → flg < 64 →
    flg.testBit 0 = false → crc.toNat = finalWord [mkHeader 8 tag 0 flg] → s.chip.hpp.replies = r :: l →
    crcEdges s.chip.hpp.quad ≤ edges →
    ∃ u, exec (.fetch t tag flg crc edges) s = .next u ∧ ShiftedOut s.chip.hpp.quad edges r.packet u.chip.hpp.out ∧
      (if fetchEdges s.chip.hpp.quad r.words.length ≤ edges then u.chip.hpp.replies = l ∧ u.chip.hpp.last = some r
        else u.chip.hpp.replies = r :: l ∧ u.chip.hpp.last = s.chip.hpp.last)) ∧
  (∀ (s : State) (t tag flg edges : Nat) (crc : Word) (r : Reply) (l : List Reply), s.PortIdle → tag < 256 → flg < 64 →
    flg.testBit 0 = false → s.chip.hpp.replies = r :: l → edges < fetchEdges s.chip.hpp.quad r.words.length →
    ∃ u, exec (.fetch t tag flg crc edges) s = .next u ∧ u.chip.hpp.replies = r :: l ∧ u.chip.hpp.last = s.chip.hpp.last) ∧
  (∀ (s : State) (t tag flg edges : Nat) (crc : Word) (r : Reply), s.PortIdle → tag < 256 → flg < 64 →
    flg.testBit 0 = true → crc.toNat = finalWord [mkHeader 8 tag 0 flg] → s.chip.hpp.last = some r →
    crcEdges s.chip.hpp.quad ≤ edges →
    ∃ u, exec (.fetch t tag flg crc edges) s = .next u ∧ ShiftedOut s.chip.hpp.quad edges r.packet u.chip.hpp.out ∧
      u.chip.hpp.replies = s.chip.hpp.replies ∧ u.chip.hpp.last = some r) ∧
  (∀ (i : Instr) (s u : State), (∃ t tag flg crc, i = .nop t tag flg crc ∨ i = .peek t tag flg crc ∨
      (∃ edges, i = .fetch t tag flg crc edges)) ∨ (∃ t edges data hold, i = .transaction t edges data hold) ∨
      (∃ t, i = .idleTimeout t) → exec i s = .next u →
    u.chip.hpp.last = s.chip.hpp.last ∧ u.chip.hpp.replies = s.chip.hpp.replies ∨
      ∃ r, s.chip.hpp.replies = r :: u.chip.hpp.replies ∧ u.chip.hpp.last = some r)

/-- For every one of the commands that execute a packet, and the oldest packet p in the basins being one that the command is for: if
bytes of p were lost the reply is BUSY without words; else if its byte count or LEN is wrong the reply is BAD_LEN with DETAIL 0,
LENE is set, CNTLEN increments and HOST_PORT is raised; else if its CRC check fails the reply is BAD_CRC without words, CRCE is
set, CNTCRC increments and HOST_PORT is raised. Exactly one reply joins the queue, it echoes TAG and FLG, and nothing else
changes but the instant and the basins, from which the packet's words are gone; where the header names PATCH_LOAD FINISH its
load ends besides: the patch area is cleared and no patch is active (R121). -/
def Obligations.UnsoundPacketsRefused : Prop :=
  (∀ (i : Instr) (s : State) (p : Packet) (rest : List BasinWord), serves i p = true → s.HasPacket p rest → p.lost = true →
    exec i s = .next (flush (s.refused (s.ended (startAt i) rest p) p stBUSY []))) ∧
  (∀ (i : Instr) (s : State) (p : Packet) (rest : List BasinWord), serves i p = true → s.HasPacket p rest → p.lost = false →
    p.badLen = true →
    exec i s = .next (flush (s.refused (faulted (s.ended (startAt i) rest p) HPP.STAT.LENE HPP.CNTLEN.COUNT) p stBADLEN [0]))) ∧
  (∀ (i : Instr) (s : State) (p : Packet) (rest : List BasinWord), serves i p = true → s.HasPacket p rest → p.lost = false →
    p.badLen = false → p.badCrc = true →
    exec i s = .next (flush (s.refused (faulted (s.ended (startAt i) rest p) HPP.STAT.CRCE HPP.CNTCRC.COUNT) p stBADCRC [])))

/-- For every command that executes a packet, the oldest packet p being one the command is for, sound, with no patch load open: an
opcode that the table of R94 does not hold, or a FLG bit that its row does not define, is answered BAD_OPC; a device state that
the row does not list is answered FUSE_INVALID in DIAG and STATE elsewhere; a LEN that differs from the row's fixed LEN is
answered BAD_LEN with LENE and CNTLEN. Each in that order, with DETAIL 0, TAG and FLG echoed, and nothing else changed but the
instant and the basins, and, where the header names PATCH_LOAD FINISH, the load, the patch area and the active patch (R121).
UNASSIGNED_OPCODE in particular, with no load open: an opcode outside the table, and PATCH_LOAD with FLG[1:0] = 3, are answered
BAD_OPC; a NOP, PEEK or FETCH with LEN other than 0 is answered BAD_LEN with LENE, CNTLEN and HOST_PORT. With no packet in the
basins, or while the interpreter cannot start one, only time passes. -/
def Obligations.DisallowedPacketsRefused : Prop :=
  (∀ (i : Instr) (s : State) (p : Packet) (rest : List BasinWord), serves i p = true → s.HasPacket p rest → sound p →
    s.chip.dev.load = none → (∀ o, opRow p.opc = some o → p.flg &&& o.flg ≠ p.flg) →
    exec i s = .next (flush (s.refused (s.ended (startAt i) rest p) p stBADOPC [0]))) ∧
  (∀ (i : Instr) (s : State) (p : Packet) (rest : List BasinWord) (o : OpRow), serves i p = true → s.HasPacket p rest → sound p →
    s.chip.dev.load = none → opRow p.opc = some o → p.flg &&& o.flg = p.flg → ¬(p.opc = 0xE0 ∧ p.flg = 3) →
    s.chip.state ∉ o.states →
    exec i s = .next (flush (s.refused (s.ended (startAt i) rest p) p (if s.chip.state = 1 then stFUSE else stSTATE) [0]))) ∧
  (∀ (i : Instr) (s : State) (p : Packet) (rest : List BasinWord) (o : OpRow) (n : Nat), serves i p = true → s.HasPacket p rest →
    sound p → s.chip.dev.load = none → opRow p.opc = some o → p.flg &&& o.flg = p.flg → ¬(p.opc = 0xE0 ∧ p.flg = 3) →
    s.chip.state ∈ o.states → o.len = some n → p.len ≠ n →
    exec i s = .next (flush (s.refused (faulted (s.ended (startAt i) rest p) HPP.STAT.LENE HPP.CNTLEN.COUNT) p stBADLEN [0]))) ∧
  (∀ (s : State) (t : Nat) (p : Packet) (rest : List BasinWord), s.HasPacket p rest → sound p → s.chip.dev.load = none →
    (opRow p.opc = none ∨ (p.opc = 0xE0 ∧ p.flg % 4 = 3 ∧ p.flg < 64) →
      exec (.unassignedOpcode t) s = .next (s.refused (s.taken t rest) p stBADOPC [0])) ∧
    (p.opc = 0x00 ∧ p.flg = 0 ∨ p.opc = 0x01 ∧ p.flg < 64 ∨ p.opc = 0x08 ∧ p.flg < 2 → p.len ≠ 0 → 1 ≤ s.chip.state →
      s.chip.state ≤ 4 →
      exec (.unassignedOpcode t) s = .next (s.refused (faulted (s.taken t rest) HPP.STAT.LENE HPP.CNTLEN.COUNT) p stBADLEN [0]))) ∧
  (∀ (s : State) (t : Nat), s.Inv → s.chip.front = none ∨ s.chip.ready = false →
    exec (.unassignedOpcode t) s = .next (s.waits t))

/-- With a patch load open and the oldest packet sound and of an opcode other than PATCH_LOAD: an opcode that the table does not
hold is refused BAD_OPC, and a TIME_GET is executed normally; in both cases the load is closed, LOADOPEN reads 0 and each of the
16,384 words of the patch area reads 0. No word of the SRAM beyond the patch area changes. -/
def Obligations.OpenLoadClosesOnOtherOpcode : Prop :=
  (∀ (i : Instr) (s : State) (p : Packet) (rest : List BasinWord), serves i p = true → s.HasPacket p rest → sound p →
    s.chip.dev.load.isSome = true → opRow p.opc = none →
    ∃ u, exec i s = .next u ∧ u.chip.hpp.replies = replyTo s p stBADOPC [0] ∧ u.chip.dev = { s.chip.dev with load := none } ∧
      u.chip.get DEV.STATE.LOADOPEN = 0 ∧ (∀ k, k < 16384 → Memory.readWord u.sram (4 * k) = 0) ∧
      ∀ a, 65536 ≤ a → Memory.readByte u.sram a = Memory.readByte s.sram a) ∧
  (∀ (t : Nat) (s : State) (p : Packet) (rest : List BasinWord), p.opc = 0x40 → s.HasPacket p rest → s.Accepts p →
    s.chip.dev.load.isSome = true →
    ∃ u, exec (.timeGet t) s = .next u ∧ (∃ ws, u.chip.hpp.replies = replyTo s p stOK ws) ∧
      u.chip.dev = { s.chip.dev with load := none } ∧ u.chip.get DEV.STATE.LOADOPEN = 0 ∧
      (∀ k, k < 16384 → Memory.readWord u.sram (4 * k) = 0) ∧
      ∀ a, 65536 ≤ a → Memory.readByte u.sram a = Memory.readByte s.sram a)

/-- An accepted GET of one or more ARWs that name defined attribute instances, with COUNT 0 and in total at most 1,023 words, is
answered OK with the words that each instance reads, in order. An accepted GET_BLOCK of n > 0 attributes that are all defined
(consecutive indices for FLG[1] = 0, consecutive instances for FLG[1] = 1), of at most 1,023 words, is answered with theirs.
Nothing else changes but the instant and the basins. -/
def Obligations.ReadsAnswerValues : Prop :=
  (∀ (t : Nat) (s : State) (p : Packet) (rest : List BasinWord) (l : List (Nat × AttrRow)), s.HasPacket p rest → s.Accepts p →
    p.opc = 0x02 → s.chip.dev.load = none → l ≠ [] → p.params = l.map (fun e => e.1) →
    (∀ e ∈ l, Names e.1 e.2 (arwInst e.1)) → (l.map (fun e => e.2.words)).sum ≤ 1023 →
    exec (.getAttr t) s = .next (s.answered (s.taken t rest) p (l.flatMap (fun e => (s.taken t rest).readWords e.2 (arwInst e.1))))) ∧
  (∀ (t : Nat) (s : State) (p : Packet) (rest : List BasinWord) (rows : Nat → AttrRow), s.HasPacket p rest → s.Accepts p →
    p.opc = 0x04 → s.chip.dev.load = none → arwCount (p.word 0) ≠ 0 →
    (∀ k, k < arwCount (p.word 0) → blockAttr p k = some (rows k)) →
    ((List.range (arwCount (p.word 0))).map (fun k => (rows k).words)).sum ≤ 1023 →
    exec (.getBlock t) s = .next (s.answered (s.taken t rest) p
      ((List.range (arwCount (p.word 0))).flatMap (fun k => (s.taken t rest).readWords (rows k) (blockInst p k)))))

/-- An accepted SET whose parameter words are entries of an ARW and as many value words as the attribute is wide, or an accepted
SET_BLOCK of n > 0 defined attributes and their values, where no check refuses a value, is accepted as the list of its writes.
In RUN that list joins the staged packets, every other part of the chip is left, and the OK reply is queued at once or, with
WAIT, is left waiting with the packet. Outside RUN every write is in effect before the OK reply is queued. -/
def Obligations.SetsAreAccepted : Prop :=
  (∀ (t : Nat) (s : State) (p : Packet) (rest : List BasinWord) (l : List (Nat × List Nat × AttrRow)), s.HasPacket p rest →
    s.Accepts p → p.opc = 0x03 → s.chip.dev.load = none → l ≠ [] → p.params = l.flatMap (fun e => e.1 :: e.2.1) →
    (∀ e ∈ l, attrRow (arwId e.1) (arwInst e.1) = some e.2.2 ∧ arwCount e.1 = 0 ∧ e.2.1.length = e.2.2.words ∧
      Writable (s.taken t rest) e.2.2 (arwInst e.1) (wordsValue e.2.1)) →
    exec (.setAttr t) s = .next (s.wrote (s.taken t rest) p
      (l.map (fun e => ⟨arwId e.1, arwInst e.1, wordsValue e.2.1⟩)))) ∧
  (∀ (t : Nat) (s : State) (p : Packet) (rest : List BasinWord) (rows : Nat → AttrRow) (vals : Nat → List Nat),
    s.HasPacket p rest → s.Accepts p → p.opc = 0x05 → s.chip.dev.load = none → arwCount (p.word 0) ≠ 0 →
    (∀ k, k < arwCount (p.word 0) → blockAttr p k = some (rows k) ∧ (vals k).length = (rows k).words ∧
      Writable (s.taken t rest) (rows k) (blockInst p k) (wordsValue (vals k))) →
    p.params = p.word 0 :: (List.range (arwCount (p.word 0))).flatMap vals →
    exec (.setBlock t) s = .next (s.wrote (s.taken t rest) p ((List.range (arwCount (p.word 0))).map
      (fun k => ⟨(rows k).id, blockInst p k, wordsValue (vals k)⟩)))) ∧
  (∀ (t : Nat) (s : State) (p : Packet) (rest : List BasinWord) (l : List Write), s.HasPacket p rest → s.chip.inRun = true →
    s.wrote (s.taken t rest) p l =
      (let r : Reply := { status := stOK, tag := p.tag, flg := p.flg, words := [], quad := quadOf l, reset := s.chip.kpr.sleepDue.isSome }
       let c := s.taken t rest
       let staged := fun (x : Staged) (q : Option Wait) =>
         ({ c with dev := { c.dev with staged := c.dev.staged ++ [x], wait := q } } : Chip)
       if p.flg.testBit 0 then { s with chip := staged ⟨l, some r, none⟩ (some .applied) }
       else { s with chip := (staged ⟨l, none, none⟩ none).answer r })) ∧
  (∀ (t : Nat) (s : State) (p : Packet) (rest : List BasinWord) (l : List Write), s.HasPacket p rest → s.chip.inRun = false →
    s.wrote (s.taken t rest) p l =
      (let c := (s.taken t rest).applyWrites l
       flush { s with chip := c.answer (c.wroteReply p.tag p.flg l []) }))

/-- For an attribute of a block whose writes only store (DEV, HPP, FLT, RST, LNK, ARM): a SET of one instance outside RUN, a
STAGED_WRITES_APPLY of a staged packet with that one write in RUN, and a MODIFY of it outside RUN or, waiting, its MODIFY_STEP
in RUN, leave each RW field with the value written, each RWL field with it only while the configuration is not committed, each
W1C field without the bits written 1 and not set by hardware at the same instant, and every other field of every attribute
instance as it was. MODIFY writes (old AND NOT MASK) OR (VALUE AND MASK) and answers the value read and the value written.
STAGED_WRITES_APPLY takes the packet off the staged list and acts at the coming tick reference; so does MODIFY_STEP. -/
def Obligations.WritesStoreFields : Prop :=
  (∀ (t : Nat) (s : State) (p : Packet) (rest : List BasinWord) (w : Nat) (l : List Nat) (r : AttrRow), s.HasPacket p rest →
    s.Accepts p → p.opc = 0x03 → s.chip.dev.load = none → s.chip.inRun = false → p.params = w :: l → l.length = r.words →
    Names w r (arwInst w) → plainAttr r = true → Writable (s.taken t rest) r (arwInst w) (wordsValue l) →
    ∃ u, exec (.setAttr t) s = .next u ∧ Stored (s.chip.at_ t) u.chip r (arwInst w) (wordsValue l) ∧ u.sram = s.sram ∧
      ∃ q, u.chip.hpp.replies = s.chip.hpp.replies ++
        [{ status := stOK, tag := p.tag, flg := p.flg, words := [], quad := q, reset := s.chip.kpr.sleepDue.isSome }]) ∧
  (∀ (s : State) (w : Write) (r : AttrRow) (x : Staged) (l : List Staged), s.Inv → s.chip.inRun = true →
    s.chip.dev.ticking = true → s.chip.dev.staged = x :: l → x.writes = [w] → x.arm = none → attrRow w.id w.inst = some r →
    plainAttr r = true →
    ∃ u, exec .stagedWritesApply s = .next u ∧ Stored (s.chip.at_ s.chip.dev.nextT0) u.chip r w.inst w.value ∧ u.sram = s.sram ∧
      u.chip.dev.staged = l ∧ u.chip.now = s.at_ s.chip.dev.nextT0 ∧
      u.chip.hpp.replies = (if s.chip.hpp.rdy then s.chip.hpp.replies ++ x.reply.toList else s.chip.hpp.replies)) ∧
  (∀ (t : Nat) (s : State) (p : Packet) (rest : List BasinWord) (w m v : Nat) (r : AttrRow), s.HasPacket p rest → s.Accepts p →
    p.opc = 0x06 → s.chip.dev.load = none → p.params = [w, m, v] → Names w r (arwInst w) → r.words = 1 → r.readOnly = false →
    (s.chip.inRun = true → exec (.modify t) s =
      .next { s with chip := { s.taken t rest with dev := { s.chip.dev with
        wait := some (.modify p.tag p.flg [⟨arwId w, arwInst w, m, v⟩]) } } }) ∧
    (s.chip.inRun = false → plainAttr r = true → r.fields.all (fun f => f.access == .rw) = true →
      (s.taken t rest).valueFaults r (arwInst w) (modValue r ((s.taken t rest).readAttr r (arwInst w)) ⟨arwId w, arwInst w, m, v⟩) m
        = [] →
      ∃ u, exec (.modify t) s = .next u ∧ (let old := (s.taken t rest).readAttr r (arwInst w)
        let new := modValue r old ⟨arwId w, arwInst w, m, v⟩
        Stored (s.chip.at_ t) u.chip r (arwInst w) new ∧ ∃ q z sh, u.chip.hpp.replies = s.chip.hpp.replies ++
          [{ status := stOK, tag := p.tag, flg := p.flg, words := [old, new &&& keepMask r], quad := q, reset := z, shown := sh }]))) ∧
  (∀ (s : State) (tag flg : Nat) (e : ModEntry) (r : AttrRow), s.Inv → s.chip.inRun = true → s.chip.dev.ticking = true →
    s.chip.hpp.rdy = true → s.chip.dev.wait = some (.modify tag flg [e]) → attrRow e.id e.inst = some r → plainAttr r = true →
    r.fields.all (fun f => f.access == .rw) = true →
    (s.chip.at_ s.chip.dev.nextT0).valueFaults r e.inst (modValue r ((s.chip.at_ s.chip.dev.nextT0).readAttr r e.inst) e) e.mask = [] →
    ∃ u, exec .modifyStep s = .next u ∧ (let old := (s.chip.at_ s.chip.dev.nextT0).readAttr r e.inst
      Stored (s.chip.at_ s.chip.dev.nextT0) u.chip r e.inst (modValue r old e) ∧ u.chip.dev = { s.chip.dev with wait := none } ∧
      ∃ q z sh, u.chip.hpp.replies = s.chip.hpp.replies ++
        [{ status := stOK, tag := tag, flg := flg, words := [old, modValue r old e &&& keepMask r], quad := q, reset := z, shown := sh }]))

/-- An accepted CONFIG_CHECK leaves DEV.CFGRES with the result of the first failing check and its block and DEV.FOPS with F, answers
OK when the result is 0 and RANGE otherwise, always with the three words of R103: DEV.CFGRES, F, and (1,050 + F) / 8 rounded up.
RESULT is 1 exactly when LAUNCH x 8 ns is below 1,050 ns + F ns, and 2 when that holds not and PERIOD is below LAUNCH + 12. No
other field, and no other part but the port, changes. -/
def Obligations.ConfigIsChecked : Prop :=
  ∀ (t : Nat) (s : State) (p : Packet) (rest : List BasinWord), s.HasPacket p rest → s.Accepts p → p.opc = 0x12 →
    s.chip.dev.load = none →
    ∃ u, exec (.configCheck t) s = .next u ∧
      (let c := s.taken t rest
       let r := c.configResult
       u.chip.get DEV.CFGRES.RESULT = r.1 % 256 ∧ u.chip.get DEV.CFGRES.BLOCK = r.2 % 64 ∧
       u.chip.get DEV.FOPS.F = c.opsF % 2 ^ 24 ∧
       u.chip.hpp.replies = replyTo s p (if r.1 = 0 then stOK else stRANGE)
         [2 ^ 24 * (r.1 % 256) + 2 ^ 16 * (r.2 % 64), c.opsF % 2 ^ 24, (1050 + c.opsF + 7) / 8 % 2 ^ 14] ∧
       (r.1 = 1 ↔ 8 * s.chip.get DEV.LAUNCH.LAUNCH < 1050 + c.opsF) ∧
       (r.1 = 2 ↔ 1050 + c.opsF ≤ 8 * s.chip.get DEV.LAUNCH.LAUNCH ∧
         s.chip.get DEV.TICK.PERIOD < s.chip.get DEV.LAUNCH.LAUNCH + 12)) ∧
      Only s u [(DEV.CFGRES.RESULT, 0), (DEV.CFGRES.BLOCK, 0), (DEV.FOPS.F, 0)] (fun a b => { a with hpp := b.hpp })

/-- An accepted COMMIT_CONFIG whose checks all pass leaves the configuration committed and the device in RUN, answers OK with the
three words of R103, and places ticks: with TICKSRC 2 the device waits for SYNC_IN, with TICKSRC 0 the first reference is the
first TB edge at least 100 us after the reply, with TICKSRC 1 it is a TB edge no earlier than that at which floor(T / 64) mod
PERIOD is GOFS, where one comes. When a check fails the reply is RANGE with the words, the device stays in CONFIG, uncommitted,
and only DEV.CFGRES, DEV.FOPS and CTL.STAT.FPT change. -/
def Obligations.CommitEntersRun : Prop :=
  ∀ (t : Nat) (s : State) (p : Packet) (rest : List BasinWord), s.HasPacket p rest → s.Accepts p → p.opc = 0x10 →
    s.chip.dev.load = none →
    ((s.taken t rest).configResult.1 = 0 →
      ∃ u, exec (.commitConfig t) s = .next u ∧ u.chip.dev.committed = true ∧ u.chip.state = stRun ∧
        u.chip.get DEV.CFGRES.RESULT = 0 ∧
        u.chip.hpp.replies = replyTo s p stOK
          [2 ^ 16 * ((s.taken t rest).configResult.2 % 64), (s.taken t rest).opsF % 2 ^ 24,
            (1050 + (s.taken t rest).opsF + 7) / 8 % 2 ^ 14] ∧
        (s.chip.get TIM.CFG.TICKSRC = 2 → u.chip.get TIM.STAT.WAITSYNC = 1) ∧
        (s.chip.get TIM.CFG.TICKSRC = 0 → u.chip.dev.ticking = true) ∧
        (s.chip.get TIM.CFG.TICKSRC = 0 → u.chip.dev.nextT0 =
          s.chip.tim.c0 + 64 * (((s.chip.at_ t).raw (s.at_ t) + 100 * usTaps + 63) / 64)) ∧
        (s.chip.get TIM.CFG.TICKSRC = 1 → u.chip.dev.ticking = true → ∃ k : Nat, u.chip.dev.nextT0 = s.chip.tim.c0 + 64 * k ∧
          (s.chip.at_ t).raw (s.at_ t) + 100 * usTaps ≤ 64 * k ∧
          s.chip.timeSet.time (64 * k) / 64 % s.chip.get DEV.TICK.PERIOD = s.chip.get TIM.GRID.GOFS)) ∧
    ((s.taken t rest).configResult.1 ≠ 0 →
      ∃ u, exec (.commitConfig t) s = .next u ∧ (let r := (s.taken t rest).configResult
        u.chip.hpp.replies = replyTo s p stRANGE [2 ^ 24 * (r.1 % 256) + 2 ^ 16 * (r.2 % 64), (s.taken t rest).opsF % 2 ^ 24,
          (1050 + (s.taken t rest).opsF + 7) / 8 % 2 ^ 14]) ∧
        Only s u [(DEV.CFGRES.RESULT, 0), (DEV.CFGRES.BLOCK, 0), (DEV.FOPS.F, 0), (CTL.STAT.FPT, 0)]
          (fun a b => { a with hpp := b.hpp }))

/-- For an accepted ARM_MAP of arm a <= 5 whose mask holds at most 96 lanes, none of them in another arm: every lane of the mask is
in arm a at its place in ascending order, every other lane that was in arm a is in no arm, every other lane is as it was, and
the reply is OK without words. With a of 6 or 7, more than 96 lanes or a lane of another arm the reply is RANGE with DETAIL 0
and nothing changes. -/
def Obligations.ArmMapAssignsLanes : Prop :=
  ∀ (t : Nat) (s : State) (p : Packet) (rest : List BasinWord) (a : Nat) (l : List Nat), s.HasPacket p rest → s.Accepts p →
    p.opc = 0x11 → s.chip.dev.load = none → a = p.word 0 % 8 → l = setBits 192 (wordsValue (p.params.drop 1)) →
    (a ≤ 5 ∧ l.length ≤ 96 ∧ (∀ n ∈ l, s.chip.laneArm n < 6 → s.chip.laneArm n = a) →
      ∃ u, exec (.armMap t) s = .next u ∧ u.chip.hpp.replies = replyTo s p stOK [] ∧
        (∀ n, n < 192 → u.chip.get LNK.STATE.ARM n =
          (if n ∈ l then a else if s.chip.laneArm n = a then 0xFF else s.chip.laneArm n)) ∧
        (∀ n, n < 192 → u.chip.get ARM.LST.POS n =
          (if n ∈ l then l.idxOf n else if s.chip.laneArm n = a then 0x7F else s.chip.get ARM.LST.POS n)) ∧
        Only s u ((List.range 192).flatMap (fun n => [(LNK.STATE.ARM, n), (ARM.LST.POS, n)])) (fun a b => { a with hpp := b.hpp })) ∧
    (5 < a ∨ 96 < l.length ∨ (∃ n ∈ l, s.chip.laneArm n < 6 ∧ s.chip.laneArm n ≠ a) →
      exec (.armMap t) s = .next (s.refused (s.taken t rest) p stRANGE [0]))

/-- An accepted LANE_ADMIT of a lane of an arm, in STANDBY or in BLOCKED with lock, its arm not held, waits: nothing else changes.
At the coming tick reference LANE_ADMIT_START enters the lane into ADMIT when that still holds, with its admission to start, and
answers OK with the state before; else it answers STATE. An accepted LANE_RETIRE of a lane of an arm that is neither BLOCKED nor
OFF puts it into BLOCKED with cause 1, sets RETIRED, takes BYPASS from the packet and answers the old state. A lane beyond 191
or of no arm is refused RANGE, a lane not in a fitting state STATE. No other lane and no other field changes. -/
def Obligations.LaneCommands : Prop :=
  (∀ (t : Nat) (s : State) (p : Packet) (rest : List BasinWord), s.HasPacket p rest → s.Accepts p → p.opc = 0x20 →
    s.chip.dev.load = none →
    exec (.laneAdmit t) s = .next (
      if 191 < p.word 0 % 256 ∨ 5 < s.chip.laneArm (p.word 0 % 256) then s.refused (s.taken t rest) p stRANGE [0]
      else if s.chip.admissible (p.word 0 % 256) then { s with chip := { s.taken t rest with dev := { s.chip.dev with
        wait := some (.admission p.tag p.flg (p.word 0 % 256)) } } }
      else s.refused (s.taken t rest) p stSTATE [0])) ∧
  (∀ (s : State) (tag flg n : Nat), s.Inv → s.chip.inRun = true → s.chip.dev.ticking = true → s.chip.hpp.rdy = true →
    s.chip.dev.wait = some (.admission tag flg n) → n < 192 →
    ∃ u, exec .laneAdmitStart s = .next u ∧ u.chip.dev = { s.chip.dev with wait := none } ∧
      u.chip.now = s.at_ s.chip.dev.nextT0 ∧
      (s.chip.admissible n = true →
        u.chip.lstate n = lsAdmit ∧ (u.chip.lane n).adm = some {} ∧ (∀ m, m ≠ n → u.chip.lane m = s.chip.lane m) ∧
        u.chip.hpp = { s.chip.hpp with replies := s.chip.hpp.replies ++ [{ status := stOK, tag := tag, flg := flg, words := [s.chip.lstate n] }] } ∧
        Only s u [(LNK.STATE.STATE, n), (GPR.LDIAG.ODRES, n)] (fun a b => { a with hpp := b.hpp, dev := b.dev, lnk := b.lnk })) ∧
      (s.chip.admissible n = false →
        u.chip.hpp = { s.chip.hpp with replies := s.chip.hpp.replies ++ [{ status := stSTATE, tag := tag, flg := flg, words := [0] }] } ∧
        Only s u [] (fun a b => { a with hpp := b.hpp, dev := b.dev }))) ∧
  (∀ (t : Nat) (s : State) (p : Packet) (rest : List BasinWord) (n : Nat), s.HasPacket p rest → s.Accepts p → p.opc = 0x21 →
    s.chip.dev.load = none → n = p.word 0 % 256 → n ≤ 191 → s.chip.laneArm n ≤ 5 → s.chip.lstate n ≠ lsBlocked →
    s.chip.lstate n ≠ lsOff →
    ∃ u, exec (.laneRetire t) s = .next u ∧ u.chip.lstate n = lsBlocked ∧ u.chip.get LNK.STATE.CAUSE n = 1 ∧
      u.chip.get LNK.STAT.RETIRED n = 1 ∧ (u.chip.lane n).byp = (p.word 0).testBit 8 ∧
      (∀ m, m ≠ n → u.chip.lane m = s.chip.lane m) ∧ u.chip.hpp.replies = replyTo s p stOK [s.chip.lstate n] ∧
      Only s u [(LNK.STATE.STATE, n), (LNK.STATE.CAUSE, n), (LNK.STAT.RETIRED, n), (LNK.STATE.STEP, n)]
        (fun a b => { a with hpp := b.hpp, lnk := b.lnk })) ∧
  (∀ (t : Nat) (s : State) (p : Packet) (rest : List BasinWord) (n : Nat), s.HasPacket p rest → s.Accepts p → p.opc = 0x21 →
    s.chip.dev.load = none → n = p.word 0 % 256 →
    (191 < n ∨ 5 < s.chip.laneArm n → exec (.laneRetire t) s = .next (s.refused (s.taken t rest) p stRANGE [0])) ∧
    (n ≤ 191 → s.chip.laneArm n ≤ 5 → s.chip.lstate n = lsBlocked ∨ s.chip.lstate n = lsOff →
      exec (.laneRetire t) s = .next (s.refused (s.taken t rest) p stSTATE [0])))

/-- An accepted CAPTURE_ARM of a ring in RUN or ARMED with a defined TRIG code and PRE + 1 + POST <= MINP is answered OK with ARMED;
in device state RUN the arming is staged for the tick reference, elsewhere PRE, POST, TRIG and ARMED stand at once.
CAPTURE_RELEASE of a FROZEN ring frees every frozen page, forgets them, links past them and returns the ring to RUN, reply RUN;
of a QUEUE ring whose consumer is the host it frees the oldest closed page. PGM_HOST_TRIGGER of a mask adds one trigger in
flight: in RUN for every ring of the mask, at the coming tick reference, elsewhere at once for those of its rings that are
ARMED, in POST or FROZEN, none when there is no such ring. It changes nothing else. -/
def Obligations.CaptureCommands : Prop :=
  (∀ (t : Nat) (s : State) (p : Packet) (rest : List BasinWord) (r pre post trig : Nat), s.HasPacket p rest → s.Accepts p →
    p.opc = 0x30 → s.chip.dev.load = none → r = bitsOf (p.word 0) 28 24 → pre = bitsOf (p.word 0) 15 8 →
    post = bitsOf (p.word 0) 7 0 → trig = bitsOf (p.word 1) 6 0 → trig < 72 ∨ trig = 127 →
    pre + 1 + post ≤ s.chip.get PGM.RCFG.MINP r → s.chip.rstate r = rsRun ∨ s.chip.rstate r = rsArmed →
    (s.chip.inRun = true → exec (.captureArm t) s = .next (s.answered { s.taken t rest with dev := { s.chip.dev with
      staged := s.chip.dev.staged ++ [⟨[], none, some (r, pre, post, trig)⟩] } } p [rsArmed])) ∧
    (s.chip.inRun = false → ∃ u, exec (.captureArm t) s = .next u ∧ u.chip.rstate r = rsArmed ∧ u.chip.get PGM.CAP.PRE r = pre ∧
      u.chip.get PGM.CAP.POST r = post ∧ u.chip.get PGM.CAP.TRIG r = trig ∧ u.chip.hpp.replies = replyTo s p stOK [rsArmed] ∧
      Only s u [(PGM.CAP.STATE, r), (PGM.CAP.PRE, r), (PGM.CAP.POST, r), (PGM.CAP.TRIG, r)] (fun a b => { a with hpp := b.hpp }))) ∧
  (∀ (t : Nat) (s : State) (p : Packet) (rest : List BasinWord) (r : Nat), s.HasPacket p rest → s.Accepts p → p.opc = 0x31 →
    s.chip.dev.load = none → r = bitsOf (p.word 0) 28 24 → s.chip.rstate r = rsFrozen → (∀ q ∈ (s.chip.ring r).frozen, q < 2048) →
    ∃ u, exec (.captureRelease t) s = .next u ∧ u.chip.rstate r = rsRun ∧ (∀ q ∈ (s.chip.ring r).frozen, u.chip.pd PGM.PDSC.PST q = pstFree) ∧
      (u.chip.ring r).frozen = [] ∧
      (u.chip.ring r).pages = (s.chip.ring r).pages.filter (fun q => !(s.chip.ring r).frozen.contains q) ∧
      (∀ k, k ≠ r → u.chip.ring k = s.chip.ring k) ∧ u.chip.hpp.replies = replyTo s p stOK [rsRun] ∧
      Only s u ([(PGM.CAP.STATE, r), (PGM.CAP.TPAGE, r), (PGM.CAP.FIRST, r)] ++ (s.chip.ring r).frozen.flatMap
        (fun q => [(pdsc PGM.PDSC.PST q, q % 256), (pdsc PGM.PDSC.TRG q, q % 256)]) ++
        (s.chip.ring r).pages.map (fun q => (pdsc PGM.PDSC.NEXT q, q % 256))) (fun a b => { a with hpp := b.hpp, pgm := b.pgm })) ∧
  (∀ (t : Nat) (s : State) (p : Packet) (rest : List BasinWord) (r q : Nat), s.HasPacket p rest → s.Accepts p → p.opc = 0x31 →
    s.chip.dev.load = none → r = bitsOf (p.word 0) 28 24 → s.chip.rstate r = rsQueue → s.chip.ringInternal r = false →
    s.chip.oldestClosed r = some q →
    ∃ u, exec (.captureRelease t) s = .next u ∧ u.chip.pd PGM.PDSC.PST q = pstFree ∧
      (u.chip.ring r).pages = (s.chip.ring r).pages.filter (fun x => x != q) ∧ u.chip.hpp.replies = replyTo s p stOK [rsQueue] ∧
      Only s u ([(pdsc PGM.PDSC.PST q, q % 256), (pdsc PGM.PDSC.TRG q, q % 256)] ++
        (s.chip.ring r).pages.map (fun x => (pdsc PGM.PDSC.NEXT x, x % 256))) (fun a b => { a with hpp := b.hpp, pgm := b.pgm })) ∧
  (∀ (t go : Nat) (s : State), s.Inv → s.chip.fabric = true →
    ∃ u, exec (.pgmHostTrigger t go) s = .next u ∧ Only s u [] (fun a b => { a with pgm := b.pgm }) ∧
      ∃ l m, u.chip.pgm = { s.chip.pgm with trig := s.chip.pgm.trig ++ l } ∧
        l = (if m = 0 then [] else
          [(.host m, (s.chip.at_ t).raw (if s.chip.inRun && s.chip.dev.ticking then s.chip.dev.nextT0 else s.at_ t))]) ∧
        ∀ r, m.testBit r = (decide (r < 32) && go.testBit r && (s.chip.inRun ||
          s.chip.rstate r == rsArmed || s.chip.rstate r == rsPost || s.chip.rstate r == rsFrozen)))

/-- An accepted READ_PAGE of a common page or a page of the patch area, COUNT 1 to 512, OFFSET + COUNT at most 1,024, not fuse-
locked below page 160: with no error found it answers the COUNT words at byte address 4,096 x PAGE + 4 x OFFSET and an ECC word
of 0, and changes nothing but the port and the count of free values. With one error in a word pair read it counts, flags,
locates and raises it; the ECC word is 1 and the data stands when it was corrected, and is 2 with both words of the pair 0 when
it was not. Pages below 160 are refused ACCESS while debug is fuse-locked, a COUNT or OFFSET outside its range RANGE. -/
def Obligations.PageIsRead : Prop :=
  (∀ (t : Nat) (s : State) (p : Packet) (rest : List BasinWord) (g ofs n : Nat), s.HasPacket p rest → s.Accepts p → p.opc = 0x32 →
    s.chip.dev.load = none → g = bitsOf (p.word 0) 10 0 → ofs = bitsOf (p.word 1) 25 16 → n = bitsOf (p.word 1) 9 0 →
    g < 16 ∨ 160 ≤ g → (g < 160 → s.chip.get RST.FSEC.DBGLOCK = 0) → 1 ≤ n → n ≤ 512 → ofs + n ≤ 1024 →
    exec (.readPage t []) s = .next (s.answered { s.taken t rest with free := s.chip.free + 1 } p
      ((List.range n).map (fun k => (Memory.readWord s.sram (4096 * g + 4 * (ofs + k))).toNat) ++ [0]))) ∧
  (∀ (t : Nat) (s : State) (p : Packet) (rest : List BasinWord) (g ofs n w : Nat) (ue : Bool), s.HasPacket p rest → s.Accepts p →
    p.opc = 0x32 → s.chip.dev.load = none → g = bitsOf (p.word 0) 10 0 → ofs = bitsOf (p.word 1) 25 16 → n = bitsOf (p.word 1) 9 0 →
    g < 16 ∨ 160 ≤ g → (g < 160 → s.chip.get RST.FSEC.DBGLOCK = 0) → 1 ≤ n → n ≤ 512 → ofs + n ≤ 1024 → ofs ≤ 2 * w + 1 →
    2 * w < ofs + n →
    ∃ u, exec (.readPage t [(w, ue)]) s = .next u ∧
      u.chip.hpp.replies = replyTo s p stOK ((List.range n).map (fun k => if ue = true ∧ (ofs + k) / 2 = w then 0 else
        (Memory.readWord s.sram (4096 * g + 4 * (ofs + k))).toNat) ++ [if ue then 2 else 1]) ∧
      u.chip.get (if ue then PGM.ECC.UE else PGM.ECC.CE) = satN (if ue then PGM.ECC.UE else PGM.ECC.CE).width
        (s.chip.get (if ue then PGM.ECC.UE else PGM.ECC.CE) + 1) ∧
      u.chip.get (if ue then PGM.EVT.UE else PGM.EVT.CE) = 1 ∧ u.chip.get PGM.ECC.PAGE = g ∧ u.chip.get PGM.ECC.WORD = w ∧
      u.chip.get PGM.ECC.LASTUE = bit ue ∧ u.sram = s.sram ∧ u.chip.dev = s.chip.dev) ∧
  (∀ (t : Nat) (s : State) (p : Packet) (rest : List BasinWord) (errs : List (Nat × Bool)) (g ofs n : Nat), s.HasPacket p rest →
    s.Accepts p → p.opc = 0x32 → s.chip.dev.load = none → g = bitsOf (p.word 0) 10 0 → ofs = bitsOf (p.word 1) 25 16 →
    n = bitsOf (p.word 1) 9 0 →
    (g < 160 ∧ s.chip.get RST.FSEC.DBGLOCK ≠ 0 → exec (.readPage t errs) s = .next (s.refused (s.taken t rest) p stACCESS [0])) ∧
    (¬(g < 160 ∧ s.chip.get RST.FSEC.DBGLOCK ≠ 0) → n = 0 ∨ 512 < n ∨ 1024 < ofs + n →
      exec (.readPage t errs) s = .next (s.refused (s.taken t rest) p stRANGE [0])))

/-- An accepted TIME_GET answers corrected time of its instant in 8 ns units, its TAP, TVALID and HOLD, and changes nothing. While
PTP does not discipline the time base: TIME_STEP adds its signed step to OFS; TIME_RATE within +-219,902,325 sets RATE and moves
the anchor to a TB edge at least two cycles later with the corrected time of that edge kept. Each is answered OK and changes no
other field. While PTP disciplines it both are refused STATE; a RATE outside the range is refused RANGE. -/
def Obligations.TimeCommands : Prop :=
  (∀ (t : Nat) (s : State) (p : Packet) (rest : List BasinWord), s.HasPacket p rest → s.Accepts p → p.opc = 0x40 →
    s.chip.dev.load = none →
    exec (.timeGet t) s = .next (s.answered (s.taken t rest) p
      (let x := (s.chip.at_ t).stamp ((s.chip.at_ t).raw (s.at_ t))
       [x.1 % 2 ^ 32, x.1 / 2 ^ 32, x.2 + 256 * bit (s.chip.on TIM.STAT.TVALID) + 512 * bit (s.chip.on TIM.STAT.HOLD)]))) ∧
  (∀ (t : Nat) (s : State) (p : Packet) (rest : List BasinWord), s.HasPacket p rest → s.Accepts p → p.opc = 0x41 →
    s.chip.dev.load = none → s.chip.ptpDisciplines = false →
    ∃ u, exec (.timeStep t) s = .next u ∧ u.chip.hpp.replies = replyTo s p stOK [] ∧
      u.chip.get TIM.OFS.OFS = ofSigned TIM.OFS.OFS.width
        (s.chip.getI TIM.OFS.OFS + toSigned 64 (p.word 0 + 2 ^ 32 * p.word 1)) % 2 ^ TIM.OFS.OFS.width ∧
      Only s u [(TIM.OFS.OFS, 0)] (fun a b => { a with hpp := b.hpp, tim := b.tim, pmu := b.pmu })) ∧
  (∀ (t : Nat) (s : State) (p : Packet) (rest : List BasinWord) (r : Int), s.HasPacket p rest → s.Accepts p → p.opc = 0x42 →
    s.chip.dev.load = none → s.chip.ptpDisciplines = false → r = toSigned 32 (p.word 0) → -219902325 ≤ r → r ≤ 219902325 →
    ∃ u, exec (.timeRate t) s = .next u ∧ u.chip.hpp.replies = replyTo s p stOK [] ∧
      u.chip.get TIM.RATE.RATE = ofSigned TIM.RATE.RATE.width r % 2 ^ TIM.RATE.RATE.width ∧
      u.chip.tim.x0 % 64 = 0 ∧ (s.chip.at_ t).raw (s.at_ t) + 2 * 64 ≤ u.chip.tim.x0 ∧
      u.chip.get TIM.OFS.OFS = ofSigned TIM.OFS.OFS.width
        (s.chip.timeSet.time u.chip.tim.x0 - u.chip.tim.x0) % 2 ^ TIM.OFS.OFS.width ∧
      Only s u [(TIM.OFS.OFS, 0), (TIM.RATE.RATE, 0)] (fun a b => { a with hpp := b.hpp, tim := b.tim })) ∧
  (∀ (t : Nat) (s : State) (p : Packet) (rest : List BasinWord), s.HasPacket p rest → s.Accepts p → s.chip.dev.load = none →
    (p.opc = 0x41 → s.chip.ptpDisciplines = true → exec (.timeStep t) s = .next (s.refused (s.taken t rest) p stSTATE [0])) ∧
    (p.opc = 0x42 → toSigned 32 (p.word 0) < -219902325 ∨ 219902325 < toSigned 32 (p.word 0) →
      exec (.timeRate t) s = .next (s.refused (s.taken t rest) p stRANGE [0])) ∧
    (p.opc = 0x42 → ¬(toSigned 32 (p.word 0) < -219902325 ∨ 219902325 < toSigned 32 (p.word 0)) → s.chip.ptpDisciplines = true →
      exec (.timeRate t) s = .next (s.refused (s.taken t rest) p stSTATE [0])))

/-- An accepted TRIP_CLEAR with word 3 below 256: with a named source active it is refused TRIP_ACTIVE with the mask of active named
sources, CLRREF is set and no latch changes; else exactly the latches named are cleared, the reply carries those that were set,
and while ticks run nothing else changes (holds end at the reference), while without ticks the held targets become those the
remaining latches route to. Word 3 of 256 or more is refused RANGE. An accepted FAULT_ACK while ticks run, no source having an
event at this very instant, answers the mask of named sources that may be acknowledged, clears exactly their status bits, and
takes them out of PEND of every unacknowledged record; a record whose PEND empties thereby is acknowledged. -/
def Obligations.TripClearAndFaultAck : Prop :=
  (∀ (t : Nat) (s : State) (p : Packet) (rest : List BasinWord), s.HasPacket p rest → s.Accepts p → p.opc = 0x50 →
    s.chip.dev.load = none →
    (256 ≤ p.word 3 → exec (.tripClear t) s = .next (s.refused (s.taken t rest) p stRANGE [0])) ∧
    (p.word 3 < 256 → s.chip.tripActive (wordsValue p.params) ≠ 0 →
      exec (.tripClear t) s = .next (s.refused ((s.taken t rest).flag MON.EVT.CLRREF) p stTRIP
        (valueWords 4 (s.chip.tripActive (wordsValue p.params))))) ∧
    (p.word 3 < 256 → s.chip.tripActive (wordsValue p.params) = 0 →
      ∃ u, exec (.tripClear t) s = .next u ∧
        (∀ j, j < 104 → (u.chip.get MON.LATCH.LATCH).testBit j =
          ((s.chip.get MON.LATCH.LATCH).testBit j && !(wordsValue p.params).testBit j)) ∧
        u.chip.hpp.replies = replyTo s p stOK (valueWords 4 (s.chip.get MON.LATCH.LATCH &&& wordsValue p.params)) ∧
        (s.chip.dev.ticking = true → Only s u [(MON.LATCH.LATCH, 0)] (fun a b => { a with hpp := b.hpp })) ∧
        (s.chip.dev.ticking = false → u.chip.get MON.HOLD.HELD = u.chip.latchedTargets % 2 ^ MON.HOLD.HELD.width))) ∧
  (∀ (t : Nat) (s : State) (p : Packet) (rest : List BasinWord) (l : List Nat), s.HasPacket p rest → s.Accepts p → p.opc = 0x51 →
    s.chip.dev.load = none → s.chip.dev.ticking = true → (∀ j, nget none s.chip.flt.lastEv j ≠ some (s.at_ t)) →
    l = (setBits 64 (wordsValue p.params)).filter (s.chip.at_ t).ackable →
    ∃ u, exec (.faultAck t) s = .next u ∧ u.chip.hpp.replies = replyTo s p stOK (valueWords 2 (ofBits l)) ∧
      (∀ j, j < 64 → (u.chip.get FLT.STATUS.STATUS).testBit j = ((s.chip.get FLT.STATUS.STATUS).testBit j && !l.contains j)) ∧
      (∀ i, i < 32 → s.chip.unacked i = true → ∀ j, j < 64 →
        (u.chip.get FLT.REC.PEND i).testBit j = ((s.chip.get FLT.REC.PEND i).testBit j && !l.contains j)) ∧
      (∀ i, i < 32 → s.chip.unacked i = true → u.chip.get FLT.REC.ACKD i =
        (if s.chip.get FLT.REC.PEND i ≠ 0 ∧ u.chip.get FLT.REC.PEND i = 0 then 1 else 0)) ∧
      Only s u ((FLT.STATUS.STATUS, 0) :: (List.range 32).flatMap (fun i => [(FLT.REC.PEND, i), (FLT.REC.ACKD, i)]))
        (fun a b => { a with hpp := b.hpp, flt := b.flt }))

/-- An accepted RESET of a defined level and block queues its OK reply, marked as the one the reset follows, and waits at most 100
ms; a level 3 of an unassigned block or of DEV is refused RANGE. An accepted SELFTEST of a defined check with no host pass
running starts the pass of its first check that has something to do. An accepted COMMIT_NV with no burst running makes its
record pending, samples VSTORE and waits: with enough energy the burst starts; else the reply is ENERGY, the refusal is counted
and the waiting ends. IDENTIFY answers its five words and changes nothing. -/
def Obligations.ResetTestRecordsIdentity : Prop :=
  (∀ (t : Nat) (s : State) (p : Packet) (rest : List BasinWord) (lvl b : Nat), s.HasPacket p rest → s.Accepts p → p.opc = 0x60 →
    s.chip.dev.load = none → lvl = bitsOf (p.word 0) 1 0 → b = bitsOf (p.word 0) 13 8 →
    (lvl = 3 ∧ (b = 0 ∨ 0x14 < b) → exec (.resetCmd t) s = .next (s.refused (s.taken t rest) p stRANGE [0])) ∧
    (lvl < 3 ∨ (b ≠ 0 ∧ b ≤ 0x14 ∧ b ≠ 2) →
      ∃ u, exec (.resetCmd t) s = .next u ∧ u.chip.dev = { s.chip.dev with resetReq := some ⟨lvl, b, s.at_ t + 100 * msTaps⟩ } ∧
        u.chip.hpp.replies = s.chip.hpp.replies ++ [{ status := stOK, tag := p.tag, flg := p.flg, words := [], reset := true }] ∧
        (lvl = 2 ∨ lvl = 3 → Only s u [] (fun a c => { a with hpp := c.hpp, dev := c.dev })))) ∧
  (∀ (t : Nat) (s : State) (p : Packet) (rest : List BasinWord) (k i : Nat) (l : List Nat), s.HasPacket p rest → s.Accepts p →
    p.opc = 0x61 → s.chip.dev.load = none → k = p.word 0 % 256 → k ≤ 7 → s.chip.ist.host = none →
    ((if k = 0 then (List.range 8).filter (fun j => s.chip.istEnabled j) else [k]).filter
      (fun j => decide (3 ≤ j) || (List.range 96).any (fun m => s.chip.on MON.CFG.MODE m)) = i :: l) → 1 ≤ i →
    ∃ u, exec (.selftest t) s = .next u ∧ u.chip.ist.host = some (i, l) ∧ u.chip.get IST.STAT.HOST = 1 ∧
      u.chip.get IST.STAT.HCHK = i % 2 ^ IST.STAT.HCHK.width ∧ u.chip.istActive i = true ∧ u.chip.hpp.replies = replyTo s p stOK [] ∧
      Only s u [(IST.STAT.HOST, 0), (IST.STAT.HCHK, 0), (IST.STAT.ACTIVE, 0), (IST.RES.PASSES, 0), (IST.RES.LAST, 0),
        (IST.RES.PASSES, 1), (IST.RES.LAST, 1)] (fun a b => { a with hpp := b.hpp, ist := b.ist })) ∧
  (∀ (t vst : Nat) (s : State) (p : Packet) (rest : List BasinWord) (set : Nat) (r : NvRec), s.HasPacket p rest → s.Accepts p →
    p.opc = 0x70 → s.chip.dev.load = none → set = p.word 0 % 4 → set < 3 → s.chip.kpr.burst = none →
    r = ((s.taken t rest).sampleVst vst).nvRecord set →
    ∃ u, exec (.commitNv t vst) s = .next u ∧ u.chip.get KPR.VMON.VST = vst % 2 ^ KPR.VMON.VST.width ∧
      nget none u.chip.kpr.pend set = some r ∧ u.chip.get KPR.NVS.PEND set = 1 ∧
      (admits s.chip.kprCfg.1 vst r.blks = true →
        u.chip.get KPR.STAT.BURST = 1 ∧ u.chip.get KPR.STAT.BSET = set ∧ u.chip.dev.wait = some (.nv p.tag p.flg) ∧
        (∃ x, u.chip.kpr.burst = some x ∧ x.set = set ∧ x.host = true) ∧ u.chip.hpp.replies = s.chip.hpp.replies) ∧
      (admits s.chip.kprCfg.1 vst r.blks = false →
        u.chip.get KPR.NVS.LAST set = 2 ∧ u.chip.kpr.burst = none ∧ u.chip.dev.wait = none ∧
        u.chip.hpp.replies = replyTo s p sEnergy [0])) ∧
  (∀ (t : Nat) (s : State) (p : Packet) (rest : List BasinWord), s.HasPacket p rest → s.Accepts p → p.opc = 0x7F →
    s.chip.dev.load = none →
    exec (.identify t) s = .next (s.answered (s.taken t rest) p
      [2 ^ 16 * (s.chip.get DEV.ID.FAMILY % 2 ^ 16) + 2 ^ 8 * (s.chip.get DEV.ID.STEP % 2 ^ 8) + s.chip.get DEV.ID.GRADE % 2 ^ 8,
       2 ^ 16 * (s.chip.get DEV.ROM.ROMVER % 2 ^ 16) + s.chip.get DEV.ROM.PATCHVER % 2 ^ 16,
       bit (s.chip.on RST.STAT.FUSEOK) + 2 * bit (s.chip.on RST.FSEC.DBGLOCK) + 4 * bit (s.chip.on RST.STAT.DEFAULTS) +
         2 ^ 24 * s.chip.get RST.FSEC.FUSEREV,
       s.chip.get DEV.UID.UID % 2 ^ 32, s.chip.get DEV.UID.UID / 2 ^ 32 % 2 ^ 32]))

/-- An accepted BEGIN of LEN 3 with a length of 1 to 16,384, a version not below the fused minimum and a usable key deactivates any
patch and opens a load; DATA within the declared length enters its words behind those already arrived and nothing else of the
SRAM changes; DATA beyond the length is refused RANGE with the load open; FINISH of a complete load whose signature verifies
activates the patch under its version; a FINISH of another LEN than 16 (BAD_LEN), without a load (STATE), that comes early, has
r or s 0 (RANGE) or does not verify (AUTH) closes the load, clears the patch area and leaves no patch active. DATA without a
load is refused STATE. -/
def Obligations.PatchLoads : Prop :=
  (∀ (t : Nat) (s : State) (p : Packet) (rest : List BasinWord), s.HasPacket p rest → s.Accepts p → p.opc = 0xE0 → p.flg = 0 →
    p.len = 3 → p.word 1 ≠ 0 → p.word 1 ≤ 16384 → s.chip.get RST.FSEC.PATCHMIN ≤ p.word 0 % 65536 →
    s.chip.bitOn RST.FSEC.KEYREV 0 (p.word 2 % 4) = false → ¬(s.chip.on RST.FSEC.PLOCK = true ∧ s.chip.on RST.FSEC.DBGLOCK = false) →
    ∃ u, exec (.patchBegin t) s = .next u ∧ u.chip.get DEV.STATE.PATCHED = 0 ∧ u.chip.get DEV.ROM.PATCHVER = 0 ∧
      u.chip.get DEV.STATE.LOADOPEN = 1 ∧ u.chip.dev = { s.chip.dev with load := some ⟨p.word 0, p.word 1, p.word 2, 0⟩ } ∧
      u.chip.hpp.replies = replyTo s p stOK [] ∧
      Only s u [(DEV.STATE.PATCHED, 0), (DEV.ROM.PATCHVER, 0), (DEV.STATE.LOADOPEN, 0)] (fun a b => { a with hpp := b.hpp, dev := b.dev })) ∧
  (∀ (t : Nat) (s : State) (p : Packet) (rest : List BasinWord) (l : PatchLoad), s.HasPacket p rest → s.Accepts p → p.opc = 0xE0 →
    p.flg = 1 → p.len ≠ 0 → s.chip.dev.load = some l →
    (l.length < l.arrived + p.len → exec (.patchData t) s = .next (s.refused (s.taken t rest) p stRANGE [0])) ∧
    (l.arrived + p.len ≤ l.length →
      ∃ u, exec (.patchData t) s = .next u ∧ u.chip.dev = { s.chip.dev with load := some { l with arrived := l.arrived + p.len } } ∧
        (∀ k, k < p.params.length → Memory.readWord u.sram (4 * (l.arrived + k)) = toWord (p.word k)) ∧
        (∀ a, a < 4 * l.arrived ∨ 4 * (l.arrived + p.params.length) ≤ a → Memory.readByte u.sram a = Memory.readByte s.sram a) ∧
        u.chip.hpp.replies = replyTo s p stOK [] ∧ u.chip.regs = s.chip.regs)) ∧
  (∀ (t : Nat) (s : State) (p : Packet) (rest : List BasinWord) (l : PatchLoad) (r g : Nat), s.HasPacket p rest → s.Accepts p →
    p.opc = 0xE0 → p.flg = 2 → p.len = 16 → s.chip.dev.load = some l → r = bigWord (p.params.take 8) →
    g = bigWord ((p.params.drop 8).take 8) →
    (l.length ≤ l.arrived → r ≠ 0 → g ≠ 0 → patchGood s.sram l r g = true →
      ∃ u, exec (.patchFinish t) s = .next u ∧ u.chip.get DEV.STATE.PATCHED = 1 ∧ u.chip.get DEV.ROM.PATCHVER = l.begin0 % 65536 ∧
        u.chip.get DEV.STATE.LOADOPEN = 0 ∧ u.chip.dev = { s.chip.dev with load := none } ∧ u.chip.hpp.replies = replyTo s p stOK [] ∧
        Only s u [(DEV.STATE.PATCHED, 0), (DEV.ROM.PATCHVER, 0), (DEV.STATE.LOADOPEN, 0)]
          (fun a b => { a with hpp := b.hpp, dev := b.dev }))) ∧
  (∀ (t : Nat) (s : State) (p : Packet) (rest : List BasinWord) (r g : Nat), s.HasPacket p rest → s.Accepts p →
    p.opc = 0xE0 → p.flg = 2 → r = bigWord (p.params.take 8) → g = bigWord ((p.params.drop 8).take 8) →
    p.len ≠ 16 ∨ s.chip.dev.load = none ∨ (∃ l, s.chip.dev.load = some l ∧
      (l.arrived < l.length ∨ r = 0 ∨ g = 0 ∨ patchGood s.sram l r g = false)) →
    ∃ u, exec (.patchFinish t) s = .next u ∧ u.chip.dev = { s.chip.dev with load := none } ∧ u.chip.get DEV.STATE.LOADOPEN = 0 ∧
      u.chip.get DEV.STATE.PATCHED = 0 ∧ u.chip.get DEV.ROM.PATCHVER = 0 ∧ (∀ k, k < 16384 → Memory.readWord u.sram (4 * k) = 0) ∧
      u.chip.hpp.replies = replyTo s p (if p.len ≠ 16 then stBADLEN else match s.chip.dev.load with
        | none => stSTATE
        | some l => if l.arrived < l.length ∨ r = 0 ∨ g = 0 then stRANGE else stAUTH) [0]) ∧
  (∀ (t : Nat) (s : State) (p : Packet) (rest : List BasinWord), s.HasPacket p rest → s.Accepts p → p.opc = 0xE0 →
    s.chip.dev.load = none → p.flg = 1 → p.len ≠ 0 → exec (.patchData t) s = .next (s.refused (s.taken t rest) p stSTATE [0]))

/-- When an admission that has started is still running t_admto after its start, ADMISSION_TIMEOUT, and when the driver's self-test
is not done 1 ms after its acknowledge, SELF_TEST_TIMEOUT, ends it: the lane enters BLOCKED with cause 11 or 8, STEP 0, RETIRED
and ADMFAIL set, the failure counter and AUTOFAIL one higher (saturating), source 14 in flight, and the lane keeps the instant
of the failure. No other lane and no other field changes. Before they are due, and outside ADMIT, both change nothing but the
time. -/
def Obligations.AdmissionTimersFail : Prop :=
  (∀ (s : State) (t n cause : Nat) (a : Adm) (i : Instr), s.Inv → s.chip.lstate n = lsAdmit → (s.chip.lane n).adm = some a →
    ((i = .admissionTimeout t n ∧ cause = 11 ∧ a.phase ≠ 0 ∧ a.start + s.chip.get LNK.CFG.ADMTO * msTaps ≤ s.at_ t) ∨
     (i = .selfTestTimeout t n ∧ cause = 8 ∧ a.phase = 3 ∧ a.req = 9 ∧ a.ackAt + msTaps ≤ s.at_ t)) →
    ∃ u, exec i s = .next u ∧ u.chip.now = s.at_ t ∧ u.chip.lstate n = lsBlocked ∧ u.chip.get LNK.STATE.CAUSE n = cause ∧
      u.chip.get LNK.STATE.STEP n = 0 ∧ u.chip.get LNK.STAT.RETIRED n = 1 ∧ u.chip.get LNK.STAT.ADMFAIL n = 1 ∧
      u.chip.get LNK.CNT.ADMFAIL n = satN LNK.CNT.ADMFAIL.width (s.chip.get LNK.CNT.ADMFAIL n + 1) ∧
      u.chip.get LNK.STATE.AUTOFAIL n = satN LNK.STATE.AUTOFAIL.width (s.chip.get LNK.STATE.AUTOFAIL n + 1) ∧
      u.chip.lane n = { s.chip.lane n with adm := none, byp := s.chip.autonomous n, measure := false, failAt := some (s.at_ t) } ∧
      (∀ m, m ≠ n → u.chip.lane m = s.chip.lane m) ∧ u.chip.flt = { s.chip.flt with raised := s.raised t 14 } ∧
      Only s u [(LNK.STATE.STATE, n), (LNK.STATE.CAUSE, n), (LNK.STATE.STEP, n), (LNK.STAT.RETIRED, n), (LNK.STAT.ADMFAIL, n),
        (LNK.CNT.ADMFAIL, n), (LNK.STATE.AUTOFAIL, n)] (fun a b => { a with lnk := b.lnk, flt := b.flt })) ∧
  (∀ (s : State) (t n : Nat), s.Inv →
    (s.chip.lstate n ≠ lsAdmit ∨ (s.chip.lane n).adm = none ∨
      (∃ a, (s.chip.lane n).adm = some a ∧ (a.phase = 0 ∨ s.at_ t < a.start + s.chip.get LNK.CFG.ADMTO * msTaps)) →
      exec (.admissionTimeout t n) s = .next (s.waits t)) ∧
    (s.chip.lstate n ≠ lsAdmit ∨ (s.chip.lane n).adm = none ∨
      (∃ a, (s.chip.lane n).adm = some a ∧ (a.phase ≠ 3 ∨ a.req ≠ 9 ∨ s.at_ t < a.ackAt + msTaps)) →
      exec (.selfTestTimeout t n) s = .next (s.waits t)))

/-- When LNK is released and no valid frame has come for eight slots (SYNC_LOSS), or no valid code group for t_lol (LOSS_OF_LIGHT),
the lane loses its lock, which is flagged and counted when it stood; a lane in STANDBY enters DOWN, a lane in ADMIT or ACTIVE
enters BLOCKED with cause 3 or 2 and its event 9 or 8 in flight, and a lane in another state keeps it. No other lane, and no
field beside those, changes. Earlier, both commands change nothing but the time. -/
def Obligations.UplinkLossRetires : Prop :=
  ∀ (s : State) (t n cause src due : Nat) (i : Instr), s.Inv → s.chip.released 3 = true → n < 192 →
    ((i = .syncLoss t n ∧ cause = 3 ∧ src = 9 ∧ due = (s.chip.lane n).arrived + 6144) ∨
     (i = .lossOfLight t n ∧ cause = 2 ∧ src = 8 ∧ due = (s.chip.lane n).litAt + 64 * s.chip.get LNK.CFG.LOLT)) →
    (s.at_ t < due → exec i s = .next (s.waits t)) ∧
    (due ≤ s.at_ t → ∃ u, exec i s = .next u ∧ u.chip.now = s.at_ t ∧ u.chip.get LNK.STAT.LOCK n = 0 ∧
      u.chip.get LNK.STAT.LOL n = (if s.chip.on LNK.STAT.LOCK n then 1 else s.chip.get LNK.STAT.LOL n) ∧
      u.chip.get LNK.CNT.LOL n = (if s.chip.on LNK.STAT.LOCK n then satN LNK.CNT.LOL.width (s.chip.get LNK.CNT.LOL n + 1)
        else s.chip.get LNK.CNT.LOL n) ∧
      (let used := s.chip.lstate n = lsAdmit ∨ s.chip.lstate n = lsActive
       (used → u.chip.lstate n = lsBlocked ∧ u.chip.get LNK.STATE.CAUSE n = cause ∧ u.chip.get LNK.STAT.RETIRED n = 1 ∧
         u.chip.flt = { s.chip.flt with raised := s.raised t src }) ∧
       (¬used → u.chip.lstate n = (if s.chip.lstate n = lsStandby then lsDown else s.chip.lstate n) ∧
         u.chip.get LNK.STATE.CAUSE n = s.chip.get LNK.STATE.CAUSE n ∧ u.chip.flt = s.chip.flt)) ∧
      (∀ m, m ≠ n → u.chip.lane m = s.chip.lane m) ∧
      Only s u [(LNK.STAT.LOCK, n), (LNK.STAT.LOL, n), (LNK.CNT.LOL, n), (LNK.STATE.STATE, n), (LNK.STATE.CAUSE, n),
        (LNK.STAT.RETIRED, n), (LNK.STATE.STEP, n), (GPR.LDIAG.ODRES, n)] (fun a b => { a with lnk := b.lnk, flt := b.flt }))

/-- With LNK released, for a lane that is not OFF: code groups whose last eleven are a frame of which a group cannot be read or the
CRC does not match set and count CRC, code groups that do not exist for the running disparity are counted as code errors, and
without lock the run of continuous frames starts over; code groups that hold no frame count code errors alone. The code groups
that encode a frame with its CRC, for the receiver's running disparity, carry just that frame: of a lane in DOWN without lock it
continues the run when its session is the same and its number the next, else starts one; at four the lane has lock and enters
STANDBY; the frame is kept for the next snapshot. Of a locked ACTIVE lane, with another session or a number that is not the one
expected, it sets DISC, counts it and retires the lane with cause 4 and event 10; the first one after an admission has cleared
the lane is taken as it comes. A frame of a lane in OFF changes nothing but the time. -/
def Obligations.UplinkFramesAreTracked : Prop :=
  (∀ (s : State) (t n x : Nat) (w y g : List Nat) (r : Received), s.Inv → s.chip.released 3 = true → n < 192 →
    s.chip.lstate n ≠ lsOff → g = w ++ x :: y → r = (s.chip.lane n).receive g → (∀ f crc w, r.frame = some (f, crc, w) → w = false ∨ crc ≠ crc16 f) →
    ∃ u, exec (.uplinkFrame t n w x y) s = .next u ∧ u.chip.now = s.at_ t ∧
      u.chip.get LNK.STAT.CRC n = (if r.frame.isSome then 1 else s.chip.get LNK.STAT.CRC n) ∧
      u.chip.get LNK.CNT.CRC n = (if r.frame.isSome then satN LNK.CNT.CRC.width (s.chip.get LNK.CNT.CRC n + 1)
        else s.chip.get LNK.CNT.CRC n) ∧
      u.chip.get LNK.STAT.CODE n = (if r.errs = 0 then s.chip.get LNK.STAT.CODE n else 1) ∧
      u.chip.get LNK.CNT.CODE n = (if r.errs = 0 then s.chip.get LNK.CNT.CODE n else
        satN LNK.CNT.CODE.width (s.chip.get LNK.CNT.CODE n + r.errs)) ∧
      u.chip.lane n = { (s.chip.lane n).heard g (s.at_ t) with
        run := if r.frame.isSome ∧ s.chip.on LNK.STAT.LOCK n = false then 0 else (s.chip.lane n).run } ∧
      (∀ m, m ≠ n → u.chip.lane m = s.chip.lane m) ∧
      Only s u [(LNK.STAT.CRC, n), (LNK.CNT.CRC, n), (LNK.STAT.CODE, n), (LNK.CNT.CODE, n)] (fun a b => { a with lnk := b.lnk })) ∧
  (∀ (s : State) (t n r x : Nat) (rd : Bool) (f : List Byte) (l : LaneRec) (b w g : List Nat), s.Inv → s.chip.released 3 = true →
    n < 192 → f.length = 8 → s.chip.lstate n = lsDown → s.chip.on LNK.STAT.LOCK n = false → l = s.chip.lane n →
    l.rxRd.getD rd = rd → b = f.map (·.toNat) → w ++ x :: g = frameOnLine rd b →
    r = (if 0 < l.run ∧ frameStat b % 32 = l.sess ∧ frameSeq b = (l.seq + 1) % 256 then l.run + 1 else 1) →
    ∃ u, exec (.uplinkFrame t n w x g) s = .next u ∧ u.chip.now = s.at_ t ∧
      u.chip.get LNK.STAT.LOCK n = (if 4 ≤ r then 1 else 0) ∧ u.chip.lstate n = (if 4 ≤ r then lsStandby else lsDown) ∧
      u.chip.lane n = { l.heard (frameOnLine rd b) (s.at_ t) with
        litAt := s.at_ t, sess := frameStat b % 32, seq := frameSeq b, arrived := s.at_ t - 704, run := r, frame := b, fresh := true } ∧
      (∀ m, m ≠ n → u.chip.lane m = s.chip.lane m) ∧
      Only s u [(LNK.STAT.LOCK, n), (LNK.STATE.STATE, n), (GPR.LDIAG.RDS, n), (GPR.LDIAG.RSB, n)]
        (fun a b => { a with lnk := b.lnk })) ∧
  (∀ (s : State) (t n x : Nat) (rd : Bool) (f : List Byte) (l : LaneRec) (b w g : List Nat), s.Inv → s.chip.released 3 = true → n < 192 →
    f.length = 8 → s.chip.lstate n = lsActive → s.chip.on LNK.STAT.LOCK n = true → l = s.chip.lane n → l.run ≠ 0 →
    l.rxRd.getD rd = rd → b = f.map (·.toNat) → w ++ x :: g = frameOnLine rd b →
    frameStat b % 32 ≠ l.sess ∨ frameSeq b ≠ (l.seq + (s.at_ t - 704 - l.arrived + 384) / 768) % 256 →
    ∃ u, exec (.uplinkFrame t n w x g) s = .next u ∧ u.chip.now = s.at_ t ∧ u.chip.lstate n = lsBlocked ∧
      u.chip.get LNK.STATE.CAUSE n = 4 ∧ u.chip.get LNK.STAT.DISC n = 1 ∧ u.chip.get LNK.STAT.RETIRED n = 1 ∧
      u.chip.get LNK.CNT.DISC n = satN LNK.CNT.DISC.width (s.chip.get LNK.CNT.DISC n + 1) ∧
      u.chip.flt = { s.chip.flt with raised := s.raised t 10 } ∧ (∀ m, m ≠ n → u.chip.lane m = s.chip.lane m) ∧
      Only s u [(LNK.STATE.STATE, n), (LNK.STATE.CAUSE, n), (LNK.STAT.DISC, n), (LNK.STAT.RETIRED, n), (LNK.CNT.DISC, n),
        (GPR.LDIAG.RDS, n), (GPR.LDIAG.RSB, n)] (fun a b => { a with lnk := b.lnk, flt := b.flt })) ∧
  (∀ (s : State) (t n x : Nat) (rd : Bool) (f : List Byte) (l : LaneRec) (b w g : List Nat), s.Inv → s.chip.released 3 = true → n < 192 →
    f.length = 8 → s.chip.lstate n = lsAdmit → s.chip.on LNK.STAT.LOCK n = true → l = s.chip.lane n → l.run = 0 →
    l.measure = false → l.rxRd.getD rd = rd → b = f.map (·.toNat) → w ++ x :: g = frameOnLine rd b →
    ∃ u, exec (.uplinkFrame t n w x g) s = .next u ∧ u.chip.now = s.at_ t ∧ u.chip.lstate n = lsAdmit ∧
      u.chip.lane n = { l.heard (frameOnLine rd b) (s.at_ t) with
        litAt := s.at_ t, sess := frameStat b % 32, seq := frameSeq b, arrived := s.at_ t - 704, run := 4, frame := b, fresh := true } ∧
      (∀ m, m ≠ n → u.chip.lane m = s.chip.lane m) ∧
      Only s u [(GPR.LDIAG.RDS, n), (GPR.LDIAG.RSB, n)] (fun a b => { a with lnk := b.lnk })) ∧
  (∀ (s : State) (t n x : Nat) (w g : List Nat), s.Inv → s.chip.lstate n = lsOff → exec (.uplinkFrame t n w x g) s = .next (s.waits t))

/-- With ticks, AUTO_ADMISSION_START takes a lane with AUTO, in STANDBY or in BLOCKED with lock, with fewer than three failures, a
cause that allows it, its last failure at least 100 ms before the reference, and its arm not held, into ADMIT at the coming
reference, its admission to start there; after three failures, with cause HOST, with its arm held, or without AUTO, it changes
nothing. After a reset of the LNK block in RUN, LANE_RESUME_DOWN takes every lane of the map that is OFF into DOWN at the coming
reference, downlink numbers from 0, and every other lane keeps its state. -/
def Obligations.LanesReturnToWork : Prop :=
  (∀ (s : State) (n k : Nat), s.Inv → s.chip.dev.ticking = true → s.chip.inRun = true → n < 192 →
    s.chip.on LNK.LCFG.AUTO n = true →
    s.chip.lstate n = lsStandby ∨ (s.chip.lstate n = lsBlocked ∧ s.chip.on LNK.STAT.LOCK n = true) →
    s.chip.get LNK.STATE.AUTOFAIL n < 3 → s.chip.get LNK.STATE.CAUSE n = k → k ∈ [0, 2, 3, 4, 5, 7, 8, 9, 10, 11] →
    (∀ f, (s.chip.lane n).failAt = some f → f + 100 * msTaps ≤ s.chip.dev.nextT0) → s.chip.laneHeld n = false →
    ∃ u, exec (.autoAdmissionStart n) s = .next u ∧ u.chip.now = s.at_ s.chip.dev.nextT0 ∧ u.chip.lstate n = lsAdmit ∧
      (u.chip.lane n).adm = some {} ∧ (∀ m, m ≠ n → u.chip.lane m = s.chip.lane m) ∧
      Only s u [(LNK.STATE.STATE, n), (GPR.LDIAG.ODRES, n)] (fun a b => { a with lnk := b.lnk })) ∧
  (∀ (s : State) (n : Nat), s.Inv →
    s.chip.dev.ticking = false ∨ s.chip.on LNK.LCFG.AUTO n = false ∨ 3 ≤ s.chip.get LNK.STATE.AUTOFAIL n ∨
      s.chip.get LNK.STATE.CAUSE n = 1 ∨ s.chip.laneHeld n = true → exec (.autoAdmissionStart n) s = .next s) ∧
  (∀ (s : State), s.Inv → s.chip.lnk.redown = true → s.chip.inRun = true → s.chip.dev.ticking = true → s.chip.released 3 = true →
    ∃ u, exec .laneResumeDown s = .next u ∧ u.chip.now = s.at_ s.chip.dev.nextT0 ∧ u.chip.lnk.redown = false ∧
      (∀ n, n < 192 → u.chip.lstate n = (if s.chip.laneArm n < 6 ∧ s.chip.lstate n = lsOff then lsDown else s.chip.lstate n)) ∧
      (∀ n, n < 192 → s.chip.laneArm n < 6 → s.chip.lstate n = lsOff → (u.chip.lane n).dlSeq = 0 ∧
        u.chip.get LNK.STAT.TRIPHOLD n = bit (s.chip.held (s.chip.laneArm n))) ∧
      (∀ n, ¬(s.chip.laneArm n < 6 ∧ s.chip.lstate n = lsOff) → u.chip.lane n = s.chip.lane n) ∧
      Apart s u [LNK.STATE.STATE.id, LNK.STAT.TRIPHOLD.id, GPR.LDIAG.ODRES.id] (fun a b => { a with lnk := b.lnk })) ∧
  (∀ (s : State), s.Inv → s.chip.lnk.redown = false → exec .laneResumeDown s = .next s)

/-- For a lane in STANDBY, or in BLOCKED with lock, ODIAG_REQUEST starts a check at its instant with result RUNNING; for any other
lane it changes nothing but the time. A check that has seen no MODE 10 snapshot 2 ms after its request ends by ODIAG_TIMEOUT
with result 4, the arm's flag and counter, and source 22 in flight; one that has seen such a snapshot, or is younger, goes on. -/
def Obligations.OffStateChecks : Prop :=
  (∀ (s : State) (t n : Nat), s.Inv → n < 192 →
    ((s.chip.lstate n = lsStandby ∨ (s.chip.lstate n = lsBlocked ∧ s.chip.on LNK.STAT.LOCK n = true)) →
      ∃ u, exec (.odiagRequest t n) s = .next u ∧ u.chip.now = s.at_ t ∧ u.chip.get GPR.LDIAG.ODRES n = 1 ∧
        u.chip.lane n = { s.chip.lane n with odAt := some (s.at_ t), odSeen := false } ∧
        (∀ m, m ≠ n → u.chip.lane m = s.chip.lane m) ∧ Only s u [(GPR.LDIAG.ODRES, n)] (fun a b => { a with lnk := b.lnk })) ∧
    (¬(s.chip.lstate n = lsStandby ∨ (s.chip.lstate n = lsBlocked ∧ s.chip.on LNK.STAT.LOCK n = true)) →
      exec (.odiagRequest t n) s = .next (s.waits t))) ∧
  (∀ (s : State) (t n x a : Nat), s.Inv → (s.chip.lane n).odAt = some x → a = s.chip.laneArm n →
    (s.chip.lane n).odSeen = false → x + 2 * msTaps ≤ s.at_ t →
    ∃ u, exec (.odiagTimeout t n) s = .next u ∧ u.chip.now = s.at_ t ∧ u.chip.get GPR.LDIAG.ODRES n = 4 ∧
      u.chip.get GPR.EVT.ODFAIL a = 1 ∧ u.chip.get GPR.CNT.ODFAIL a = satN GPR.CNT.ODFAIL.width (s.chip.get GPR.CNT.ODFAIL a + 1) ∧
      u.chip.lane n = { s.chip.lane n with odAt := none } ∧ (∀ m, m ≠ n → u.chip.lane m = s.chip.lane m) ∧
      u.chip.flt = { s.chip.flt with raised := s.raised t 22 } ∧
      Only s u [(GPR.LDIAG.ODRES, n), (GPR.EVT.ODFAIL, a), (GPR.CNT.ODFAIL, a)] (fun a b => { a with lnk := b.lnk, flt := b.flt })) ∧
  (∀ (s : State) (t n x : Nat), s.Inv → (s.chip.lane n).odAt = some x → (s.chip.lane n).odSeen = true ∨ s.at_ t < x + 2 * msTaps →
    exec (.odiagTimeout t n) s = .next (s.waits t))

/-- In RUN with ticks, TICK advances the tick number by one and the reference by one period and leaves the launch due; a tick whose
edge placement does not complete before the next reference, or in which a block does not acknowledge, is abandoned. LAUNCH, when
due, happens T0 + LAUNCH: every lane in use sends one frame with the lane's number, which then counts on modulo 256, as code
groups with its CRC, none with TYPE 01 or a state code 11, while lanes in OFF keep their record; a lane in DOWN or STANDBY sends
HOLD with code 0 and no edge; when placement is not complete at that instant source 23 is in flight and the missed window is
remembered, else no overrun is raised. A LAUNCH that is not due changes nothing. -/
def Obligations.TickAndLaunch : Prop :=
  (∀ (s : State) (place : Option Nat) (k : Nat) (stall : Bool), s.chip.inRun = true → s.chip.dev.ticking = true →
    ∃ u, exec (.tick place k stall) s = .next u ∧ u.chip.dev.tick = s.chip.dev.tick + 1 ∧
      u.chip.dev.nextT0 = s.chip.dev.nextT0 + s.chip.period ∧ u.chip.arm.launchDue = true ∧ u.chip.arm.stalled = stall ∧
      (place = none ∨ stall = true → u.chip.arm.abandoned = true) ∧ (place = none → u.chip.arm.placedAt = none) ∧
      u.pending = s.pending) ∧
  (∀ (s : State) (t : Nat), s.Inv → s.chip.arm.launchDue = true → s.chip.inRun = true →
    t = s.chip.tickAt + 64 * s.chip.get DEV.LAUNCH.LAUNCH →
    ∃ u, exec .launch s = .next u ∧ u.chip.now = s.at_ t ∧ u.chip.arm.launchDue = false ∧
      (∃ l : List Raised, (∀ e ∈ l, e.src = 15) ∧ u.chip.flt = { s.chip.flt with raised := s.chip.flt.raised ++ l ++
        (if s.chip.launchOk = false ∧ s.chip.fabric = true then [s.event t 23 0] else []) }) ∧
      (s.chip.launchOk = true → u.chip.arm.missed = none) ∧
      (s.chip.launchOk = false →
        u.chip.arm.missed = some (s.chip.arm.missed.getD (s.chip.windowStart s.chip.tickAt))) ∧
      (∀ n, n < 192 → s.chip.released 3 = true → s.chip.lstate n ≠ lsOff → (u.chip.lane n).sentAt = t ∧
        (∃ rd, (u.chip.lane n).groups = frameOnLine rd (u.chip.lane n).sent) ∧ (u.chip.lane n).sent.length = 8 ∧
        (u.chip.lane n).sent.headD 0 / 64 ≠ 1 ∧ (u.chip.lane n).sent.headD 0 / 16 % 4 ≠ 3 ∧ (u.chip.lane n).sent.headD 0 / 4 % 4 ≠ 3 ∧
        (u.chip.lane n).sentSeq = (s.chip.lane n).dlSeq ∧ (u.chip.lane n).dlSeq = ((s.chip.lane n).dlSeq + 1) % 256) ∧
      (∀ n, s.chip.lstate n = lsOff → u.chip.lane n = s.chip.lane n) ∧
      (∀ n, n < 192 → s.chip.released 3 = true → s.chip.lstate n = lsDown ∨ s.chip.lstate n = lsStandby →
        (u.chip.lane n).sent = [0x80, 0, 0, 0xFF, 0xFF, 0xFF, 64 * s.chip.lnk.wd +
          (if (s.chip.lane n).odAt.isSome ∧ (s.chip.lane n).odSeen = false then 32 else 0), (s.chip.lane n).dlSeq]) ∧
      (∀ n, u.chip.lstate n = s.chip.lstate n) ∧ u.sram = s.sram ∧ u.chip.dev = s.chip.dev) ∧
  (∀ (s : State), s.Inv → s.chip.arm.launchDue = false ∨ s.chip.inRun = false → exec .launch s = .next s)

/-- When the acknowledge of a switch has not changed within t_hs of its ON edge, DHB_HANDSHAKE_TIMEOUT, and when the acknowledge of
a switch that is on has fallen while it was on and is read high on three edges, DHB_ACK_CHANGE, takes a port that is not in
FAULT into it: cause 1 to 6, flag, counter, source 19 in flight, both switches off with no turn-on pending, every other port as
it was, and no attribute but DHB.STAT, DHB.EVT and DHB.CNT changed. An acknowledge that is not such a fault is taken over and
changes nothing else. -/
def Obligations.PortFaultsTurnOff : Prop :=
  (∀ (s : State) (t p cause : Nat) (up : Bool) (x : Switch) (i : Instr), s.Inv → p < 12 → x = (s.chip.port p).sw up →
    (s.chip.port p).fault = false →
    ((i = .dhbHandshakeTimeout t p up ∧ cause = (if x.on then 3 else 1) + (if up then 0 else 1) ∧ x.await = true ∧
        s.chip.ack p up = x.on ∧ s.chip.released 4 = true ∧ x.changedAt + 2000 * s.chip.get DHB.CFG.HS p ≤ s.at_ t) ∨
     (i = .dhbAckChange t p up true true ∧ cause = (if up then 5 else 6) ∧ s.chip.released 4 = true ∧ x.on = true ∧
        x.ackOff = true)) →
    ∃ u, exec i s = .next u ∧ u.chip.now = s.at_ t ∧ (u.chip.port p).fault = true ∧ u.chip.get DHB.STAT.FCAUSE p = cause ∧
      u.chip.get DHB.EVT.FAULT p = 1 ∧ u.chip.get DHB.CNT.FAULT p = satN DHB.CNT.FAULT.width (s.chip.get DHB.CNT.FAULT p + 1) ∧
      (∀ b, ((u.chip.port p).sw b).on = false ∧ ((u.chip.port p).sw b).pend = none) ∧
      (∀ q, q ≠ p → u.chip.port q = s.chip.port q) ∧ u.chip.flt = { s.chip.flt with raised := s.raised t 19 } ∧
      Apart s u [DHB.STAT.TRK.id, DHB.EVT.FAULT.id, DHB.CNT.FAULT.id] (fun a b => { a with dhb := b.dhb, flt := b.flt })) ∧
  (∀ (s : State) (t p : Nat) (up level held : Bool) (x : Switch), s.Inv → p < 12 → s.chip.released 4 = true →
    x = (s.chip.port p).sw up → ¬(x.on = true ∧ x.ackOff = true ∧ level = true ∧ held = true) →
    ∃ u, exec (.dhbAckChange t p up level held) s = .next u ∧ u.chip.now = s.at_ t ∧ u.chip.ack p up = level ∧
      (u.chip.port p).sw (!up) = (s.chip.port p).sw (!up) ∧ ((u.chip.port p).sw up).on = x.on ∧
      ((u.chip.port p).sw up).await = (x.await && level == x.on) ∧
      ((u.chip.port p).sw up).ackOff = (x.ackOff || (x.on && s.chip.ack p up && !level)) ∧ (∀ q, q ≠ p → u.chip.port q = s.chip.port q) ∧
      Only s u [(if up then DHB.STAT.UAK else DHB.STAT.LAK, p)] (fun a b => { a with dhb := b.dhb })) ∧
  (∀ (s : State) (t p : Nat) (up : Bool), s.Inv →
    s.at_ t < ((s.chip.port p).sw up).changedAt + 2000 * s.chip.get DHB.CFG.HS p ∨ ((s.chip.port p).sw up).await = false ∨
      s.chip.released 4 = false → exec (.dhbHandshakeTimeout t p up) s = .next (s.waits t))

/-- DHB_TURN_ON turns a waiting switch on, pin high, when the other switch is off, its fall lies DEAD taps back, its acknowledge was
and is read high and a source of priority 3 to 5 commands the port, except that a turn-on of the carrier outside a refresh whose
next change is predicted less than MINPW taps away is cancelled and flagged; when one of these does not hold nothing but the
time changes. DHB_RESUME with both acknowledges high and the port not held takes the port out of FAULT, and is refused
otherwise. DHB_FORCE stores EN, FU, FL unless it names both switches or one that MODE holds off; on a port without a higher
source and without a refresh it then commands exactly the forced switches. BOOTSTRAP_REFRESH_END, t_bref after the lower switch
turned on, turns it off and makes the upper one wait. -/
def Obligations.PortCommands : Prop :=
  (∀ (s : State) (t p : Nat) (up : Bool) (x y : Switch), s.Inv → p < 12 → x = (s.chip.port p).sw up →
    y = (s.chip.port p).sw (!up) → x.pend.isSome = true → y.on = false →
    (∀ f, y.fellAt = some f → f + s.chip.get DHB.CFG.DEAD p ≤ s.at_ t ∧ y.ackSeen = true ∧ y.ackLost = false) →
    s.chip.ack p (!up) = true → 3 ≤ s.chip.portPrio p → (s.chip.port p).refresh = none →
    (let near := ∃ n, (s.chip.at_ t).predictChange p (s.at_ t) = some n ∧ n - s.at_ t < s.chip.get DHB.CFG.MINPW p
     (¬((s.chip.port p).prio = 5 ∧ near) → ∃ u, exec (.dhbTurnOn t p up) s = .next u ∧ u.chip.now = s.at_ t ∧
       ((u.chip.port p).sw up).on = true ∧ ((u.chip.port p).sw up).pend = none ∧ ((u.chip.port p).sw up).changedAt = s.at_ t ∧
       (u.chip.port p).sw (!up) = y ∧ u.chip.get (if up then DHB.STAT.UON else DHB.STAT.LON) p = 1 ∧
       (∀ q, q ≠ p → u.chip.port q = s.chip.port q) ∧
       Only s u [(if up then DHB.STAT.UON else DHB.STAT.LON, p)] (fun a b => { a with dhb := b.dhb })) ∧
     ((s.chip.port p).prio = 5 ∧ near → ∃ u, exec (.dhbTurnOn t p up) s = .next u ∧ u.chip.now = s.at_ t ∧
       (u.chip.port p).sw up = { x with pend := none } ∧ (u.chip.port p).sw (!up) = y ∧ u.chip.get DHB.EVT.CANCEL p = 1 ∧
       u.chip.get DHB.CNT.SUPPR p = satN DHB.CNT.SUPPR.width (s.chip.get DHB.CNT.SUPPR p + 1) ∧
       Only s u [(DHB.EVT.CANCEL, p), (DHB.CNT.SUPPR, p)] (fun a b => { a with dhb := b.dhb })))) ∧
  (∀ (s : State) (t p : Nat) (up : Bool), s.Inv →
    ((s.chip.port p).sw up).pend = none ∨ ((s.chip.port p).sw (!up)).on = true ∨ s.chip.ack p (!up) = false ∨
      s.chip.portPrio p < 3 ∨ (∃ f, ((s.chip.port p).sw (!up)).fellAt = some f ∧ s.at_ t < f + s.chip.get DHB.CFG.DEAD p) →
    exec (.dhbTurnOn t p up) s = .next (s.waits t)) ∧
  (∀ (s : State) (t p : Nat), s.Inv → p < 12 →
    (let ok := (s.chip.port p).fault = true ∧ s.chip.on DHB.STAT.UAK p = true ∧ s.chip.on DHB.STAT.LAK p = true ∧ s.chip.held (6 + p) = false
     (ok → ∃ u, exec (.dhbResume t p) s = .next u ∧ u.chip.now = s.at_ t ∧ (u.chip.port p).fault = false ∧
       (u.chip.port p).prio = u.chip.portPrio p ∧ (∀ q, q ≠ p → u.chip.port q = s.chip.port q) ∧
       Apart s u [DHB.STAT.TRK.id, DHB.EVT.FAULT.id, DHB.CNT.FAULT.id] (fun a b => { a with dhb := b.dhb })) ∧
     (¬ok → exec (.dhbResume t p) s = .next (s.waits t)))) ∧
  (∀ (s : State) (t p v m : Nat), s.Inv → p < 12 → s.chip.fabric = true → m = s.chip.get DHB.CFG.MODE p →
    (let bad := (v.testBit 1 = true ∧ v.testBit 0 = true) ∨ (v.testBit 1 = true ∧ m ≠ 1 ∧ m ≠ 2) ∨ (v.testBit 0 = true ∧ m ≠ 1 ∧ m ≠ 3)
     (bad → exec (.dhbForce t p v) s = .next (s.waits t)) ∧
     (¬bad → ∃ u, exec (.dhbForce t p v) s = .next u ∧ u.chip.now = s.at_ t ∧ u.chip.get DHB.FORCE.EN p = v / 4 % 2 ∧
       u.chip.get DHB.FORCE.FU p = v / 2 % 2 ∧ u.chip.get DHB.FORCE.FL p = v % 2 ∧ (u.chip.port p).prio = u.chip.portPrio p ∧
       (4 ≤ s.chip.portPrio p → (s.chip.port p).refresh = none → v.testBit 2 = true →
         (u.chip.port p).prio = 4 ∧ (u.chip.port p).u.want = v.testBit 1 ∧ (u.chip.port p).l.want = v.testBit 0) ∧
       (∀ q, q ≠ p → u.chip.port q = s.chip.port q) ∧
       Apart s u [DHB.FORCE.EN.id, DHB.STAT.TRK.id, DHB.EVT.FAULT.id, DHB.CNT.FAULT.id] (fun a b => { a with dhb := b.dhb })))) ∧
  (∀ (s : State) (t p x : Nat), s.Inv → (s.chip.port p).refresh = some (.lowerOn x) →
    (s.at_ t < x + s.chip.get DHB.CFG.BREF p → exec (.bootstrapRefreshEnd t p) s = .next (s.waits t)) ∧
    (x + s.chip.get DHB.CFG.BREF p ≤ s.at_ t → 3 ≤ s.chip.portPrio p → (s.chip.port p).prio = s.chip.portPrio p →
      (s.chip.portBase p (s.chip.portPrio p)).1 = true → (s.chip.port p).l.on = true → (s.chip.port p).u.on = false →
      (s.chip.port p).u.want = false →
      ∃ u, exec (.bootstrapRefreshEnd t p) s = .next u ∧ u.chip.now = s.at_ t ∧ (u.chip.port p).refresh = some .upperPending ∧
        (u.chip.port p).l.on = false ∧ (u.chip.port p).l.fellAt = some (s.at_ t) ∧ (u.chip.port p).u.pend = some (s.at_ t) ∧
        u.chip.get DHB.STAT.LON p = 0 ∧ (∀ q, q ≠ p → u.chip.port q = s.chip.port q) ∧
        Apart s u [DHB.STAT.TRK.id, DHB.EVT.FAULT.id, DHB.CNT.FAULT.id] (fun a b => { a with dhb := b.dhb })))

/-- In RUN, when the carrier of a port under carrier control and outside a refresh commands UPPER at its instant while the port is
at LOWER: less than THR after the port's last change the change is moved to THR after it, flagged and counted; else, when the
carrier commands LOWER again less than THR later, it is suppressed and flagged; else the port is at UPPER and its last change is
this instant. The carrier of a lane of a PSC arm changes only the trigger generators. The earliest firing whose delay has passed
joins the triggers of every enabled sequence of its generator, ascending, and marks every TRIG slot bound to it as waiting, with
the instant of the firing; a slot that waits already keeps its mark and the loss is flagged. -/
def Obligations.CarriersAndTriggers : Prop :=
  (∀ (s : State) (t p now : Nat) (v : Port) (k : Carrier), s.Inv → s.chip.inRun = true → p < 12 → s.chip.released 4 = true →
    v = s.chip.port p → now = s.at_ t → v.refresh = none → v.moved = [] → v.prio = 5 → s.chip.portPrio p = 5 →
    k = s.chip.portCarrier p now →
    k.eventA (s.chip.portPos p now) = true → k.eventB (s.chip.portPos p now) = false → k.period (s.chip.portPos p now) = false →
    s.chip.get DHB.STAT.TRK p = 0 →
    ∃ u, exec (.carrierEvent t false p) s = .next u ∧ u.chip.now = now ∧ (∀ q, q ≠ p → u.chip.port q = s.chip.port q) ∧
      Apart s u [DHB.STAT.TRK.id, DHB.EVT.FAULT.id, DHB.CNT.FAULT.id] (fun a b => { a with dhb := b.dhb, mod := b.mod }) ∧
      (let short := ∃ n, k.nextOther (s.chip.portPos p now) now true = some n ∧ n - now < s.chip.portThr p
       (now < v.last + s.chip.portThr p → u.chip.get DHB.STAT.TRK p = 0 ∧ u.chip.get DHB.EVT.CLAMP p = 1 ∧
         u.chip.get DHB.CNT.CLAMP p = satN DHB.CNT.CLAMP.width (s.chip.get DHB.CNT.CLAMP p + 1) ∧
         (u.chip.port p).moved = [(true, v.last + s.chip.portThr p)] ∧ (u.chip.port p).last = v.last) ∧
       (v.last + s.chip.portThr p ≤ now → short → u.chip.get DHB.STAT.TRK p = 0 ∧ u.chip.get DHB.EVT.SUPPR p = 1 ∧
         (u.chip.port p).moved = [] ∧ (u.chip.port p).last = v.last) ∧
       (v.last + s.chip.portThr p ≤ now → ¬short → u.chip.get DHB.STAT.TRK p = 1 ∧ (u.chip.port p).moved = [] ∧
         (u.chip.port p).last = now))) ∧
  (∀ (s : State) (t n : Nat), s.Inv → s.chip.inRun = true → n < 192 → s.chip.laneArm n < 6 →
    s.chip.get ARM.CFG.MODE (s.chip.laneArm n) = 1 →
    ∃ u, exec (.carrierEvent t true n) s = .next u ∧ u.chip.now = s.at_ t ∧ Only s u [] (fun a b => { a with mod := b.mod })) ∧
  (∀ (s : State) (t i : Nat) (lane : Bool), s.Inv → s.chip.inRun = false → exec (.carrierEvent t lane i) s = .next (s.waits t)) ∧
  (∀ (s : State) (t m d : Nat), s.Inv → s.chip.inRun = true → nextFiring s.chip.mod.fired = some (m, d) → d ≤ s.at_ t →
    ∃ u, exec (.mtrigDelivery t) s = .next u ∧ u.chip.now = s.at_ t ∧
      u.chip.mod = { s.chip.mod with fired := s.chip.mod.fired.erase (m, d) } ∧
      u.chip.adc = { s.chip.adc with trigs := s.chip.adc.trigs ++ ((List.range 16).filter (fun i =>
        s.chip.on ADC.QCFG.EN i && s.chip.get ADC.QCFG.SRC i == m)).map (fun i => (i / 4, i % 4, m, d)) } ∧
      (∀ k, (u.chip.slot k).trig = (if k ∈ s.chip.ctl.trig ∧ s.chip.get CTL.SCFG.TSRC k = m ∧ (s.chip.slot k).trig = none then
        some (d - 64 * s.chip.get MOD.TRG.DELAY m) else (s.chip.slot k).trig)) ∧
      ((∃ k ∈ s.chip.ctl.trig, s.chip.get CTL.SCFG.TSRC k = m ∧ (s.chip.slot k).trig ≠ none) → u.chip.get CTL.EVT.TRGLOST = 1) ∧
      Only s u [(CTL.CNT.TRGLOST, 0), (CTL.EVT.TRGLOST, 0)] (fun a b => { a with mod := b.mod, adc := b.adc, ctl := b.ctl })) ∧
  (∀ (s : State) (t : Nat), s.Inv → (∀ e ∈ s.chip.mod.fired, s.at_ t < e.2) → exec (.mtrigDelivery t) s = .next (s.waits t))

/-- For a running comparator that does not settle and is not in a self-test window, with threshold and hysteresis that R247 and R250
allow: COMPARATOR_DECISION makes the raw decision active beyond the threshold, inactive back beyond it by the hysteresis, and
keeps it between; a change shows in MON.DEC and ACTIVE, an activation is counted and, with LEN, sets the latch; without a change
nothing else changes, and neither does it with LEN and commutation off but for these and the hysteresis, which becomes the
configured one. COMPARATOR_FIRST_DECISION at the end of t_set decides without hysteresis and shows INBAND when the input lies
within the hysteresis of the threshold, likewise. A comparator that does not run decides nothing. TRIP_INPUT low for 2 ns or
more makes a pin that was inactive active, counts it, is a trigger source for capture and, with LEN, sets its latch; for less
than 0.5 ns, or at a pin that is active, nothing happens, between them either may (a free value); high makes it inactive. What a
latch or a change of commutation moves beyond that shows only in the attributes and parts of holds. -/
def Obligations.ComparatorsDecide : Prop :=
  (∀ (s : State) (t k : Nat) (vd th h : Int) (was b : Bool), s.Inv → s.chip.cmpOn k = true → nget none s.chip.mon.settle k = none →
    s.chip.inTest k = false → s.mayThreshold t k th → s.mayHysteresis k h →
    was = nget false s.chip.mon.raw k → b = (if k % 2 = 0 then (if th < vd then true else if vd < th - h then false else was)
      else (if vd < th then true else if th + h < vd then false else was)) →
    ∃ u, exec (.comparatorDecision t k vd th h) s = .next u ∧ u.chip.now = s.at_ t ∧
      u.chip.mon = { s.chip.mon with
        raw := nset false s.chip.mon.raw k b, firstAt := u.chip.mon.firstAt
        hyst := if b = was then s.chip.mon.hyst else nset none s.chip.mon.hyst k none } ∧
      (b = was → Only s u [] (fun a b => { a with mon := b.mon })) ∧
      (b ≠ was → (u.chip.get MON.DEC.CMP).testBit k = b ∧ u.chip.get MON.STAT.ACTIVE k = bit b ∧
        (∀ j, j ≠ k → (u.chip.get MON.DEC.CMP).testBit j = (s.chip.get MON.DEC.CMP % 2 ^ MON.DEC.CMP.width).testBit j) ∧
        u.chip.get MON.CNT.ACT k = (if b = true ∧ (s.chip.get MON.DEC.CMP).testBit k = false
          then satN MON.CNT.ACT.width (s.chip.get MON.CNT.ACT k + 1) else s.chip.get MON.CNT.ACT k) ∧
        (b = true → s.chip.on MON.ROUTE.LEN k = true → (u.chip.get MON.LATCH.LATCH).testBit k = true) ∧
        Apart s u (latchShown ++ holdShown) (fun a b => { holdParts a b with mon := b.mon, flt := b.flt }) ∧
        (s.chip.on MOD.CMT.SRC = false → b = false ∨ s.chip.on MON.ROUTE.LEN k = false →
          Only s u [(MON.DEC.CMP, 0), (MON.STAT.ACTIVE, k), (MON.CNT.ACT, k)] (fun a b => { a with mon := b.mon })))) ∧
  (∀ (s : State) (t k e : Nat) (vd th h : Int) (b band : Bool), s.Inv → s.chip.cmpOn k = true →
    nget none s.chip.mon.settle k = some e → e ≤ s.at_ t → s.mayThreshold t k th → s.mayHysteresis k h →
    b = (if k % 2 = 0 then decide (th < vd) else decide (vd < th)) →
    band = (!b && if k % 2 = 0 then decide (th - h < vd) else decide (vd < th + h)) →
    ∃ u, exec (.comparatorFirstDecision t k vd th h) s = .next u ∧ u.chip.now = s.at_ t ∧
      u.chip.mon = { s.chip.mon with
        raw := nset false s.chip.mon.raw k b, settle := nset none s.chip.mon.settle k none, firstAt := u.chip.mon.firstAt } ∧
      u.chip.get MON.STAT.SETTLE k = 0 ∧ u.chip.get MON.STAT.INBAND k = bit band ∧ u.chip.get MON.STAT.ACTIVE k = bit b ∧
      (u.chip.get MON.DEC.CMP).testBit k = b ∧ (band = true → u.chip.get MON.EVT.INBAND = 1) ∧
      (b = true → s.chip.on MON.ROUTE.LEN k = true → (u.chip.get MON.LATCH.LATCH).testBit k = true) ∧
      Apart s u (latchShown ++ holdShown) (fun a b => { holdParts a b with mon := b.mon, flt := b.flt }) ∧
      (s.chip.on MOD.CMT.SRC = false → b = false ∨ s.chip.on MON.ROUTE.LEN k = false →
        Only s u [(MON.DEC.CMP, 0), (MON.STAT.ACTIVE, k), (MON.STAT.SETTLE, k), (MON.STAT.INBAND, k), (MON.CNT.ACT, k),
          (MON.EVT.INBAND, 0)] (fun a b => { a with mon := b.mon }))) ∧
  (∀ (s : State) (t k : Nat) (vd th h : Int), s.Inv →
    (s.chip.cmpOn k = false ∨ (nget none s.chip.mon.settle k).isSome = true →
      exec (.comparatorDecision t k vd th h) s = .next (s.waits t)) ∧
    (s.chip.cmpOn k = false ∨ nget none s.chip.mon.settle k = none ∨
        (∃ e, nget none s.chip.mon.settle k = some e ∧ s.at_ t < e) →
      exec (.comparatorFirstDecision t k vd th h) s = .next (s.waits t))) ∧
  (∀ (s : State) (t n ps : Nat), s.Inv → n < 8 →
    (2000 ≤ ps → s.chip.fabric = true → (s.chip.get MON.DEC.PIN).testBit n = false →
      ∃ u, exec (.tripInput t n true ps) s = .next u ∧ u.chip.now = s.at_ t ∧ (u.chip.get MON.DEC.PIN).testBit n = true ∧
        (∀ j, j ≠ n → (u.chip.get MON.DEC.PIN).testBit j = (s.chip.get MON.DEC.PIN % 2 ^ MON.DEC.PIN.width).testBit j) ∧
        u.chip.get MON.CNT.ACT (96 + n) = satN MON.CNT.ACT.width (s.chip.get MON.CNT.ACT (96 + n) + 1) ∧
        (s.chip.on MON.ROUTE.LEN (96 + n) = true → (u.chip.get MON.LATCH.LATCH).testBit (96 + n) = true) ∧
        u.chip.pgm = { s.chip.pgm with trig := s.chip.pgm.trig ++
          (if (upTo 32).any (fun r => decide (rsRun ≤ s.chip.rstate r ∧ s.chip.rstate r ≤ rsFrozen)) then
            [(TrigSrc.source (64 + n), (s.chip.at_ t).raw (s.at_ t))] else []) } ∧
        Apart s u (latchShown ++ holdShown ++ [0x4810, 0x4811, 0x4812, PMU.EVT.FLBUSY.id, PMU.CNT.FLBUSY.id])
          (fun a b => { holdParts a b with mon := b.mon, flt := b.flt, pgm := b.pgm, pmu := b.pmu }) ∧
        (s.chip.on MON.ROUTE.LEN (96 + n) = false → s.chip.get PMU.FLCFG.FSRC ≠ 64 + n →
          Only s u [(MON.DEC.PIN, 0), (MON.CNT.ACT, 96 + n)] (fun a b => { a with pgm := b.pgm }))) ∧
    (2000 ≤ ps → s.chip.fabric = false → (s.chip.get MON.DEC.PIN).testBit n = false →
      ∃ u, exec (.tripInput t n true ps) s = .next u ∧ u.chip.now = s.at_ t ∧ (u.chip.get MON.DEC.PIN).testBit n = true ∧
        Only s u [(MON.DEC.PIN, 0)] noPart) ∧
    (ps < 500 → exec (.tripInput t n true ps) s = .next (s.waits t)) ∧
    (2000 ≤ ps → (s.chip.get MON.DEC.PIN).testBit n = true → exec (.tripInput t n true ps) s = .next (s.waits t)) ∧
    (500 ≤ ps → ps < 2000 → ∃ u f, exec (.tripInput t n true ps) s = .next u ∧ (u.chip.free = s.chip.free + 1) ∧
      (u.chip = { s.chip.at_ t with free := f } ∨ (u.chip.get MON.DEC.PIN).testBit n = true)) ∧
    (∃ u, exec (.tripInput t n false ps) s = .next u ∧ u.chip.now = s.at_ t ∧ (u.chip.get MON.DEC.PIN).testBit n = false ∧
      (∀ j, j ≠ n → (u.chip.get MON.DEC.PIN).testBit j = (s.chip.get MON.DEC.PIN % 2 ^ MON.DEC.PIN.width).testBit j) ∧
      Only s u [(MON.DEC.PIN, 0)] noPart))

/-- When the decision of a running comparator turns active with LEN of its route set and its latch clear, the latch is set and no
other latch changes, MON.EVT.TCOMP is set, the latch is counted, source 24 is in flight, and the targets of its route join the
held ones. When no latch was set it becomes the first source with its corrected time; when the first one was set at this same
instant the lower number is the first source; else MON.FIRST stays. With ticks, TRIP_HOLD_END makes the held targets those to
which a set latch routes, at the coming reference; lanes of an arm that is held no more read TRIPHOLD 0; without ticks it
changes nothing. Beside this only what lanes, ports and outputs show of a hold changes. -/
def Obligations.ActiveDecisionsLatch : Prop :=
  (∀ (s : State) (t k : Nat) (vd th h : Int), s.Inv → s.chip.cmpOn k = true → nget none s.chip.mon.settle k = none →
    s.chip.inTest k = false → s.mayThreshold t k th → s.chip.on MON.ROUTE.LEN k = true →
    nget false s.chip.mon.raw k = false →
    (if k % 2 = 0 then th < vd else vd < th) → (s.chip.get MON.LATCH.LATCH).testBit k = false →
    ∃ u, exec (.comparatorDecision t k vd th h) s = .next u ∧ u.chip.now = s.at_ t ∧ (u.chip.get MON.LATCH.LATCH).testBit k = true ∧
      (∀ j, j < 104 → j ≠ k → (u.chip.get MON.LATCH.LATCH).testBit j = (s.chip.get MON.LATCH.LATCH).testBit j) ∧
      u.chip.get MON.EVT.TCOMP = 1 ∧ u.chip.get MON.CNT.LATCH k = satN MON.CNT.LATCH.width (s.chip.get MON.CNT.LATCH k + 1) ∧
      u.chip.flt = { s.chip.flt with raised := s.raised t 24 } ∧
      u.chip.get MON.HOLD.HELD = (s.chip.get MON.HOLD.HELD ||| s.chip.route k) % 2 ^ MON.HOLD.HELD.width ∧
      (s.chip.get MON.LATCH.LATCH = 0 → u.chip.get MON.FIRST.SRC = k ∧ u.chip.mon.firstAt = some (s.at_ t) ∧
        (let x := (s.chip.at_ t).stamp ((s.chip.at_ t).raw (s.at_ t))
         u.chip.get MON.FIRST.TIME = x.1 % 2 ^ MON.FIRST.TIME.width ∧ u.chip.get MON.FIRST.TAP = x.2 % 2 ^ MON.FIRST.TAP.width)) ∧
      (s.chip.get MON.LATCH.LATCH ≠ 0 → u.chip.mon.firstAt = s.chip.mon.firstAt ∧
        u.chip.get MON.FIRST.TIME = s.chip.get MON.FIRST.TIME ∧ u.chip.get MON.FIRST.TAP = s.chip.get MON.FIRST.TAP ∧
        u.chip.get MON.FIRST.SRC =
          (if s.chip.mon.firstAt = some (s.at_ t) ∧ k < s.chip.get MON.FIRST.SRC then k else s.chip.get MON.FIRST.SRC)) ∧
      Apart s u (latchShown ++ holdShown) (fun a b => { holdParts a b with mon := b.mon, flt := b.flt })) ∧
  (∀ (s : State), s.Inv → s.chip.dev.ticking = true →
    ∃ u, exec .tripHoldEnd s = .next u ∧ u.chip.now = s.at_ s.chip.dev.nextT0 ∧
      u.chip.get MON.HOLD.HELD = s.chip.latchedTargets % 2 ^ MON.HOLD.HELD.width ∧
      (∀ n, n < 192 → s.chip.laneHeld n = true → s.chip.laneArm n < 6 →
        (s.chip.latchedTargets % 2 ^ MON.HOLD.HELD.width ||| s.chip.get FLT.HOLD.HELD).testBit (s.chip.laneArm n) = false →
        u.chip.get LNK.STAT.TRIPHOLD n = 0) ∧
      Apart s u holdShown holdParts) ∧
  (∀ (s : State), s.Inv → s.chip.dev.ticking = false → exec .tripHoldEnd s = .next s)

/-- In a host pass of check 1 over the comparator next in line, running, inactive, with an out-of-service slice and a recent sample
v, TSTEN and room for the code: the window opens with round(v / 4 + 512) less or plus MARGIN. With a window open and check 1
under way, the result closes it: PASS (1) when the decision turned active and inactive again, counted; NOTRIP (2) when it never
turned active, with TFAIL counted, flagged and source 26 in flight, and with FAILTRIP and LEN its latch set. In a host pass of
check 2, the group having a slice free for the conversion, none of its comparators in a window and the DAC not settling, a
readback shows EXP and MEAS, and beyond RBTOL sets RBFAIL, counts it and has source 27 in flight, else clears RBFAIL. -/
def Obligations.SelfTestAndReadback : Prop :=
  (∀ (s : State) (t k : Nat) (v : Int), s.Inv → s.chip.istNext 1 = some k → s.chip.istHost 1 = true → s.chip.istActive 1 = true →
    s.chip.cmpOn k = true → s.chip.on MON.TST.TSTEN = true → nget none s.chip.mon.settle k = none → s.chip.mon.test = none →
    (s.chip.get MON.DEC.CMP).testBit k = false → (s.chip.outSlice (cmpGroup k)).isSome = true →
    (s.chip.at_ t).cmpSample k = some v → 0 ≤ s.chip.testCode k v → s.chip.testCode k v ≤ 1023 →
    4 * (s.chip.get MON.TST.GUARD : Int) ≤ (if k % 2 = 0 then 4 * (s.chip.get MON.CFG.CODE k : Int) - (v + 2048)
      else v + 2048 - 4 * s.chip.get MON.CFG.CODE k) →
    ∃ u, exec (.comparatorSelfTest t none) s = .next u ∧ u.chip.now = s.at_ t ∧ u.chip.get MON.STAT.TESTING k = 1 ∧
      u.chip.mon = { s.chip.mon with test := some { cmp := k, start := s.at_ t, code := (s.chip.testCode k v).toNat } } ∧
      Only s u [(MON.STAT.TESTING, k)] (fun a b => { a with mon := b.mon, ist := b.ist })) ∧
  (∀ (s : State) (t : Nat) (x : MonTest) (smp : Int), s.Inv → s.chip.mon.test = some x → s.chip.istActive 1 = true →
    (∃ u, exec (.comparatorSelfTest t (some (true, false, smp))) s = .next u ∧ u.chip.now = s.at_ t ∧ u.chip.mon.test = none ∧
      u.chip.get MON.STAT.TRES x.cmp = 1 ∧ u.chip.get MON.STAT.TESTING x.cmp = 0 ∧
      u.chip.get MON.CNT.TPASS x.cmp = satN MON.CNT.TPASS.width (s.chip.get MON.CNT.TPASS x.cmp + 1) ∧
      u.chip.get MON.LATCH.LATCH = s.chip.get MON.LATCH.LATCH ∧ u.chip.flt = s.chip.flt ∧ u.sram = s.sram ∧
      (∀ f n, f.id / 1024 ∉ [11, 13, 20] → u.chip.get f n = s.chip.get f n)) ∧
    (∃ u, exec (.comparatorSelfTest t (some (false, false, smp))) s = .next u ∧ u.chip.now = s.at_ t ∧ u.chip.mon.test = none ∧
      u.chip.get MON.STAT.TRES x.cmp = 2 ∧ u.chip.get MON.STAT.TESTING x.cmp = 0 ∧ u.chip.get MON.EVT.TFAIL = 1 ∧
      u.chip.get MON.CNT.TFAIL x.cmp = satN MON.CNT.TFAIL.width (s.chip.get MON.CNT.TFAIL x.cmp + 1) ∧
      u.chip.get MON.CNT.TPASS x.cmp = s.chip.get MON.CNT.TPASS x.cmp ∧
      (s.chip.on MON.CFG.FAILTRIP x.cmp = false ∨ s.chip.on MON.ROUTE.LEN x.cmp = false →
        u.chip.flt = { s.chip.flt with raised := s.raised t 26 } ∧ u.chip.get MON.LATCH.LATCH = s.chip.get MON.LATCH.LATCH ∧
        ∀ f n, f.id / 1024 ∉ [11, 13, 20] → u.chip.get f n = s.chip.get f n) ∧
      (s.chip.on MON.CFG.FAILTRIP x.cmp = true → s.chip.on MON.ROUTE.LEN x.cmp = true → x.cmp < 96 →
        (u.chip.get MON.LATCH.LATCH).testBit x.cmp = true))) ∧
  (∀ (s : State) (t k : Nat) (vd d : Int), s.Inv → s.chip.istNext 2 = some k → s.chip.istHost 2 = true → s.chip.istActive 2 = true →
    s.chip.adcReady (cmpGroup k) = true → s.chip.serviceFree (cmpGroup k) true = true →
    (∀ a lo hi, nget none s.chip.mon.codeAt k = some (a, lo, hi) → a + usTaps ≤ s.at_ t) → s.chip.testsGroup (cmpGroup k) = false → d = (convert vd).1 - ((s.chip.get MON.CFG.CODE k : Int) - 512) * 4 →
    ∃ u, exec (.thresholdReadback t vd) s = .next u ∧ u.chip.now = s.at_ t ∧
      (∀ f n, f.id / 1024 ≠ 20 → f.id ∉ [MON.RB.EXP.id, MON.STAT.RBFAIL.id, MON.EVT.RBFAIL.id, MON.CNT.RBFAIL.id] →
        u.chip.get f n = s.chip.get f n) ∧
      u.chip.get MON.RB.MEAS k = ofSigned MON.RB.MEAS.width (convert vd).1 % 2 ^ MON.RB.MEAS.width ∧
      u.chip.get MON.RB.EXP k = ofSigned MON.RB.EXP.width (((s.chip.get MON.CFG.CODE k : Int) - 512) * 4) % 2 ^ MON.RB.EXP.width ∧
      (d.natAbs ≤ s.chip.get MON.TST.RBTOL → u.chip.get MON.STAT.RBFAIL k = 0 ∧ u.chip.flt = s.chip.flt) ∧
      (s.chip.get MON.TST.RBTOL < d.natAbs → u.chip.get MON.STAT.RBFAIL k = 1 ∧ u.chip.get MON.EVT.RBFAIL = 1 ∧
        u.chip.get MON.CNT.RBFAIL k = satN MON.CNT.RBFAIL.width (s.chip.get MON.CNT.RBFAIL k + 1) ∧
        u.chip.flt = { s.chip.flt with raised := s.raised t 27 }))

/-- TICK_STROBE in RUN opens the tick set, empty, at T0 - 1 us, in a follower the remainder PHI later. A result of an enabled tick
entry after the strobe, of an entry of the running sequence at the instant of its round, or of a continuous slot at its strobe
without a stream ring, forms the word of R279: VALID 0 and VALUE 0 when the conversion did not complete or no slice serves the
slot, SWAP on the first after a handover. ADC.RES shows its fields, CLIP is flagged, and the word is kept for the coming hand-in
or in the sequence's run; no other group changes. A conversion that did not complete fails its slice, source 34 in flight;
beside that nothing changes. A service conversion keeps its value with its instant when a slice is free for it, and is not made
otherwise. A group that is not ready takes no result. -/
def Obligations.ConversionResults : Prop :=
  (∀ (s : State), s.Inv → s.chip.inRun = true → s.chip.dev.ticking = true →
    ∃ u, exec .tickStrobe s = .next u ∧ u.chip.now = s.at_ (s.chip.dev.nextT0 + s.chip.tim.phi - usTaps) ∧
      u.chip.adc = { s.chip.adc with strobed := true, tick := [] } ∧ Only s u [] (fun a b => { a with adc := b.adc })) ∧
  (∀ (s : State), s.Inv → s.chip.inRun = false ∨ s.chip.dev.ticking = false → exec .tickStrobe s = .next s) ∧
  (∀ (s : State) (t g e i j ch w : Nat) (vd : Int) (done ok : Bool) (kind : ConvKind), s.Inv → s.chip.adcReady g = true →
    s.chip.inRun = true → ok = (done && (s.chip.sliceOf g j).isSome) →
    w = resultWord ok (ok && (convert vd).2) ((s.chip.group g).swap.contains j) ch j
      (if kind = .seq e then s.chip.get ADC.SEQ.ROUND i else 0) (convert vd).1 →
    i = 16 * g + e → e < 16 →
    ((kind = .tick e ∧ j = s.chip.get ADC.SEQ.SLOT i ∧ ch = s.chip.get ADC.SEQ.CH i ∧ s.chip.adc.strobed = true ∧
        s.chip.on ADC.SEQ.EN i = true ∧ s.chip.get ADC.SEQ.TRG i = 0) ∨
     (kind = .seq e ∧ j = s.chip.get ADC.SEQ.SLOT i ∧ ch = s.chip.get ADC.SEQ.CH i ∧ (s.chip.group g).ended = [] ∧
        (∃ r, (s.chip.group g).cur = some r ∧ s.chip.on ADC.SEQ.EN i = true ∧ s.chip.get ADC.SEQ.TRG i = r.q + 1 ∧
          s.at_ t = r.start + 2000 + s.chip.get ADC.SEQ.ROUND i * usTaps + usTaps)) ∨
     (kind = .cont j ∧ j < 8 ∧ s.chip.inSet g j = false ∧ s.chip.get ADC.SLOT.MODE (8 * g + j) = 1 ∧
        ch = s.chip.get ADC.SLOT.CH (8 * g + j) ∧ s.chip.on ADC.SLOT.RINGEN (8 * g + j) = false ∧
        ((s.chip.at_ t).raw (s.at_ t) - usTaps + 8000 - s.chip.strobePhase g j % 8000) % 8000 = 0)) →
    ∃ u, exec (.conversionResult t g kind vd done) s = .next u ∧ u.chip.now = s.at_ t ∧
      u.chip.get ADC.RES.VALID (8 * g + j) = bitsOf w 31 31 ∧ u.chip.get ADC.RES.CLIP (8 * g + j) = bitsOf w 30 30 ∧
      u.chip.get ADC.RES.SWAP (8 * g + j) = bitsOf w 29 29 ∧ u.chip.get ADC.RES.CH (8 * g + j) = bitsOf w 28 23 ∧
      u.chip.get ADC.RES.SLOT (8 * g + j) = bitsOf w 22 20 ∧ u.chip.get ADC.RES.ROUND (8 * g + j) = bitsOf w 19 17 ∧
      u.chip.get ADC.RES.VALUE (8 * g + j) = bitsOf w 15 0 ∧ (w.testBit 30 = true → u.chip.get ADC.EVT.CLIP g = 1) ∧
      (u.chip.group g).swap = (s.chip.group g).swap.filter (fun k => k != j) ∧
      (kind = .tick e → nget 0 u.chip.adc.tick i = w) ∧
      (kind = .seq e → ∀ r, (s.chip.group g).cur = some r → (u.chip.group g).cur = some { r with res := nset 0 r.res e w }) ∧
      (∀ h, h ≠ g → u.chip.group h = s.chip.group h) ∧
      (∀ x, s.chip.sliceOf g j = some x → done = false → u.chip.slice g x = 15 ∧ u.chip.get ADC.EVT.SLFAIL g = 1 ∧
        u.chip.flt = { s.chip.flt with raised := s.raised t 34 } ∧
        Apart s u [ADC.RES.VALID.id, ADC.EVT.CLIP.id, ADC.MAP.ASSIGN.id, ADC.GSTAT.NFAIL.id] (fun a b => { a with adc := b.adc, flt := b.flt })) ∧
      (done = true ∨ s.chip.sliceOf g j = none →
        Only s u [(ADC.RES.VALID, 8 * g + j), (ADC.RES.CLIP, 8 * g + j), (ADC.RES.SWAP, 8 * g + j), (ADC.RES.CH, 8 * g + j),
          (ADC.RES.SLOT, 8 * g + j), (ADC.RES.ROUND, 8 * g + j), (ADC.RES.VALUE, 8 * g + j), (ADC.EVT.CLIP, g)]
          (fun a b => { a with adc := b.adc }))) ∧
  (∀ (s : State) (t g ch : Nat) (vd : Int), s.Inv → s.chip.adcReady g = true → s.chip.state ≠ stBoot →
    s.chip.serviceFree g (decide (32 ≤ ch)) = false → exec (.serviceConversion t g ch vd) s = .next (s.waits t)) ∧
  (∀ (s : State) (t g ch : Nat) (vd : Int), s.Inv → s.chip.adcReady g = true → s.chip.state ≠ stBoot →
    s.chip.serviceFree g (decide (32 ≤ ch)) = true →
    ∃ u, exec (.serviceConversion t g ch vd) s = .next u ∧ u.chip.now = s.at_ t ∧
      u.chip.group g = { s.chip.group g with service := nset none (s.chip.group g).service ch (some ((convert vd).1, s.at_ t)) } ∧
      (∀ h, h ≠ g → u.chip.group h = s.chip.group h) ∧ Only s u [] (fun a b => { a with adc := b.adc })) ∧
  (∀ (s : State) (t g ch : Nat) (vd : Int) (k : ConvKind) (done : Bool), s.Inv → s.chip.adcReady g = false →
    exec (.conversionResult t g k vd done) s = .next (s.waits t) ∧ exec (.serviceConversion t g ch vd) s = .next (s.waits t))

/-- In RUN a write of QSTART puts a trigger for every enabled sequence named, ascending, before the sequencers. The earliest trigger
whose instant has come, ascending in group and sequence when equal, its sequence enabled and its group ready, starts it when
none runs, is latched while one runs at its instant, and with the latch taken is counted lost, OVR set and source 32 in flight.
SEQUENCE_END, at the end instant of the running sequence, ends it, starts the latched one at that instant as delayed, and leaves
the record due. SEQUENCE_RECORD, not before the results of the last round are in, takes the oldest record due; with a ring the
count of lost triggers in its header starts over, without one nothing else changes; ENG set, it hands the results to the engine. -/
def Obligations.SequencesRun : Prop :=
  (∀ (s : State) (t go : Nat), s.Inv → (s.chip.inRun = false → exec (.adcHostTrigger t go) s = .next (s.waits t)) ∧
    (s.chip.inRun = true → ∃ u, exec (.adcHostTrigger t go) s = .next u ∧ u.chip.now = s.at_ t ∧
      (let at_ := if s.chip.dev.ticking then s.chip.dev.nextT0 else s.at_ t
       let new := ((setBits 16 go).filter (fun i => s.chip.on ADC.QCFG.EN i)).map (fun i => (i / 4, i % 4, 16, at_))
       u.chip.adc = { s.chip.adc with trigs := s.chip.adc.trigs ++ new }) ∧
      Only s u [] (fun a b => { a with adc := b.adc }))) ∧
  (∀ (s : State) (t g q src x : Nat) (l : List (Nat × Nat × Nat × Nat)) (grp : AdcGroup), s.Inv →
    firstTrig (s.chip.adc.trigs.filter (fun y => decide (y.2.2.2 ≤ s.at_ t))) = some (g, q, src, x) →
    l = s.chip.adc.trigs.erase (g, q, src, x) → s.chip.inRun = true → s.chip.adcReady g = true → s.chip.on ADC.QCFG.EN (4 * g + q) = true →
    grp = s.chip.group g →
    (grp.cur = none ∨ ∃ r, grp.cur = some r ∧ x < s.chip.seqEndAt g r) →
    ∃ u, exec (.sequenceTrigger t) s = .next u ∧ u.chip.now = s.at_ t ∧ u.chip.adc.trigs = l ∧
      (∀ h, h ≠ g → u.chip.group h = s.chip.group h) ∧
      Only s u [(ADC.CNT.RUNS, g), (ADC.GSTAT.RUNNING, g), (ADC.GSTAT.RUNQ, g), (ADC.GSTAT.PEND, g), (ADC.GSTAT.PENDQ, g),
        (ADC.CNT.LOST, g), (ADC.EVT.OVR, g)] (fun a b => { a with adc := b.adc, flt := b.flt }) ∧
      (grp.cur = none → u.chip.group g = { grp with
          cur := some { q := q, start := x, src := src, dly := false, run := nget 0 grp.runs q + 1 }, runs := nset 0 grp.runs q (nget 0 grp.runs q + 1) } ∧
        u.chip.get ADC.CNT.RUNS g = satN ADC.CNT.RUNS.width (s.chip.get ADC.CNT.RUNS g + 1) ∧ u.chip.get ADC.GSTAT.RUNNING g = 1 ∧
        u.chip.get ADC.GSTAT.RUNQ g = q % 2 ^ ADC.GSTAT.RUNQ.width ∧ u.chip.flt = s.chip.flt) ∧
      (grp.cur ≠ none → grp.latch = none → u.chip.group g = { grp with latch := some (q, src, x) } ∧
        u.chip.get ADC.GSTAT.PEND g = 1 ∧ u.chip.get ADC.GSTAT.PENDQ g = q % 2 ^ ADC.GSTAT.PENDQ.width ∧ u.chip.flt = s.chip.flt) ∧
      (grp.cur ≠ none → grp.latch ≠ none → u.chip.group g = { grp with lost := Min.min 127 (grp.lost + 1) } ∧
        u.chip.get ADC.CNT.LOST g = satN ADC.CNT.LOST.width (s.chip.get ADC.CNT.LOST g + 1) ∧ u.chip.get ADC.EVT.OVR g = 1 ∧
        u.chip.flt = { s.chip.flt with raised := s.raised t 32 })) ∧
  (∀ (s : State) (t : Nat), s.Inv → (∀ y ∈ s.chip.adc.trigs, s.at_ t < y.2.2.2) → exec (.sequenceTrigger t) s = .next (s.waits t)) ∧
  (∀ (s : State) (t g : Nat) (grp : AdcGroup) (r : SeqRun), s.Inv → s.chip.inRun = true → grp = s.chip.group g → grp.cur = some r →
    (s.at_ t < s.chip.seqEndAt g r → exec (.sequenceEnd t g) s = .next (s.waits t)) ∧
    (s.chip.seqEndAt g r ≤ s.at_ t → ∃ u, exec (.sequenceEnd t g) s = .next u ∧ u.chip.now = s.at_ t ∧
      (u.chip.group g).ended = grp.ended ++ [r] ∧ (u.chip.group g).latch = none ∧
      (grp.latch = none → (u.chip.group g).cur = none ∧ u.chip.get ADC.GSTAT.RUNNING g = 0) ∧
      (∀ q src x, grp.latch = some (q, src, x) →
        (u.chip.group g).cur = some { q := q, start := s.chip.seqEndAt g r, src := src, dly := true, run := nget 0 grp.runs q + 1 }) ∧
      Only s u [(ADC.CNT.RUNS, g), (ADC.GSTAT.RUNNING, g), (ADC.GSTAT.RUNQ, g), (ADC.GSTAT.PEND, g)]
        (fun a b => { a with adc := b.adc }))) ∧
  (∀ (s : State) (t g : Nat) (r : SeqRun) (l : List SeqRun), s.Inv → (s.chip.group g).ended = r :: l →
    s.at_ t < r.readyAt (s.chip.topRound g r.q) → exec (.sequenceRecord t g) s = .next (s.waits t)) ∧
  (∀ (s : State) (t g : Nat) (r : SeqRun) (l : List SeqRun), s.Inv → (s.chip.group g).ended = r :: l →
    r.readyAt (s.chip.topRound g r.q) ≤ s.at_ t →
    ∃ u, exec (.sequenceRecord t g) s = .next u ∧ u.chip.now = s.at_ t ∧
      u.chip.group g = { s.chip.group g with
        ended := l, lost := if s.chip.on ADC.QCFG.RINGEN (4 * g + r.q) then 0 else (s.chip.group g).lost } ∧
      (s.chip.on ADC.QCFG.RINGEN (4 * g + r.q) = false → Only s u [] (fun a b => { a with adc := b.adc })) ∧
      u.chip = { s.chip with
        now := u.chip.now, regs := u.chip.regs, fresh := u.chip.fresh, adc := u.chip.adc, pgm := u.chip.pgm, flt := u.chip.flt } ∧
      (∀ f n, f.id / 1024 ≠ 15 → u.chip.get f n = s.chip.get f n) ∧
      (s.chip.on ADC.QCFG.ENG (4 * g + r.q) = false → u.chip.adc.eng = s.chip.adc.eng) ∧
      (s.chip.on ADC.QCFG.ENG (4 * g + r.q) = true → ∀ e ∈ s.chip.seqEntries g r.q, s.chip.get ADC.SEQ.ROUND (16 * g + e) < 16 →
        (∀ d ∈ s.chip.seqEntries g r.q, s.chip.get ADC.SEQ.SLOT (16 * g + d) = s.chip.get ADC.SEQ.SLOT (16 * g + e) → d = e) →
        nget 0 u.chip.adc.eng (8 * g + s.chip.get ADC.SEQ.SLOT (16 * g + e)) = nget 0 r.res e))

/-- FOREGROUND_CALIBRATION_DONE makes a group ready and keeps the corrections of its nine slices, all within the limits, with age 0.
SLICE_CALIBRATION_END, t_cal after the calibration began, keeps the corrections of the calibrating slice and, when they are
within the limits, makes it the waiting one, whose shadow conversions begin. SLICE_HANDOVER, with CALEN, after 16 shadow
conversions at a slot that converts continuously, when the slot is idle at another, gives the waiting slice the slot of the
slice whose calibration is oldest, puts that one into calibration, marks the slot's next result, counts the swap and ages the
other slices; a mean shadow difference above SHTOL is flagged and raised. Earlier both change nothing but the time. SLICE_FAIL
takes a serving slice to FAILED, gives its slot to the out-of-service slice, and flags, counts and raises it. All other roles
stay. -/
def Obligations.SlicesRotate : Prop :=
  (∀ (s : State) (t g : Nat) (errs : List (Int × Int)), s.Inv → g < 4 → s.chip.released 2 = true → s.chip.on ADC.GSTAT.READY g = false →
    errs.length = 9 → (∀ e ∈ errs, e.1.natAbs ≤ 2000 ∧ e.2.natAbs ≤ 512) →
    ∃ u, exec (.foregroundCalibrationDone t g errs) s = .next u ∧ u.chip.now = s.at_ t ∧ u.chip.get ADC.GSTAT.READY g = 1 ∧
      (∀ k, k < 9 → u.chip.get ADC.CAL.GERR (9 * g + k) = ofSigned ADC.CAL.GERR.width (errs.getD k (0, 0)).1 % 2 ^ ADC.CAL.GERR.width ∧
        u.chip.get ADC.CAL.OERR (9 * g + k) = ofSigned ADC.CAL.OERR.width (errs.getD k (0, 0)).2 % 2 ^ ADC.CAL.OERR.width ∧
        u.chip.get ADC.CAL.AGE (9 * g + k) = 0) ∧
      Only s u ((ADC.GSTAT.READY, g) :: (List.range 9).flatMap (fun k => [(ADC.CAL.GERR, 9 * g + k), (ADC.CAL.OERR, 9 * g + k),
        (ADC.CAL.AGE, 9 * g + k)])) (fun a b => { a with adc := b.adc }) ∧ (∀ h, h ≠ g → u.chip.group h = s.chip.group h)) ∧
  (∀ (s : State) (t g k : Nat) (ge oe : Int), s.Inv → s.chip.adcReady g = true → s.chip.state ≠ stBoot →
    (List.range 9).find? (fun x => s.chip.slice g x == 8) = some k → ge.natAbs ≤ 2000 → oe.natAbs ≤ 512 →
    (s.chip.group g).calFrom + calTaps ≤ s.at_ t →
    ∃ u, exec (.sliceCalibrationEnd t g ge oe) s = .next u ∧ u.chip.now = s.at_ t ∧ u.chip.slice g k = 9 ∧
      (∀ x, x < 9 → x ≠ k → u.chip.slice g x = s.chip.slice g x) ∧ u.chip.get ADC.CAL.AGE (9 * g + k) = 0 ∧
      u.chip.get ADC.CAL.GERR (9 * g + k) = ofSigned ADC.CAL.GERR.width ge % 2 ^ ADC.CAL.GERR.width ∧
      u.chip.get ADC.CAL.OERR (9 * g + k) = ofSigned ADC.CAL.OERR.width oe % 2 ^ ADC.CAL.OERR.width ∧
      (let n := (s.chip.group g).calCount + 1
       u.chip.group g = { s.chip.group g with
        calNo := nset 0 (s.chip.group g).calNo k n, calCount := n, calAt := nset 0 (s.chip.group g).calAt k (s.at_ t)
        shadowAt := s.at_ t }) ∧
      Only s u [(ADC.MAP.ASSIGN, g), (ADC.CAL.GERR, 9 * g + k), (ADC.CAL.OERR, 9 * g + k), (ADC.CAL.AGE, 9 * g + k)]
        (fun a b => { a with adc := b.adc })) ∧
  (∀ (s : State) (t g : Nat) (ge oe : Int), s.Inv → s.at_ t < (s.chip.group g).calFrom + calTaps →
    exec (.sliceCalibrationEnd t g ge oe) s = .next (s.waits t)) ∧
  (∀ (s : State) (t g k v j : Nat) (sum : Int) (shadow bad : Bool), s.Inv → s.chip.adcReady g = true → s.chip.state ≠ stBoot → s.chip.on ADC.GCFG.CALEN g = true →
    (List.range 9).find? (fun x => s.chip.slice g x == 9) = some k → s.chip.oldestSlice g = some v → j = s.chip.slice g v →
    shadow = (s.chip.isCont g j && s.chip.inRun) → bad = (shadow && decide (16 * s.chip.get ADC.GCFG.SHTOL g < sum.natAbs)) →
    (if shadow then (s.chip.group g).shadowAt + 16 * usTaps ≤ s.at_ t else s.chip.slotIdle g j = true) →
    ∃ u, exec (.sliceHandover t g sum) s = .next u ∧ u.chip.now = s.at_ t ∧ u.chip.slice g k = j ∧ u.chip.slice g v = 8 ∧
      (∀ x, x < 9 → x ≠ k → x ≠ v → u.chip.slice g x = s.chip.slice g x) ∧
      u.chip.get ADC.CNT.SWAPS g = satN ADC.CNT.SWAPS.width (s.chip.get ADC.CNT.SWAPS g + 1) ∧
      (∀ x, x < 9 → u.chip.get ADC.CAL.AGE (9 * g + x) = (if x = k then s.chip.get ADC.CAL.AGE (9 * g + x) else
        satN ADC.CAL.AGE.width (s.chip.get ADC.CAL.AGE (9 * g + x) + 1))) ∧
      u.chip.group g = { s.chip.group g with swap := (s.chip.group g).swap.filter (fun x => x != j) ++ [j], calFrom := s.at_ t } ∧
      u.chip.get ADC.EVT.SHDIFF g = (if bad then 1 else s.chip.get ADC.EVT.SHDIFF g) ∧
      u.chip.flt = (if bad then { s.chip.flt with raised := s.raised t 33 } else s.chip.flt) ∧
      Only s u ((ADC.MAP.ASSIGN, g) :: (ADC.CNT.SWAPS, g) :: (ADC.EVT.SHDIFF, g) :: (List.range 9).map (fun x => (ADC.CAL.AGE, 9 * g + x)))
        (fun a b => { a with adc := b.adc, flt := b.flt })) ∧
  (∀ (s : State) (t g v j : Nat) (sum : Int), s.Inv → s.chip.oldestSlice g = some v → j = s.chip.slice g v →
    (if (s.chip.isCont g j && s.chip.inRun) then s.at_ t < (s.chip.group g).shadowAt + 16 * usTaps else s.chip.slotIdle g j = false) →
    exec (.sliceHandover t g sum) s = .next (s.waits t)) ∧
  (∀ (s : State) (t g k o : Nat), s.Inv → s.chip.adcReady g = true → k < 9 → s.chip.slice g k < 8 → s.chip.outSlice g = some o →
    ∃ u, exec (.sliceFail t g k) s = .next u ∧ u.chip.now = s.at_ t ∧ u.chip.slice g k = 15 ∧ u.chip.slice g o = s.chip.slice g k ∧
      (∀ x, x < 9 → x ≠ k → x ≠ o → u.chip.slice g x = s.chip.slice g x) ∧ u.chip.get ADC.EVT.SLFAIL g = 1 ∧
      u.chip.get ADC.GSTAT.NFAIL g = Min.min 3 (s.chip.get ADC.GSTAT.NFAIL g + 1) ∧
      u.chip.flt = { s.chip.flt with raised := s.raised t 34 } ∧
      Only s u [(ADC.MAP.ASSIGN, g), (ADC.EVT.SLFAIL, g), (ADC.GSTAT.NFAIL, g), (ADC.EVT.NOCAL, g)] (fun a b => { a with flt := b.flt })) ∧
  (∀ (s : State) (t g k : Nat), s.Inv → s.chip.adcReady g = true → k < 9 → s.chip.slice g k = 15 →
    exec (.sliceFail t g k) s = .next (s.waits t))

/-- PAGE_REQUEST with a waiting item of the ring served first, below its reservation and with free pages, opens one of the free
pages for that ring with the ring's next number; with no page to be had the ring's oldest waiting item is lost, counted and
flagged, source 35 in flight once per episode; with nothing waiting nothing but the time changes. CAPTURE_TRIGGER takes the
oldest trigger whose instant has come: each armed ring that it is for enters POST or FROZEN with the corrected time of the
trigger and keeps its pages; one in POST or FROZEN counts it unless another was recognised at this instant; another ring ignores
it, and so do rings that it is not for. Before, nothing but the time changes. PAGE_RETIRE retires a free page that is to be
retired; an open or frozen one, or one not to be retired, stays. -/
def Obligations.PagesAndTriggers : Prop :=
  (∀ (s : State) (t r : Nat), s.Inv → s.chip.nextRequest = some r → (s.chip.ring r).pages.length < s.chip.reserve r →
    s.chip.freePages ≠ [] →
    ∃ u p, exec (.pageRequest t) s = .next u ∧ u.chip.now = s.at_ t ∧ p ∈ s.chip.freePages ∧ p ∈ (u.chip.ring r).pages ∧
      u.chip.pd PGM.PDSC.RING p = r ∧ u.chip.pd PGM.PDSC.SEQ p = (s.chip.ring r).seq % 2 ^ PGM.PDSC.SEQ.width ∧
      (u.chip.ring r).seq = ((s.chip.ring r).seq + 1) % 65536 ∧ (∀ q, q ≠ r → u.chip.ring q = s.chip.ring q) ∧
      u.chip.dev = s.chip.dev ∧ u.chip.hpp = s.chip.hpp) ∧
  (∀ (s : State) (t r : Nat), s.Inv → s.chip.nextRequest = some r → (s.chip.at_ t).takePage r = none →
    ∃ u, exec (.pageRequest t) s = .next u ∧ u.chip.now = s.at_ t ∧ u.chip.pgm.waiting =
        s.chip.pgm.waiting.eraseIdx (s.chip.pgm.waiting.findIdx (fun w => w.ring == r)) ∧
      u.chip.get PGM.RCNT.LOST r = satN PGM.RCNT.LOST.width (s.chip.get PGM.RCNT.LOST r + 1) ∧ u.chip.get PGM.EVT.LOST = 1 ∧
      u.chip.ring r = { s.chip.ring r with losing := true } ∧
      u.chip.flt = (if (s.chip.ring r).losing then s.chip.flt else { s.chip.flt with raised := s.raised t 35 }) ∧
      Only s u [(PGM.RCNT.LOST, r), (PGM.EVT.LOST, 0)] (fun a b => { a with pgm := b.pgm, flt := b.flt })) ∧
  (∀ (s : State) (t : Nat), s.Inv → s.chip.pgm.waiting = [] → exec (.pageRequest t) s = .next (s.waits t)) ∧
  (∀ (s : State) (t x : Nat) (k : TrigSrc), s.Inv →
    s.chip.pgm.trig.find? (fun y => decide (y.2 ≤ (s.chip.at_ t).raw (s.at_ t))) = some (k, x) →
    ∃ u, exec (.captureTrigger t) s = .next u ∧ u.chip.now = s.at_ t ∧ u.chip.pgm.trig = s.chip.pgm.trig.erase (k, x) ∧
      u.chip = { s.chip with now := u.chip.now, regs := u.chip.regs, fresh := u.chip.fresh, pgm := u.chip.pgm } ∧
      (∀ f n, f.id / 1024 ≠ 15 → u.chip.get f n = s.chip.get f n) ∧
      ∀ r, r < 32 →
        (s.chip.trigFor r k = false → u.chip.rstate r = s.chip.rstate r ∧ u.chip.ring r = s.chip.ring r) ∧
        (s.chip.trigFor r k = true →
          (s.chip.rstate r = rsArmed → (u.chip.rstate r = rsPost ∨ u.chip.rstate r = rsFrozen) ∧
            (let st := (s.chip.at_ t).stamp x
             u.chip.get PGM.CAP.TIME r = st.1 % 2 ^ PGM.CAP.TIME.width ∧ u.chip.get PGM.CAP.TAP r = st.2 % 2 ^ PGM.CAP.TAP.width) ∧
            (u.chip.ring r).pages = (s.chip.ring r).pages) ∧
          (s.chip.rstate r ≠ rsArmed → u.chip.rstate r = s.chip.rstate r ∧
            (u.chip.ring r).pages = (s.chip.ring r).pages ∧ (u.chip.ring r).frozen = (s.chip.ring r).frozen ∧
            u.chip.get PGM.RCNT.TRIGX r =
              (if (s.chip.rstate r = rsPost ∨ s.chip.rstate r = rsFrozen) ∧ (s.chip.ring r).trigAt ≠ some (s.at_ t) then
                satN PGM.RCNT.TRIGX.width (s.chip.get PGM.RCNT.TRIGX r + 1) else s.chip.get PGM.RCNT.TRIGX r)))) ∧
  (∀ (s : State) (t : Nat), s.Inv → (∀ y ∈ s.chip.pgm.trig, (s.chip.at_ t).raw (s.at_ t) < y.2) →
    exec (.captureTrigger t) s = .next (s.waits t)) ∧
  (∀ (s : State) (t p : Nat), s.Inv → p < 2048 →
    (p ∈ s.chip.pgm.toRetire → s.chip.pd PGM.PDSC.PST p = pstFree →
      ∃ u, exec (.pageRetire t p) s = .next u ∧ u.chip.now = s.at_ t ∧ u.chip.pd PGM.PDSC.PST p = pstRetired ∧
        u.chip.get PGM.POOL.RETIRED = (s.chip.get PGM.POOL.RETIRED + 1) % 2 ^ PGM.POOL.RETIRED.width ∧
        u.chip.pgm.toRetire = s.chip.pgm.toRetire.filter (fun q => q != p) ∧
        Only s u [(pdsc PGM.PDSC.PST p, p % 256), (PGM.POOL.RETIRED, 0), (PGM.EVT.RESVCUT, 0)] (fun a b => { a with pgm := b.pgm })) ∧
    (p ∉ s.chip.pgm.toRetire ∨ s.chip.pd PGM.PDSC.PST p = pstOpen ∨ s.chip.pd PGM.PDSC.PST p = pstFrozen →
      exec (.pageRetire t p) s = .next (s.waits t)))

/-- With TB released: DLL_LOCK while unlocked locks, the shadow chain taking over after a loss; DLL_CHAIN_SWITCH while locked swaps
the chains; DLL_UNLOCK clears the lock, flags it, raises source 40 and keeps the instant. REFCLK_GOOD, 100 ms after an input was
last in LOSS or DRIFT, makes it GOOD from now on. REFCLK_LOSS, and REFCLK_DRIFT by more than FTOL, of the selected input with
the other GOOD switch to that one, flagged, counted and raised as 7, and raise 6 for the lost one once per episode; of the other
input they only raise 6 so. REFCLK_REVERT, with REVERT and the preferred input GOOD for 10 s, switches to it. A write of PREF
switches at once when both inputs are GOOD and the other is selected. DLL_RELOCK_TIMEOUT, 1 ms after a loss of lock, is counted
and, no graver reset running, begins the reset of the fused level with source 5. Nothing else changes. Before their instants,
and a drift within FTOL, change nothing but the time. -/
def Obligations.ClocksSwitch : Prop :=
  (∀ (s : State) (t : Nat), s.Inv → s.chip.released 1 = true →
    (s.chip.on TIM.STAT.DLLOCK = false → ∃ u, exec (.dllLock t) s = .next u ∧ u.chip.now = s.at_ t ∧ u.chip.get TIM.STAT.DLLOCK = 1 ∧
      u.chip.tim = { s.chip.tim with unlockAt := none, chainB := s.chip.tim.unlockAt.isSome != s.chip.tim.chainB } ∧
      Only s u [(TIM.STAT.DLLOCK, 0)] (fun a b => { a with tim := b.tim })) ∧
    (s.chip.on TIM.STAT.DLLOCK = true →
      (∃ u, exec (.dllChainSwitch t) s = .next u ∧ u.chip.now = s.at_ t ∧
        u.chip.tim = { s.chip.tim with chainB := !s.chip.tim.chainB } ∧ Only s u [] (fun a b => { a with tim := b.tim })) ∧
      (∃ u, exec (.dllUnlock t) s = .next u ∧ u.chip.now = s.at_ t ∧ u.chip.get TIM.STAT.DLLOCK = 0 ∧
        u.chip.get TIM.EVT.DLLUL = 1 ∧ u.chip.tim = { s.chip.tim with unlockAt := some (s.at_ t) } ∧
        u.chip.flt = { s.chip.flt with raised := s.raised t 40 } ∧
        Only s u [(TIM.STAT.DLLOCK, 0), (TIM.EVT.DLLUL, 0)] (fun a b => { a with tim := b.tim, flt := b.flt })))) ∧
  (∀ (s : State) (t : Nat), s.Inv → s.chip.released 1 = false → exec (.dllLock t) s = .next (s.waits t) ∧
    exec (.dllChainSwitch t) s = .next (s.waits t) ∧ exec (.dllUnlock t) s = .next (s.waits t)) ∧
  (∀ (s : State) (t : Nat) (b : Bool), s.Inv →
    s.chip.clk b = 0 ∨ s.at_ t < nget 0 s.chip.tim.badAt (bit b) + 100 * msTaps → exec (.refclkGood t b) s = .next (s.waits t)) ∧
  (∀ (s : State) (t : Nat) (b : Bool), s.Inv → s.chip.clk b ≠ 0 → nget 0 s.chip.tim.badAt (bit b) + 100 * msTaps ≤ s.at_ t →
    ∃ u, exec (.refclkGood t b) s = .next u ∧ u.chip.now = s.at_ t ∧ u.chip.clk b = 0 ∧ u.chip.tim = { s.chip.tim with
        goodAt := nset none s.chip.tim.goodAt (bit b) (some (s.at_ t)), failRaised := nset 0 s.chip.tim.failRaised (bit b) 0 } ∧
      nget none u.chip.tim.goodAt (bit b) = some (s.at_ t) ∧ nget 0 u.chip.tim.failRaised (bit b) = 0 ∧
      Only s u [(if b then TIM.STAT.CLKB else TIM.STAT.CLKA, 0)] (fun a b => { a with tim := b.tim })) ∧
  (∀ (s : State) (t ppb : Nat) (b : Bool), s.Inv → ppb ≤ 1000 * s.chip.get TIM.CLK.FTOL →
    exec (.refclkDrift t ⟨b, ppb⟩) s = .next (s.waits t)) ∧
  (∀ (s : State) (t ppb code : Nat) (b : Bool) (i : Instr), s.Inv → s.chip.released 1 = false →
    (i = .refclkLoss t b ∧ code = 1) ∨ (i = .refclkDrift t ⟨b, ppb⟩ ∧ 1000 * s.chip.get TIM.CLK.FTOL < ppb ∧ code = 2) →
    ∃ u, exec i s = .next u ∧ u.chip.now = s.at_ t ∧ u.chip.clk b = code ∧ u.chip.tim = { s.chip.tim with
        goodAt := nset none s.chip.tim.goodAt (bit b) none, badAt := nset 0 s.chip.tim.badAt (bit b) (s.at_ t) } ∧
      Only s u [(if b then TIM.STAT.CLKB else TIM.STAT.CLKA, 0)] (fun a b => { a with tim := b.tim })) ∧
  (∀ (s : State) (t ppb code : Nat) (b : Bool) (i : Instr), s.Inv → s.chip.fabric = true → s.chip.released 1 = true →
    (i = .refclkLoss t b ∧ code = 1) ∨ (i = .refclkDrift t ⟨b, ppb⟩ ∧ 1000 * s.chip.get TIM.CLK.FTOL < ppb ∧ code = 2) →
    (s.chip.selB = b → s.chip.clk (!b) = 0) →
    ∃ u, exec i s = .next u ∧ u.chip.now = s.at_ t ∧ u.chip.clk b = code ∧ u.chip.clk (!b) = s.chip.clk (!b) ∧
      u.chip.selB = (if s.chip.selB = b then !b else s.chip.selB) ∧
      u.chip.get TIM.CNT.CLKSW = (if s.chip.selB = b then satN TIM.CNT.CLKSW.width (s.chip.get TIM.CNT.CLKSW + 1)
        else s.chip.get TIM.CNT.CLKSW) ∧ u.chip.tim = { s.chip.tim with
        goodAt := nset none s.chip.tim.goodAt (bit b) none, badAt := nset 0 s.chip.tim.badAt (bit b) (s.at_ t)
        failRaised := u.chip.tim.failRaised } ∧ nget 0 u.chip.tim.failRaised (bit b) = 1 ∧
      (let e7 := if s.chip.selB = b then [(⟨7, 0, s.at_ t, false⟩ : Raised)] else []
       let e6 := if nget 0 s.chip.tim.failRaised (bit b) = 1 then [] else [(⟨6, 0, s.at_ t, false⟩ : Raised)]
       u.chip.flt = { s.chip.flt with raised := s.chip.flt.raised ++ e7 ++ e6 }) ∧
      Only s u [(if b then TIM.STAT.CLKB else TIM.STAT.CLKA, 0), (TIM.STAT.SEL, 0), (TIM.EVT.CLKSW, 0), (TIM.CNT.CLKSW, 0)]
        (fun a b => { a with tim := b.tim, flt := b.flt })) ∧
  (∀ (s : State) (t x : Nat) (p : Bool), s.Inv → p = s.chip.on TIM.CLK.PREF → nget none s.chip.tim.goodAt (bit p) = some x →
    s.chip.released 1 = true → s.chip.selB = !p → s.chip.clk p = 0 →
    (s.chip.on TIM.CLK.REVERT = true → x + 10 * secTaps ≤ s.at_ t →
      ∃ u, exec (.refclkRevert t) s = .next u ∧ u.chip.now = s.at_ t ∧ u.chip.selB = p ∧ u.chip.get TIM.EVT.CLKSW = 1 ∧
        u.chip.get TIM.CNT.CLKSW = satN TIM.CNT.CLKSW.width (s.chip.get TIM.CNT.CLKSW + 1) ∧
        u.chip.flt = { s.chip.flt with raised := s.raised t 7 } ∧
        Only s u [(TIM.STAT.SEL, 0), (TIM.EVT.CLKSW, 0), (TIM.CNT.CLKSW, 0)] (fun a b => { a with flt := b.flt })) ∧
    (s.chip.on TIM.CLK.REVERT = false ∨ s.at_ t < x + 10 * secTaps → exec (.refclkRevert t) s = .next (s.waits t))) ∧
  (∀ (s : State) (t : Nat) (b : Bool), s.Inv → s.chip.fabric = true →
    ∃ u, exec (.refclkPrefWrite t b) s = .next u ∧ u.chip.now = s.at_ t ∧ u.chip.get TIM.CLK.PREF = bit b ∧
      (s.chip.released 1 = true → s.chip.clk false = 0 → s.chip.clk true = 0 → u.chip.selB = b ∧
        u.chip.flt = (if s.chip.selB = b then s.chip.flt else { s.chip.flt with raised := s.raised t 7 })) ∧
      (s.chip.released 1 = false ∨ s.chip.clk false ≠ 0 ∨ s.chip.clk true ≠ 0 → u.chip.selB = s.chip.selB ∧ u.chip.flt = s.chip.flt) ∧
      Only s u [(TIM.CLK.PREF, 0), (TIM.STAT.SEL, 0), (TIM.EVT.CLKSW, 0), (TIM.CNT.CLKSW, 0)] (fun a b => { a with flt := b.flt })) ∧
  (∀ (s : State) (t : Nat) (b : Bool), s.Inv → s.chip.fabric = false → exec (.refclkPrefWrite t b) s = .next (s.waits t)) ∧
  (∀ (s : State) (t : Nat), s.Inv →
    (∀ x, s.chip.tim.unlockAt = some x → s.chip.released 1 = true → s.chip.on TIM.STAT.DLLOCK = false → x + msTaps ≤ s.at_ t →
      (let lvl := if s.chip.on RST.FLVL.DLLL then 2 else 3
       ∃ u, exec (.dllRelockTimeout t) s = .next u ∧ u.chip.now = s.at_ t ∧
        u.chip.get RST.CNT.CLK = satN RST.CNT.CLK.width (s.chip.get RST.CNT.CLK + 1) ∧
        (¬ Absorbed s lvl → u.chip.get RST.STAT.LASTSRC = 5 ∧ u.chip.get RST.STAT.LASTLVL = lvl - 1 ∧
          u.chip.get RST.STAT.LASTBLK = 0 ∧ u.chip.released 1 = false) ∧
        (Absorbed s lvl → u.chip.get RST.CNT.MERGED = satN RST.CNT.MERGED.width (s.chip.get RST.CNT.MERGED + 1) ∧
          Only s u [(RST.CNT.CLK, 0), (RST.CNT.MERGED, 0)] noPart))) ∧
    ((∀ x, s.chip.tim.unlockAt = some x → s.at_ t < x + msTaps) ∨ s.chip.on TIM.STAT.DLLOCK = true →
      exec (.dllRelockTimeout t) s = .next (s.waits t)))

/-- A selected edge of a stamp input without a ring, held for 4 ns and at least 128 taps after the unit's last, is numbered and
shown with its level, TIME and TAP; a closer one is counted and flagged, a shorter one is not seen. PPS_OUT rises when corrected
time reaches a whole second not yet served, while OEN and TVALID or FREE allow it, and falls WIDTH ms later. Under SRC 2, a
stamped edge of PPS_IN more than 10 us off a second while time is valid is counted bad, any other corrects the time base; three
missing seconds begin holdover once the source has corrected: flagged, counted, source 41. HOLDMAX seconds into holdover TVALID
ends. A follower's first SYNC_IN edge in RUN places its ticks with the remainder in PHI; a later one beyond STOL of the
prediction is flagged and raises source 43. -/
def Obligations.StampsAndSeconds : Prop :=
  (∀ (s : State) (t u ps : Nat) (rise : Bool), s.Inv → s.chip.released 1 = true → u < 16 → 4000 ≤ ps →
    (s.chip.get TIM.TSI.EDGE u).testBit (if rise then 0 else 1) = true →
    (let x := s.chip.raw (s.at_ t)
     let near := ∃ y, nget none s.chip.tim.lastEdge u = some y ∧ x < y + 128
     (near → ∃ v, exec (.timestampInput t u ⟨rise, ps⟩) s = .next v ∧ v.chip.now = s.at_ t ∧ v.chip.get TIM.EVT.TSIOVR = 1 ∧
       v.chip.get TIM.CNT.TSIOVR = satN TIM.CNT.TSIOVR.width (s.chip.get TIM.CNT.TSIOVR + 1) ∧
       Only s v [(TIM.EVT.TSIOVR, 0), (TIM.CNT.TSIOVR, 0)] noPart) ∧
     (¬near → s.chip.on TIM.TSI.RINGEN u = false → ∃ v, exec (.timestampInput t u ⟨rise, ps⟩) s = .next v ∧ v.chip.now = s.at_ t ∧
       v.chip.get TIM.TSV.NUM u = (s.chip.get TIM.TSV.NUM u + 1) % 2 ^ TIM.TSV.NUM.width ∧ v.chip.get TIM.TSV.RISE u = bit rise ∧
       v.chip.get TIM.TSV.TIME u = ((s.chip.at_ t).stamp x).1 % 2 ^ TIM.TSV.TIME.width ∧
       v.chip.get TIM.TSV.TAP u = ((s.chip.at_ t).stamp x).2 % 2 ^ TIM.TSV.TAP.width ∧
       v.chip.tim = { s.chip.tim with lastEdge := nset none s.chip.tim.lastEdge u (some x) } ∧
       Only s v [(TIM.TSV.NUM, u), (TIM.TSV.RISE, u), (TIM.TSV.TIME, u), (TIM.TSV.TAP, u)] (fun a b => { a with tim := b.tim })))) ∧
  (∀ (s : State) (t u ps : Nat) (rise : Bool), s.Inv → ps < 4000 →
    exec (.timestampInput t u ⟨rise, ps⟩) s = .next (s.waits t) ∧ exec (.ppsInEdge ⟨t, ps⟩) s = .next (s.waits t) ∧
    exec (.syncInEdge ⟨t, ps⟩) s = .next (s.waits t)) ∧
  (∀ (s : State) (t : Nat) (tc : Int), s.Inv → tc = (s.chip.at_ t).corrected (s.chip.raw (s.at_ t)) →
    (s.chip.released 1 = true → s.chip.on TIM.PPS.OEN = true → s.chip.on TIM.STAT.TVALID = true ∨ s.chip.on TIM.PPS.FREE = true →
      s.chip.tim.ppsHigh = false → tc % (secTaps : Int) < 8 → s.chip.tim.ppsNext ≤ tc / (secTaps : Int) →
      ∃ u, exec (.ppsOutPulse t) s = .next u ∧ u.chip.now = s.at_ t ∧
        u.chip.tim = { s.chip.tim with ppsHigh := true, ppsAt := s.at_ t, ppsNext := tc / (secTaps : Int) + 1 } ∧
        Only s u [] (fun a b => { a with tim := b.tim })) ∧
    (s.chip.on TIM.PPS.OEN = false ∨ tc / (secTaps : Int) < s.chip.tim.ppsNext ∨ (s.chip.on TIM.STAT.TVALID = false ∧
      s.chip.on TIM.PPS.FREE = false) → exec (.ppsOutPulse t) s = .next (s.waits t)) ∧
    (s.chip.tim.ppsHigh = true → s.chip.tim.ppsAt + s.chip.get TIM.PPS.WIDTH * msTaps ≤ s.at_ t →
      ∃ u, exec (.ppsOutEnd t) s = .next u ∧ u.chip.now = s.at_ t ∧ u.chip.tim = { s.chip.tim with ppsHigh := false } ∧
        Only s u [] (fun a b => { a with tim := b.tim })) ∧
    (s.chip.tim.ppsHigh = false ∨ s.at_ t < s.chip.tim.ppsAt + s.chip.get TIM.PPS.WIDTH * msTaps → exec (.ppsOutEnd t) s = .next (s.waits t))) ∧
  (∀ (s : State) (t ps y : Nat), s.Inv → s.chip.released 1 = true → 4000 ≤ ps → nget none s.chip.tim.lastEdge 16 = some y →
    s.chip.raw (s.at_ t) < y + 128 →
    ∃ u, exec (.ppsInEdge ⟨t, ps⟩) s = .next u ∧ u.chip.now = s.at_ t ∧ u.chip.get TIM.EVT.TSIOVR = 1 ∧
      u.chip.get TIM.CNT.TSIOVR = satN TIM.CNT.TSIOVR.width (s.chip.get TIM.CNT.TSIOVR + 1) ∧
      Only s u [(TIM.EVT.TSIOVR, 0), (TIM.CNT.TSIOVR, 0)] noPart) ∧
  (∀ (s : State) (t ps : Nat) (off : Int), s.Inv → s.chip.released 1 = true → s.chip.get TIM.CFG.SRC = 2 → 4000 ≤ ps →
    (∀ y, nget none s.chip.tim.lastEdge 16 = some y → y + 128 ≤ s.chip.raw (s.at_ t)) →
    off = nearSecond ((s.chip.at_ t).corrected (s.chip.raw (s.at_ t)) - s.chip.get TIM.PPS.INDLY) →
    ∃ u, exec (.ppsInEdge ⟨t, ps⟩) s = .next u ∧ u.chip.now = s.at_ t ∧
      (s.chip.on TIM.STAT.TVALID = true → 10 * usTaps < off.natAbs → u.chip.get TIM.CNT.PPSBAD =
        satN TIM.CNT.PPSBAD.width (s.chip.get TIM.CNT.PPSBAD + 1) ∧ u.chip.tim.corrections = s.chip.tim.corrections ∧
        u.chip.get TIM.RATE.RATE = s.chip.get TIM.RATE.RATE ∧ u.chip.get TIM.OFS.OFS = s.chip.get TIM.OFS.OFS) ∧
      (s.chip.on TIM.STAT.TVALID = false ∨ off.natAbs ≤ 10 * usTaps → u.chip.tim.corrections = s.chip.tim.corrections + 1 ∧
        u.chip.tim.ppsInAt = some (s.at_ t) ∧ u.chip.get TIM.CNT.PPSBAD = s.chip.get TIM.CNT.PPSBAD ∧
        u.chip.get TIM.STAT.HOLD = 0)) ∧
  (∀ (s : State) (t a : Nat), s.Inv → s.chip.get TIM.CFG.SRC = 2 → s.chip.tim.ppsInAt = some a →
    (s.at_ t < a + 3 * secTaps → exec (.ppsInMissing t) s = .next (s.waits t)) ∧
    (a + 3 * secTaps ≤ s.at_ t → s.chip.tim.corrections ≠ 0 → s.chip.on TIM.STAT.HOLD = false →
      ∃ u, exec (.ppsInMissing t) s = .next u ∧ u.chip.now = s.at_ t ∧ u.chip.get TIM.STAT.HOLD = 1 ∧
        u.chip.get TIM.STAT.TVALID = bit (s.chip.on TIM.STAT.TVALID) ∧ u.chip.get TIM.EVT.HOLDIN = 1 ∧
        u.chip.get TIM.CNT.HOLD = satN TIM.CNT.HOLD.width (s.chip.get TIM.CNT.HOLD + 1) ∧
        u.chip.tim = { s.chip.tim with holdAt := s.at_ t, goodRun := 0 } ∧ u.chip.flt = { s.chip.flt with raised := s.raised t 41 } ∧
        Only s u [(TIM.STAT.HOLD, 0), (TIM.STAT.TVALID, 0), (TIM.EVT.HOLDIN, 0), (TIM.CNT.HOLD, 0)]
          (fun a b => { a with tim := b.tim, flt := b.flt, pmu := b.pmu }))) ∧
  (∀ (s : State) (t : Nat), s.Inv → s.chip.on TIM.STAT.HOLD = true →
    (s.chip.tim.holdAt + s.chip.get TIM.CFG.HOLDMAX * secTaps ≤ s.at_ t →
      ∃ u, exec (.holdoverTimeout t) s = .next u ∧ u.chip.now = s.at_ t ∧ u.chip.get TIM.STAT.TVALID = 0 ∧
        u.chip.get TIM.STAT.HOLD = 1 ∧ Only s u [(TIM.STAT.TVALID, 0), (TIM.STAT.HOLD, 0)] noPart) ∧
    (s.at_ t < s.chip.tim.holdAt + s.chip.get TIM.CFG.HOLDMAX * secTaps → exec (.holdoverTimeout t) s = .next (s.waits t))) ∧
  (∀ (s : State) (t ps y : Nat), s.Inv → s.chip.released 1 = true → s.chip.inRun = true → s.chip.get TIM.CFG.TICKSRC = 2 →
    4000 ≤ ps → (∀ x, nget none s.chip.tim.lastEdge 17 = some x → x + 128 ≤ s.chip.raw (s.at_ t)) →
    y = s.chip.raw (s.at_ t) - s.chip.get TIM.SYNC.SDLY →
    (s.chip.dev.ticking = false → ∃ u, exec (.syncInEdge ⟨t, ps⟩) s = .next u ∧ u.chip.now = s.at_ t ∧
      u.chip.get TIM.STAT.PHI = y % 64 ∧ u.chip.tim.phi = y % 64 ∧ u.chip.get TIM.STAT.WAITSYNC = 0 ∧ u.chip.dev.ticking = true ∧
      u.chip.dev.nextT0 = s.chip.tim.c0 + 64 * (y / 64) ∧ u.chip.mod.tc = u.chip.windowStart u.chip.dev.nextT0) ∧
    (s.chip.dev.ticking = true →
      s.chip.on TIM.TSI.RINGEN 17 = false →
      (let p : Int := s.chip.period
       let d := ((y : Int) + s.chip.tim.c0 - s.chip.tim.phi - s.chip.dev.nextT0 + p / 2) % p - p / 2
       ∃ u, exec (.syncInEdge ⟨t, ps⟩) s = .next u ∧ u.chip.now = s.at_ t ∧ u.chip.dev = s.chip.dev ∧
        (s.chip.get TIM.SYNC.STOL < d.natAbs → u.chip.get TIM.EVT.SYNCERR = 1 ∧
          u.chip.flt = { s.chip.flt with raised := s.raised t 43 }) ∧
        (d.natAbs ≤ s.chip.get TIM.SYNC.STOL → u.chip.get TIM.EVT.SYNCERR = s.chip.get TIM.EVT.SYNCERR ∧ u.chip.flt = s.chip.flt))))

/-- For an enabled port with link, the ports following their enables: a message is counted as received and ends a silence; one of
another domain is counted as dropped and changes nothing else. A sent Pdelay_Req leaves in a frame of R323, with a trailer under
RCT in PRP mode, and holds the port; it keeps its number and departure and is counted; its one-step answer gives MPD, half of
the round trip less corrections, limited to 24 bits. A one-step Sync of the port's master shows the offset, makes the port
valid, SLAVE when the servo follows it and PASSIVE otherwise; the servo takes the port when it follows none that works. After
three announce intervals without its master a port that is slave only has no master and LISTENS; without slave-only and with no
master on either port it becomes MASTER and the device grandmaster. After three Sync intervals a valid port keeps its master and
is UNCALIBRATED. A message at a port without link is lost and counted. A port that is not enabled does nothing. -/
def Obligations.PtpPortsTalk : Prop :=
  (∀ (s : State) (t i : Nat) (m : PtpMsg), s.Inv → s.chip.ptpOn i = true → s.chip.on NET.PSTAT.LINK i = true →
    (s.chip.at_ t).ptpRefresh = s.chip.at_ t →
    (m.domain ≠ s.chip.get TIM.PTP.DOMAIN → ∃ u, exec (.ptpMessage t i m) s = .next u ∧ u.chip.now = s.at_ t ∧
      u.chip.get TIM.CNT.PDROP = satN TIM.CNT.PDROP.width (s.chip.get TIM.CNT.PDROP + 1) ∧ 
      u.chip.get NET.PCNT.RXOK i = satN NET.PCNT.RXOK.width (s.chip.get NET.PCNT.RXOK i + 1) ∧ u.chip.get NET.PSTAT.SILENT i = 0 ∧
      u.chip.net = { s.chip.net with rxAt := nset 0 s.chip.net.rxAt i (s.at_ t) } ∧
      Only s u [(TIM.CNT.PDROP, 0), (NET.PCNT.RXOK, i), (NET.PSTAT.SILENT, i)] (fun a b => { a with net := b.net })) ∧
    (∀ q t1, m.domain = s.chip.get TIM.PTP.DOMAIN → m.kind = .pdelayResp → (s.chip.ptp i).req = some (q, t1) → m.toMe = true →
      m.seq = q → m.twoStep = false →
      (let rx := (s.chip.at_ t).corrected (s.chip.raw (s.at_ t)) - s.chip.get TIM.PORT.RXLAT i
       let half := (rx - t1 - corrTaps m.corr) / 2
       ∃ u, exec (.ptpMessage t i m) s = .next u ∧ u.chip.now = s.at_ t ∧ u.chip.ptp i = { s.chip.ptp i with req := none } ∧
        u.chip.get TIM.PSTAT.MPD i = (Min.min (Max.max 0 half) (2 ^ 24 - 1)).toNat % 2 ^ TIM.PSTAT.MPD.width ∧
        Only s u [(TIM.PSTAT.MPD, i), (NET.PCNT.RXOK, i), (NET.PSTAT.SILENT, i)] (fun a b => { a with tim := b.tim, net := b.net }))) ∧
    (∀ d off, m.domain = s.chip.get TIM.PTP.DOMAIN → m.kind = .sync → (s.chip.ptp i).parent = some (m.src, d) → m.twoStep = false →
      -4 ≤ m.logInt → m.logInt ≤ 1 → s.chip.get TIM.CFG.SRC ≠ 1 →
      off = (s.chip.at_ t).corrected (s.chip.raw (s.at_ t)) - s.chip.get TIM.PORT.RXLAT i - 8 * m.ts - corrTaps m.corr -
        s.chip.get TIM.PSTAT.MPD i - s.chip.getI TIM.PORT.ASYM i →
      ∃ u, exec (.ptpMessage t i m) s = .next u ∧ u.chip.now = s.at_ t ∧ (u.chip.ptp i).valid = true ∧ (u.chip.ptp i).offset = off ∧
        (u.chip.ptp i).syncAt = s.at_ t ∧ (u.chip.ptp i).parent = (s.chip.ptp i).parent ∧
        (s.chip.tim.servoPort = some i ∨ s.chip.servoIdle = false → u.chip.tim.servoPort = s.chip.tim.servoPort ∧
          u.chip.get TIM.PSTAT.PSTATE i = (if s.chip.tim.servoPort = some i then psSlave else psPassive) ∧
          Only s u [(TIM.PSTAT.OFFSET, i), (TIM.PSTAT.PSTATE, i), (NET.PCNT.RXOK, i), (NET.PSTAT.SILENT, i)]
            (fun a b => { a with tim := b.tim, net := b.net })) ∧
        (s.chip.tim.servoPort ≠ some i → s.chip.servoIdle = true → u.chip.tim.servoPort = some i ∧
          u.chip.get TIM.PSTAT.PSTATE i = psSlave))) ∧
  (∀ (s : State) (t i : Nat), s.Inv → s.chip.ptpOn i = true → s.chip.on NET.PSTAT.LINK i = true →
    (s.chip.at_ t).ptpRefresh = s.chip.at_ t → nget 0 s.chip.net.busy i ≤ s.at_ t →
    (let tx := (s.chip.at_ t).corrected (s.chip.raw (s.at_ t)) + s.chip.get TIM.PORT.TXLAT i
     let n := (s.chip.ptp i).next .pdelayReq
     ∃ u, exec (.ptpTransmit t i .pdelayReq) s = .next u ∧ u.chip.now = s.at_ t ∧ (u.chip.ptp i).req = some (n, tx) ∧
      (u.chip.ptp i).resp = none ∧ (∃ x : PtpSent, (u.chip.ptp i).sent = some x ∧ x.kind = .pdelayReq ∧ x.seq = n ∧ x.corr = 0 ∧
        x.twoStep = false ∧ x.dst = 0x0180C200000E ∧ x.etype = 0x88F7 ∧ x.domain = s.chip.get TIM.PTP.DOMAIN ∧
        x.vlan = (if s.chip.on TIM.PTP.VTAG then some (s.chip.get TIM.PTP.PCP, s.chip.get TIM.PTP.VID) else none) ∧
        x.rct.isSome = (s.chip.on TIM.PTP.RCT && s.chip.on NET.CFG.MODE) ∧ ∀ r, x.rct = some r → r.seq = s.chip.net.prpSeq) ∧
      s.at_ t < nget 0 u.chip.net.busy i ∧
      (u.chip.ptp i).next .pdelayReq = (n + 1) % 65536 ∧
      u.chip.get NET.PCNT.TXOK i = satN NET.PCNT.TXOK.width (s.chip.get NET.PCNT.TXOK i + 1) ∧
      Only s u [(NET.PCNT.TXOK, i)] (fun a b => { a with tim := b.tim, net := b.net }))) ∧
  (∀ (s : State) (t i : Nat) (m : PtpMsg) (k : PtpKind), s.Inv → s.chip.ptpOn i = true → s.chip.on NET.PSTAT.LINK i = false →
    (∃ u, exec (.ptpMessage t i m) s = .next u ∧ u.chip.get NET.PCNT.RXCRC i = satN NET.PCNT.RXCRC.width (s.chip.get NET.PCNT.RXCRC i + 1) ∧
      Only s u [(NET.PCNT.RXCRC, i)] noPart) ∧
    ((s.chip.at_ t).ptpMaySend i k = true → ∃ u, exec (.ptpTransmit t i k) s = .next u ∧
      u.chip.get NET.PCNT.TXDROP i = satN NET.PCNT.TXDROP.width (s.chip.get NET.PCNT.TXDROP i + 1) ∧
      Only s u [(NET.PCNT.TXDROP, i)] noPart) ∧
    ((s.chip.at_ t).ptpMaySend i k = false → exec (.ptpTransmit t i k) s = .next (s.waits t))) ∧
  (∀ (s : State) (t i : Nat), s.Inv → s.chip.ptpOn i = true → (s.chip.ptp i).parent.isSome = true →
    ((s.chip.ptp i).annAt + 3 * logTaps (s.chip.ptp i).annLog ≤ s.at_ t →
      ∃ u, exec (.ptpAnnounceTimeout t i) s = .next u ∧ u.chip.now = s.at_ t ∧ (u.chip.ptp i).parent = none ∧
        (u.chip.ptp i).valid = false ∧
        (s.chip.on TIM.PTP.SONLY = true → u.chip.get TIM.PSTAT.PSTATE i = psListening) ∧
        (s.chip.on TIM.PTP.SONLY = false → (s.chip.ptp (1 - i)).parent = none → u.chip.get TIM.PSTAT.PSTATE i = psMaster ∧
          u.chip.tim.gm = true)) ∧
    (s.at_ t < (s.chip.ptp i).annAt + 3 * logTaps (s.chip.ptp i).annLog → exec (.ptpAnnounceTimeout t i) s = .next (s.waits t)) ∧
    ((s.chip.ptp i).valid = true → (s.chip.ptp i).syncAt + 3 * logTaps (s.chip.ptp i).syncLog ≤ s.at_ t →
      ∃ u, exec (.ptpSyncTimeout t i) s = .next u ∧ u.chip.now = s.at_ t ∧ (u.chip.ptp i).parent = (s.chip.ptp i).parent ∧
        (u.chip.ptp i).valid = false ∧ u.chip.get TIM.PSTAT.PSTATE i = psUncalibrated) ∧
    (s.at_ t < (s.chip.ptp i).syncAt + 3 * logTaps (s.chip.ptp i).syncLog → exec (.ptpSyncTimeout t i) s = .next (s.waits t))) ∧
  (∀ (s : State) (t i : Nat) (m : PtpMsg) (k : PtpKind), s.Inv → s.chip.ptpOn i = false →
    exec (.ptpMessage t i m) s = .next (s.waits t) ∧ exec (.ptpTransmit t i k) s = .next (s.waits t) ∧
    exec (.ptpAnnounceTimeout t i) s = .next (s.waits t) ∧ exec (.ptpSyncTimeout t i) s = .next (s.waits t))

/-- Between ticks in RUN, TRIG_SLOT_EVALUATION takes the first waiting TRIG slot: after the POST slots given as ended, those first,
under HOLD only its mark goes; a slot without sections, probes, Weir group and late coefficient writes is evaluated as KREF x
reference - KMEAS x measurement + KFF x feed-forward: when every node is finite the result, limited to YLO and YHI, becomes its
output and reaches its destination, else the output stays, NANH is set, the fault is counted and flagged, and source 48 is
raised once per episode. With nothing waiting and no POST slot to end, nothing but the time changes. GRD_TRIP_CLEAR takes RTS,
in force and to come, from TRIP to CESS when no TRIP point's condition holds, and changes nothing otherwise; GRD_ISLAND_CLEAR
clears the island latch and its cause, shown and to come, while no passive condition holds, and changes nothing otherwise. -/
def Obligations.EngineAndGridCommands : Prop :=
  (∀ (s : State) (t posts : Nat), s.Inv → s.chip.inRun = true → s.chip.dev.ticking = true →
    exec (.trigSlotEvaluation ⟨t, posts⟩) s = exec (.trigSlotEvaluation ⟨t, 0⟩) { s with chip := (s.chip.at_ t).runPost posts }) ∧
  (∀ (s : State) (t posts k x : Nat) (l : List Nat), s.Inv → s.chip.inRun = true → s.chip.dev.ticking = true →
    posts = 0 ∨ s.chip.ctl.left = 0 →
    s.chip.trigPending = k :: l → (s.chip.slot k).trig = some x → 6 ≤ s.chip.get CTL.SCFG.WEIR k →
    (∀ m, m < 8 → s.chip.on CTL.PRB.EN m = false ∨ s.chip.get CTL.PRB.SLOT m ≠ k) →
    (s.chip.on CTL.SCTL.HOLD k = true → ∃ u, exec (.trigSlotEvaluation ⟨t, posts⟩) s = .next u ∧ u.chip.now = s.at_ t ∧
      u.chip.slot k = { s.chip.slot k with trig := none } ∧ (∀ m, m ≠ k → u.chip.slot m = s.chip.slot m) ∧
      Only s u [] (fun a b => { a with ctl := b.ctl })) ∧
    (s.chip.on CTL.SCTL.HOLD k = false → (s.chip.slot k).recs = [] → s.chip.ctl.hist = [] → s.chip.get CTL.SCFG.NSEC k = 0 →
      (let e := F32.sub (F32.mul (s.chip.getW CTL.SIO.KREF k) (s.chip.src (s.chip.get CTL.SIO.REFSRC k)))
        (F32.mul (s.chip.getW CTL.SIO.KMEAS k) (s.chip.src (s.chip.get CTL.SIO.MEASSRC k)))
       let f := F32.mul (s.chip.getW CTL.SIO.KFF k) (s.chip.src (s.chip.get CTL.SIO.FFSRC k))
       let v := F32.add e f
       let y := F32.min (F32.max v (s.chip.getW CTL.LIM.YLO k)) (s.chip.getW CTL.LIM.YHI k)
       let ok := F32.isFinite e = true ∧ F32.isFinite f = true ∧ F32.isFinite v = true
       let d := s.chip.get CTL.SIO.DEST k
       ∃ u, exec (.trigSlotEvaluation ⟨t, posts⟩) s = .next u ∧ u.chip.now = s.at_ t ∧ (u.chip.slot k).trig = none ∧
        (u.chip.slot k).evals = (s.chip.slot k).evals + 1 ∧ (∀ m, m ≠ k → u.chip.slot m = s.chip.slot m) ∧
        u.chip.get CTL.CNT.EVALS = satN CTL.CNT.EVALS.width (s.chip.get CTL.CNT.EVALS + 1) ∧
        (ok → u.chip.getW CTL.OUT.Y k = y ∧ u.chip.get CTL.SST.NANH k = 0 ∧ u.chip.flt = s.chip.flt ∧
          (d = 0 → u.chip.ctl.dest = s.chip.ctl.dest) ∧ (d ≠ 0 → d < 0x40 ∨ 0x50 ≤ d → u.chip.destVal d = y) ∧
          (0x40 ≤ d → d < 0x50 → u.chip.destVal (d + 0x10) = y ∧ u.chip.destVal (d + 0x20) = y)) ∧
        (¬ok → u.chip.getW CTL.OUT.Y k = s.chip.getW CTL.OUT.Y k ∧ u.chip.get CTL.SST.NANH k = 1 ∧ u.chip.get CTL.EVT.NAN = 1 ∧
          u.chip.get CTL.CNT.NAN = satN CTL.CNT.NAN.width (s.chip.get CTL.CNT.NAN + 1) ∧ u.chip.ctl.dest = s.chip.ctl.dest ∧
          u.chip.flt = (if (s.chip.slot k).epi then s.chip.flt else { s.chip.flt with raised := s.raised t 48 })) ∧
        Only s u [(CTL.CNT.EVALS, 0), (CTL.SST.MIXED, k), (CTL.OUT.Y, k), (CTL.SST.NANH, k), (CTL.SST.SLIM, k), (CTL.EVT.SLIM, 0),
          (CTL.CNT.NAN, 0), (CTL.EVT.NAN, 0)] (fun a b => { a with ctl := b.ctl, flt := b.flt })))) ∧
  (∀ (s : State) (t posts : Nat), s.Inv →
    ((posts = 0 ∨ s.chip.ctl.left = 0) ∧ s.chip.trigPending = []) ∨ s.chip.inRun = false ∨ s.chip.dev.ticking = false →
    exec (.trigSlotEvaluation ⟨t, posts⟩) s = .next (s.waits t)) ∧
  (∀ (s : State) (t : Nat), s.Inv → s.chip.fabric = true →
    (let holds := ∃ i, i < 64 ∧ s.chip.get GRD.RTP.ACT i = 2 ∧
      s.chip.pointCond i (s.chip.getW GRD.VAL.VMIN) (s.chip.getW GRD.VAL.VMAX) (s.chip.getW GRD.VAL.F) = true
     (s.chip.get GRD.STAT.RTS ≠ 3 ∨ holds → exec (.grdTripClear t) s = .next (s.waits t)) ∧
     (s.chip.get GRD.STAT.RTS = 3 → s.chip.grd.rts = 3 → ¬holds → ∃ u, exec (.grdTripClear t) s = .next u ∧ u.chip.now = s.at_ t ∧
       u.chip.get GRD.STAT.RTS = 2 ∧ 
       u.chip.grd = { s.chip.grd with
         rts := 2, clred := true, entd := true, ret := none, next := s.chip.grd.next.map (fun r => { r with rts := 2 }) } ∧
       Only s u [(GRD.STAT.RTS, 0)] (fun a b => { a with grd := b.grd })))) ∧
  (∀ (s : State) (t : Nat), s.Inv → s.chip.fabric = true →
    (s.chip.grd.pas = true → exec (.grdIslandClear t) s = .next (s.waits t)) ∧
    (s.chip.grd.pas = false → ∃ u, exec (.grdIslandClear t) s = .next u ∧ u.chip.now = s.at_ t ∧ u.chip.get GRD.STAT.ISL = 0 ∧
      u.chip.get GRD.STAT.ICAUSE = 0 ∧ 
      u.chip.grd = { s.chip.grd with
        isl := false, icause := 0, next := s.chip.grd.next.map (fun r => { r with isl := false, icause := 0 }) } ∧
      Only s u [(GRD.STAT.ISL, 0), (GRD.STAT.ICAUSE, 0)] (fun a b => { a with grd := b.grd })))

/-- PMU_REPORT of a reporting instant whose frame may be formed counts the frame, counts absent data in it, and remembers the
instant; of any other instant it changes nothing but the time. The oldest command frame, of kind 1 or 2, is taken by TURN_OFF or
TURN_ON_TRANSMISSION, which clear or set TXON unless the host wrote it at this instant; of kind 4 or 5 by SEND_CFG1 or
SEND_CFG2, which write the configuration frame with SYNC 0xAA22 or 0xAA32 behind the words of the ring's open page, whole 64-bit
words of them to SRAM and a last one staged, and with UEN queue it at ETHA, without PRP and with the port's link up, addressed
to the sender; without UEN nothing else changes; of another kind by PMU_COMMAND_IGNORED, which counts and flags it. Each of
these leaves a command frame of another kind where it is. -/
def Obligations.SynchrophasorFrames : Prop :=
  (∀ (s : State) (t k : Nat) (sec : Int), s.Inv →
    ((s.chip.at_ t).reportReady sec k = false → exec (.pmuReport t sec k) s = .next (s.waits t)) ∧
    ((s.chip.at_ t).reportReady sec k = true →
      (let us := s.chip.reportUs k
       let y := (s.chip.at_ t).synchro (sec * (secTaps : Int) + (8000 * us : Nat))
       ∃ u, exec (.pmuReport t sec k) s = .next u ∧ u.chip.now = s.at_ t ∧
        u.chip.get PMU.CNT.FRAMES = satN PMU.CNT.FRAMES.width (s.chip.get PMU.CNT.FRAMES + 1) ∧
        u.chip.get PMU.CNT.DERR = (if y.absent then satN PMU.CNT.DERR.width (s.chip.get PMU.CNT.DERR + 1) else s.chip.get PMU.CNT.DERR) ∧
        u.chip.pmu.lastReport = some (sec * 1000000 + (us : Nat)) ∧ u.chip.pmu.absent = y.absent ∧ u.chip.dev = s.chip.dev))) ∧
  (∀ (s : State) (t v : Nat) (x : PmuCmd) (l : List PmuCmd) (i : Instr), s.Inv → s.chip.pmu.cmds = x :: l →
    (i = .turnOffTransmission t ∧ x.cmd = 1 ∧ v = 0) ∨ (i = .turnOnTransmission t ∧ x.cmd = 2 ∧ v = 1) →
    ∃ u, exec i s = .next u ∧ u.chip.now = s.at_ t ∧
      u.chip.get PMU.NET.TXON = (if s.chip.pmu.txonAt = some (s.at_ t) then s.chip.get PMU.NET.TXON else v) ∧ u.chip.pmu = { s.chip.pmu with cmds := l } ∧
      Only s u [(PMU.NET.TXON, 0)] (fun a b => { a with pmu := b.pmu })) ∧
  (∀ (s : State) (t r p w : Nat) (x : PmuCmd) (l : List PmuCmd) (i : Instr), s.Inv → s.chip.pmu.cmds = x :: l →
    (i = .sendCfg1 t ∧ x.cmd = 4 ∧ w = 0xAA22) ∨ (i = .sendCfg2 t ∧ x.cmd = 5 ∧ w = 0xAA32) →
    r = s.chip.get PMU.CFG.RING → s.chip.rstate r ≠ rsOff → s.chip.rstate r ≠ rsFrozen → s.chip.openPage r = some p → p < 2048 →
    (∀ y ∈ s.chip.pgm.waiting, y.ring ≠ r) → s.chip.pgm.frames = [] →
    (let f := (s.chip.at_ t).configFrame w
     let rg := s.chip.ring r
     let head := rg.count - rg.stage.length
     let words := rg.stage ++ packWords f
     let n := words.length / 2 * 2
     rg.stage.length ≤ rg.count → head + words.length < 1024 →
     ∃ u, exec i s = .next u ∧ u.chip.now = s.at_ t ∧ u.chip.pmu = { s.chip.pmu with cmds := l } ∧
      u.chip.pd PGM.PDSC.FILL p = head + n ∧
      (∀ j, j < n → Memory.readWord u.sram (4096 * p + 4 * (head + j)) = toWord (words.getD j 0)) ∧
      (∀ a, a < 4096 * p + 4 * head ∨ 4096 * p + 4 * (head + n) ≤ a → Memory.readByte u.sram a = Memory.readByte s.sram a) ∧
      (s.chip.on PMU.NET.UEN = true → s.chip.prp = false → s.chip.ethOn 0 = true → s.chip.on NET.PSTAT.LINK 0 = true →
        nget [] u.chip.net.queue 0 = nget [] s.chip.net.queue 0 ++ [s.chip.udpFrame ⟨f, x.mac, x.ip, x.port⟩]) ∧
      (s.chip.on PMU.NET.UEN = false → u.chip.net = s.chip.net ∧
        u.chip.ring r = { rg with count := head + words.length, stage := words.drop n } ∧
        (∀ q, q ≠ r → u.chip.ring q = s.chip.ring q) ∧
        (∀ (g : Fld) (n : Nat), ¬(g.id = (pdsc PGM.PDSC.FILL p).id ∧ g.lo = PGM.PDSC.FILL.lo ∧ n = p % 256) →
          u.chip.get g n = s.chip.get g n)))) ∧
  (∀ (s : State) (t : Nat) (x : PmuCmd) (l : List PmuCmd), s.Inv → s.chip.pmu.cmds = x :: l →
    (x.cmd ∉ [1, 2, 4, 5] → ∃ u, exec (.pmuCommandIgnored t) s = .next u ∧ u.chip.now = s.at_ t ∧
      u.chip.get PMU.CNT.CMDX = satN PMU.CNT.CMDX.width (s.chip.get PMU.CNT.CMDX + 1) ∧ u.chip.get PMU.EVT.CMDX = 1 ∧
      u.chip.pmu = { s.chip.pmu with cmds := l } ∧
      Only s u [(PMU.CNT.CMDX, 0), (PMU.EVT.CMDX, 0)] (fun a b => { a with pmu := b.pmu })) ∧
    (x.cmd ∈ [1, 2, 4, 5] → exec (.pmuCommandIgnored t) s = .next (s.waits t)) ∧
    (x.cmd ≠ 1 → exec (.turnOffTransmission t) s = .next (s.waits t)) ∧ (x.cmd ≠ 2 → exec (.turnOnTransmission t) s = .next (s.waits t)) ∧
    (x.cmd ≠ 4 → exec (.sendCfg1 t) s = .next (s.waits t)) ∧ (x.cmd ≠ 5 → exec (.sendCfg2 t) s = .next (s.waits t)))

/-- With the locator running, FLTRIG opens the next record in slot NUM mod 16 when none is open, else it is counted and flagged as
busy. A detection that the three streams do not show changes nothing; one that they show, valid near its peak, with nothing
open, opens a record with TWV 1, shows one arrival at the peak's time with its fraction, starts a collection and raises 54.1;
with a record open it is busy; while arrivals are collected it adds one, up to eight and to the end of the collection; with an
invalid sample near the peak it is counted bad and re-arms. The end of a collection, in time or by the eighth arrival, gives the
single-ended distance when a later arrival of the first one's polarity lies within twice LEN / VEL, nothing else otherwise.
Without impedance an open record whose collection is over completes: CMPL, flag, LASTNUM, source 54.2; with impedance not before
its windows are in. TWREM of a record that has TWV gives the double-ended distance, and is refused for any other. -/
def Obligations.FaultRecordsOfTheLine : Prop :=
  (∀ (s : State) (t n i : Nat), s.Inv → n = s.chip.pmu.num → i = n % 16 →
    (s.chip.pmuRuns = false → exec (.pmuFltrig t) s = .next (s.waits t)) ∧
    (s.chip.pmuRuns = true → s.chip.pmu.openAt ≠ none → ∃ u, exec (.pmuFltrig t) s = .next u ∧ u.chip.now = s.at_ t ∧
      u.chip.get PMU.EVT.FLBUSY = 1 ∧ u.chip.get PMU.CNT.FLBUSY = satN PMU.CNT.FLBUSY.width (s.chip.get PMU.CNT.FLBUSY + 1) ∧
      Only s u [(PMU.EVT.FLBUSY, 0), (PMU.CNT.FLBUSY, 0)] noPart) ∧
    (s.chip.pmuRuns = true → s.chip.pmu.openAt = none → ∃ u, exec (.pmuFltrig t) s = .next u ∧ u.chip.now = s.at_ t ∧
      u.chip.get PMU.FREC.NUM i = n % 2 ^ PMU.FREC.NUM.width ∧ u.chip.get PMU.FREC.TWV i = 0 ∧ u.chip.get PMU.STAT.REC = 1 ∧
      u.chip.get PMU.FREC.CMPL i = 0 ∧
      (let x := (s.chip.at_ t).corrected (s.chip.raw (s.at_ t))
       u.chip.get PMU.FREC.TIME i = ((16 * x / 1024) % 2 ^ 64).toNat % 2 ^ PMU.FREC.TIME.width) ∧
      (let p := s.chip.pmu
       u.chip.pmu = { p with
        num := (n + 1) % 65536, openAt := some (s.chip.raw (s.at_ t)), lastOpen := some (s.chip.raw (s.at_ t)), arrivals := [],
        collecting := false }) ∧
      (∀ (f : Fld) (k : Nat), ¬(f.id = PMU.FREC.NUM.id ∧ k = i) → f.id ≠ PMU.TWARR.TIME.id → f.id ≠ PMU.STAT.REC.id →
        u.chip.get f k = s.chip.get f k))) ∧
  (∀ (s : State) (t x p x0 : Nat) (l : List TwSample), s.Inv → s.chip.pmuRuns = true → s.chip.on PMU.CFG.TWEN = true →
    (s.chip.at_ t).twDetect = some (x, l) → p = twPeak l 5 → x0 = x + 1000 * (p - 5) →
    (s.chip.pmu.collecting = true → s.chip.pmu.collEnd < 16 * x ∨ 8 ≤ s.chip.pmu.arrivals.length →
      exec (.twArrival t x l) s = .next (s.waits t)) ∧
    (s.chip.pmu.collecting = false ∨ (16 * x ≤ s.chip.pmu.collEnd ∧ s.chip.pmu.arrivals.length < 8) →
      (∃ y ∈ (l.drop (p - 4)).take 9, y.ok = false) →
      ∃ u, exec (.twArrival t x l) s = .next u ∧ u.chip.now = s.at_ t ∧ u.chip.pmu = { s.chip.pmu with rearm := x0 + 1000 } ∧
        u.chip.get PMU.CNT.TWBAD = satN PMU.CNT.TWBAD.width (s.chip.get PMU.CNT.TWBAD + 1) ∧
        Only s u [(PMU.CNT.TWBAD, 0)] (fun a b => { a with pmu := b.pmu })) ∧
    ((∀ y ∈ (l.drop (p - 4)).take 9, y.ok = true) →
      (let sm := twS (twAt l (p - 1))
       let sp := twS (twAt l (p + 1))
       let den := 2 * (sm - 2 * twS (twAt l p) + sp)
       let delta : Int := Int.fdiv (2 * 16000 * (sm - sp) + den) (2 * den)
       let alpha := 3 * ((twAt l p).2 * (twAt l p).2).toNat ≤ ((twAt l p).1 * (twAt l p).1).toNat
       let neg := if alpha then decide ((twAt l p).1 < 0) else decide ((twAt l p).2 < 0)
       let t16 : Int := 16 * (s.chip.at_ t).corrected x0 + delta - 8000
       (s.chip.pmu.collecting = false → s.chip.pmu.openAt = none →
         ∃ u, exec (.twArrival t x l) s = .next u ∧ u.chip.now = s.at_ t ∧ u.chip.pmu.collecting = true ∧
           u.chip.pmu.num = (s.chip.pmu.num + 1) % 65536 ∧ u.chip.pmu.arrivals.length = 1 ∧
           u.chip.pmu.rearm = x0 + 2 * usTaps ∧ u.chip.get PMU.FREC.TWV (s.chip.pmu.num % 16) = 1 ∧
           u.chip.get PMU.EVT.TW = 1 ∧ u.chip.flt = { s.chip.flt with raised := s.raised t 54 1 } ∧
           (den ≠ 0 → u.chip.pmu.arrivals = [(t16, neg)] ∧
             u.chip.pmu.openAt = some ((16 * (x0 : Int) + delta - 8000) / 16).toNat)) ∧
       (s.chip.pmu.collecting = false → s.chip.pmu.openAt ≠ none →
         ∃ u, exec (.twArrival t x l) s = .next u ∧ u.chip.now = s.at_ t ∧ u.chip.pmu = { s.chip.pmu with rearm := x0 + 2 * usTaps } ∧
           u.chip.get PMU.EVT.FLBUSY = 1 ∧ u.chip.get PMU.CNT.FLBUSY = satN PMU.CNT.FLBUSY.width (s.chip.get PMU.CNT.FLBUSY + 1)) ∧
       (s.chip.pmu.collecting = true → 16 * x ≤ s.chip.pmu.collEnd → s.chip.pmu.arrivals.length < 8 →
         ∃ u, exec (.twArrival t x l) s = .next u ∧ u.chip.now = s.at_ t ∧ u.chip.pmu.collecting = true ∧
           u.chip.pmu.num = s.chip.pmu.num ∧ u.chip.pmu.rearm = x0 + 2 * usTaps ∧
           u.chip.pmu.arrivals.length = s.chip.pmu.arrivals.length + 1 ∧
           u.chip.get PMU.FREC.NARR s.chip.openSlot = s.chip.pmu.arrivals.length + 1 ∧
           (den ≠ 0 → u.chip.pmu.arrivals = s.chip.pmu.arrivals ++ [(t16, neg)]))))) ∧
  (∀ (s : State) (t x : Nat) (l : List TwSample), s.Inv →
    s.chip.pmuRuns = false ∨ s.chip.on PMU.CFG.TWEN = false ∨ (s.chip.at_ t).twDetect ≠ some (x, l) →
    exec (.twArrival t x l) s = .next (s.waits t)) ∧
  (∀ (s : State) (t : Nat) (t1 : Int) (p1 : Bool) (l : List (Int × Bool)), s.Inv → s.chip.pmu.collecting = true →
    s.chip.pmu.collEnd ≤ 16 * s.chip.raw (s.at_ t) ∨ 8 ≤ s.chip.pmu.arrivals.length → s.chip.pmu.arrivals = (t1, p1) :: l →
    ∃ u, exec (.twCollectionEnd t) s = .next u ∧ u.chip.now = s.at_ t ∧ u.chip.pmu = { s.chip.pmu with collecting := false } ∧
      (let hit := fun (e : Int × Bool) => e.2 == p1 && F32.lt (twUs (e.1 - t1)) s.chip.twTravel
       ((∀ e ∈ l, hit e = false) → Only s u [] (fun a b => { a with pmu := b.pmu })) ∧
       (∀ e m, l = e :: m → hit e = true → u.chip.get PMU.FREC.SEV s.chip.openSlot = 1 ∧
         u.chip.get PMU.FREC.DT s.chip.openSlot = (e.1 - t1).toNat % 2 ^ PMU.FREC.DT.width ∧
         u.chip.getW PMU.FREC.DSE s.chip.openSlot =
           F32.div (F32.mul (s.chip.getW PMU.TWCFG.VEL) (twUs (e.1 - t1))) 0x40000000#32))) ∧
  (∀ (s : State) (t : Nat), s.Inv → s.chip.pmu.collecting = false ∨
      (16 * s.chip.raw (s.at_ t) < s.chip.pmu.collEnd ∧ s.chip.pmu.arrivals.length < 8) →
    exec (.twCollectionEnd t) s = .next (s.waits t)) ∧
  (∀ (s : State) (t o k : Nat), s.Inv → s.chip.pmu.openAt = some o → k = s.chip.openSlot → s.chip.on PMU.CFG.IMPEN = false →
    (s.chip.pmuRuns = true → s.chip.pmu.collecting = false → ∃ u, exec (.faultRecordComplete t) s = .next u ∧ u.chip.now = s.at_ t ∧
      u.chip.get PMU.FREC.CMPL k = 1 ∧ u.chip.get PMU.EVT.FLREC = 1 ∧ u.chip.get PMU.STAT.REC = 0 ∧
      u.chip.get PMU.STAT.LASTNUM = s.chip.get PMU.FREC.NUM k % 2 ^ PMU.STAT.LASTNUM.width ∧
      u.chip.pmu = { s.chip.pmu with openAt := none } ∧ u.chip.flt = { s.chip.flt with raised := s.raised t 54 2 } ∧
      Only s u [(PMU.FREC.CMPL, k), (PMU.EVT.FLREC, 0), (PMU.STAT.REC, 0), (PMU.STAT.LASTNUM, 0), (KPR.NVS.PEND, 2), (KPR.NVS.PBLKS, 2)]
        (fun a b => { a with pmu := b.pmu, flt := b.flt, kpr := b.kpr })) ∧
    (s.chip.pmu.collecting = true → exec (.faultRecordComplete t) s = .next (s.waits t))) ∧
  (∀ (s : State) (t o : Nat), s.Inv → s.chip.pmu.openAt = some o → s.chip.on PMU.CFG.IMPEN = true →
    s.chip.raw (s.at_ t) < o + s.chip.get PMU.FLCFG.PSET * msTaps + secTaps / s.chip.pmuF0 + 12000000 →
    exec (.faultRecordComplete t) s = .next (s.waits t)) ∧
  (∀ (s : State) (t num time tap fine k : Nat), s.Inv → k = num % 16 → num < 65536 → time < 2 ^ 64 → tap < 64 → fine < 16 →
    (s.chip.get PMU.FREC.NUM k ≠ num ∨ s.chip.on PMU.FREC.TWV k = false → exec (.twremWrite t num time tap fine) s = .next (s.waits t)) ∧
    (s.chip.get PMU.FREC.NUM k = num → s.chip.on PMU.FREC.TWV k = true → s.chip.fabric = true →
      (let t1 := (s.chip.get PMU.FREC.TIME k * 64 + s.chip.get PMU.FREC.TAP k) * 16 + s.chip.get PMU.FREC.FINE k
       let d := F32.div (F32.add (s.chip.getW PMU.TWCFG.LEN) (F32.mul (s.chip.getW PMU.TWCFG.VEL)
         (twUs ((t1 : Nat) - (((time * 64 + tap) * 16 + fine : Nat) : Int))))) 0x40000000#32
       ∃ u, exec (.twremWrite t num time tap fine) s = .next u ∧ u.chip.now = s.at_ t ∧ u.chip.getW PMU.FREC.DDE k = d ∧
        u.chip.get PMU.FREC.DEV k = bit (F32.le 0 d && F32.le d (s.chip.getW PMU.TWCFG.LEN)) ∧
        Only s u [(PMU.TWREM.NUM, 0), (PMU.TWREM.TIME, 0), (PMU.TWREM.TAP, 0), (PMU.TWREM.FINE, 0), (PMU.FREC.DDE, k),
          (PMU.FREC.DEV, k)] noPart)))

/-- POWER_SAMPLE at a new grid instant, with no new channel samples to take and full valid windows, shows P, Q, VRMS and IRMS of
each phase and adds the energy of a finite P above the no-load limit to the import or export accumulator of the phase, modulo
2^104; before the next instant, and outside RUN, it does nothing. A waiting pulse starts when its output is free: one fewer
waiting, high for PW ms; at its end the output rests PW ms. A snapshot takes a power sample that is due first, and shows every
accumulator with its number and time. ZERO outside RUN clears accumulators, residues and waiting pulses, and is refused in RUN.
A copy that is due puts the meter's record into retention RAM. METER_INPUT_INVALID with no new samples keeps every channel. -/
def Obligations.MeterRuns : Prop :=
  (∀ (s : State) (t k : Nat) (v : Nat → Word × Word × Word × Word), s.Inv → s.chip.meterRuns = true →
    k = s.chip.raw (s.at_ t) / (125 * usTaps) → s.chip.mtr.lastK < k → (∀ ch, ch < 6 → (s.chip.decim (s.chip.get MTR.CH.DEC ch)).meter = []) →
    (∀ e, e < 3 → s.chip.elemInvalid e = false ∧ s.chip.elemSample e = some (v e)) →
    ∃ u, exec (.powerSample t) s = .next u ∧ u.chip.now = s.at_ t ∧ u.chip.mtr.lastK = k ∧ u.chip.mtr.chs = s.chip.mtr.chs ∧
      (∀ e, e < 3 → u.chip.getW MTR.INST.P e = (v e).1 ∧ u.chip.getW MTR.INST.Q e = (v e).2.1 ∧
        u.chip.getW MTR.INST.VRMS e = (v e).2.2.1 ∧ u.chip.getW MTR.INST.IRMS e = (v e).2.2.2 ∧
        (F32.isFinite (v e).1 = true → nget 0 u.chip.mtr.acc (7 * e) = (if F32.lt F32.zeroP (v e).1 ∧ F32.lt (F32.abs (v e).1) (s.chip.creep e) = false
          then (nget 0 s.chip.mtr.acc (7 * e) + energyOf (v e).1) % 2 ^ 104 else nget 0 s.chip.mtr.acc (7 * e)) ∧
        nget 0 u.chip.mtr.acc (7 * e + 1) = (if F32.lt F32.zeroP (v e).1 = false ∧ F32.lt (v e).1 F32.zeroP ∧
          F32.lt (F32.abs (v e).1) (s.chip.creep e) = false
          then (nget 0 s.chip.mtr.acc (7 * e + 1) + energyOf (v e).1) % 2 ^ 104 else nget 0 s.chip.mtr.acc (7 * e + 1))))) ∧
  (∀ (s : State) (t : Nat), s.Inv → s.chip.meterRuns = false ∨ s.chip.raw (s.at_ t) / (125 * usTaps) ≤ s.chip.mtr.lastK →
    exec (.powerSample t) s = .next (s.waits t)) ∧
  (∀ (s : State) (t ch : Nat), s.Inv → (s.chip.meterRuns = false ∨ 6 ≤ ch → exec (.meterInputInvalid t ch) s = .next (s.waits t)) ∧
    (s.chip.meterRuns = true → ch < 6 → (s.chip.decim (s.chip.get MTR.CH.DEC ch)).meter = [] →
      ∃ u, exec (.meterInputInvalid t ch) s = .next u ∧ u.chip.now = s.at_ t ∧
        u.chip.get MTR.STAT.INVAL = ofBits ((List.range 3).filter (fun e => s.chip.elemInvalid e)) % 2 ^ MTR.STAT.INVAL.width ∧
        Only s u [(MTR.STAT.INVAL, 0), (MTR.STAT.SETTLE, 0)] noPart)) ∧
  (∀ (s : State) (t k n : Nat) (o : PulseOut), s.Inv → s.chip.plsOn k = true → o = s.chip.pls k → n = s.chip.get MTR.PST.PEND k →
    n < 2 ^ MTR.PST.PEND.width →
    (n ≠ 0 → o.until_ = none → o.free ≤ s.at_ t → ∃ u, exec (.pulseStart t k) s = .next u ∧ u.chip.now = s.at_ t ∧
      u.chip.get MTR.PST.PEND k = n - 1 ∧ (u.chip.pls k).until_ = some (s.at_ t + s.chip.get MTR.PLS.PW k * msTaps) ∧
      (∀ j, j ≠ k → u.chip.pls j = s.chip.pls j) ∧ Only s u [(MTR.PST.PEND, k), (MTR.PST.RES, k)] (fun a b => { a with mtr := b.mtr })) ∧
    (n = 0 ∨ o.until_ ≠ none ∨ s.at_ t < o.free → exec (.pulseStart t k) s = .next (s.waits t)) ∧
    (∀ e, o.until_ = some e → e ≤ s.at_ t → ∃ u, exec (.pulseEnd t k) s = .next u ∧ u.chip.now = s.at_ t ∧
      u.chip.pls k = { o with until_ := none, free := s.at_ t + s.chip.get MTR.PLS.PW k * msTaps } ∧
      (∀ j, j ≠ k → u.chip.pls j = s.chip.pls j) ∧ Only s u [(MTR.PST.RES, k)] (fun a b => { a with mtr := b.mtr }))) ∧
  (∀ (s : State) (t : Nat), s.Inv → s.chip.fabric = true →
    (∀ v, exec (.powerSample t) s = .next v → exec (.meterSnapshot t) s = exec (.meterSnapshot t) v) ∧
    (s.chip.meterRuns = false ∨ s.chip.raw (s.at_ t) / (125 * usTaps) ≤ s.chip.mtr.lastK → ∃ u, exec (.meterSnapshot t) s = .next u ∧ u.chip.now = s.at_ t ∧ u.chip.mtr.acc = s.chip.mtr.acc ∧
      (∀ i, i < 28 → u.chip.get MTR.SNAP.VALUE i = nget 0 s.chip.mtr.acc i / 2 ^ 24 % 2 ^ MTR.SNAP.VALUE.width) ∧
      u.chip.get MTR.SNAPH.NUM = (s.chip.get MTR.SNAPH.NUM + 1) % 2 ^ MTR.SNAPH.NUM.width ∧
      u.chip.get MTR.SNAPH.TIME = ((s.chip.at_ t).stamp (s.chip.raw (s.at_ t))).1 % 2 ^ MTR.SNAPH.TIME.width ∧
      Apart s u [MTR.SNAP.VALUE.id, MTR.SNAPH.NUM.id] (fun a b => { a with mtr := b.mtr })) ∧
    (s.chip.inRun = true → exec (.meterZero t) s = .next (s.waits t)) ∧
    (s.chip.inRun = false → ∃ u, exec (.meterZero t) s = .next u ∧ u.chip.now = s.at_ t ∧ u.chip.mtr.acc = [] ∧ u.chip.mtr.hprev = [] ∧
      (∀ k, k < 4 → u.chip.get MTR.PST.PEND k = 0 ∧ (u.chip.pls k).res = 0) ∧
      Apart s u [MTR.PST.PEND.id] (fun a b => { a with mtr := b.mtr }))) ∧
  (∀ (s : State) (t : Nat), s.Inv →
    (s.chip.meterRuns = true → s.chip.mtr.copyAt + s.chip.get MTR.CFG.ECPER * secTaps ≤ s.at_ t →
      ∃ u, exec (.meterRecordCopy t) s = .next u ∧ u.chip.now = s.at_ t ∧ u.chip.kpr.meter = some (s.chip.meterRec 0) ∧
        u.chip.mtr = { s.chip.mtr with copyAt := s.at_ t } ∧
        (s.at_ t < s.chip.kpr.nvAt + s.chip.get KPR.CFG.NVPER * 60 * secTaps →
          Only s u [] (fun a b => { a with mtr := b.mtr, kpr := b.kpr })) ∧
        (s.chip.kpr.nvAt + s.chip.get KPR.CFG.NVPER * 60 * secTaps ≤ s.at_ t → u.chip.kpr.nvAt = s.at_ t ∧
          nget none u.chip.kpr.pend 1 = some (meterNv (s.chip.meterRec 0)) ∧ u.chip.get KPR.NVS.PEND 1 = 1)) ∧
    (s.chip.meterRuns = false ∨ s.at_ t < s.chip.mtr.copyAt + s.chip.get MTR.CFG.ECPER * secTaps →
      exec (.meterRecordCopy t) s = .next (s.waits t)))

/-- At an enabled port a frame with a bad FCS, a length outside 60 to 1,524, or without link counts RXCRC; with full pages RXOVR; of
no accepted kind RXDROP; none of these reaches anyone. A supervision frame with the right trailer in PRP mode is counted and
entered in the discard table when new, removed as a duplicate when its entry came over the other port, and counted as a repeat
when over the same. A safety frame without PRP is delivered SINGLE and counted; with PRP the first copy opens a pair, a second
equal copy from the other port in the window closes it and is delivered BOTH, one that differs closes it, is counted and raises
46; one from the same port or after the window is counted late. A pair whose window ends is delivered SINGLE; entries FORGET ms
old leave the table; a port silent for LANTO seconds is flagged and raises 45. A port that is off receives nothing. -/
def Obligations.EthernetReception : Prop :=
  (∀ (s : State) (t i : Nat) (f : List Byte) (fcs full : Bool), s.Inv →
    (s.chip.ethOn i = false → exec (.ethFrameRx t i f fcs full) s = .next (s.waits t)) ∧
    (s.chip.ethOn i = true → fcs = false ∨ f.length < 60 ∨ 1524 < f.length ∨ s.chip.on NET.PSTAT.LINK i = false →
      ∃ u, exec (.ethFrameRx t i f fcs full) s = .next u ∧ u.chip.now = s.at_ t ∧
        u.chip.get NET.PCNT.RXCRC i = satN NET.PCNT.RXCRC.width (s.chip.get NET.PCNT.RXCRC i + 1) ∧ Only s u [(NET.PCNT.RXCRC, i)] noPart)) ∧
  (∀ (s : State) (t i : Nat) (f : List Byte) (x : RxFrame), s.Inv → s.chip.ethOn i = true → s.chip.on NET.PSTAT.LINK i = true →
    60 ≤ f.length → f.length ≤ 1524 → x = parseFrame (f.map BitVec.toNat) →
    (∃ u, exec (.ethFrameRx t i f true true) s = .next u ∧ u.chip.now = s.at_ t ∧
      u.chip.get NET.PCNT.RXOVR i = satN NET.PCNT.RXOVR.width (s.chip.get NET.PCNT.RXOVR i + 1) ∧ Only s u [(NET.PCNT.RXOVR, i)] noPart) ∧
    (s.chip.rxKind x = 0 → x.trailer = none → ∃ u, exec (.ethFrameRx t i f true false) s = .next u ∧ u.chip.now = s.at_ t ∧
      u.chip.get NET.PCNT.RXDROP i = satN NET.PCNT.RXDROP.width (s.chip.get NET.PCNT.RXDROP i + 1) ∧ u.chip.get NET.PSTAT.SILENT i = 0 ∧
      u.chip.net = { s.chip.net with rxAt := nset 0 s.chip.net.rxAt i (s.at_ t) } ∧
      Only s u [(NET.PCNT.RXDROP, i), (NET.PSTAT.SILENT, i)] (fun a b => { a with net := b.net })) ∧
    (∀ q, s.chip.rxKind x = 4 → s.chip.prp = true → x.trailer = some (q, if i = 0 then 0xA else 0xB) →
      ∃ u, exec (.ethFrameRx t i f true false) s = .next u ∧ u.chip.now = s.at_ t ∧
        u.chip.get NET.PCNT.RXOK i = satN NET.PCNT.RXOK.width (s.chip.get NET.PCNT.RXOK i + 1) ∧
        Only s u [(NET.PCNT.RXOK, i), (NET.PSTAT.SILENT, i), (NET.PRPCNT.SUPRX, 0), (NET.PRPCNT.DUPL, 0), (NET.PRPCNT.REPEAT, 0),
          (NET.PRPCNT.UNIQA, 0), (NET.PRPCNT.UNIQB, 0), (NET.PRPCNT.TBLFULL, 0)] (fun a b => { a with net := b.net }) ∧
        (let tab := s.chip.net.table.filter (fun e => decide (s.at_ t < e.at_ + s.chip.get NET.CFG.FORGET * msTaps))
         (tab.find? (fun e => e.src == x.src && e.seq == q) = none → tab.length < 256 →
          u.chip.net.table = tab ++ [⟨x.src, q, i, s.at_ t⟩] ∧
          u.chip.get NET.PRPCNT.SUPRX = satN NET.PRPCNT.SUPRX.width (s.chip.get NET.PRPCNT.SUPRX + 1)) ∧
        (∀ e, tab.find? (fun e => e.src == x.src && e.seq == q) = some e →
          (e.port ≠ i → u.chip.net.table = tab.erase e ∧ u.chip.get NET.PRPCNT.SUPRX = s.chip.get NET.PRPCNT.SUPRX ∧
            u.chip.get NET.PRPCNT.DUPL = satN NET.PRPCNT.DUPL.width (s.chip.get NET.PRPCNT.DUPL + 1)) ∧
          (e.port = i → u.chip.net.table = tab ∧
            u.chip.get NET.PRPCNT.REPEAT = satN NET.PRPCNT.REPEAT.width (s.chip.get NET.PRPCNT.REPEAT + 1))))) ∧
    (s.chip.rxKind x = 5 → s.chip.prp = false → i = 0 → x.trailer = none →
      ∃ u, exec (.ethFrameRx t i f true false) s = .next u ∧ u.chip.now = s.at_ t ∧
        u.chip.sio.frames = s.chip.sio.frames ++ [⟨x.payload.take 20, false⟩] ∧
        u.chip.get NET.PRPCNT.SSINGLE = satN NET.PRPCNT.SSINGLE.width (s.chip.get NET.PRPCNT.SSINGLE + 1) ∧
        Only s u [(NET.PCNT.RXOK, i), (NET.PSTAT.SILENT, i), (NET.PRPCNT.SSINGLE, 0)]
          (fun a b => { a with net := b.net, sio := b.sio })) ∧
    (∀ q, s.chip.rxKind x = 5 → s.chip.prp = true → x.trailer = some (q, if i = 0 then 0xA else 0xB) →
      (s.chip.net.pairs = [] → ∃ u, exec (.ethFrameRx t i f true false) s = .next u ∧ u.chip.now = s.at_ t ∧
        u.chip.net.pairs = [⟨x.src, q, i, x.payload, s.at_ t, s.chip.get NET.SAFE.WIN * usTaps, false⟩] ∧
        Only s u [(NET.PCNT.RXOK, i), (NET.PSTAT.SILENT, i)] (fun a b => { a with net := b.net })) ∧
      (∀ e, s.chip.net.pairs = [e] → e.closed = false → e.src = x.src → e.seq = q →
        ∃ u, exec (.ethFrameRx t i f true false) s = .next u ∧ u.chip.now = s.at_ t ∧
          (e.port ≠ i → s.at_ t ≤ e.at_ + e.win → u.chip.net.pairs = [{ e with closed := true }] ∧
            (e.payload = x.payload → u.chip.sio.frames = s.chip.sio.frames ++ [⟨x.payload.take 20, true⟩] ∧
              Only s u [(NET.PCNT.RXOK, i), (NET.PSTAT.SILENT, i)] (fun a b => { a with net := b.net, sio := b.sio })) ∧
            (e.payload ≠ x.payload → u.chip.get NET.EVT.SMISM = 1 ∧
              u.chip.get NET.PRPCNT.SMISM = satN NET.PRPCNT.SMISM.width (s.chip.get NET.PRPCNT.SMISM + 1) ∧
              u.chip.flt = { s.chip.flt with raised := s.raised t 46 } ∧
              Only s u [(NET.PCNT.RXOK, i), (NET.PSTAT.SILENT, i), (NET.EVT.SMISM, 0), (NET.PRPCNT.SMISM, 0)]
                (fun a b => { a with net := b.net, flt := b.flt }))) ∧
          (e.port = i ∨ e.at_ + e.win < s.at_ t → u.chip.net.pairs = [e] ∧
            u.chip.get NET.PRPCNT.SLATE = satN NET.PRPCNT.SLATE.width (s.chip.get NET.PRPCNT.SLATE + 1) ∧
            Only s u [(NET.PCNT.RXOK, i), (NET.PSTAT.SILENT, i), (NET.PRPCNT.SLATE, 0)] (fun a b => { a with net := b.net }))))) ∧
  (∀ (s : State) (t : Nat), s.Inv →
    (∃ u, exec (.discardEntryExpire t) s = .next u ∧ u.chip.now = s.at_ t ∧
      (let tab := s.chip.net.table.filter (fun e => decide (s.at_ t < e.at_ + s.chip.get NET.CFG.FORGET * msTaps))
       u.chip.net = { s.chip.net with table := tab }) ∧ Only s u [] (fun a b => { a with net := b.net })) ∧
    (∀ e, s.chip.net.pairs.find? (fun e => !e.closed && decide (e.at_ + e.win ≤ s.at_ t)) = some e →
      ∃ u, exec (.safetyPairTimeout t) s = .next u ∧ u.chip.now = s.at_ t ∧
        u.chip.net.pairs = s.chip.net.pairs.map (fun x => if x = e then { x with closed := true } else x) ∧
        u.chip.sio.frames = s.chip.sio.frames ++ [⟨e.payload.take 20, false⟩] ∧
        u.chip.get NET.PRPCNT.SSINGLE = satN NET.PRPCNT.SSINGLE.width (s.chip.get NET.PRPCNT.SSINGLE + 1) ∧
        Only s u [(NET.PRPCNT.SSINGLE, 0)] (fun a b => { a with net := b.net, sio := b.sio })) ∧
    ((∀ e ∈ s.chip.net.pairs, e.closed = true ∨ s.at_ t < e.at_ + e.win) → exec (.safetyPairTimeout t) s = .next (s.waits t))) ∧
  (∀ (s : State) (t i : Nat), s.Inv → s.chip.ethOn i = true → s.chip.on NET.PSTAT.SILENT i = false →
    (nget 0 s.chip.net.rxAt i + s.chip.get NET.CFG.LANTO * secTaps ≤ s.at_ t →
      ∃ u, exec (.lanSilent t i) s = .next u ∧ u.chip.now = s.at_ t ∧ u.chip.get NET.PSTAT.SILENT i = 1 ∧ u.chip.get NET.EVT.LANSIL = 1 ∧
        u.chip.flt = { s.chip.flt with raised := s.raised t 45 } ∧
        Only s u [(NET.PSTAT.SILENT, i), (NET.EVT.LANSIL, 0)] (fun a b => { a with flt := b.flt })) ∧
    (s.at_ t < nget 0 s.chip.net.rxAt i + s.chip.get NET.CFG.LANTO * secTaps → exec (.lanSilent t i) s = .next (s.waits t)))

/-- With no frame to collect, a free enabled port sends the first queued frame of the highest priority present, 1 before 3 before 4:
the frame with its trailer is its last one, the port is busy for its length and 24 octets, TXOK counts; with UEN 0 nothing else
changes, and with nothing queued nothing but the time. A due supervision frame is queued on every enabled port with link under
the node's sequence number, which counts on. In RUN with TXEN a due safety frame is queued at ETHA without PRP, its payload that
of R465. A link poll that is due, with no access in progress, shows the link, flags and raises 44 on a change, drops the queue
of a port whose link is down, and sets the next one a whole number of 10 ms after it fell due; another poll waits. A port that
the servo follows and that loses its link with the other off begins holdover. An MDIO access without BUSY stores its word and
sets BUSY; its end clears BUSY and stores a read's data. -/
def Obligations.EthernetTransmission : Prop :=
  (∀ (s : State) (t i : Nat), s.Inv → s.chip.pgm.frames = [] → s.chip.ethOn i = true → nget 0 s.chip.net.busy i ≤ s.at_ t →
    (s.chip.on PMU.NET.UEN = false → nget [] s.chip.net.queue i = [] → exec (.ethFrameTx t i) s = .next (s.waits t)) ∧
    (∀ f, [1, 3, 4].findSome? (fun p => (nget [] s.chip.net.queue i).find? (fun f => f.prio == p)) = some f →
      ∃ u, exec (.ethFrameTx t i) s = .next u ∧ u.chip.now = s.at_ t ∧
        nget [] u.chip.net.queue i = (nget [] s.chip.net.queue i).erase f ∧
        (∀ k, k ≠ i → nget [] u.chip.net.queue k = nget [] s.chip.net.queue k) ∧ nget [] u.chip.net.last i = txOctets f i ∧
        nget 0 u.chip.net.busy i = s.at_ t + ((txOctets f i).length + 24) * s.chip.octetTaps i ∧
        u.chip.get NET.PCNT.TXOK i = satN NET.PCNT.TXOK.width (s.chip.get NET.PCNT.TXOK i + 1) ∧
        (s.chip.on PMU.NET.UEN = false → Only s u [(NET.PCNT.TXOK, i)] (fun a b => { a with net := b.net })))) ∧
  (∀ (s : State) (t : Nat) (f : TxFrame), s.Inv → s.chip.prp = true → s.chip.fabric = true →
    (s.chip.net.supAt + s.chip.get NET.CFG.LIFE * secTaps ≤ s.at_ t →
      f.octets = octets 6 0x01154E000100 ++ octets 6 (s.chip.get NET.MAC.ADDR) ++ octets 2 0x88FB ++ ([0, 1] ++
        octets 2 s.chip.net.supSeq ++ [20, 6] ++ octets 6 (s.chip.get NET.MAC.ADDR) ++ [0, 0]) →
      f.prio = 4 → f.head = 14 → f.seq = some s.chip.net.prpSeq →
      ∃ u, exec (.prpSupervisionTx t) s = .next u ∧ u.chip.now = s.at_ t ∧ u.chip.net.supAt = s.at_ t ∧
        u.chip.net.supSeq = (s.chip.net.supSeq + 1) % 65536 ∧ u.chip.net.prpSeq = (s.chip.net.prpSeq + 1) % 65536 ∧
        (∀ i, i < 2 → s.chip.ethOn i = true → s.chip.on NET.PSTAT.LINK i = true →
          nget [] u.chip.net.queue i = nget [] s.chip.net.queue i ++ [f]) ∧
        (∀ i, i < 2 → s.chip.ethOn i = false → nget [] u.chip.net.queue i = nget [] s.chip.net.queue i) ∧
        Only s u [(NET.PCNT.TXDROP, 0), (NET.PCNT.TXDROP, 1)] (fun a b => { a with net := b.net })) ∧
    (s.at_ t < s.chip.net.supAt + s.chip.get NET.CFG.LIFE * secTaps → exec (.prpSupervisionTx t) s = .next (s.waits t))) ∧
  (∀ (s : State) (t : Nat), s.Inv →
    (s.chip.inRun = true → s.chip.on SIO.FCFG.TXEN = true → s.chip.prp = false → s.chip.ethOn 0 = true → s.chip.on NET.PSTAT.LINK 0 = true →
      (∀ x, s.chip.sio.sentAt = some x → x + s.chip.get SIO.FCFG.FPER * msTaps ≤ s.at_ t ∨ s.chip.safetyStatus ≠ s.chip.sio.sent) →
      ∃ u, exec (.safetyFrameTx t) s = .next u ∧ u.chip.now = s.at_ t ∧
        (let o := s.chip.sio
         u.chip.sio = { o with fcnt := (o.fcnt + 1) % 65536, sentAt := some (s.at_ t), sent := s.chip.safetyStatus }) ∧
        nget [] u.chip.net.queue 0 = nget [] s.chip.net.queue 0 ++
          [s.chip.plainFrame 1 (s.chip.get NET.SAFE.SMC) (s.chip.get NET.SAFE.ETYPE) (s.chip.at_ t).safetyPayload] ∧
        Only s u [] (fun a b => { a with net := b.net, sio := b.sio })) ∧
    (s.chip.inRun = false ∨ s.chip.on SIO.FCFG.TXEN = false → exec (.safetyFrameTx t) s = .next (s.waits t))) ∧
  (∀ (s : State) (t i : Nat) (up : Bool), s.Inv →
    (s.chip.ethOn i = false ∨ s.at_ t < nget 0 s.chip.net.pollDue i ∨ s.at_ t < s.chip.net.pollEnd ∨
        (s.chip.on NET.MDIO.BUSY = true ∧ s.chip.net.mdioEnd - mdioTaps ≤ s.at_ t) →
      exec (.linkPoll t i up) s = .next (s.waits t)) ∧
    (s.chip.ethOn i = true → nget 0 s.chip.net.pollDue i ≤ s.at_ t → s.chip.net.pollEnd ≤ s.at_ t →
        s.chip.on NET.MDIO.BUSY = false ∨ s.at_ t < s.chip.net.mdioEnd - mdioTaps →
      ∃ u, exec (.linkPoll t i up) s = .next u ∧ u.chip.now = s.at_ t ∧
      u.chip.get NET.PSTAT.LINK i = bit up ∧ u.chip.net.pollEnd = s.at_ t + mdioTaps ∧
      (let d := nget 0 s.chip.net.pollDue i
       (d = 0 → nget 0 u.chip.net.pollDue i = s.at_ t + 10 * msTaps) ∧
       (d ≠ 0 → nget 0 u.chip.net.pollDue i = d + ((s.at_ t - d) / (10 * msTaps) + 1) * (10 * msTaps))) ∧
      (s.chip.on NET.PSTAT.LINK i = up → u.chip.flt = s.chip.flt) ∧ (s.chip.on NET.PSTAT.LINK i = !up → u.chip.get NET.EVT.LINK = 1) ∧
      (up = false → nget [] u.chip.net.queue i = [] ∧ u.chip.get NET.PCNT.TXDROP i =
        satN NET.PCNT.TXDROP.width (s.chip.get NET.PCNT.TXDROP i + (nget [] s.chip.net.queue i).length)) ∧
      (up = true → nget [] u.chip.net.queue i = nget [] s.chip.net.queue i) ∧
      (let lost := up = false ∧ s.chip.on NET.PSTAT.LINK i = true ∧ s.chip.get TIM.CFG.SRC = 1 ∧ s.chip.tim.servoPort = some i
       (¬lost → (s.chip.on NET.PSTAT.LINK i = !up → u.chip.flt = { s.chip.flt with raised := s.raised t 44 }) ∧
         (up = true ∨ s.chip.on PMU.NET.UEN = false →
           Only s u [(NET.PSTAT.LINK, i), (NET.EVT.LINK, 0), (NET.PCNT.TXDROP, i)] (fun a b => { a with net := b.net, flt := b.flt }))) ∧
       (lost → s.chip.on NET.PSTAT.LINK (1 - i) = false → s.chip.tim.corrections ≠ 0 → u.chip.get TIM.STAT.HOLD = 1)))) ∧
  (∀ (s : State) (t v d : Nat), s.Inv →
    (s.chip.on NET.MDIO.BUSY = true → exec (.mdioAccess t v) s = .next (s.waits t)) ∧
    (s.chip.on NET.MDIO.BUSY = false → exec (.mdioAccessDone t d) s = .next (s.waits t)) ∧
    (s.chip.on NET.MDIO.BUSY = false → s.chip.fabric = true → ∃ u, exec (.mdioAccess t v) s = .next u ∧ u.chip.now = s.at_ t ∧
      u.chip.get NET.MDIO.BUSY = 1 ∧ u.chip.get NET.MDIO.OP = v / 2 ^ 29 % 2 ^ NET.MDIO.OP.width ∧
      u.chip.get NET.MDIO.PHYAD = v / 2 ^ 24 % 2 ^ NET.MDIO.PHYAD.width ∧ u.chip.get NET.MDIO.REG = v / 2 ^ 16 % 2 ^ NET.MDIO.REG.width ∧
      u.chip.get NET.MDIO.DATA = v % 2 ^ NET.MDIO.DATA.width ∧ u.chip.net.mdioEnd = Nat.max (s.at_ t) s.chip.net.pollEnd + mdioTaps ∧
      Only s u [(NET.MDIO.BUSY, 0), (NET.MDIO.OP, 0), (NET.MDIO.PHYAD, 0), (NET.MDIO.REG, 0), (NET.MDIO.DATA, 0)]
        (fun a b => { a with net := b.net })) ∧
    (s.chip.on NET.MDIO.BUSY = true → s.chip.net.mdioEnd ≤ s.at_ t → ∃ u, exec (.mdioAccessDone t d) s = .next u ∧
      u.chip.now = s.at_ t ∧ u.chip.get NET.MDIO.BUSY = 0 ∧
      u.chip.get NET.MDIO.DATA = (if s.chip.on NET.MDIO.OP then s.chip.get NET.MDIO.DATA else d % 2 ^ NET.MDIO.DATA.width) ∧
      Only s u [(NET.MDIO.BUSY, 0), (NET.MDIO.DATA, 0)] noPart))

/-- With the fabric released. A new channel level of an evaluated input is stored and DEMAND becomes the demand of R452; an entry
sets SIDEM and raises source 58 with EVEN. After TDISC ms of disagreement the input is in FAULT and demand, DISC is set and
counted, source 57 raised. An acknowledged input, both channels not OK, leaves FAULT and stays in demand; otherwise nothing
changes. A write of ON = 1 without a source other than HOST, or of ON = 0, is stored. A readback, of an output without a test or
of the other channel while a return is awaited, that disagrees from RBT x 10 us after a change on takes the output into FAULT
with cause 1 or 2, flagged, raised as 56, both channels low. An output with both readbacks low leaves FAULT. In each case every
output without a test has both channels at what its sources say, and nothing else changes. -/
def Obligations.SafetyInputsOutputs : Prop :=
  (∀ (s : State) (t k ch : Nat) (level : Bool), s.Inv → s.chip.fabric = true → k < 8 → ch < 2 → s.chip.siUsed k = true →
    ∃ u, exec (.safetyInputChange t k ch level) s = .next u ∧ u.chip.now = s.at_ t ∧
      u.chip.get (if ch = 0 then SIO.SISTAT.A else SIO.SISTAT.B) k = bit level ∧
      u.chip.get SIO.SISTAT.FAULT k = s.chip.get SIO.SISTAT.FAULT k ∧ u.chip.get SIO.SISTAT.DEMAND k = bit (u.chip.siDemand k) ∧
      (let entry := u.chip.siDemand k = true ∧ s.chip.on SIO.SISTAT.DEMAND k = false
       (entry → u.chip.get SIO.EVT.SIDEM = 1) ∧ (¬entry → u.chip.get SIO.EVT.SIDEM = s.chip.get SIO.EVT.SIDEM) ∧
       (entry ∧ s.chip.on SIO.SICFG.EVEN k = true → u.chip.flt = { s.chip.flt with raised := s.raised t 58 }) ∧
       (¬entry ∨ s.chip.on SIO.SICFG.EVEN k = false → u.chip.flt = s.chip.flt)) ∧
      Follows s u ∧ (∀ n, n ≠ k → u.chip.get SIO.SISTAT.DEMAND n = s.chip.get SIO.SISTAT.DEMAND n) ∧
      Apart s u [0x1C04, 0x1C10, 0x1C11, 0x1C13] (fun a b => { a with flt := b.flt, sio := { a.sio with
        outs := b.sio.outs, disagree := b.sio.disagree } })) ∧
  (∀ (s : State) (t k : Nat), s.Inv → s.chip.fabric = true →
    (∀ x, k < 8 → s.chip.siUsed k = true → s.chip.on SIO.SISTAT.FAULT k = false → nget none s.chip.sio.disagree k = some x →
      x + s.chip.get SIO.SICFG.TDISC k * msTaps ≤ s.at_ t →
      ∃ u, exec (.discrepancyTimeout t k) s = .next u ∧ u.chip.now = s.at_ t ∧ u.chip.get SIO.SISTAT.FAULT k = 1 ∧
        u.chip.get SIO.SISTAT.DEMAND k = 1 ∧ u.chip.get SIO.EVT.DISC = 1 ∧
        u.chip.get SIO.CNT.DISC = satN SIO.CNT.DISC.width (s.chip.get SIO.CNT.DISC + 1) ∧
        (s.chip.on SIO.SISTAT.DEMAND k = true → u.chip.flt = { s.chip.flt with raised := s.raised t 57 }) ∧ Follows s u ∧
        (∀ n, u.chip.get SIO.SISTAT.A n = s.chip.get SIO.SISTAT.A n ∧ u.chip.get SIO.SISTAT.B n = s.chip.get SIO.SISTAT.B n) ∧
        Apart s u sioStatus (fun a b => { a with flt := b.flt, sio := { a.sio with
          outs := b.sio.outs, disagree := b.sio.disagree } })) ∧
    (s.chip.siUsed k = false ∨ s.chip.on SIO.SISTAT.FAULT k = true ∨ nget none s.chip.sio.disagree k = none →
      exec (.discrepancyTimeout t k) s = .next (s.waits t))) ∧
  (∀ (s : State) (t mask : Nat), s.Inv → s.chip.fabric = true →
    ((∀ k, k < 8 → mask.testBit k = true → s.chip.siOkA k = false ∧ s.chip.siOkB k = false) →
      ∃ u, exec (.siFaultAck t mask) s = .next u ∧ u.chip.now = s.at_ t ∧
        (∀ k, k < 8 → u.chip.get SIO.SISTAT.FAULT k = (if mask.testBit k then 0 else s.chip.get SIO.SISTAT.FAULT k) ∧
          u.chip.get SIO.SISTAT.A k = s.chip.get SIO.SISTAT.A k ∧ u.chip.get SIO.SISTAT.B k = s.chip.get SIO.SISTAT.B k ∧
          (mask.testBit k = true → s.chip.siUsed k = true → u.chip.get SIO.SISTAT.DEMAND k = 1)) ∧ Follows s u ∧
        ((∀ k, k < 8 → mask.testBit k = true → s.chip.siUsed k = true → s.chip.on SIO.SISTAT.DEMAND k = true) →
          u.chip.flt = s.chip.flt) ∧
        Apart s u [0x1C04, 0x1C10, 0x1C11, 0x1C13] (fun a b => { a with flt := b.flt, sio := { a.sio with
          outs := b.sio.outs, disagree := b.sio.disagree } })) ∧
    (∀ k, k < 8 → mask.testBit k = true → s.chip.siOkA k = true ∨ s.chip.siOkB k = true →
      exec (.siFaultAck t mask) s = .next (s.waits t))) ∧
  (∀ (s : State) (t j : Nat) (on : Bool), s.Inv → s.chip.fabric = true → j < 4 →
    (on = true → s.chip.sdoBlocked j = false) →
    ∃ u, exec (.sdoOn t j on) s = .next u ∧ u.chip.now = s.at_ t ∧ u.chip.get SIO.SDOCTL.ON j = bit on ∧
      u.chip.get SIO.SDOSTAT.HOST j = bit !on ∧
      ((s.chip.sdo j).test = none → (u.chip.sdo j).a = u.chip.sdoWanted j ∧ (u.chip.sdo j).b = u.chip.sdoWanted j) ∧
      (∀ n, n ≠ j → u.chip.sdo n = s.chip.sdo n ∧ u.chip.get SIO.SDOCTL.ON n = s.chip.get SIO.SDOCTL.ON n) ∧
      Apart s u [0x1C04, 0x1C11] (fun a b => { a with sio := { a.sio with outs := b.sio.outs } })) ∧
  (∀ (s : State) (t j : Nat), s.Inv → s.chip.sdoBlocked j = true → exec (.sdoOn t j true) s = .next (s.waits t)) ∧
  (∀ (s : State) (t j : Nat), s.Inv → s.chip.fabric = true → j < 4 →
    (s.chip.readback j 0 = false → s.chip.readback j 1 = false →
      ∃ u, exec (.sdoFaultAck t j) s = .next u ∧ u.chip.now = s.at_ t ∧ u.chip.get SIO.SDOSTAT.FAULT j = 0 ∧
        u.chip.get SIO.SDOSTAT.FCAUSE j = s.chip.get SIO.SDOSTAT.FCAUSE j ∧
        ((s.chip.sdo j).test = none → (u.chip.sdo j).a = u.chip.sdoWanted j ∧ (u.chip.sdo j).b = u.chip.sdoWanted j) ∧
        (∀ n, n ≠ j → u.chip.sdo n = s.chip.sdo n) ∧
        Apart s u [0x1C04, 0x1C11] (fun a b => { a with sio := { a.sio with outs := b.sio.outs } })) ∧
    (s.chip.readback j 0 = true ∨ s.chip.readback j 1 = true → exec (.sdoFaultAck t j) s = .next (s.waits t))) ∧
  (∀ (s : State) (t j ch : Nat) (level : Bool) (i : Instr), s.Inv → s.chip.fabric = true → j < 4 → ch < 2 →
    ((s.chip.sdo j).test = none ∨ ∃ x, (s.chip.sdo j).test = some x ∧ x.ended.isSome = true ∧ x.ch ≠ ch) →
    s.chip.on SIO.SDOSTAT.FAULT j = false → i = .sdoReadbackChange t j ch level ∨ (i = .sdoReadbackDeadline t j ch ∧ level = s.chip.readback j ch) →
    ∃ u, exec i s = .next u ∧ u.chip.now = s.at_ t ∧ u.chip.readback j ch = level ∧ u.chip.readback j (1 - ch) = s.chip.readback j (1 - ch) ∧
      (let bad := s.chip.agreeAt j ch ≤ s.at_ t ∧ level ≠ (s.chip.sdo j).level ch
       (bad → u.chip.get SIO.SDOSTAT.FAULT j = 1 ∧ u.chip.get SIO.SDOSTAT.FCAUSE j = 1 + ch ∧ u.chip.get SIO.EVT.SDOF = 1 ∧
         u.chip.flt = { s.chip.flt with raised := s.raised t 56 } ∧ (u.chip.sdo j).a = false ∧ (u.chip.sdo j).b = false) ∧
       (¬bad → u.chip.get SIO.SDOSTAT.FAULT j = 0 ∧ u.chip.get SIO.EVT.SDOF = s.chip.get SIO.EVT.SDOF ∧ u.chip.flt = s.chip.flt ∧
         u.chip.sio = s.chip.sio)) ∧
      (∀ n, n ≠ j → u.chip.sdo n = s.chip.sdo n) ∧
      Apart s u [0x1C04, 0x1C11, 0x1C13] (fun a b => { a with flt := b.flt, sio := { a.sio with outs := b.sio.outs } })) ∧
  (∀ (s : State) (t j ch : Nat) (x : SdoTest), s.Inv → (s.chip.sdo j).test = some x → x.ended = none ∨ x.ch = ch →
    exec (.sdoReadbackDeadline t j ch) s = .next (s.waits t))

/-- In RUN, with EN and TEN, no pulse on any output and none awaited on this one, a pulse that is due starts, and the next one falls
due a whole number of TPER later: dark on an energised output (the tested channel low), bright on another whose other channel
reads back low; else the test is skipped with result 4. A readback at the pulse's level as it starts or reaching it in the pulse
is noted. At TPW x 10 us a pulse that was discarded records 3, one that never reached its level fails with cause 3 or 4, one
that did passes once its readback has returned and awaits that otherwise; where a readback then disagrees with what the sources
say for longer than RBT x 10 us, R459 holds; a return after it passes, none within RBT x 10 us fails with cause 1 or 2. A pass
records 1 and counts; a failure records 2, puts the output in FAULT, low, flags and counts it and raises 56 twice. A safety
frame that a receiver accepts gives it FCNT, SIDEM, BOTH and, when it restarts the watchdog, LIVE; any other is counted and
flagged. RXTO ms after its restart LIVE ends, flagged, counted, raised as 59. -/
def Obligations.SafetyTestsAndFrames : Prop :=
  (∀ (s : State) (t j ch : Nat), s.Inv → s.chip.inRun = true → j < 4 → ch < 2 → s.chip.on SIO.SDOCFG.EN j = true →
    s.chip.on SIO.SDOCFG.TEN j = true → (s.chip.sdo j).test = none → s.chip.pulseRuns = false →
    s.chip.on SIO.SDOSTAT.FAULT j = false → (if ch = 0 then (s.chip.sdo j).dueA else (s.chip.sdo j).dueB) ≤ s.at_ t →
    ∃ u, exec (.testPulse t j ch) s = .next u ∧ u.chip.now = s.at_ t ∧
      (let o := s.chip.sdo j
       let v := u.chip.sdo j
       let due := if ch = 0 then o.dueA else o.dueB
       let per := s.chip.get SIO.SDOCFG.TPER j * secTaps
       let next := due + ((s.at_ t - due) / per + 1) * per
       let res := if ch = 0 then SIO.SDOSTAT.TRESA else SIO.SDOSTAT.TRESB
       v.dueA = (if ch = 0 then next else o.dueA) ∧ v.dueB = (if ch = 0 then o.dueB else next) ∧
       (o.a = true ∧ o.b = true → v.test = some { ch := ch, bright := false, start := s.at_ t, reached := !s.chip.readback j ch } ∧ v.level ch = false ∧
         v.level (1 - ch) = true ∧ Apart s u [] (fun a b => { a with sio := { a.sio with outs := b.sio.outs } })) ∧
       (o.a = false ∨ o.b = false → s.chip.readback j (1 - ch) = false →
         v.test = some { ch := ch, bright := true, start := s.at_ t, reached := s.chip.readback j ch } ∧ v.level ch = true ∧ v.level (1 - ch) = false ∧
         Apart s u [] (fun a b => { a with sio := { a.sio with outs := b.sio.outs } })) ∧
       (o.a = false ∨ o.b = false → s.chip.readback j (1 - ch) = true →
         v.test = none ∧ v.a = o.a ∧ v.b = o.b ∧ u.chip.get res j = 4 ∧
         Only s u [(res, j)] (fun a b => { a with sio := { a.sio with outs := b.sio.outs } }))) ∧
      ∀ n, n ≠ j → u.chip.sdo n = s.chip.sdo n) ∧
  (∀ (s : State) (t j ch : Nat), s.Inv → s.chip.inRun = false ∨ s.chip.on SIO.SDOCFG.TEN j = false ∨ s.chip.pulseRuns = true ∨
    s.chip.on SIO.SDOSTAT.FAULT j = true ∨ s.at_ t < (if ch = 0 then (s.chip.sdo j).dueA else (s.chip.sdo j).dueB) →
    exec (.testPulse t j ch) s = .next (s.waits t)) ∧
  (∀ (s : State) (t j : Nat) (level : Bool) (x : SdoTest) (i : Instr), s.Inv → s.chip.fabric = true → j < 4 → x.ch < 2 →
    (s.chip.sdo j).test = some x → s.chip.on SIO.SDOSTAT.FAULT j = false →
    (let res := if x.ch = 0 then SIO.SDOSTAT.TRESA else SIO.SDOSTAT.TRESB
     let pulseOver := x.ended = none ∧ x.start + s.chip.get SIO.SDOCFG.TPW j * 10 * usTaps ≤ s.at_ t
     let returnOver := ∃ e, x.ended = some e ∧ e + s.chip.get SIO.SDOCFG.RBT j * 10 * usTaps ≤ s.at_ t
     let quiet (c : Nat) := s.chip.readback j c = s.chip.sdoWanted j ∨
       ((s.chip.sdo j).level c = s.chip.sdoWanted j ∧ s.at_ t < s.chip.agreeAt j c) ∨
       ((s.chip.sdo j).level c ≠ s.chip.sdoWanted j ∧ 0 < s.chip.get SIO.SDOCFG.RBT j)
     let fails (cause : Nat) := ∃ u, exec i s = .next u ∧ u.chip.now = s.at_ t ∧ (u.chip.sdo j).test = none ∧ (u.chip.sdo j).a = false ∧
       (u.chip.sdo j).b = false ∧ u.chip.get res j = 2 ∧ u.chip.get SIO.SDOSTAT.FAULT j = 1 ∧ u.chip.get SIO.SDOSTAT.FCAUSE j = cause ∧
       u.chip.get SIO.EVT.SDOF = 1 ∧ u.chip.get SIO.EVT.TFAIL = 1 ∧
       u.chip.get SIO.CNT.TFAIL = satN SIO.CNT.TFAIL.width (s.chip.get SIO.CNT.TFAIL + 1) ∧
       u.chip.flt = { s.chip.flt with raised := s.chip.flt.raised ++ [s.event t 56 0, s.event t 56 1] } ∧
       Apart s u sioStatus (fun a b => { a with flt := b.flt, sio := { a.sio with outs := b.sio.outs } })
     let ends (v : Nat) (f : Fld) := ∃ u, exec i s = .next u ∧ u.chip.now = s.at_ t ∧ (u.chip.sdo j).test = none ∧
       (u.chip.sdo j).a = s.chip.sdoWanted j ∧ (u.chip.sdo j).b = s.chip.sdoWanted j ∧ u.chip.get res j = v ∧
       u.chip.get f = satN f.width (s.chip.get f + 1) ∧ (∀ n, n ≠ j → u.chip.sdo n = s.chip.sdo n) ∧
       Apart s u [0x1C11, 0x1C14] (fun a b => { a with sio := { a.sio with outs := b.sio.outs } })
     (i = .testPulseEnd t j → pulseOver →
       (x.discarded = true → quiet 0 → quiet 1 → ends 3 SIO.CNT.DISCARD) ∧
       (x.discarded = true → ∀ c, c < 2 → ¬quiet c → (c = 1 → quiet 0) → ∃ u, exec i s = .next u ∧ u.chip.now = s.at_ t ∧
         u.chip.get res j = 3 ∧ u.chip.get SIO.SDOSTAT.FAULT j = 1 ∧ u.chip.get SIO.SDOSTAT.FCAUSE j = 1 + c) ∧
       (x.discarded = false → x.reached = false → fails (3 + x.ch)) ∧
       (x.discarded = false → x.reached = true →
         let back := s.chip.readback j x.ch ≠ x.bright ∨ (x.bright = true ∧ s.chip.sdoWanted j = true)
         (back → quiet (1 - x.ch) → ends 1 SIO.CNT.TESTS) ∧
         (¬quiet (1 - x.ch) → ∃ u, exec i s = .next u ∧ u.chip.now = s.at_ t ∧ u.chip.get SIO.SDOSTAT.FAULT j = 1 ∧
           u.chip.get SIO.SDOSTAT.FCAUSE j = 2 - x.ch) ∧
         (¬back → quiet (1 - x.ch) → ∃ u, exec i s = .next u ∧ (u.chip.sdo j).test = some { x with ended := some (s.at_ t) } ∧
           (u.chip.sdo j).a = s.chip.sdoWanted j ∧ (u.chip.sdo j).b = s.chip.sdoWanted j ∧
           Apart s u [] (fun a b => { a with sio := { a.sio with outs := b.sio.outs } })))) ∧
     (i = .testReturnTimeout t j → returnOver →
       (x.discarded = true → ends 3 SIO.CNT.DISCARD) ∧ (x.discarded = false → fails (1 + x.ch))) ∧
     (i = .testPulseEnd t j ∧ ¬pulseOver ∨ i = .testReturnTimeout t j ∧ ¬returnOver →
       exec i s = .next (s.waits t)) ∧
     (i = .sdoReadbackChange t j x.ch level →
       (x.ended = none → level = x.bright → ∃ u, exec i s = .next u ∧ (u.chip.sdo j).test = some { x with reached := true } ∧
         u.chip.readback j x.ch = level ∧ Apart s u [0x1C11] (fun a b => { a with sio := { a.sio with outs := b.sio.outs } })) ∧
       (x.ended.isSome = true → x.discarded = false → level ≠ x.bright → ends 1 SIO.CNT.TESTS)))) ∧
  (∀ (s : State) (t : Nat) (f : SafetyFrame) (l : List SafetyFrame), s.Inv → s.chip.sio.frames = f :: l →
    (s.chip.acceptor f.payload = none → ∃ u, exec (.safetyFrameRx t) s = .next u ∧ u.chip.now = s.at_ t ∧ u.chip.get SIO.EVT.RXBAD = 1 ∧
      u.chip.get SIO.CNT.RXBAD = satN SIO.CNT.RXBAD.width (s.chip.get SIO.CNT.RXBAD + 1) ∧
      u.chip.sio = { s.chip.sio with frames := l } ∧
      Only s u [(SIO.EVT.RXBAD, 0), (SIO.CNT.RXBAD, 0)] (fun a b => { a with sio := b.sio })) ∧
    (∀ m, s.chip.acceptor f.payload = some m → ∃ u, exec (.safetyFrameRx t) s = .next u ∧ u.chip.now = s.at_ t ∧
      u.chip.sio.frames = l ∧ u.chip.get SIO.RXSTAT.FCNT m = field f.payload 2 2 % 2 ^ 16 ∧
      u.chip.get SIO.RXSTAT.SIDEM m = field f.payload 4 1 % 2 ^ 8 ∧ u.chip.get SIO.RXSTAT.BOTH m = bit f.both ∧
      (let restart := f.both = true ∨ s.chip.on SIO.RXCFG.REQBOTH m = false
       (u.chip.srx m).seen = true ∧ (u.chip.srx m).flags = field f.payload 7 1 ∧
       (restart → u.chip.get SIO.RXSTAT.LIVE m = 1 ∧ (u.chip.srx m).restart = s.at_ t) ∧
       (¬restart → u.chip.get SIO.RXSTAT.LIVE m = s.chip.get SIO.RXSTAT.LIVE m ∧ (u.chip.srx m).restart = (s.chip.srx m).restart)) ∧
      Follows s u ∧ (∀ n, n ≠ m → u.chip.srx n = s.chip.srx n ∧ u.chip.get SIO.RXSTAT.LIVE n = s.chip.get SIO.RXSTAT.LIVE n) ∧
      Apart s u [0x1C04, 0x1C11, 0x1C12] (fun a b => { a with sio := { a.sio with
        outs := b.sio.outs, frames := b.sio.frames, rx := b.sio.rx } }))) ∧
  (∀ (s : State) (t : Nat), s.Inv → s.chip.sio.frames = [] → exec (.safetyFrameRx t) s = .next (s.waits t)) ∧
  (∀ (s : State) (t m : Nat), s.Inv →
    (m < 4 → s.chip.on SIO.RXSTAT.LIVE m = true → s.chip.on SIO.RXCFG.EN m = true →
      (s.chip.srx m).restart + s.chip.get SIO.RXCFG.RXTO m * msTaps ≤ s.at_ t →
      ∃ u, exec (.remoteWatchdogExpiry t m) s = .next u ∧ u.chip.now = s.at_ t ∧ u.chip.get SIO.RXSTAT.LIVE m = 0 ∧
        u.chip.get SIO.EVT.REMTO = 1 ∧ u.chip.get SIO.CNT.REMTO = satN SIO.CNT.REMTO.width (s.chip.get SIO.CNT.REMTO + 1) ∧
        u.chip.flt = { s.chip.flt with raised := s.raised t 59 } ∧ Follows s u ∧
        (∀ n, n ≠ m → u.chip.get SIO.RXSTAT.LIVE n = s.chip.get SIO.RXSTAT.LIVE n) ∧
        Apart s u [0x1C04, 0x1C11, 0x1C12, 0x1C13, 0x1C14] (fun a b => { a with flt := b.flt, sio := { a.sio with
          outs := b.sio.outs } })) ∧
    (s.chip.on SIO.RXSTAT.LIVE m = false ∨ s.chip.on SIO.RXCFG.EN m = false →
      exec (.remoteWatchdogExpiry t m) s = .next (s.waits t)))

/-- With the fabric released and one event e to recognise: STATUS shows its source, EVENTS counts it, the source's window opens or
counts on, and its class is C3 when the event is fatal or the source's fixed class, else ESC from NESC events in the window on,
else CLASS. While a reaction executes for a record, e merges into it: its source, PEND, COUNT and class, and the record counts
as unacknowledged. With no reaction, a newest unacknowledged record of the same first source and class counts e. Otherwise a new
record opens: with a free slot the first of them holds NUM, class, FIRST, COUNT 1, DETAIL, SRC, PEND and the corrected time of
e; of class C2 or C3 outside FATAL a reaction executes and the profile of a C2 source, or every target for C3, is held. Of class
C0 or C1 nothing outside the collector, the captures and fault records it starts and the keeper's copy changes. -/
def Obligations.FaultEvents : Prop :=
  (∀ (s : State) (t n : Nat) (e : Raised) (fw : Bool), s.Inv → s.chip.fabric = true → e.src < 64 →
    (fw = false ∧ 0 < n ∧ s.chip.flt.raised.take n = [e]) ∨ (fw = true ∧ n = 0 ∧ e = s.event t 63 0) →
    (let c := s.chip.at_ t
     let j := e.src
     let w := if c.windowOpen j then satN FLT.SRC.WCNT.width (s.chip.get FLT.SRC.WCNT j + 1) else 1
     let cls := if e.fatal then 3 else s.chip.classAt j w
     let p := s.chip.get FLT.SCFG.PROF j
     ∃ u, exec (.faultEvent t n fw) s = .next u ∧ u.chip.now = s.at_ t ∧ (cls < 2 → u.chip.flt.raised = s.chip.flt.raised.drop n) ∧
       u.chip.get FLT.STATUS.STATUS = putBit (s.chip.get FLT.STATUS.STATUS) j true % 2 ^ 64 ∧
       u.chip.get FLT.SRC.EVENTS j = satN FLT.SRC.EVENTS.width (s.chip.get FLT.SRC.EVENTS j + 1) ∧
       u.chip.get FLT.SRC.WOPEN j % 2 = (if c.windowOpen j then s.chip.get FLT.SRC.WOPEN j % 2 else 1) ∧
       u.chip.get FLT.SRC.WCNT j = w ∧
       (c.windowOpen j = false → nget 0 u.chip.flt.winAt j = s.at_ t + s.chip.get FLT.SCFG.WIN j * msTaps) ∧
       (∀ k, k ≠ j → u.chip.get FLT.SRC.EVENTS k = s.chip.get FLT.SRC.EVENTS k ∧ u.chip.get FLT.SRC.WCNT k = s.chip.get FLT.SRC.WCNT k) ∧
       (∀ r i, s.chip.flt.react = some r → r.slot = some i →
         u.chip.get FLT.REC.SRC i = putBit (s.chip.get FLT.REC.SRC i) j true % 2 ^ 64 ∧
         u.chip.get FLT.REC.PEND i = putBit (s.chip.get FLT.REC.PEND i) j true % 2 ^ 64 ∧
         u.chip.get FLT.REC.COUNT i = satN FLT.REC.COUNT.width (s.chip.get FLT.REC.COUNT i + 1) ∧
         u.chip.get FLT.REC.CLASS i = Nat.max cls (s.chip.get FLT.REC.CLASS i) % 4 ∧ u.chip.get FLT.REC.ACKD i = 0 ∧
         u.chip.get FLT.CNT.MERGED = satN FLT.CNT.MERGED.width (s.chip.get FLT.CNT.MERGED + 1) ∧
         u.chip.get FLT.CNT.RECORDS = s.chip.get FLT.CNT.RECORDS ∧
         (∀ k (f : Fld), k ≠ i → f.id = 0x0814 → u.chip.get f k = s.chip.get f k)) ∧
       (∀ i, s.chip.flt.react = none → s.chip.matching j cls = some i →
         u.chip.get FLT.REC.PEND i = putBit (s.chip.get FLT.REC.PEND i) j true % 2 ^ 64 ∧
         u.chip.get FLT.REC.COUNT i = satN FLT.REC.COUNT.width (s.chip.get FLT.REC.COUNT i + 1) ∧
         u.chip.get FLT.CNT.RECORDS = s.chip.get FLT.CNT.RECORDS ∧ u.chip.flt.react = none) ∧
       (∀ i, s.chip.flt.react = none → s.chip.matching j cls = none → recSlots.find? (fun i => !s.chip.on FLT.REC.VALID i) = some i →
         u.chip.get FLT.CNT.RECORDS = satN FLT.CNT.RECORDS.width (s.chip.get FLT.CNT.RECORDS + 1) ∧
         u.chip.flt.num = (s.chip.flt.num + 1) % 65536 ∧ u.chip.get FLT.REC.NUM i = s.chip.flt.num % 2 ^ 16 ∧
         u.chip.get FLT.REC.VALID i = 1 ∧ u.chip.get FLT.REC.ACKD i = 0 ∧ u.chip.get FLT.REC.CLASS i = cls % 4 ∧
         u.chip.get FLT.REC.FIRST i = j ∧ u.chip.get FLT.REC.COUNT i = 1 ∧ u.chip.get FLT.REC.DETAIL i = e.detail % 4 ∧
         u.chip.get FLT.REC.PROFS i = (if cls = 2 then 2 ^ p % 16 else 0) ∧ u.chip.get FLT.REC.SRC i = 2 ^ j ∧
         u.chip.get FLT.REC.PEND i = 2 ^ j ∧ u.chip.get FLT.REC.TIME i = (c.stamp (c.raw e.at_)).1 % 2 ^ 64 ∧
         u.chip.get FLT.REC.TAP i = (c.stamp (c.raw e.at_)).2 % 2 ^ 6 ∧
         (∀ k (f : Fld), k ≠ i → f.id = 0x0814 → u.chip.get f k = s.chip.get f k) ∧
         (2 ≤ cls → s.chip.state ≠ stFatal → u.chip.flt.react = some ⟨some i, cls⟩ ∧ u.chip.get FLT.STAT.REACTING = 1 ∧
           (cls = 2 → u.chip.get FLT.HOLD.HELD = (s.chip.get FLT.HOLD.HELD ||| s.chip.profiles (2 ^ p)) % 2 ^ 22) ∧
           (cls = 3 → u.chip.get FLT.HOLD.HELD = 2 ^ 22 - 1 ∧ u.chip.flt.fatalPend = (s.chip.state != stBoot)))) ∧
       (cls < 2 → Apart s u [0x0810, 0x0813, 0x0814, 0x0815, 0x1014, 0x4810, 0x4811, 0x4812, 0x4813, 0x4814]
         (fun a b => { a with flt := b.flt, pgm := { a.pgm with trig := b.pgm.trig }, pmu := b.pmu, kpr := b.kpr })))) ∧
  (∀ (s : State) (t n : Nat), s.Inv → s.chip.flt.raised = [] → exec (.faultEvent t n false) s = .next (s.waits t)) ∧
  (∀ (s : State) (t n : Nat) (fw : Bool), s.Inv → s.chip.fabric = false → exec (.faultEvent t n fw) s = .next (s.waits t))

/-- REACTION_DONE ends the reaction: REACTING reads 0 and no reaction is executing. FAULT_WINDOW_CLOSE, WIN ms after the window of a
source opened, clears WOPEN and WCNT of that source; earlier it changes nothing. FAULT_HOLD_END while ticks run makes FLT.HOLD
exactly the targets that unacknowledged records and the lost-record aggregate hold, at the coming reference, and leaves every
other field of the collector and the trip holds. FATAL_ENTRY, with the fatal reaction begun and every block burst complete to
the end of its low hold, makes the device state FATAL and sets the FATAL latch; from RUN every lane goes to OFF, ticks stop and
nothing stays staged; every output without a test is low on both channels; the keeper holds a copy of the fatal record, made now
when it had none. Before the last burst is complete it only lets time pass. -/
def Obligations.ReactionsAndWindowsEnd : Prop :=
  (∀ (s : State) (t : Nat), s.Inv →
    (s.chip.flt.react.isSome = true → ∃ u, exec (.reactionDone t) s = .next u ∧ u.chip.now = s.at_ t ∧ u.chip.get FLT.STAT.REACTING = 0 ∧
      u.chip.flt = { s.chip.flt with react := none } ∧ Only s u [(FLT.STAT.REACTING, 0)] (fun a b => { a with flt := b.flt })) ∧
    (s.chip.flt.react = none → exec (.reactionDone t) s = .next (s.waits t))) ∧
  (∀ (s : State) (t j : Nat), s.Inv → j < 64 →
    (s.chip.on FLT.SRC.WOPEN j = true → nget 0 s.chip.flt.winAt j ≤ s.at_ t →
      ∃ u, exec (.faultWindowClose t j) s = .next u ∧ u.chip.now = s.at_ t ∧ u.chip.get FLT.SRC.WOPEN j = 0 ∧ u.chip.get FLT.SRC.WCNT j = 0 ∧
        Only s u [(FLT.SRC.WOPEN, j), (FLT.SRC.WCNT, j)] noPart) ∧
    (s.chip.on FLT.SRC.WOPEN j = false ∨ s.at_ t < nget 0 s.chip.flt.winAt j →
      exec (.faultWindowClose t j) s = .next (s.waits t))) ∧
  (∀ (s : State), s.Inv →
    (s.chip.dev.ticking = true → ∃ u, exec .faultHoldEnd s = .next u ∧ u.chip.now = s.at_ s.chip.dev.nextT0 ∧
      u.chip.get FLT.HOLD.HELD = s.chip.faultTargets % 2 ^ 22 ∧ u.chip.get MON.HOLD.HELD = s.chip.get MON.HOLD.HELD ∧
      (∀ (f : Fld) (n : Nat), f.id / 1024 = 2 → f.id ≠ 0x0812 → u.chip.get f n = s.chip.get f n) ∧ u.sram = s.sram ∧
      u.pending = s.pending ∧ u.chip.dev = s.chip.dev ∧ u.chip.kpr = s.chip.kpr ∧ u.chip.hpp = s.chip.hpp) ∧
    (s.chip.dev.ticking = false → exec .faultHoldEnd s = .next s)) ∧
  (∀ (s : State) (t : Nat), s.Inv →
    (s.chip.flt.fatalPend = true → (∀ n b, n < 192 → (s.chip.lane n).burstAt = some b → s.chip.burstEnd b ≤ s.at_ t) →
      ∃ u, exec (.fatalEntry t) s = .next u ∧ u.chip.now = s.at_ t ∧ u.chip.state = stFatal ∧ u.chip.get RST.STAT.FATAL = 1 ∧
        u.chip.flt.fatalPend = false ∧
        (s.chip.inRun = true → u.chip.dev.ticking = false ∧ u.chip.dev.staged = [] ∧ (∀ n, n < 192 → u.chip.lstate n = lsOff)) ∧
        (∀ j, j < 4 → (s.chip.sdo j).test = none → (u.chip.sdo j).a = false ∧ (u.chip.sdo j).b = false) ∧
        (∀ (f : Fld) (n : Nat), f.id / 1024 = 2 → u.chip.get f n = s.chip.get f n) ∧ u.sram = s.sram ∧ u.pending = s.pending ∧
        u.chip.kpr.half = s.chip.kpr.half ∧ (∀ i, s.chip.fatalRecord = some i → ∃ e ∈ u.chip.kpr.flts, e.1 = s.chip.get FLT.REC.NUM i) ∧
        ((∀ i, s.chip.fatalRecord = some i → ∃ e ∈ s.chip.kpr.flts, e.1 = s.chip.get FLT.REC.NUM i) →
          u.chip.kpr = { s.chip.kpr with srv := u.chip.kpr.srv })) ∧
    (s.chip.flt.fatalPend = false ∨ (∃ n b, n < 192 ∧ (s.chip.lane n).burstAt = some b ∧ s.at_ t < s.chip.burstEnd b) →
      exec (.fatalEntry t) s = .next (s.waits t)))

/-- A reset request, RST_N low for 1 us, loss or drift of the only good reference, a DLL that does not relock in 1 ms and loss of
VIOH are recognised as resets of the level fused or named. Absorbed by a graver running sequence a reset only counts, MERGED and
its own counter. Otherwise RST.STAT names source, level and block and the counter rises. L0 and L1 leave what R488 says, L0
loading the fuses, L1 with its domains waiting from the release of the fabric, at once when RST_N is high. L2 keeps the device
state and holds domains 1 to 7: the port empty, lanes OFF, outputs low. L3 of the port resets it and holds its domain. L3 of a
block that the tick path reads waits, with ticks, for the reference, where BLOCK_RESET performs it. Main POR clears counts and,
below V_PORF, the FATAL latch. Between 100 ns and 1 us recognition of RST_N is a free choice. -/
def Obligations.ResetsAreTaken : Prop :=
  (∀ (s : State) (t lvl src blk : Nat) (i : Instr) (cnt : List Fld), s.Inv → Causes s t i lvl src blk cnt → ¬Absorbed s lvl →
    (lvl = 1 ∨ lvl = 2 → ∃ u, exec i s = .next u ∧ u.chip.now = s.at_ t ∧ MainReset s u ∧ u.chip.get RST.STAT.LASTSRC = src ∧
      u.chip.get RST.STAT.LASTLVL = lvl - 1 ∧ u.chip.get RST.STAT.LASTBLK = 0 ∧
      (∀ f ∈ cnt, u.chip.get f = satN f.width (s.chip.get f + 1)) ∧
      (∀ f : Fld, f.id = 0x0C07 → (∀ g ∈ cnt, f.lo ≠ g.lo) → u.chip.get f = s.chip.get f) ∧
      (lvl = 1 → u.chip.rst.seq = some ⟨1, true⟩ ∧ u.chip.rst.queue = [] ∧ u.chip.get RST.DOM.REL = 0 ∧ u.chip.get RST.STAT.FUSEOK = 0 ∧
        u.chip.get RST.STAT.DEFAULTS = 0 ∧ u.chip.get RST.STAT.FAILS = 0 ∧ u.chip.rst.shadow = []) ∧
      (lvl = 2 → u.chip.rst.seq = some ⟨2, false⟩ ∧ u.chip.rst.shadow = s.chip.rst.shadow ∧
        u.chip.get RST.FGAP.GAP = s.chip.get RST.FGAP.GAP ∧
        (u.chip.rst.pinLow = false → u.chip.get RST.DOM.REL = 1 ∧ u.chip.rst.queue = [1, 2, 3, 4, 5, 6, 7] ∧
          u.chip.rst.from_ = s.at_ t) ∧
        (u.chip.rst.pinLow = true → u.chip.get RST.DOM.REL = 0 ∧ u.chip.rst.queue = []))) ∧
    (lvl = 3 → ∃ u, exec i s = .next u ∧ u.chip.now = s.at_ t ∧ u.chip.get RST.STAT.LASTSRC = src ∧ u.chip.get RST.STAT.LASTLVL = 2 ∧
      (∀ f ∈ cnt, u.chip.get f = satN f.width (s.chip.get f + 1)) ∧ u.chip.state = s.chip.state ∧ u.chip.fabric = s.chip.fabric ∧
      (∀ d, 1 ≤ d → d ≤ 7 → u.chip.released d = false) ∧ u.chip.rst.queue = [1, 2, 3, 4, 5, 6, 7] ∧ u.chip.rst.seq = some ⟨3, false⟩ ∧
      u.chip.hpp = {} ∧ u.chip.dev.resetReq = none ∧ (∀ n, n < 192 → u.chip.lstate n = lsOff) ∧
      (∀ j, j < 4 → (s.chip.sdo j).test = none → (u.chip.sdo j).a = false ∧ (u.chip.sdo j).b = false) ∧
      (∀ (f : Fld) (n : Nat), f.id / 1024 = 2 → u.chip.get f n = s.chip.get f n) ∧ u.chip.kpr = s.chip.kpr ∧ u.sram = s.sram) ∧
    (lvl = 4 → blk = 1 → ∃ u, exec i s = .next u ∧ u.chip.now = s.at_ t ∧ u.chip.get RST.STAT.LASTSRC = src ∧
      u.chip.get RST.STAT.LASTLVL = 3 ∧ u.chip.get RST.STAT.LASTBLK = 1 ∧ u.chip.hpp = {} ∧ u.chip.released 7 = false ∧
      7 ∈ u.chip.rst.queue ∧ u.chip.rst.seq = some ⟨4, false⟩ ∧ (∀ (f : Fld) (n : Nat), f.id / 1024 = 1 → u.chip.get f n = fieldReset f n) ∧
      Apart s u (0x0C00 :: 0x0C01 :: 0x0C07 :: (List.range 1024).map (fun x => 1024 + x))
        (fun a b => { a with hpp := b.hpp, rst := b.rst, dev := { a.dev with resetReq := b.dev.resetReq } })) ∧
    (lvl = 4 → blk ∈ tickPathBlocks → s.chip.dev.ticking = true → ∃ u, exec i s = .next u ∧ u.chip.now = s.at_ t ∧
      u.chip.get RST.STAT.LASTSRC = src ∧ u.chip.get RST.STAT.LASTBLK = blk ∧ blk ∈ u.chip.rst.blocks ∧
      Apart s u [0x0C00, 0x0C07] (fun a b => { a with rst := { a.rst with blocks := b.rst.blocks }, dev := { a.dev with resetReq := b.dev.resetReq } }))) ∧
  (∀ (s : State) (t lvl src blk : Nat) (i : Instr) (cnt : List Fld), s.Inv → Causes s t i lvl src blk cnt → Absorbed s lvl →
    ∃ u, exec i s = .next u ∧ u.chip.now = s.at_ t ∧
      u.chip.get RST.CNT.MERGED = satN RST.CNT.MERGED.width (s.chip.get RST.CNT.MERGED + 1) ∧
      (∀ f ∈ cnt, u.chip.get f = satN f.width (s.chip.get f + 1)) ∧ u.chip.rst.seq = s.chip.rst.seq ∧ u.chip.rst.queue = s.chip.rst.queue ∧
      Apart s u [0x0C07, 0x1410] (fun a b =>
        let r := { a.rst with pinLow := b.rst.pinLow, pinAt := b.rst.pinAt, logged := b.rst.logged }
        { a with rst := r, dev := { a.dev with resetReq := b.dev.resetReq }, tim := { a.tim with goodAt := b.tim.goodAt, badAt := b.tim.badAt } })) ∧
  (∀ (s : State) (t : Nat), s.Inv →
    ((∀ r, s.chip.dev.resetReq = some r → s.at_ t < r.due) → exec (.resetBegin t) s = .next (s.waits t)) ∧
    (s.chip.released 7 = false → exec (.viohLoss t) s = .next (s.waits t)) ∧
    (s.chip.rst.pinLow = true → exec (.rstNAssert t true) s = .next (s.waits t)) ∧
    (s.chip.rst.pinLow = false → s.chip.rst.core = false → ∃ u, exec (.rstNAssert t true) s = .next u ∧ u.chip.now = s.at_ t ∧
      u.chip.rst = { s.chip.rst with pinLow := true, pinAt := s.at_ t, logged := false } ∧ Only s u [] (fun a b => { a with rst := b.rst })) ∧
    (let s' : State := { s with chip := { s.chip with free := s.chip.free + 1 } }
     exec (.rstNAssert t false) s = if Config.freeBit s.chip.free then exec (.rstNAssert t true) s' else .next (s'.waits t))) ∧
  (∀ (s : State) (b : Nat), s.Inv → s.chip.rst.blocks.contains b = true →
    ∃ u, exec (.blockReset b) s = .next u ∧ u.chip.now = (if s.chip.dev.ticking then s.at_ s.chip.dev.nextT0 else s.chip.now) ∧
      u.chip.rst.blocks = s.chip.rst.blocks.filter (fun k => k != b) ∧ (∀ d ∈ ownedDomains b, u.chip.released d = false ∧
        d ∈ u.chip.rst.queue) ∧ (b = 8 → ∀ n, n < 192 → u.chip.lstate n = lsOff) ∧
      (b = 9 → ∀ (f : Fld) (n : Nat), 0x2405 ≤ f.id → f.id < 0x2420 → u.chip.get f n = fieldReset f n) ∧
      (b = 10 → ∀ (f : Fld) (n : Nat), 0x2800 < f.id → f.id < 0x2C00 → f.id ≠ 0x2804 → u.chip.get f n = fieldReset f n) ∧
      (b = 9 ∨ b = 10 → u.chip.rst = { s.chip.rst with blocks := s.chip.rst.blocks.filter (fun k => k != b) } ∧ u.sram = s.sram ∧
        ∀ (f : Fld) (n : Nat), f.id / 1024 ≠ b → (b = 9 ∨ f.id / 1024 ≠ 11) → u.chip.get f n = s.chip.get f n)) ∧
  (∀ (s : State) (b : Nat), s.Inv → s.chip.rst.blocks.contains b = false → exec (.blockReset b) s = .next s) ∧
  (∀ (s : State) (t : Nat) (vin : Bool), s.Inv → (if vin then s.chip.rst.vin else s.chip.rst.core) = true →
    s.chip.on KPR.STAT.CONN = true ∨ s.chip.on KPR.STAT.RAIL = false ∨ vin = false →
    ∃ u, exec (.mainPor t vin) s = .next u ∧ u.chip.now = s.at_ t ∧ MainReset s u ∧ u.chip.get KPR.STAT.WAKE = 0 ∧
      u.chip.get RST.STAT.FATAL = (if vin then 0 else bit (s.chip.on RST.STAT.FATAL)) ∧ u.chip.get RST.STAT.LASTSRC = 1 ∧
      (∀ f : Fld, f.id = 0x0C07 → u.chip.get f = fieldReset f 0) ∧ u.chip.rst.core = false ∧ u.chip.rst.vin = (if vin then false else s.chip.rst.vin) ∧
      u.chip.get RST.DOM.REL = 0 ∧ u.chip.get RST.DOM.KEEP = s.chip.get RST.DOM.KEEP) ∧
  (∀ (s : State) (t : Nat) (vin : Bool), s.Inv → (if vin then s.chip.rst.vin else s.chip.rst.core) = false →
    exec (.mainPor t vin) s = .next (s.waits t))

/-- VIN33 above V_PORR notes the supply; power-good of VCORE and VANA starts the fuse load. A load that checks gives the shadow,
FUSEOK and UID; one that does not is counted, flagged and retried, the third brings hard-wired defaults; either end of the load
releases the fabric when RST_N is high. The first waiting domain is released after its gap, within 1 ms, while its clock-good
condition holds: TB selects the qualified input, raising 6 for another that is in LOSS or DRIFT, and HPP makes the port ready
outside BOOT. A domain whose condition fails for 1 ms after its gap is held, counted, flagged and raised as 4 once per sequence.
The interpreter starts in CONFIG, DIAG or FATAL, with the start-up calibration of every group from then on. RST_N high closes
its log entry, lets a waiting sequence proceed or wakes the device; low for 100 ms it is logged. -/
def Obligations.StartUp : Prop :=
  (∀ (s : State) (t : Nat), s.Inv →
    (s.chip.rst.vin = false → ∃ u, exec (.mainPorRelease t) s = .next u ∧ u.chip.now = s.at_ t ∧ u.chip.rst.vin = true ∧
      u.chip.rst.core = s.chip.rst.core ∧ Only s u [] (fun a b => { a with rst := { a.rst with vin := b.rst.vin, pinAt := b.rst.pinAt } })) ∧
    (s.chip.rst.vin = true → exec (.mainPorRelease t) s = .next (s.waits t)) ∧
    (s.chip.rst.vin = true → s.chip.rst.core = false → s.chip.kpr.asleep = false →
      ∃ u, exec (.powerGood t) s = .next u ∧ u.chip.now = s.at_ t ∧ u.chip.rst = { s.chip.rst with core := true, seq := some ⟨0, true⟩ } ∧
        u.chip.clk false = 3 ∧ u.chip.clk true = 3 ∧
        Only s u [(TIM.STAT.CLKA, 0), (TIM.STAT.CLKB, 0)] (fun a b => { a with rst := b.rst, tim := b.tim })) ∧
    (s.chip.rst.vin = false ∨ s.chip.rst.core = true ∨ s.chip.kpr.asleep = true → exec (.powerGood t) s = .next (s.waits t))) ∧
  (∀ (s : State) (t : Nat) (w : List Nat) (q : ResetSeq), s.Inv → s.chip.rst.seq = some q → q.loading = true →
    (∃ u, exec (.fuseLoadDone t w) s = .next u ∧ u.chip.now = s.at_ t ∧
      (fusesGood w = true → u.chip.get RST.STAT.FUSEOK = 1 ∧ u.chip.rst.shadow = w ∧
        u.chip.get DEV.UID.UID = (w.getD 2 0 + 2 ^ 32 * w.getD 3 0) % 2 ^ DEV.UID.UID.width ∧
        u.chip.get RST.FGAP.GAP = (w.getD 5 0 + 2 ^ 32 * w.getD 6 0) % 2 ^ RST.FGAP.GAP.width ∧ u.chip.rst.fails = s.chip.rst.fails) ∧
      (fusesGood w = false → u.chip.rst.fails = s.chip.rst.fails + 1 ∧ u.chip.get RST.EVT.FUSEF = 1 ∧
        u.chip.get RST.STAT.FAILS = (s.chip.rst.fails + 1) % 4 ∧ u.chip.rst.shadow = s.chip.rst.shadow ∧
        u.chip.get RST.CNT.FUSEF = satN RST.CNT.FUSEF.width (s.chip.get RST.CNT.FUSEF + 1) ∧
        (s.chip.rst.fails = 2 → u.chip.get RST.STAT.DEFAULTS = 1)) ∧
      (let past := fusesGood w = true ∨ s.chip.rst.fails = 2
       (past → u.chip.rst.seq = some { q with loading := false }) ∧ (¬past → u.chip.rst = { s.chip.rst with fails := s.chip.rst.fails + 1 }) ∧
       (past ∧ s.chip.rst.pinLow = false → u.chip.fabric = true ∧ u.chip.rst.queue = [1, 2, 3, 4, 5, 6, 7] ∧ u.chip.rst.from_ = s.at_ t) ∧
       (¬past ∨ s.chip.rst.pinLow = true → u.chip.fabric = s.chip.fabric ∧ u.chip.rst.queue = s.chip.rst.queue)) ∧
      Apart s u [0, 1, 3, 0x0C00, 0x0C01, 0x0C02, 0x0C03, 0x0C04, 0x0C05, 0x0C07, 0x0C08] (fun a b => { a with rst := b.rst, flt := b.flt }))) ∧
  (∀ (s : State) (t : Nat) (w : List Nat), s.Inv → (∀ q, s.chip.rst.seq = some q → q.loading = false) →
    exec (.fuseLoadDone t w) s = .next (s.waits t)) ∧
  (∀ (s : State) (t d : Nat) (l : List Nat) (refA refB vioh : Bool), s.Inv → s.chip.rst.queue = d :: l → d < 8 →
    (let good := if d = 1 then refA = true ∨ refB = true else if d = 7 then vioh = true else
       s.chip.released 1 = true ∧ s.chip.on TIM.STAT.DLLOCK = true
     let inTime := s.chip.gapEnd d ≤ s.at_ t ∧ s.at_ t ≤ s.chip.gapEnd d + msTaps
     (good → inTime → ∃ u, exec (.domainRelease t refA refB vioh) s = .next u ∧ u.chip.now = s.at_ t ∧ u.chip.released d = true ∧
       (∀ k, k ≠ d → k < 8 → u.chip.released k = s.chip.released k) ∧ u.chip.rst.queue = l ∧ u.chip.rst.from_ = s.at_ t ∧
       u.chip.rst.seq = (if l = [] then none else s.chip.rst.seq) ∧
       (d = 1 → u.chip.selB = !refA ∧ u.chip.tim.run = true ∧
         (s.chip.tim.run = true → u.chip.tim.c0 = s.chip.tim.c0 ∧ u.chip.tim.x0 = s.chip.tim.x0 ∧
           u.chip.get TIM.OFS.OFS = s.chip.get TIM.OFS.OFS ∧ u.chip.get TIM.RATE.RATE = s.chip.get TIM.RATE.RATE) ∧
         (s.chip.clk refA = 1 ∨ s.chip.clk refA = 2 → nget 0 s.chip.tim.failRaised (bit refA) ≠ 1 →
           u.chip.flt = { s.chip.flt with raised := s.raised t 6 }) ∧
         (s.chip.tim.run = false → u.chip.tim.c0 = s.at_ t ∧ u.chip.get TIM.STAT.RTCBAD = bit !s.chip.on KPR.STAT.RTCV ∧
           (s.chip.on KPR.STAT.RTCV = false → u.chip.get TIM.OFS.OFS = 0))) ∧
       (d = 7 → u.chip.hpp = { s.chip.hpp with rdy := s.chip.hpp.rdy || s.chip.state != stBoot }) ∧ (d ≠ 7 → u.chip.hpp = s.chip.hpp)) ∧
     (¬good ∨ ¬inTime → exec (.domainRelease t refA refB vioh) s = .next (s.waits t)))) ∧
  (∀ (s : State) (t d : Nat) (l : List Nat), s.Inv → s.chip.rst.queue = d :: l → d < 8 →
    (let lockable := 2 ≤ d ∧ d ≤ 6
     let good := lockable ∧ s.chip.released 1 = true ∧ s.chip.on TIM.STAT.DLLOCK = true
     let past := (if lockable ∧ s.chip.bitOn RST.DOM.HELD 0 1 = true then s.chip.gapEnd d else s.chip.gapEnd d + msTaps) ≤ s.at_ t
     (¬good ∧ past → ∃ u, exec (.clockGoodTimeout t) s = .next u ∧ u.chip.now = s.at_ t ∧ u.chip.bitOn RST.DOM.HELD 0 d = true ∧
       u.chip.get RST.CNT.CGFAIL = satN RST.CNT.CGFAIL.width (s.chip.get RST.CNT.CGFAIL + 1) ∧ u.chip.get RST.EVT.CLKSTART = 1 ∧
       u.chip.rst.queue = l ∧ u.chip.rst.clkStart = true ∧ u.chip.rst.seq = (if l = [] then none else s.chip.rst.seq) ∧
       u.chip.flt = (if s.chip.rst.clkStart then s.chip.flt else { s.chip.flt with raised := s.raised t 4 }) ∧
       (∀ k, u.chip.released k = s.chip.released k)) ∧
     (good ∨ ¬past → exec (.clockGoodTimeout t) s = .next (s.waits t)))) ∧
  (∀ (s : State) (t : Nat), s.Inv → s.chip.rst.queue = [] → exec (.clockGoodTimeout t) s = .next (s.waits t) ∧
    ∀ a b v, exec (.domainRelease t a b v) s = .next (s.waits t)) ∧
  (∀ (s : State) (t : Nat), s.Inv →
    (s.chip.state = stBoot → s.chip.fabric = true → s.chip.released 7 = true → s.chip.rst.queue = [] → s.chip.hpp.rdy = false →
      ∃ u, exec (.interpreterStart t) s = .next u ∧ u.chip.now = s.at_ t ∧ u.chip.state = (if s.chip.on RST.STAT.FATAL then stFatal
        else if s.chip.on RST.STAT.DEFAULTS then stDiag else stConfig) ∧ u.chip.hpp = { s.chip.hpp with rdy := true } ∧
        (s.chip.kpr.kpor = true ∨ 0 < s.chip.kpr.lcuts → u.chip.flt = { s.chip.flt with raised := s.raised t 2 }) ∧
        (s.chip.kpr.kpor = true → u.chip.get KPR.EVT.KPOR = 1) ∧
        (0 < s.chip.kpr.lcuts → u.chip.get KPR.EVT.LCUT = 1 ∧
          u.chip.get KPR.CNT.LCUT = satN KPR.CNT.LCUT.width (s.chip.get KPR.CNT.LCUT + s.chip.kpr.lcuts)) ∧
        (∀ e, (s.chip.kpr.log.filter (fun e => e.rst)).getLast? = some e → u.chip.get RST.LOG.DUR = satN 31 e.dur ∧
          u.chip.get RST.LOG.START = e.start % 2 ^ RST.LOG.START.width ∧ u.chip.get RST.LOG.OPEN = bit e.open_) ∧
        (∀ g, g < 4 → u.chip.group g = { s.chip.group g with calFrom := s.at_ t }) ∧
        Apart s u [0, 0x0C06, 0x0C08, 0x1016, 0x1017] (fun a b =>
          let k := { a.kpr with kpor := b.kpr.kpor, lcuts := 0 }
          { a with hpp := b.hpp, flt := b.flt, kpr := k, adc := { a.adc with groups := b.adc.groups }, rst := { a.rst with logNew := b.rst.logNew } })) ∧
    (s.chip.state ≠ stBoot ∨ s.chip.released 7 = false ∨ s.chip.hpp.rdy = true → exec (.interpreterStart t) s = .next (s.waits t))) ∧
  (∀ (s : State) (t : Nat), s.Inv →
    (s.chip.rst.pinLow = false → exec (.rstNRelease t) s = .next (s.waits t) ∧ exec (.rstNLog t) s = .next (s.waits t)) ∧
    (s.chip.rst.pinLow = true → ∃ u, exec (.rstNRelease t) s = .next u ∧ u.chip.now = s.at_ t ∧ u.chip.rst.pinLow = false ∧
      u.chip.rst.logged = false ∧ (s.chip.rst.logged = false → u.chip.kpr.log = s.chip.kpr.log) ∧
      (∀ e, s.chip.rst.logged = true → s.chip.kpr.log.getLast? = some e →
        u.chip.kpr.log.getLast? = some { e with open_ := false, dur := (s.at_ t - s.chip.rst.pinAt) / msTaps }) ∧
      (s.chip.kpr.asleep = true → u.chip.kpr.asleep = false ∧ u.chip.get KPR.STAT.WAKE = 1 ∧ u.chip.fabric = s.chip.fabric) ∧
      (∀ q, s.chip.kpr.asleep = false → s.chip.rst.seq = some q → s.chip.rst.core = true → q.loading = false → q.level ≤ 2 →
        s.chip.fabric = false → u.chip.fabric = true ∧ u.chip.rst.queue = [1, 2, 3, 4, 5, 6, 7] ∧ u.chip.rst.from_ = s.at_ t)) ∧
    (s.chip.rst.pinLow = true → s.chip.keepRuns = true → s.chip.rst.vin = true →
      (s.chip.rst.logged = false → 100 * msTaps ≤ s.at_ t - s.chip.rst.pinAt → ∃ u e, exec (.rstNLog t) s = .next u ∧ u.chip.now = s.at_ t ∧
        u.chip.kpr.log = s.chip.kpr.log ++ [e] ∧ e.rst = true ∧ e.open_ = true ∧ e.dur = (s.at_ t - s.chip.rst.pinAt) / msTaps ∧
        u.chip.rst = { s.chip.rst with logged := true, logNew := true } ∧
        Only s u [] (fun a b => { a with rst := b.rst, kpr := { a.kpr with log := b.kpr.log } })) ∧
      (s.chip.rst.logged = false → s.at_ t - s.chip.rst.pinAt < 100 * msTaps → exec (.rstNLog t) s = .next (s.waits t)) ∧
      (∀ e, s.chip.rst.logged = true → s.chip.kpr.log.getLast? = some e → (e.dur + 1000) * msTaps ≤ s.at_ t - s.chip.rst.pinAt →
        ∃ u, exec (.rstNLog t) s = .next u ∧ u.chip.kpr.log = s.chip.kpr.log.dropLast ++ [{ e with
          dur := (s.at_ t - s.chip.rst.pinAt) / msTaps }] ∧ Only s u [] (fun a b => { a with kpr := { a.kpr with log := b.kpr.log } }))))

/-- SUPPLY_WARNING with the rail fed moves it to VSTORE, stops charging and, with the fabric released, raises 0 and sets and counts
WARN; without the cell the keeper loses its contents. SUPPLY_RESTORED feeds it again and charging resumes. KEEPER_POR, the rail
rising from VIN33 or the cell, clears every keeper state but the record store; the oscillator's start lets KEEP run and the RTC
count from 0. A load cut is logged and counted once, and ends with the reconnect or the supply. CELL_DISCONNECT opens the switch
and raises 2. Pre-charge turns into charging, charge end stops charger and harvester, restart resumes; 24 h without charge end
raises 2 once. MPPSET is taken every 64 s. RTC_WRITE, at a whole corrected second, enters that second once and sets RTCV; inside
a second, and while TVALID is 0, it does nothing. -/
def Obligations.KeeperSupply : Prop :=
  (∀ (s : State) (t : Nat), s.Inv →
    (s.chip.rst.vin = true → s.chip.on KPR.STAT.RAIL = true → s.chip.on KPR.STAT.CONN = true →
      ∃ u, exec (.supplyWarning t) s = .next u ∧ u.chip.now = s.at_ t ∧ u.chip.get KPR.STAT.RAIL = 0 ∧ u.chip.get KPR.STAT.CHG = 0 ∧
        u.chip.kpr.chargeFrom = none ∧
        (s.chip.fabric = true → u.chip.get KPR.EVT.WARN = 1 ∧
          u.chip.get KPR.CNT.WARN = satN KPR.CNT.WARN.width (s.chip.get KPR.CNT.WARN + 1) ∧
          u.chip.flt = { s.chip.flt with raised := s.raised t 0 }) ∧
        (s.chip.fabric = false → Only s u [(KPR.STAT.RAIL, 0), (KPR.STAT.CHG, 0)] (fun a b => { a with kpr := b.kpr }))) ∧
    (s.chip.rst.vin = false ∨ s.chip.on KPR.STAT.RAIL = false → exec (.supplyWarning t) s = .next (s.waits t)) ∧
    (s.chip.rst.vin = true → s.chip.on KPR.STAT.RAIL = false →
      ∃ u, exec (.supplyRestored t) s = .next u ∧ u.chip.now = s.at_ t ∧ u.chip.get KPR.STAT.RAIL = 1 ∧ u.chip.kpr.cutAt = none ∧
        (let v := s.chip.get KPR.VMON.VST
         u.chip.get KPR.STAT.CHG = if s.chip.kpr.full then 3 else if v < 3000 then 1 else 2) ∧
        (s.chip.kpr.full = false → u.chip.kpr.chargeFrom = some (s.at_ t)) ∧
        Only s u [(KPR.STAT.RAIL, 0), (KPR.STAT.CHG, 0)] (fun a b => { a with kpr := b.kpr })) ∧
    (s.chip.rst.vin = false ∨ s.chip.on KPR.STAT.RAIL = true → exec (.supplyRestored t) s = .next (s.waits t))) ∧
  (∀ (s : State) (t : Nat), s.Inv →
    (s.chip.keepRuns = false → s.chip.kpr.kpor = false → s.chip.rst.vin = true ∨ s.chip.on KPR.STAT.CONN = true →
      ∃ u, exec (.keeperPor t) s = .next u ∧ u.chip.now = s.at_ t ∧ u.chip.kpr.kpor = true ∧ u.chip.kpr.half = s.chip.kpr.half ∧
        u.chip.kpr.log = [] ∧ u.chip.kpr.pend = [] ∧ u.chip.kpr.burst = none ∧ u.chip.kpr.meter = none ∧ u.chip.kpr.cutAt = none ∧
        u.chip.get KPR.STAT.RAIL = bit s.chip.rst.vin ∧ u.chip.get KPR.STAT.RTCV = 0 ∧ u.chip.keepRuns = false ∧ u.chip.get RST.LOG.OPEN = 0 ∧
        Apart s u [0x0C01, 0x0C06, 0x1010, 0x1014] (fun a b => { a with kpr := b.kpr })) ∧
    (s.chip.keepRuns = true ∨ s.chip.kpr.kpor = true ∨ (s.chip.rst.vin = false ∧ s.chip.on KPR.STAT.CONN = false) →
      exec (.keeperPor t) s = .next (s.waits t)) ∧
    (s.chip.keepRuns = false → s.chip.kpr.kpor = true →
      ∃ u, exec (.crystalOscillatorStart t) s = .next u ∧ u.chip.now = s.at_ t ∧ u.chip.keepRuns = true ∧
        u.chip.kpr = { s.chip.kpr with osc := true, rtc := 0, rtcAt := s.at_ t } ∧
        Only s u [(RST.DOM.KEEP, 0)] (fun a b => { a with kpr := b.kpr })) ∧
    (s.chip.keepRuns = true ∨ s.chip.kpr.kpor = false → exec (.crystalOscillatorStart t) s = .next (s.waits t))) ∧
  (∀ (s : State) (t : Nat), s.Inv →
    (s.chip.keepRuns = true → s.chip.on KPR.STAT.RAIL = false → s.chip.kpr.cutAt = none →
      ∃ u e, exec (.loadCut t) s = .next u ∧ u.chip.now = s.at_ t ∧ u.chip.kpr.cutAt = some (s.at_ t) ∧
        u.chip.kpr.lcuts = s.chip.kpr.lcuts + 1 ∧ u.chip.kpr.log = s.chip.kpr.log ++ [e] ∧ e.rst = false ∧ e.open_ = true ∧
        Only s u [] (fun a b => { a with kpr := b.kpr })) ∧
    (s.chip.keepRuns = false ∨ s.chip.on KPR.STAT.RAIL = true ∨ s.chip.kpr.cutAt.isSome = true →
      exec (.loadCut t) s = .next (s.waits t)) ∧
    (∃ u, exec (.cellReconnect t) s = .next u ∧ u.chip.now = s.at_ t ∧ u.chip.get KPR.STAT.CONN = 1 ∧ u.chip.kpr.cutAt = none ∧
      (∀ x, s.chip.kpr.cutAt = some x → ∀ e ∈ u.chip.kpr.log, e.rst = true ∨ e.open_ = false) ∧
      (s.chip.kpr.cutAt = none → u.chip.kpr = s.chip.kpr) ∧ Only s u [(KPR.STAT.CONN, 0)] (fun a b => { a with kpr := b.kpr })) ∧
    (s.chip.on KPR.STAT.CONN = true → s.chip.on KPR.STAT.RAIL = true →
      ∃ u, exec (.cellDisconnect t) s = .next u ∧ u.chip.now = s.at_ t ∧ u.chip.get KPR.STAT.CONN = 0 ∧
        u.chip.flt = { s.chip.flt with raised := s.raised t 2 } ∧ Only s u [(KPR.STAT.CONN, 0)] (fun a b => { a with flt := b.flt })) ∧
    (s.chip.on KPR.STAT.CONN = true → s.chip.on KPR.STAT.RAIL = false →
      ∃ u, exec (.cellDisconnect t) s = .next u ∧ u.chip.now = s.at_ t ∧ u.chip.get KPR.STAT.CONN = 0 ∧ u.chip.get KPR.STAT.HARV = 0 ∧
        u.chip.keepRuns = false ∧ u.chip.kpr.log = [] ∧ u.chip.kpr.half = s.chip.kpr.half ∧ u.chip.get KPR.STAT.RTCV = 0) ∧
    (s.chip.on KPR.STAT.CONN = false → exec (.cellDisconnect t) s = .next (s.waits t))) ∧
  (∀ (s : State) (t : Nat), s.Inv →
    (s.chip.get KPR.STAT.CHG = 1 → ∃ u, exec (.preChargeEnd t) s = .next u ∧ u.chip.now = s.at_ t ∧ u.chip.get KPR.STAT.CHG = 2 ∧
      Only s u [(KPR.STAT.CHG, 0)] noPart) ∧
    (s.chip.get KPR.STAT.CHG ≠ 1 → exec (.preChargeEnd t) s = .next (s.waits t)) ∧
    (s.chip.kpr.full = false → ∃ u, exec (.chargeEnd t) s = .next u ∧ u.chip.now = s.at_ t ∧ u.chip.get KPR.STAT.HARV = 0 ∧
      u.chip.get KPR.STAT.CHG = (if s.chip.on KPR.STAT.RAIL then 3 else 0) ∧
      u.chip.kpr = { s.chip.kpr with full := true, chargeFrom := none } ∧
      Only s u [(KPR.STAT.CHG, 0), (KPR.STAT.HARV, 0)] (fun a b => { a with kpr := b.kpr })) ∧
    (s.chip.kpr.full = true → exec (.chargeEnd t) s = .next (s.waits t)) ∧
    (s.chip.kpr.full = true → ∃ u, exec (.chargeRestart t) s = .next u ∧ u.chip.now = s.at_ t ∧ u.chip.kpr.full = false ∧
      (let v := s.chip.get KPR.VMON.VST
       s.chip.on KPR.STAT.RAIL = true → u.chip.get KPR.STAT.CHG = (if v < 3000 then 1 else 2) ∧
         u.chip.kpr.chargeFrom = some (s.at_ t)) ∧
      (s.chip.on KPR.STAT.RAIL = false → u.chip.get KPR.STAT.CHG = s.chip.get KPR.STAT.CHG) ∧
      Only s u [(KPR.STAT.CHG, 0)] (fun a b => { a with kpr := b.kpr })) ∧
    (s.chip.kpr.full = false → exec (.chargeRestart t) s = .next (s.waits t)) ∧
    (∀ x, s.chip.kpr.chargeFrom = some x →
      (x + 86400 * secTaps ≤ s.at_ t → s.chip.kpr.chargeLate = false → ∃ u, exec (.chargeTimeout t) s = .next u ∧
        u.chip.now = s.at_ t ∧ u.chip.kpr = { s.chip.kpr with chargeLate := true } ∧
        u.chip.flt = { s.chip.flt with raised := s.raised t 2 } ∧ Only s u [] (fun a b => { a with kpr := b.kpr, flt := b.flt })) ∧
      (s.at_ t < x + 86400 * secTaps ∨ s.chip.kpr.chargeLate = true → exec (.chargeTimeout t) s = .next (s.waits t)))) ∧
  (∀ (s : State) (t ohms vteg : Nat), s.Inv →
    (s.chip.keepRuns = true → (∀ x, s.chip.kpr.mppAt = some x → x + 64 * secTaps ≤ s.at_ t) →
      ∃ u, exec (.mppsetSample t ohms vteg) s = .next u ∧ u.chip.now = s.at_ t ∧
        u.chip.kpr = { s.chip.kpr with mppAt := some (s.at_ t), rmpp := ohms } ∧ u.chip.get KPR.VMON.VTEG = vteg % 2 ^ 16 ∧
        u.chip.get KPR.STAT.HARV = (if s.chip.kpr.full = false ∧ 200 ≤ vteg then 1 else 0) ∧
        Only s u [(KPR.VMON.VTEG, 0), (KPR.STAT.HARV, 0)] (fun a b => { a with kpr := b.kpr })) ∧
    (s.chip.keepRuns = false ∨ (∃ x, s.chip.kpr.mppAt = some x ∧ s.at_ t < x + 64 * secTaps) →
      exec (.mppsetSample t ohms vteg) s = .next (s.waits t)) ∧
    (s.chip.on KPR.STAT.CONN = false → s.chip.rst.vin = false → ∃ u, exec (.harvesterColdStart t) s = .next u ∧
      u.chip.now = s.at_ t ∧ u.chip.get KPR.STAT.HARV = 1 ∧ Only s u [(KPR.STAT.HARV, 0)] noPart) ∧
    (s.chip.on KPR.STAT.CONN = true ∨ s.chip.rst.vin = true → exec (.harvesterColdStart t) s = .next (s.waits t))) ∧
  (∀ (s : State) (t : Nat) (tc sec : Int), s.Inv → tc = (s.chip.at_ t).corrected (s.chip.raw (s.at_ t)) → sec = tc / (secTaps : Int) →
    (tc % (secTaps : Int) < 8 → s.chip.on TIM.STAT.TVALID = true → s.chip.released 1 = true → s.chip.keepRuns = true → s.chip.kpr.rtcSec ≠ some sec →
      ∃ u, exec (.rtcWrite t) s = .next u ∧ u.chip.now = s.at_ t ∧ u.chip.get KPR.STAT.RTCV = 1 ∧
        u.chip.rtcNow = (sec % 2 ^ 49).toNat * 32768 ∧ u.chip.kpr.rtcSec = some sec ∧
        Only s u [(KPR.STAT.RTCV, 0)] (fun a b => { a with kpr := b.kpr })) ∧
    (8 ≤ tc % (secTaps : Int) ∨ s.chip.on TIM.STAT.TVALID = false ∨ s.chip.released 1 = false ∨ s.chip.keepRuns = false ∨ s.chip.kpr.rtcSec = some sec →
      exec (.rtcWrite t) s = .next (s.waits t)))

/-- NV_JUDGE, once per second, once per 16 s in a load cut, with no burst, takes the VSTORE sample and, outside a load cut, judges
the pending copies in the order fault set, energy record, image: the first that the energy test admits starts a burst into the
half without the set's valid record, with the next SEQ; one not admitted is refused, LAST 2, flagged and counted, and raises 3
at the first of a row. NV_BURST_DONE makes the burst's record valid with LAST 1, counts it and clears what is no longer pending;
NV_BURST_ABORT keeps the valid record and the pending copy, LAST 3, flags, counts and raises 3. KPR_SLEEP due judges what is
pending and resets the main domain, which then sleeps with its record store; RTC_ALARM wakes it when the RTC reaches the armed
second. -/
def Obligations.KeeperStore : Prop :=
  (∀ (s : State) (t vst : Nat), s.Inv → s.chip.keepRuns = true → (∀ x, s.chip.kpr.judgedAt = some x → x + (if s.chip.kpr.cutAt.isSome then 16 else 1) * secTaps ≤ s.at_ t) →
    s.chip.kpr.burst = none →
    (∃ u, exec (.nvJudge t vst) s = .next u ∧ u.chip.now = s.at_ t ∧ u.chip.get KPR.VMON.VST = vst % 2 ^ 16 ∧
      u.chip.kpr.judgedAt = some (s.at_ t) ∧
      (s.chip.kpr.cutAt.isSome = true ∨ (∀ k, k < 3 → nget none s.chip.kpr.pend k = none) → u.chip.kpr.burst = none ∧
        u.chip.kpr.half = s.chip.kpr.half ∧ u.chip.kpr.pend = s.chip.kpr.pend) ∧
      (∀ set r, s.chip.kpr.cutAt = none → set < 3 → nget none s.chip.kpr.pend set = some r →
        (∀ k, set < k → k < 3 → nget none s.chip.kpr.pend k = none) →
        (admits s.chip.kprCfg.1 vst r.blks = true →
          (let old := s.chip.nvValid set
           let h := if old.map (fun x => x.1) = some 0 then 1 else 0
           let seq := match old with
             | some x => (x.2.seq + 1) % 2 ^ 32
             | none => 1
           u.chip.kpr.burst = some { set := set, body := { r with seq := seq } } ∧ u.chip.nvHalf set h = none ∧
             (∀ k, k ≠ 2 * set + h → nget none u.chip.kpr.half k = nget none s.chip.kpr.half k) ∧
             u.chip.kpr.pend = s.chip.kpr.pend ∧ u.chip.get KPR.STAT.BURST = 1 ∧ u.chip.get KPR.STAT.BSET = set ∧
             u.chip.flt = s.chip.flt)) ∧
        (admits s.chip.kprCfg.1 vst r.blks = false → (∀ k, k < set → nget none s.chip.kpr.pend k = none) →
          u.chip.kpr.burst = none ∧ u.chip.kpr.pend = s.chip.kpr.pend ∧ u.chip.kpr.half = s.chip.kpr.half ∧
          u.chip.get KPR.NVS.LAST set = 2 ∧ nget 0 u.chip.kpr.refusing set = 1 ∧
          (s.chip.fabric = true → u.chip.get KPR.EVT.REFUSE = 1 ∧
            u.chip.get KPR.CNT.REFUSED = satN KPR.CNT.REFUSED.width (s.chip.get KPR.CNT.REFUSED + 1)) ∧
          u.chip.flt = (if nget 0 s.chip.kpr.refusing set = 1 then s.chip.flt else { s.chip.flt with raised := s.raised t 3 }))) ∧
      Apart s u [0x1010, 0x1011, 0x1014, 0x1016, 0x1017] (fun a b => { a with kpr := b.kpr, flt := b.flt }))) ∧
  (∀ (s : State) (t vst : Nat), s.Inv → s.chip.keepRuns = false ∨ s.chip.kpr.burst.isSome = true ∨
    (∃ x, s.chip.kpr.judgedAt = some x ∧ s.at_ t < x + (if s.chip.kpr.cutAt.isSome then 16 else 1) * secTaps) → exec (.nvJudge t vst) s = .next (s.waits t)) ∧
  (∀ (s : State) (t vst : Nat) (b : NvBurst), s.Inv → s.chip.kpr.burst = some b → b.set < 3 → b.host = false →
    (∀ k, k < 3 → k ≠ b.set → nget none s.chip.kpr.pend k = none) →
    (b.newer = false → ∃ u, exec (.nvBurstDone t vst) s = .next u ∧ u.chip.now = s.at_ t ∧ u.chip.kpr.burst = none ∧
      (let h := if (s.chip.nvValid b.set).map (fun x => x.1) = some 0 then 1 else 0
       u.chip.nvHalf b.set h = some b.body ∧ (∀ k, k ≠ 2 * b.set + h → nget none u.chip.kpr.half k = nget none s.chip.kpr.half k)) ∧
      nget none u.chip.kpr.pend b.set = none ∧ u.chip.get KPR.NVS.PEND b.set = 0 ∧ u.chip.get KPR.NVS.LAST b.set = 1 ∧
      u.chip.get KPR.STAT.BURST = 0 ∧ u.chip.get KPR.VMON.VST = vst % 2 ^ 16 ∧
      (s.chip.fabric = true → u.chip.get KPR.CNT.COMMITS = satN KPR.CNT.COMMITS.width (s.chip.get KPR.CNT.COMMITS + 1)) ∧
      Apart s u [0x1010, 0x1011, 0x1014, 0x1017] (fun a b => { a with kpr := b.kpr }))) ∧
  (∀ (s : State) (t vst : Nat) (b : NvBurst), s.Inv → s.chip.kpr.burst = some b → b.host = false → s.chip.kpr.cutAt.isSome = true →
    ∃ u, exec (.nvBurstAbort t vst) s = .next u ∧ u.chip.now = s.at_ t ∧ u.chip.kpr.burst = none ∧ u.chip.kpr.half = s.chip.kpr.half ∧
      u.chip.kpr.pend = s.chip.kpr.pend ∧ u.chip.get KPR.NVS.LAST b.set = 3 ∧ u.chip.get KPR.STAT.BURST = 0 ∧
      u.chip.get KPR.STAT.BSET = 0 ∧ (s.chip.fabric = true → u.chip.get KPR.EVT.ABORT = 1 ∧
        u.chip.get KPR.CNT.ABORTED = satN KPR.CNT.ABORTED.width (s.chip.get KPR.CNT.ABORTED + 1)) ∧
      u.chip.flt = { s.chip.flt with raised := s.raised t 3 } ∧
      Apart s u [0x1010, 0x1011, 0x1014, 0x1016, 0x1017] (fun a b => { a with kpr := b.kpr, flt := b.flt })) ∧
  (∀ (s : State) (t vst : Nat), s.Inv → s.chip.kpr.burst = none →
    exec (.nvBurstDone t vst) s = .next (s.waits t) ∧ exec (.nvBurstAbort t vst) s = .next (s.waits t)) ∧
  (∀ (s : State) (t vst : Nat), s.Inv →
    (∀ x, s.chip.kpr.sleepDue = some x → x ≤ s.at_ t →
      ∃ u, exec (.kprSleep t vst) s = .next u ∧ u.chip.now = s.at_ t ∧ u.chip.kpr.asleep = true ∧ u.chip.state = stBoot ∧
        u.chip.hpp = {} ∧ u.chip.rst.core = false ∧ u.chip.rst.vin = s.chip.rst.vin ∧ u.chip.get RST.DOM.REL = 0 ∧
        u.chip.kpr.log = s.chip.kpr.log ∧ u.chip.get KPR.VMON.VST = vst % 2 ^ 16 ∧ u.sram = s.sram ∧
        (s.chip.kpr.burst.isSome = true ∨ (∀ k, k < 3 → nget none s.chip.kpr.pend k = none) → u.chip.kpr.half = s.chip.kpr.half)) ∧
    ((∀ x, s.chip.kpr.sleepDue = some x → s.at_ t < x) → exec (.kprSleep t vst) s = .next (s.waits t)) ∧
    (∀ x, s.chip.kpr.alarm = some x → s.chip.kpr.asleep = true → s.chip.keepRuns = true → s.chip.on KPR.STAT.RTCV = true →
      x * 32768 ≤ (s.chip.at_ t).rtcNow → ∃ u, exec (.rtcAlarm t) s = .next u ∧ u.chip.now = s.at_ t ∧ u.chip.kpr.asleep = false ∧
        u.chip.get KPR.STAT.WAKE = 2 ∧ Only s u [(KPR.STAT.WAKE, 0)] (fun a _ => { a with kpr := { a.kpr with asleep := false } })) ∧
    (s.chip.kpr.alarm = none ∨ s.chip.kpr.asleep = false → exec (.rtcAlarm t) s = .next (s.waits t)))

/-- With the test running and check k of SCAL, SCRUB, ROM and FUSE enabled, due and not in progress (FUSE not while ROM is in
progress or due): a pass that the command completes counts in PASSES, LAST is 2 and FAILS counts when a unit failed (a group
with an overdue slice, a word in error, a CRC that disagrees), else 1; a failed ROM pass raises 63, a failed SCAL or FUSE pass
sets FAIL and raises 60; a pass that does not complete is ACTIVE. A COMP or RDBK pass that is due begins; without an eligible
comparator only its pacing goes on. A check not enabled or not due does nothing. A pass of 3 to 7 still in progress, or of COMP
with its window still open, when the next falls due sets LATE, LAST 3 and raises 60, once. Each LWIN seconds the lane check
judges every lane in ADMIT or ACTIVE: LFAIL shows those beyond LERR, a new one raises 60; a new window starts from the counters. -/
def Obligations.InServiceTest : Prop :=
  (∀ (s : State) (t k : Nat) (ok : Bool) (errs : List (Nat × Nat × Bool)), s.Inv → 3 ≤ k → k ≤ 6 → s.chip.istRuns = true →
    s.chip.istEnabled k = true → (s.chip.at_ t).istDue k = true → s.chip.istActive k = false → s.chip.istHost k = false →
    s.chip.ist.late.contains k = false →
    (k = 6 → s.chip.istEnabled 5 = true → s.chip.istActive 5 = false ∧ (s.chip.at_ t).istDue 5 = false) →
    (let shadowGood := s.chip.rst.shadow = [] ∨ crc32c ((s.chip.rst.shadow.take 31).flatMap wordBytes) = s.chip.rst.shadow.getD 31 0
     let bad : Prop := (k = 3 ∧ ∃ g, g < 4 ∧ (s.chip.at_ t).scalBad g = true) ∨ (k = 4 ∧ ∃ e ∈ errs, e.1 < 2048 ∧ e.2.1 < 512) ∨
       (k = 5 ∧ ok = false) ∨ (k = 6 ∧ ¬(ok = true ∧ shadowGood))
     (∃ u, exec (.istPassStart t k true ok errs) s = .next u ∧ u.chip.now = s.at_ t ∧ u.chip.istActive k = false ∧
       nget u.chip.ist.base u.chip.ist.last k = s.at_ t ∧
       u.chip.get IST.RES.PASSES (k - 1) = satN IST.RES.PASSES.width (s.chip.get IST.RES.PASSES (k - 1) + 1) ∧
       (bad → u.chip.get IST.RES.LAST (k - 1) = 2 ∧
         u.chip.get IST.RES.FAILS (k - 1) = satN IST.RES.FAILS.width (s.chip.get IST.RES.FAILS (k - 1) + 1) ∧
         (k = 5 → u.chip.flt = { s.chip.flt with raised := s.raised t 63 }) ∧
         (k = 3 ∨ k = 6 → u.chip.get IST.EVT.FAIL = 1 ∧ u.chip.flt = { s.chip.flt with raised := s.raised t 60 })) ∧
       (¬bad → u.chip.get IST.RES.LAST (k - 1) = 1 ∧ u.chip.get IST.RES.FAILS (k - 1) = s.chip.get IST.RES.FAILS (k - 1) ∧
         Apart s u [0x5010, 0x5011] (fun a b => { a with ist := b.ist }))) ∧
     (∃ u, exec (.istPassStart t k false ok errs) s = .next u ∧ u.chip.now = s.at_ t ∧ u.chip.istActive k = true ∧
       nget u.chip.ist.base u.chip.ist.last k = s.at_ t ∧
       Only s u [(IST.STAT.ACTIVE, 0)] (fun a b => { a with ist := b.ist })))) ∧
  (∀ (s : State) (t k : Nat) (done ok : Bool) (errs : List (Nat × Nat × Bool)), s.Inv →
    (k = 1 ∨ k = 2 → s.chip.istRuns = true → s.chip.istEnabled k = true → (s.chip.at_ t).istDue k = true → s.chip.istActive k = false →
      (s.chip.istNext k = none → ∃ u, exec (.istPassStart t k done ok errs) s = .next u ∧ u.chip.now = s.at_ t ∧
        u.chip.ist = { s.chip.ist with last := nset s.chip.ist.base s.chip.ist.last k (s.at_ t) } ∧
        Only s u [] (fun a b => { a with ist := b.ist })) ∧
      ((s.chip.istNext k).isSome = true → ∃ u, exec (.istPassStart t k done ok errs) s = .next u ∧ u.chip.now = s.at_ t ∧
        u.chip.istActive k = true ∧ u.chip.ist.last = s.chip.ist.last ∧
        Only s u [(IST.STAT.ACTIVE, 0)] (fun a b => { a with ist := b.ist }))) ∧
    (s.chip.istActive k = false → s.chip.istRuns = false ∨ s.chip.istEnabled k = false ∨ (s.chip.at_ t).istDue k = false →
      exec (.istPassStart t k done ok errs) s = .next (s.waits t)) ∧
    (s.chip.istActive k = true → 3 ≤ k → k ≤ 7 → exec (.istPassStart t k false ok errs) s = .next (s.waits t))) ∧
  (∀ (s : State) (t k : Nat), s.Inv →
    (3 ≤ k ∨ (k = 1 ∧ s.chip.mon.test.isSome = true) → s.chip.istRuns = true → s.chip.istEnabled k = true →
      s.chip.istActive k = true → s.chip.istHost k = false →
      (s.chip.at_ t).istDue k = true → s.chip.ist.late.contains k = false →
      ∃ u, exec (.istPassLate t k) s = .next u ∧ u.chip.now = s.at_ t ∧ u.chip.get IST.EVT.LATE = 1 ∧
        u.chip.get IST.RES.LAST (k - 1) = 3 ∧ u.chip.ist = { s.chip.ist with late := k :: s.chip.ist.late } ∧
        u.chip.flt = { s.chip.flt with raised := s.raised t 60 } ∧
        Only s u [(IST.EVT.LATE, 0), (IST.RES.LAST, k - 1)] (fun a b => { a with ist := b.ist, flt := b.flt })) ∧
    (s.chip.istActive k = false ∨ s.chip.istHost k = true ∨ s.chip.ist.late.contains k = true ∨ (s.chip.at_ t).istDue k = false ∨
        k = 2 ∨ (k = 1 ∧ s.chip.mon.test = none) →
      exec (.istPassLate t k) s = .next (s.waits t))) ∧
  (∀ (s : State) (t : Nat), s.Inv →
    (s.chip.ist.winAt + s.chip.istPeriod 7 ≤ s.at_ t → s.chip.state ≠ stBoot →
      ∃ u, exec (.laneWindowEnd t) s = .next u ∧ u.chip.now = s.at_ t ∧ u.chip.ist.winAt = s.at_ t ∧
        (∀ n, n < 192 → nget 0 u.chip.ist.errs n = s.chip.get LNK.CNT.CRC n + s.chip.get LNK.CNT.CODE n) ∧
        (s.chip.istRuns = false ∨ s.chip.istEnabled 7 = false ∨ s.chip.istHost 7 = true → Only s u [] (fun a b => { a with ist := b.ist })) ∧
        (s.chip.istRuns = true → s.chip.istEnabled 7 = true → s.chip.istHost 7 = false → s.chip.ist.late.contains 7 = false →
          (let judged (n : Nat) := n < 192 ∧ (s.chip.lstate n = lsAdmit ∨ s.chip.lstate n = lsActive)
           (∀ n, n < 192 → (u.chip.bitOn IST.LFAIL.LANE 0 n = true ↔
             s.chip.bitOn IST.LFAIL.LANE 0 n = true ∨ (judged n ∧ s.chip.laneBad n = true))) ∧
           u.chip.get IST.RES.PASSES 6 = satN IST.RES.PASSES.width (s.chip.get IST.RES.PASSES 6 + 1) ∧
           ((∃ n, judged n ∧ s.chip.laneBad n = true) → u.chip.get IST.RES.LAST 6 = 2 ∧ u.chip.get IST.EVT.LANE = 1) ∧
           ((∀ n, judged n → s.chip.laneBad n = false) → u.chip.get IST.RES.LAST 6 = 1 ∧ u.chip.flt = s.chip.flt) ∧
           (∀ n, judged n → s.chip.laneBad n = true → n ∉ s.chip.ist.epi → s.chip.fabric = true →
             s.event t 60 0 ∈ u.chip.flt.raised) ∧
           Apart s u [0x5010, 0x5011, 0x5012, 0x5013] (fun a b => { a with ist := b.ist, flt := b.flt })))) ∧
    (s.at_ t < s.chip.ist.winAt + s.chip.istPeriod 7 ∨ s.chip.state = stBoot → exec (.laneWindowEnd t) s = .next (s.waits t)))

/-- IDCODE selects the identification 0x1719254B. A code of no other instruction selects BYPASS with a zero register. SAMPLE/PRELOAD
holds the sampled pins and the levels preloaded. EXTEST and PTEST are in force after their instruction and act only while RST_N
holds the main domain in reset and DBGLOCK is 0, as BYPASS otherwise; EXTEST then drives the preloaded levels. TRST_N low holds
Test-Logic-Reset with IDCODE. None changes anything but the port itself. -/
def Obligations.TestAccessPort : Prop :=
  (∀ (s : State) (t : Nat), s.Inv →
    (∃ u, exec (.tapIdcode t) s = .next u ∧ u.chip.now = s.at_ t ∧
      u.chip.tap = { s.chip.tap with reset := false, instr := .idcode } ∧ u.chip.tapData = some 0x1719254B ∧
      Only s u [] (fun a b => { a with tap := b.tap })) ∧
    (∃ u, exec (.testLogicReset t) s = .next u ∧ u.chip.now = s.at_ t ∧
      u.chip.tap = { s.chip.tap with reset := true, instr := .idcode } ∧ u.chip.tapData = some 0x1719254B ∧
      Only s u [] (fun a b => { a with tap := b.tap })) ∧
    (∀ code, code < 256 → code ∉ [0, 1, 2, 0x10] → ∃ u, exec (.tapBypass t code) s = .next u ∧ u.chip.now = s.at_ t ∧
      u.chip.tap = { s.chip.tap with reset := false, instr := .bypass } ∧ u.chip.tapData = some 0 ∧
      Only s u [] (fun a b => { a with tap := b.tap })) ∧
    (∀ pins load, ∃ u, exec (.tapSamplePreload t pins load) s = .next u ∧ u.chip.now = s.at_ t ∧ u.chip.tap.instr = .sample ∧
      u.chip.tap.sampled = pins ∧ u.chip.tap.boundary = load ∧ u.chip.extestDrives = none ∧
      Only s u [] (fun a b => { a with tap := b.tap })) ∧
    (let open_ := s.chip.rst.pinLow = true ∧ s.chip.fabric = false ∧ s.chip.get RST.FSEC.DBGLOCK = 0
     (∃ u, exec (.tapExtest t) s = .next u ∧ u.chip.now = s.at_ t ∧
       u.chip.tap = { s.chip.tap with reset := false, instr := .extest } ∧
       (open_ → u.chip.tapActs = .extest ∧ u.chip.extestDrives = some s.chip.tap.boundary) ∧
       (¬open_ → u.chip.tapActs = .bypass ∧ u.chip.extestDrives = none) ∧ Only s u [] (fun a b => { a with tap := b.tap })) ∧
     (∃ u, exec (.tapPtest t) s = .next u ∧ u.chip.now = s.at_ t ∧
       u.chip.tap = { s.chip.tap with reset := false, instr := .ptest } ∧ (open_ → u.chip.tapActs = .ptest) ∧
       (¬open_ → u.chip.tapActs = .bypass) ∧ u.chip.extestDrives = none ∧ Only s u [] (fun a b => { a with tap := b.tap }))))

/-- Whatever attribute ID and instance has a row in the register map: each field of the row carries the row's ID and lies within the
row's words, its most significant bit not below its least; two different fields of the row share no bit; and the row is the same
for every instance below its count and absent above it. -/
def Obligations.FieldsDoNotOverlap : Prop :=
  (∀ (id n : Nat) (r : AttrRow), attrRow id n = some r → r.id = id ∧ n < r.insts ∧
    (∀ f ∈ r.fields, f.fld.id = id ∧ f.fld.lo ≤ f.fld.hi ∧ f.fld.hi < 32 * r.words) ∧
    (∀ f ∈ r.fields, ∀ g ∈ r.fields, f.fld ≠ g.fld → f.fld.hi < g.fld.lo ∨ g.fld.hi < f.fld.lo) ∧
    (∀ m, attrRow id m = if m < r.insts then some r else none))
end

