-- ==== Sys2Proof/Laws/Exec.lean ====
section
/-! SUPPORT. Which meaning each command has: exec unfolded one constructor at a time. -/

namespace Sys2Proof.Laws

open Sys2Proof.Machine

theorem exec_transaction (t : Nat) (edges : Nat) (data : List Byte) (hold : Bool) (s : State) :
    exec (.transaction t edges data hold) s = execTransaction t edges data hold s := rfl
theorem exec_idleTimeout (t : Nat) (s : State) :
    exec (.idleTimeout t) s = execIdleTimeout t s := rfl
theorem exec_nop (t : Nat) (tag : Nat) (flg : Nat) (crc : Word) (s : State) :
    exec (.nop t tag flg crc) s = execNop t tag flg crc s := rfl
theorem exec_peek (t : Nat) (tag : Nat) (flg : Nat) (crc : Word) (s : State) :
    exec (.peek t tag flg crc) s = execPeek t tag flg crc s := rfl
theorem exec_fetch (t : Nat) (tag : Nat) (flg : Nat) (crc : Word) (edges : Nat) (s : State) :
    exec (.fetch t tag flg crc edges) s = execFetch t tag flg crc edges s := rfl
theorem exec_unassignedOpcode (t : Nat) (s : State) :
    exec (.unassignedOpcode t) s = execUnassignedOpcode t s := rfl
theorem exec_getAttr (t : Nat) (s : State) :
    exec (.getAttr t) s = execGetAttr t s := rfl
theorem exec_setAttr (t : Nat) (s : State) :
    exec (.setAttr t) s = execSetAttr t s := rfl
theorem exec_getBlock (t : Nat) (s : State) :
    exec (.getBlock t) s = execGetBlock t s := rfl
theorem exec_setBlock (t : Nat) (s : State) :
    exec (.setBlock t) s = execSetBlock t s := rfl
theorem exec_modify (t : Nat) (s : State) :
    exec (.modify t) s = execModify t s := rfl
theorem exec_modifyStep (s : State) :
    exec (.modifyStep) s = execModifyStep s := rfl
theorem exec_stagedWritesApply (s : State) :
    exec (.stagedWritesApply) s = execStagedWritesApply s := rfl
theorem exec_commitConfig (t : Nat) (s : State) :
    exec (.commitConfig t) s = execCommitConfig t s := rfl
theorem exec_configCheck (t : Nat) (s : State) :
    exec (.configCheck t) s = execConfigCheck t s := rfl
theorem exec_armMap (t : Nat) (s : State) :
    exec (.armMap t) s = execArmMap t s := rfl
theorem exec_laneAdmit (t : Nat) (s : State) :
    exec (.laneAdmit t) s = execLaneAdmit t s := rfl
theorem exec_laneAdmitStart (s : State) :
    exec (.laneAdmitStart) s = execLaneAdmitStart s := rfl
theorem exec_laneRetire (t : Nat) (s : State) :
    exec (.laneRetire t) s = execLaneRetire t s := rfl
theorem exec_captureArm (t : Nat) (s : State) :
    exec (.captureArm t) s = execCaptureArm t s := rfl
theorem exec_captureRelease (t : Nat) (s : State) :
    exec (.captureRelease t) s = execCaptureRelease t s := rfl
theorem exec_readPage (t : Nat) (errs : List (Nat × Bool)) (s : State) :
    exec (.readPage t errs) s = execReadPage t errs s := rfl
theorem exec_timeGet (t : Nat) (s : State) :
    exec (.timeGet t) s = execTimeGet t s := rfl
theorem exec_timeStep (t : Nat) (s : State) :
    exec (.timeStep t) s = execTimeStep t s := rfl
theorem exec_timeRate (t : Nat) (s : State) :
    exec (.timeRate t) s = execTimeRate t s := rfl
theorem exec_tripClear (t : Nat) (s : State) :
    exec (.tripClear t) s = execTripClear t s := rfl
theorem exec_faultAck (t : Nat) (s : State) :
    exec (.faultAck t) s = execFaultAck t s := rfl
theorem exec_resetCmd (t : Nat) (s : State) :
    exec (.resetCmd t) s = execResetCmd t s := rfl
theorem exec_resetBegin (t : Nat) (s : State) :
    exec (.resetBegin t) s = execResetBegin t s := rfl
theorem exec_selftest (t : Nat) (s : State) :
    exec (.selftest t) s = execSelftest t s := rfl
theorem exec_commitNv (t : Nat) (vst : Nat) (s : State) :
    exec (.commitNv t vst) s = execCommitNv t vst s := rfl
theorem exec_identify (t : Nat) (s : State) :
    exec (.identify t) s = execIdentify t s := rfl
theorem exec_patchBegin (t : Nat) (s : State) :
    exec (.patchBegin t) s = execPatchBegin t s := rfl
theorem exec_patchData (t : Nat) (s : State) :
    exec (.patchData t) s = execPatchData t s := rfl
theorem exec_patchFinish (t : Nat) (s : State) :
    exec (.patchFinish t) s = execPatchFinish t s := rfl
theorem exec_tick (place : Option Nat) (slots : Nat) (stall : Bool) (s : State) :
    exec (.tick place slots stall) s = execTick place slots stall s := rfl
theorem exec_tickStrobe (s : State) :
    exec (.tickStrobe) s = execTickStrobe s := rfl
theorem exec_launch (s : State) :
    exec (.launch) s = execLaunch s := rfl
theorem exec_uplinkFrame (t : Nat) (n : Nat) (before : List Nat) (comma : Nat) (frame : List Nat) (s : State) :
    exec (.uplinkFrame t n before comma frame) s = execUplinkFrame t n before comma frame s := rfl
theorem exec_syncLoss (t : Nat) (n : Nat) (s : State) :
    exec (.syncLoss t n) s = execSyncLoss t n s := rfl
theorem exec_lossOfLight (t : Nat) (n : Nat) (s : State) :
    exec (.lossOfLight t n) s = execLossOfLight t n s := rfl
theorem exec_admissionTimeout (t : Nat) (n : Nat) (s : State) :
    exec (.admissionTimeout t n) s = execAdmissionTimeout t n s := rfl
theorem exec_selfTestTimeout (t : Nat) (n : Nat) (s : State) :
    exec (.selfTestTimeout t n) s = execSelfTestTimeout t n s := rfl
theorem exec_autoAdmissionStart (n : Nat) (s : State) :
    exec (.autoAdmissionStart n) s = execAutoAdmissionStart n s := rfl
theorem exec_laneResumeDown (s : State) :
    exec (.laneResumeDown) s = execLaneResumeDown s := rfl
theorem exec_odiagRequest (t : Nat) (n : Nat) (s : State) :
    exec (.odiagRequest t n) s = execOdiagRequest t n s := rfl
theorem exec_odiagTimeout (t : Nat) (n : Nat) (s : State) :
    exec (.odiagTimeout t n) s = execOdiagTimeout t n s := rfl
theorem exec_carrierEvent (t : Nat) (lane : Bool) (i : Nat) (s : State) :
    exec (.carrierEvent t lane i) s = execCarrierEvent t lane i s := rfl
theorem exec_bootstrapRefreshEnd (t : Nat) (p : Nat) (s : State) :
    exec (.bootstrapRefreshEnd t p) s = execBootstrapRefreshEnd t p s := rfl
theorem exec_mtrigDelivery (t : Nat) (s : State) :
    exec (.mtrigDelivery t) s = execMtrigDelivery t s := rfl
theorem exec_dhbTurnOn (t : Nat) (p : Nat) (up : Bool) (s : State) :
    exec (.dhbTurnOn t p up) s = execDhbTurnOn t p up s := rfl
theorem exec_dhbHandshakeTimeout (t : Nat) (p : Nat) (up : Bool) (s : State) :
    exec (.dhbHandshakeTimeout t p up) s = execDhbHandshakeTimeout t p up s := rfl
theorem exec_dhbAckChange (t : Nat) (p : Nat) (up : Bool) (level : Bool) (held : Bool) (s : State) :
    exec (.dhbAckChange t p up level held) s = execDhbAckChange t p up level held s := rfl
theorem exec_dhbResume (t : Nat) (p : Nat) (s : State) :
    exec (.dhbResume t p) s = execDhbResume t p s := rfl
theorem exec_dhbForce (t : Nat) (p : Nat) (v : Nat) (s : State) :
    exec (.dhbForce t p v) s = execDhbForce t p v s := rfl
theorem exec_comparatorDecision (t : Nat) (k : Nat) (vd : Int) (th : Int) (h : Int) (s : State) :
    exec (.comparatorDecision t k vd th h) s = execComparatorDecision t k vd th h s := rfl
theorem exec_tripInput (t : Nat) (n : Nat) (low : Bool) (ps : Nat) (s : State) :
    exec (.tripInput t n low ps) s = execTripInput t n low ps s := rfl
theorem exec_tripHoldEnd (s : State) :
    exec (.tripHoldEnd) s = execTripHoldEnd s := rfl
theorem exec_comparatorFirstDecision (t : Nat) (k : Nat) (vd : Int) (th : Int) (h : Int) (s : State) :
    exec (.comparatorFirstDecision t k vd th h) s = execComparatorFirstDecision t k vd th h s := rfl
theorem exec_comparatorSelfTest (t : Nat) (res : Option (Bool × Bool × Int)) (s : State) :
    exec (.comparatorSelfTest t res) s = execComparatorSelfTest t res s := rfl
theorem exec_thresholdReadback (t : Nat) (vd : Int) (s : State) :
    exec (.thresholdReadback t vd) s = execThresholdReadback t vd s := rfl
theorem exec_conversionResult (t : Nat) (g : Nat) (kind : ConvKind) (vd : Int) (done : Bool) (s : State) :
    exec (.conversionResult t g kind vd done) s = execConversionResult t g kind vd done s := rfl
theorem exec_sequenceTrigger (t : Nat) (s : State) :
    exec (.sequenceTrigger t) s = execSequenceTrigger t s := rfl
theorem exec_adcHostTrigger (t : Nat) (go : Nat) (s : State) :
    exec (.adcHostTrigger t go) s = execAdcHostTrigger t go s := rfl
theorem exec_sequenceEnd (t : Nat) (g : Nat) (s : State) :
    exec (.sequenceEnd t g) s = execSequenceEnd t g s := rfl
theorem exec_sequenceRecord (t : Nat) (g : Nat) (s : State) :
    exec (.sequenceRecord t g) s = execSequenceRecord t g s := rfl
theorem exec_foregroundCalibrationDone (t : Nat) (g : Nat) (errs : List (Int × Int)) (s : State) :
    exec (.foregroundCalibrationDone t g errs) s = execForegroundCalibrationDone t g errs s := rfl
theorem exec_sliceCalibrationEnd (t : Nat) (g : Nat) (gerr : Int) (oerr : Int) (s : State) :
    exec (.sliceCalibrationEnd t g gerr oerr) s = execSliceCalibrationEnd t g gerr oerr s := rfl
theorem exec_sliceHandover (t : Nat) (g : Nat) (sum : Int) (s : State) :
    exec (.sliceHandover t g sum) s = execSliceHandover t g sum s := rfl
theorem exec_sliceFail (t : Nat) (g : Nat) (s_ : Nat) (s : State) :
    exec (.sliceFail t g s_) s = execSliceFail t g s_ s := rfl
theorem exec_serviceConversion (t : Nat) (g : Nat) (ch : Nat) (vd : Int) (s : State) :
    exec (.serviceConversion t g ch vd) s = execServiceConversion t g ch vd s := rfl
theorem exec_pageRequest (t : Nat) (s : State) :
    exec (.pageRequest t) s = execPageRequest t s := rfl
theorem exec_captureTrigger (t : Nat) (s : State) :
    exec (.captureTrigger t) s = execCaptureTrigger t s := rfl
theorem exec_pgmHostTrigger (t : Nat) (go : Nat) (s : State) :
    exec (.pgmHostTrigger t go) s = execPgmHostTrigger t go s := rfl
theorem exec_pageRetire (t : Nat) (p : Nat) (s : State) :
    exec (.pageRetire t p) s = execPageRetire t p s := rfl
theorem exec_refclkLoss (t : Nat) (b : Bool) (s : State) :
    exec (.refclkLoss t b) s = execRefclkLoss t b s := rfl
theorem exec_refclkDrift (t : Nat) (w : Drift) (s : State) :
    exec (.refclkDrift t w) s = execRefclkDrift t w s := rfl
theorem exec_refclkGood (t : Nat) (b : Bool) (s : State) :
    exec (.refclkGood t b) s = execRefclkGood t b s := rfl
theorem exec_refclkRevert (t : Nat) (s : State) :
    exec (.refclkRevert t) s = execRefclkRevert t s := rfl
theorem exec_refclkPrefWrite (t : Nat) (b : Bool) (s : State) :
    exec (.refclkPrefWrite t b) s = execRefclkPrefWrite t b s := rfl
theorem exec_dllLock (t : Nat) (s : State) :
    exec (.dllLock t) s = execDllLock t s := rfl
theorem exec_dllChainSwitch (t : Nat) (s : State) :
    exec (.dllChainSwitch t) s = execDllChainSwitch t s := rfl
theorem exec_dllUnlock (t : Nat) (s : State) :
    exec (.dllUnlock t) s = execDllUnlock t s := rfl
theorem exec_dllRelockTimeout (t : Nat) (s : State) :
    exec (.dllRelockTimeout t) s = execDllRelockTimeout t s := rfl
theorem exec_ptpMessage (t : Nat) (i : Nat) (m : PtpMsg) (s : State) :
    exec (.ptpMessage t i m) s = execPtpMessage t i m s := rfl
theorem exec_ptpTransmit (t : Nat) (i : Nat) (k : PtpKind) (s : State) :
    exec (.ptpTransmit t i k) s = execPtpTransmit t i k s := rfl
theorem exec_ptpAnnounceTimeout (t : Nat) (i : Nat) (s : State) :
    exec (.ptpAnnounceTimeout t i) s = execPtpAnnounceTimeout t i s := rfl
theorem exec_ptpSyncTimeout (t : Nat) (i : Nat) (s : State) :
    exec (.ptpSyncTimeout t i) s = execPtpSyncTimeout t i s := rfl
theorem exec_holdoverTimeout (t : Nat) (s : State) :
    exec (.holdoverTimeout t) s = execHoldoverTimeout t s := rfl
theorem exec_ppsInEdge (p : Pulse) (s : State) :
    exec (.ppsInEdge p) s = execPpsInEdge p s := rfl
theorem exec_ppsInMissing (t : Nat) (s : State) :
    exec (.ppsInMissing t) s = execPpsInMissing t s := rfl
theorem exec_ppsOutPulse (t : Nat) (s : State) :
    exec (.ppsOutPulse t) s = execPpsOutPulse t s := rfl
theorem exec_ppsOutEnd (t : Nat) (s : State) :
    exec (.ppsOutEnd t) s = execPpsOutEnd t s := rfl
theorem exec_syncInEdge (p : Pulse) (s : State) :
    exec (.syncInEdge p) s = execSyncInEdge p s := rfl
theorem exec_timestampInput (t : Nat) (u : Nat) (e : PinEdge) (s : State) :
    exec (.timestampInput t u e) s = execTimestampInput t u e s := rfl
theorem exec_rtcWrite (t : Nat) (s : State) :
    exec (.rtcWrite t) s = execRtcWrite t s := rfl
theorem exec_trigSlotEvaluation (w : TrigTurn) (s : State) :
    exec (.trigSlotEvaluation w) s = execTrigSlotEvaluation w s := rfl
theorem exec_grdTripClear (t : Nat) (s : State) :
    exec (.grdTripClear t) s = execGrdTripClear t s := rfl
theorem exec_grdIslandClear (t : Nat) (s : State) :
    exec (.grdIslandClear t) s = execGrdIslandClear t s := rfl
theorem exec_pmuReport (t : Nat) (sec : Int) (k : Nat) (s : State) :
    exec (.pmuReport t sec k) s = execPmuReport t sec k s := rfl
theorem exec_turnOffTransmission (t : Nat) (s : State) :
    exec (.turnOffTransmission t) s = execTurnOffTransmission t s := rfl
theorem exec_turnOnTransmission (t : Nat) (s : State) :
    exec (.turnOnTransmission t) s = execTurnOnTransmission t s := rfl
theorem exec_sendCfg1 (t : Nat) (s : State) :
    exec (.sendCfg1 t) s = execSendCfg1 t s := rfl
theorem exec_sendCfg2 (t : Nat) (s : State) :
    exec (.sendCfg2 t) s = execSendCfg2 t s := rfl
theorem exec_pmuCommandIgnored (t : Nat) (s : State) :
    exec (.pmuCommandIgnored t) s = execPmuCommandIgnored t s := rfl
theorem exec_twArrival (t : Nat) (x : Nat) (l : List TwSample) (s : State) :
    exec (.twArrival t x l) s = execTwArrival t x l s := rfl
theorem exec_twCollectionEnd (t : Nat) (s : State) :
    exec (.twCollectionEnd t) s = execTwCollectionEnd t s := rfl
theorem exec_pmuFltrig (t : Nat) (s : State) :
    exec (.pmuFltrig t) s = execPmuFltrig t s := rfl
theorem exec_faultRecordComplete (t : Nat) (s : State) :
    exec (.faultRecordComplete t) s = execFaultRecordComplete t s := rfl
theorem exec_twremWrite (t : Nat) (num : Nat) (time : Nat) (tap : Nat) (fine : Nat) (s : State) :
    exec (.twremWrite t num time tap fine) s = execTwremWrite t num time tap fine s := rfl
theorem exec_powerSample (t : Nat) (s : State) :
    exec (.powerSample t) s = execPowerSample t s := rfl
theorem exec_pulseStart (t : Nat) (k : Nat) (s : State) :
    exec (.pulseStart t k) s = execPulseStart t k s := rfl
theorem exec_pulseEnd (t : Nat) (k : Nat) (s : State) :
    exec (.pulseEnd t k) s = execPulseEnd t k s := rfl
theorem exec_meterSnapshot (t : Nat) (s : State) :
    exec (.meterSnapshot t) s = execMeterSnapshot t s := rfl
theorem exec_meterZero (t : Nat) (s : State) :
    exec (.meterZero t) s = execMeterZero t s := rfl
theorem exec_meterRecordCopy (t : Nat) (s : State) :
    exec (.meterRecordCopy t) s = execMeterRecordCopy t s := rfl
theorem exec_meterInputInvalid (t : Nat) (ch : Nat) (s : State) :
    exec (.meterInputInvalid t ch) s = execMeterInputInvalid t ch s := rfl
theorem exec_ethFrameRx (t : Nat) (i : Nat) (f : List Byte) (fcs : Bool) (full : Bool) (s : State) :
    exec (.ethFrameRx t i f fcs full) s = execEthFrameRx t i f fcs full s := rfl
theorem exec_discardEntryExpire (t : Nat) (s : State) :
    exec (.discardEntryExpire t) s = execDiscardEntryExpire t s := rfl
theorem exec_ethFrameTx (t : Nat) (i : Nat) (s : State) :
    exec (.ethFrameTx t i) s = execEthFrameTx t i s := rfl
theorem exec_prpSupervisionTx (t : Nat) (s : State) :
    exec (.prpSupervisionTx t) s = execPrpSupervisionTx t s := rfl
theorem exec_lanSilent (t : Nat) (i : Nat) (s : State) :
    exec (.lanSilent t i) s = execLanSilent t i s := rfl
theorem exec_linkPoll (t : Nat) (i : Nat) (up : Bool) (s : State) :
    exec (.linkPoll t i up) s = execLinkPoll t i up s := rfl
theorem exec_mdioAccess (t : Nat) (v : Nat) (s : State) :
    exec (.mdioAccess t v) s = execMdioAccess t v s := rfl
theorem exec_mdioAccessDone (t : Nat) (d : Nat) (s : State) :
    exec (.mdioAccessDone t d) s = execMdioAccessDone t d s := rfl
theorem exec_safetyPairTimeout (t : Nat) (s : State) :
    exec (.safetyPairTimeout t) s = execSafetyPairTimeout t s := rfl
theorem exec_safetyFrameRx (t : Nat) (s : State) :
    exec (.safetyFrameRx t) s = execSafetyFrameRx t s := rfl
theorem exec_safetyFrameTx (t : Nat) (s : State) :
    exec (.safetyFrameTx t) s = execSafetyFrameTx t s := rfl
theorem exec_remoteWatchdogExpiry (t : Nat) (m : Nat) (s : State) :
    exec (.remoteWatchdogExpiry t m) s = execRemoteWatchdogExpiry t m s := rfl
theorem exec_safetyInputChange (t : Nat) (k : Nat) (ch : Nat) (level : Bool) (s : State) :
    exec (.safetyInputChange t k ch level) s = execSafetyInputChange t k ch level s := rfl
theorem exec_discrepancyTimeout (t : Nat) (k : Nat) (s : State) :
    exec (.discrepancyTimeout t k) s = execDiscrepancyTimeout t k s := rfl
theorem exec_siFaultAck (t : Nat) (mask : Nat) (s : State) :
    exec (.siFaultAck t mask) s = execSiFaultAck t mask s := rfl
theorem exec_sdoOn (t : Nat) (j : Nat) (on : Bool) (s : State) :
    exec (.sdoOn t j on) s = execSdoOn t j on s := rfl
theorem exec_sdoFaultAck (t : Nat) (j : Nat) (s : State) :
    exec (.sdoFaultAck t j) s = execSdoFaultAck t j s := rfl
theorem exec_sdoReadbackChange (t : Nat) (j : Nat) (ch : Nat) (level : Bool) (s : State) :
    exec (.sdoReadbackChange t j ch level) s = execSdoReadbackChange t j ch level s := rfl
theorem exec_sdoReadbackDeadline (t : Nat) (j : Nat) (ch : Nat) (s : State) :
    exec (.sdoReadbackDeadline t j ch) s = execSdoReadbackDeadline t j ch s := rfl
theorem exec_testPulse (t : Nat) (j : Nat) (ch : Nat) (s : State) :
    exec (.testPulse t j ch) s = execTestPulse t j ch s := rfl
theorem exec_testPulseEnd (t : Nat) (j : Nat) (s : State) :
    exec (.testPulseEnd t j) s = execTestPulseEnd t j s := rfl
theorem exec_testReturnTimeout (t : Nat) (j : Nat) (s : State) :
    exec (.testReturnTimeout t j) s = execTestReturnTimeout t j s := rfl
theorem exec_faultEvent (t : Nat) (n : Nat) (fw : Bool) (s : State) :
    exec (.faultEvent t n fw) s = execFaultEvent t n fw s := rfl
theorem exec_fatalEntry (t : Nat) (s : State) :
    exec (.fatalEntry t) s = execFatalEntry t s := rfl
theorem exec_reactionDone (t : Nat) (s : State) :
    exec (.reactionDone t) s = execReactionDone t s := rfl
theorem exec_faultWindowClose (t : Nat) (j : Nat) (s : State) :
    exec (.faultWindowClose t j) s = execFaultWindowClose t j s := rfl
theorem exec_faultHoldEnd (s : State) :
    exec (.faultHoldEnd) s = execFaultHoldEnd s := rfl
theorem exec_mainPor (t : Nat) (vin : Bool) (s : State) :
    exec (.mainPor t vin) s = execMainPor t vin s := rfl
theorem exec_rstNAssert (t : Nat) (long : Bool) (s : State) :
    exec (.rstNAssert t long) s = execRstNAssert t long s := rfl
theorem exec_rstNRelease (t : Nat) (s : State) :
    exec (.rstNRelease t) s = execRstNRelease t s := rfl
theorem exec_rstNLog (t : Nat) (s : State) :
    exec (.rstNLog t) s = execRstNLog t s := rfl
theorem exec_viohLoss (t : Nat) (s : State) :
    exec (.viohLoss t) s = execViohLoss t s := rfl
theorem exec_blockReset (b : Nat) (s : State) :
    exec (.blockReset b) s = execBlockReset b s := rfl
theorem exec_fuseLoadDone (t : Nat) (words : List Nat) (s : State) :
    exec (.fuseLoadDone t words) s = execFuseLoadDone t words s := rfl
theorem exec_domainRelease (t : Nat) (refA : Bool) (refB : Bool) (vioh : Bool) (s : State) :
    exec (.domainRelease t refA refB vioh) s = execDomainRelease t refA refB vioh s := rfl
theorem exec_clockGoodTimeout (t : Nat) (s : State) :
    exec (.clockGoodTimeout t) s = execClockGoodTimeout t s := rfl
theorem exec_interpreterStart (t : Nat) (s : State) :
    exec (.interpreterStart t) s = execInterpreterStart t s := rfl
theorem exec_supplyWarning (t : Nat) (s : State) :
    exec (.supplyWarning t) s = execSupplyWarning t s := rfl
theorem exec_supplyRestored (t : Nat) (s : State) :
    exec (.supplyRestored t) s = execSupplyRestored t s := rfl
theorem exec_keeperPor (t : Nat) (s : State) :
    exec (.keeperPor t) s = execKeeperPor t s := rfl
theorem exec_loadCut (t : Nat) (s : State) :
    exec (.loadCut t) s = execLoadCut t s := rfl
theorem exec_cellDisconnect (t : Nat) (s : State) :
    exec (.cellDisconnect t) s = execCellDisconnect t s := rfl
theorem exec_cellReconnect (t : Nat) (s : State) :
    exec (.cellReconnect t) s = execCellReconnect t s := rfl
theorem exec_chargeEnd (t : Nat) (s : State) :
    exec (.chargeEnd t) s = execChargeEnd t s := rfl
theorem exec_chargeRestart (t : Nat) (s : State) :
    exec (.chargeRestart t) s = execChargeRestart t s := rfl
theorem exec_chargeTimeout (t : Nat) (s : State) :
    exec (.chargeTimeout t) s = execChargeTimeout t s := rfl
theorem exec_mppsetSample (t : Nat) (ohms : Nat) (vteg : Nat) (s : State) :
    exec (.mppsetSample t ohms vteg) s = execMppsetSample t ohms vteg s := rfl
theorem exec_nvJudge (t : Nat) (vst : Nat) (s : State) :
    exec (.nvJudge t vst) s = execNvJudge t vst s := rfl
theorem exec_nvBurstDone (t : Nat) (vst : Nat) (s : State) :
    exec (.nvBurstDone t vst) s = execNvBurstDone t vst s := rfl
theorem exec_nvBurstAbort (t : Nat) (vst : Nat) (s : State) :
    exec (.nvBurstAbort t vst) s = execNvBurstAbort t vst s := rfl
theorem exec_kprSleep (t : Nat) (vst : Nat) (s : State) :
    exec (.kprSleep t vst) s = execKprSleep t vst s := rfl
theorem exec_rtcAlarm (t : Nat) (s : State) :
    exec (.rtcAlarm t) s = execRtcAlarm t s := rfl
theorem exec_istPassStart (t : Nat) (k : Nat) (done : Bool) (ok : Bool) (errs : List (Nat × Nat × Bool)) (s : State) :
    exec (.istPassStart t k done ok errs) s = execIstPassStart t k done ok errs s := rfl
theorem exec_istPassLate (t : Nat) (k : Nat) (s : State) :
    exec (.istPassLate t k) s = execIstPassLate t k s := rfl
theorem exec_laneWindowEnd (t : Nat) (s : State) :
    exec (.laneWindowEnd t) s = execLaneWindowEnd t s := rfl
theorem exec_tapBypass (t : Nat) (code : Nat) (s : State) :
    exec (.tapBypass t code) s = execTapBypass t code s := rfl
theorem exec_tapIdcode (t : Nat) (s : State) :
    exec (.tapIdcode t) s = execTapIdcode t s := rfl
theorem exec_tapSamplePreload (t : Nat) (pins : List Bool) (load : List Bool) (s : State) :
    exec (.tapSamplePreload t pins load) s = execTapSamplePreload t pins load s := rfl
theorem exec_tapExtest (t : Nat) (s : State) :
    exec (.tapExtest t) s = execTapExtest t s := rfl
theorem exec_tapPtest (t : Nat) (s : State) :
    exec (.tapPtest t) s = execTapPtest t s := rfl
theorem exec_mainPorRelease (t : Nat) (s : State) :
    exec (.mainPorRelease t) s = execMainPorRelease t s := rfl
theorem exec_powerGood (t : Nat) (s : State) :
    exec (.powerGood t) s = execPowerGood t s := rfl
theorem exec_crystalOscillatorStart (t : Nat) (s : State) :
    exec (.crystalOscillatorStart t) s = execCrystalOscillatorStart t s := rfl
theorem exec_preChargeEnd (t : Nat) (s : State) :
    exec (.preChargeEnd t) s = execPreChargeEnd t s := rfl
theorem exec_harvesterColdStart (t : Nat) (s : State) :
    exec (.harvesterColdStart t) s = execHarvesterColdStart t s := rfl
theorem exec_testLogicReset (t : Nat) (s : State) :
    exec (.testLogicReset t) s = execTestLogicReset t s := rfl

end Sys2Proof.Laws
end

