-- ==== Sys2Proof/Laws/Table.lean ====
section
/-! SUPPORT. Laws of tables: what a read gives after a write, and that every write keeps the canonical form. -/

namespace Sys2Proof.Laws

open Sys2Proof.Machine

variable {κ α : Type}

theorem tabGet_drop_self [DecidableEq κ] (d : α) (m : Tab κ α) (k : κ) : tabGet d (tabDrop k m) k = d := by
  induction m with
  | nil => rfl
  | cons a m ih =>
    obtain ⟨j, v⟩ := a
    by_cases h : j = k <;> simp [tabDrop, tabGet, h, ih]

theorem tabGet_drop_other [DecidableEq κ] (d : α) (m : Tab κ α) (k j : κ) (h : j ≠ k) : tabGet d (tabDrop k m) j = tabGet d m j := by
  induction m with
  | nil => rfl
  | cons a m ih =>
    obtain ⟨i, v⟩ := a
    by_cases hi : i = k
    · subst hi; simp [tabDrop, tabGet, ih, h.symm]
    · by_cases hj : i = j
      · subst hj; simp [tabDrop, tabGet, hi]
      · simp [tabDrop, tabGet, hi, hj, ih]

theorem tabGet_put_self [DecidableEq κ] (code : κ → Nat) (d : α) (m : Tab κ α) (k : κ) (v : α) (h : ∀ e ∈ m, e.1 ≠ k) :
    tabGet d (tabPut code k v m) k = v := by
  induction m with
  | nil => simp [tabPut, tabGet]
  | cons a m ih =>
    obtain ⟨j, w⟩ := a
    have hj : j ≠ k := h (j, w) (by simp)
    have hm : ∀ e ∈ m, e.1 ≠ k := fun e he => h e (by simp [he])
    by_cases hc : code k < code j <;> simp [tabPut, tabGet, hc, hj, ih hm]

theorem tabGet_put_other [DecidableEq κ] (code : κ → Nat) (d : α) (m : Tab κ α) (k j : κ) (v : α) (h : j ≠ k) :
    tabGet d (tabPut code k v m) j = tabGet d m j := by
  induction m with
  | nil => simp [tabPut, tabGet, h.symm]
  | cons a m ih =>
    obtain ⟨i, w⟩ := a
    by_cases hc : code k < code i
    · simp [tabPut, tabGet, hc, h.symm]
    · by_cases hi : i = j
      · subst hi; simp [tabPut, tabGet, hc]
      · simp [tabPut, tabGet, hc, hi, ih]

theorem not_mem_tabDrop [DecidableEq κ] (m : Tab κ α) (k : κ) : ∀ e ∈ tabDrop k m, e.1 ≠ k := by
  induction m with
  | nil => simp [tabDrop]
  | cons a m ih =>
    obtain ⟨j, v⟩ := a
    by_cases h : j = k
    · simpa [tabDrop, h] using ih
    · intro e he
      simp only [tabDrop, h, ite_false, List.mem_cons] at he
      rcases he with rfl | he
      · exact h
      · exact ih e he

/-- A read at the key written gives the value written. -/
theorem tabGet_set_self [DecidableEq κ] [DecidableEq α] (code : κ → Nat) (d : α) (m : Tab κ α) (k : κ) (v : α) : tabGet d (tabSet code d m k v) k = v := by
  unfold tabSet
  split
  · rename_i h; rw [tabGet_drop_self, h]
  · exact tabGet_put_self code d _ k v (not_mem_tabDrop m k)

/-- A read at another key gives what it gave before. -/
theorem tabGet_set_other [DecidableEq κ] [DecidableEq α] (code : κ → Nat) (d e : α) (m : Tab κ α) (k j : κ) (v : α) (h : j ≠ k) :
    tabGet d (tabSet code e m k v) j = tabGet d m j := by
  unfold tabSet
  split
  · exact tabGet_drop_other d m k j h
  · rw [tabGet_put_other code d _ k j v h, tabGet_drop_other d m k j h]

theorem nget_nset_self [DecidableEq α] (d : α) (m : NTab α) (k : Nat) (v : α) : nget d (nset d m k v) k = v := tabGet_set_self id d m k v

theorem nget_nset_other [DecidableEq α] (d e : α) (m : NTab α) (k j : Nat) (v : α) (h : j ≠ k) : nget d (nset e m k v) j = nget d m j :=
  tabGet_set_other id d e m k j v h

/-! The canonical form -/

/-- The canonical form of a table, as the order of any two entries. -/
theorem tabRising_iff (code : κ → Nat) (m : Tab κ α) :
    tabRising code m = true ↔ m.Pairwise (fun a b => code a.1 < code b.1) := by
  induction m with
  | nil => simp [tabRising]
  | cons a m ih =>
    cases m with
    | nil => simp [tabRising]
    | cons b m =>
      simp only [tabRising, Bool.and_eq_true, decide_eq_true_eq, ih]
      constructor
      · rintro ⟨h, hp⟩
        refine List.Pairwise.cons ?_ hp
        intro x hx
        rcases List.mem_cons.1 hx with rfl | hx
        · exact h
        · exact Nat.lt_trans h ((List.pairwise_cons.1 hp).1 x hx)
      · intro hp
        exact ⟨(List.pairwise_cons.1 hp).1 b (by simp), (List.pairwise_cons.1 hp).2⟩

theorem tabDrop_eq_filter [DecidableEq κ] (m : Tab κ α) (k : κ) : tabDrop k m = m.filter (fun e => decide (e.1 ≠ k)) := by
  induction m with
  | nil => rfl
  | cons a m ih =>
    obtain ⟨j, v⟩ := a
    by_cases h : j = k <;> simp [tabDrop, h, ih]

theorem tabDrop_rising [DecidableEq κ] (code : κ → Nat) (m : Tab κ α) (k : κ) (h : tabRising code m = true) :
    tabRising code (tabDrop k m) = true := by
  rw [tabRising_iff] at h ⊢
  rw [tabDrop_eq_filter]
  exact h.filter _

theorem mem_tabPut (code : κ → Nat) (m : Tab κ α) (k : κ) (v : α) (e : κ × α) :
    e ∈ tabPut code k v m ↔ e = (k, v) ∨ e ∈ m := by
  induction m with
  | nil => simp [tabPut]
  | cons a m ih =>
    obtain ⟨j, w⟩ := a
    by_cases h : code k < code j
    · simp [tabPut, h]
    · simp only [tabPut, h, ite_false, List.mem_cons, ih]
      tauto

theorem tabPut_rising (code : κ → Nat) (inj : Function.Injective code) (m : Tab κ α) (k : κ) (v : α)
    (h : tabRising code m = true) (hk : ∀ e ∈ m, e.1 ≠ k) : tabRising code (tabPut code k v m) = true := by
  rw [tabRising_iff] at h ⊢
  induction m with
  | nil => simp [tabPut]
  | cons a m ih =>
    obtain ⟨j, w⟩ := a
    rw [List.pairwise_cons] at h
    by_cases hc : code k < code j
    · simp only [tabPut, hc, ite_true]
      refine List.Pairwise.cons ?_ (List.pairwise_cons.2 h)
      intro x hx
      rcases List.mem_cons.1 hx with rfl | hx
      · exact hc
      · exact Nat.lt_trans hc (h.1 x hx)
    · simp only [tabPut, hc, ite_false]
      have hj : code j < code k := by
        have : code j ≠ code k := fun e => hk (j, w) (by simp) (inj e)
        omega
      refine List.Pairwise.cons ?_ (ih h.2 (fun e he => hk e (by simp [he])))
      intro x hx
      rcases (mem_tabPut code m k v x).1 hx with rfl | hx
      · exact hj
      · exact h.1 x hx

/-- A write keeps the keys rising. -/
theorem tabSet_rising [DecidableEq κ] [DecidableEq α] (code : κ → Nat) (inj : Function.Injective code) (d : α) (m : Tab κ α) (k : κ) (v : α)
    (h : tabRising code m = true) : tabRising code (tabSet code d m k v) = true := by
  unfold tabSet
  split
  · exact tabDrop_rising code m k h
  · exact tabPut_rising code inj _ k v (tabDrop_rising code m k h) (not_mem_tabDrop m k)

/-- A write lists no entry equal to what an unlisted key reads as. -/
theorem tabSet_listed [DecidableEq κ] [DecidableEq α] (code : κ → Nat) (d : α) (m : Tab κ α) (k : κ) (v : α) (h : ∀ e ∈ m, e.2 ≠ d) :
    ∀ e ∈ tabSet code d m k v, e.2 ≠ d := by
  have hd : ∀ e ∈ tabDrop k m, e.2 ≠ d := fun e he => by
    rw [tabDrop_eq_filter] at he
    exact h e (List.mem_of_mem_filter he)
  unfold tabSet
  split
  · exact hd
  · intro e he
    rcases (mem_tabPut code _ k v e).1 he with rfl | he
    · assumption
    · exact hd e he

end Sys2Proof.Laws
end

