-- ==== Sys2Proof/Laws/Memory.lean ====
section
/-! SUPPORT. Laws of the SRAM: read after write, and that every write keeps the canonical form. -/

namespace Sys2Proof.Laws

open Sys2Proof.Machine

theorem readByte_writeByte_self (m : Memory) (a : Nat) (b : Byte) : (m.writeByte a b).readByte a = b :=
  nget_nset_self _ m a b

theorem readByte_writeByte_other (m : Memory) (a x : Nat) (b : Byte) (h : x ≠ a) :
    (m.writeByte a b).readByte x = m.readByte x := nget_nset_other _ _ m a x b h

theorem wf_iff (m : Memory) : m.wf = true ↔ tabRising id m = true ∧ ∀ e ∈ m, e.2 ≠ Memory.unlisted := by
  simp [Memory.wf]

/-- A byte written keeps the canonical form. -/
theorem writeByte_wf (m : Memory) (a : Nat) (b : Byte) (h : m.wf = true) : (m.writeByte a b).wf = true := by
  rw [wf_iff] at h ⊢
  exact ⟨tabSet_rising id Function.injective_id _ m a b h.1, tabSet_listed id _ m a b h.2⟩

/-- A word written keeps the canonical form. -/
theorem writeWord_wf (m : Memory) (a : Nat) (w : Word) (h : m.wf = true) : (m.writeWord a w).wf = true := by
  unfold Memory.writeWord
  exact writeByte_wf _ _ _ (writeByte_wf _ _ _ (writeByte_wf _ _ _ (writeByte_wf _ _ _ h)))

/-- Words written in order keep the canonical form. -/
theorem writeWords_wf (l : List (Nat × Word)) (m : Memory) (h : m.wf = true) :
    (l.foldl (fun m aw => Memory.writeWord m aw.1 aw.2) m).wf = true := by
  induction l generalizing m with
  | nil => exact h
  | cons a l ih => exact ih _ (writeWord_wf m a.1 a.2 h)

/-- A word written is read back. -/
theorem readWord_writeWord_self (m : Memory) (a : Nat) (w : Word) : (m.writeWord a w).readWord a = w := by
  unfold Memory.readWord Memory.writeWord
  repeat' first
    | rw [readByte_writeByte_self]
    | rw [readByte_writeByte_other _ _ _ _ (by omega)]
  apply BitVec.eq_of_toNat_eq
  simp only [toWord, BitVec.toNat_ofNat]
  have := w.isLt
  omega

/-- A byte outside the four written reads as before. -/
theorem readByte_writeWord_other (m : Memory) (a x : Nat) (w : Word) (h : x < a ∨ a + 4 ≤ x) :
    (m.writeWord a w).readByte x = m.readByte x := by
  unfold Memory.writeWord
  repeat rw [readByte_writeByte_other _ _ _ _ (by omega)]

end Sys2Proof.Laws
end

