-- ==== Sys2Proof/Laws/State.lean ====
section
/-! SUPPORT. What each update of the state leaves alone: one lemma per field of the state and of the chip, for each named
update. -/

namespace Sys2Proof.Laws

open Sys2Proof.Machine

/-! c.set f n v -/

@[simp] theorem set_now (c : Chip) (f : Fld) (n v : Nat) : (c.set f n v).now = c.now := rfl
@[simp] theorem set_free (c : Chip) (f : Fld) (n v : Nat) : (c.set f n v).free = c.free := rfl
@[simp] theorem set_fresh (c : Chip) (f : Fld) (n v : Nat) : (c.set f n v).fresh = c.fresh := rfl
@[simp] theorem set_hpp (c : Chip) (f : Fld) (n v : Nat) : (c.set f n v).hpp = c.hpp := rfl
@[simp] theorem set_dev (c : Chip) (f : Fld) (n v : Nat) : (c.set f n v).dev = c.dev := rfl
@[simp] theorem set_flt (c : Chip) (f : Fld) (n v : Nat) : (c.set f n v).flt = c.flt := rfl
@[simp] theorem set_rst (c : Chip) (f : Fld) (n v : Nat) : (c.set f n v).rst = c.rst := rfl
@[simp] theorem set_tim (c : Chip) (f : Fld) (n v : Nat) : (c.set f n v).tim = c.tim := rfl
@[simp] theorem set_pgm (c : Chip) (f : Fld) (n v : Nat) : (c.set f n v).pgm = c.pgm := rfl
@[simp] theorem set_adc (c : Chip) (f : Fld) (n v : Nat) : (c.set f n v).adc = c.adc := rfl
@[simp] theorem set_lnk (c : Chip) (f : Fld) (n v : Nat) : (c.set f n v).lnk = c.lnk := rfl
@[simp] theorem set_arm (c : Chip) (f : Fld) (n v : Nat) : (c.set f n v).arm = c.arm := rfl
@[simp] theorem set_mod (c : Chip) (f : Fld) (n v : Nat) : (c.set f n v).mod = c.mod := rfl
@[simp] theorem set_dhb (c : Chip) (f : Fld) (n v : Nat) : (c.set f n v).dhb = c.dhb := rfl
@[simp] theorem set_mon (c : Chip) (f : Fld) (n v : Nat) : (c.set f n v).mon = c.mon := rfl
@[simp] theorem set_ctl (c : Chip) (f : Fld) (n v : Nat) : (c.set f n v).ctl = c.ctl := rfl
@[simp] theorem set_grd (c : Chip) (f : Fld) (n v : Nat) : (c.set f n v).grd = c.grd := rfl
@[simp] theorem set_pmu (c : Chip) (f : Fld) (n v : Nat) : (c.set f n v).pmu = c.pmu := rfl
@[simp] theorem set_mtr (c : Chip) (f : Fld) (n v : Nat) : (c.set f n v).mtr = c.mtr := rfl
@[simp] theorem set_net (c : Chip) (f : Fld) (n v : Nat) : (c.set f n v).net = c.net := rfl
@[simp] theorem set_sio (c : Chip) (f : Fld) (n v : Nat) : (c.set f n v).sio = c.sio := rfl
@[simp] theorem set_kpr (c : Chip) (f : Fld) (n v : Nat) : (c.set f n v).kpr = c.kpr := rfl
@[simp] theorem set_ist (c : Chip) (f : Fld) (n v : Nat) : (c.set f n v).ist = c.ist := rfl
@[simp] theorem set_tap (c : Chip) (f : Fld) (n v : Nat) : (c.set f n v).tap = c.tap := rfl

/-! c.setB f n b -/

@[simp] theorem setB_now (c : Chip) (f : Fld) (n : Nat) (b : Bool) : (c.setB f n b).now = c.now := rfl
@[simp] theorem setB_free (c : Chip) (f : Fld) (n : Nat) (b : Bool) : (c.setB f n b).free = c.free := rfl
@[simp] theorem setB_fresh (c : Chip) (f : Fld) (n : Nat) (b : Bool) : (c.setB f n b).fresh = c.fresh := rfl
@[simp] theorem setB_hpp (c : Chip) (f : Fld) (n : Nat) (b : Bool) : (c.setB f n b).hpp = c.hpp := rfl
@[simp] theorem setB_dev (c : Chip) (f : Fld) (n : Nat) (b : Bool) : (c.setB f n b).dev = c.dev := rfl
@[simp] theorem setB_flt (c : Chip) (f : Fld) (n : Nat) (b : Bool) : (c.setB f n b).flt = c.flt := rfl
@[simp] theorem setB_rst (c : Chip) (f : Fld) (n : Nat) (b : Bool) : (c.setB f n b).rst = c.rst := rfl
@[simp] theorem setB_tim (c : Chip) (f : Fld) (n : Nat) (b : Bool) : (c.setB f n b).tim = c.tim := rfl
@[simp] theorem setB_pgm (c : Chip) (f : Fld) (n : Nat) (b : Bool) : (c.setB f n b).pgm = c.pgm := rfl
@[simp] theorem setB_adc (c : Chip) (f : Fld) (n : Nat) (b : Bool) : (c.setB f n b).adc = c.adc := rfl
@[simp] theorem setB_lnk (c : Chip) (f : Fld) (n : Nat) (b : Bool) : (c.setB f n b).lnk = c.lnk := rfl
@[simp] theorem setB_arm (c : Chip) (f : Fld) (n : Nat) (b : Bool) : (c.setB f n b).arm = c.arm := rfl
@[simp] theorem setB_mod (c : Chip) (f : Fld) (n : Nat) (b : Bool) : (c.setB f n b).mod = c.mod := rfl
@[simp] theorem setB_dhb (c : Chip) (f : Fld) (n : Nat) (b : Bool) : (c.setB f n b).dhb = c.dhb := rfl
@[simp] theorem setB_mon (c : Chip) (f : Fld) (n : Nat) (b : Bool) : (c.setB f n b).mon = c.mon := rfl
@[simp] theorem setB_ctl (c : Chip) (f : Fld) (n : Nat) (b : Bool) : (c.setB f n b).ctl = c.ctl := rfl
@[simp] theorem setB_grd (c : Chip) (f : Fld) (n : Nat) (b : Bool) : (c.setB f n b).grd = c.grd := rfl
@[simp] theorem setB_pmu (c : Chip) (f : Fld) (n : Nat) (b : Bool) : (c.setB f n b).pmu = c.pmu := rfl
@[simp] theorem setB_mtr (c : Chip) (f : Fld) (n : Nat) (b : Bool) : (c.setB f n b).mtr = c.mtr := rfl
@[simp] theorem setB_net (c : Chip) (f : Fld) (n : Nat) (b : Bool) : (c.setB f n b).net = c.net := rfl
@[simp] theorem setB_sio (c : Chip) (f : Fld) (n : Nat) (b : Bool) : (c.setB f n b).sio = c.sio := rfl
@[simp] theorem setB_kpr (c : Chip) (f : Fld) (n : Nat) (b : Bool) : (c.setB f n b).kpr = c.kpr := rfl
@[simp] theorem setB_ist (c : Chip) (f : Fld) (n : Nat) (b : Bool) : (c.setB f n b).ist = c.ist := rfl
@[simp] theorem setB_tap (c : Chip) (f : Fld) (n : Nat) (b : Bool) : (c.setB f n b).tap = c.tap := rfl

/-! c.setBit f n i b -/

@[simp] theorem setBit_now (c : Chip) (f : Fld) (n i : Nat) (b : Bool) : (c.setBit f n i b).now = c.now := rfl
@[simp] theorem setBit_free (c : Chip) (f : Fld) (n i : Nat) (b : Bool) : (c.setBit f n i b).free = c.free := rfl
@[simp] theorem setBit_fresh (c : Chip) (f : Fld) (n i : Nat) (b : Bool) : (c.setBit f n i b).fresh = c.fresh := rfl
@[simp] theorem setBit_hpp (c : Chip) (f : Fld) (n i : Nat) (b : Bool) : (c.setBit f n i b).hpp = c.hpp := rfl
@[simp] theorem setBit_dev (c : Chip) (f : Fld) (n i : Nat) (b : Bool) : (c.setBit f n i b).dev = c.dev := rfl
@[simp] theorem setBit_flt (c : Chip) (f : Fld) (n i : Nat) (b : Bool) : (c.setBit f n i b).flt = c.flt := rfl
@[simp] theorem setBit_rst (c : Chip) (f : Fld) (n i : Nat) (b : Bool) : (c.setBit f n i b).rst = c.rst := rfl
@[simp] theorem setBit_tim (c : Chip) (f : Fld) (n i : Nat) (b : Bool) : (c.setBit f n i b).tim = c.tim := rfl
@[simp] theorem setBit_pgm (c : Chip) (f : Fld) (n i : Nat) (b : Bool) : (c.setBit f n i b).pgm = c.pgm := rfl
@[simp] theorem setBit_adc (c : Chip) (f : Fld) (n i : Nat) (b : Bool) : (c.setBit f n i b).adc = c.adc := rfl
@[simp] theorem setBit_lnk (c : Chip) (f : Fld) (n i : Nat) (b : Bool) : (c.setBit f n i b).lnk = c.lnk := rfl
@[simp] theorem setBit_arm (c : Chip) (f : Fld) (n i : Nat) (b : Bool) : (c.setBit f n i b).arm = c.arm := rfl
@[simp] theorem setBit_mod (c : Chip) (f : Fld) (n i : Nat) (b : Bool) : (c.setBit f n i b).mod = c.mod := rfl
@[simp] theorem setBit_dhb (c : Chip) (f : Fld) (n i : Nat) (b : Bool) : (c.setBit f n i b).dhb = c.dhb := rfl
@[simp] theorem setBit_mon (c : Chip) (f : Fld) (n i : Nat) (b : Bool) : (c.setBit f n i b).mon = c.mon := rfl
@[simp] theorem setBit_ctl (c : Chip) (f : Fld) (n i : Nat) (b : Bool) : (c.setBit f n i b).ctl = c.ctl := rfl
@[simp] theorem setBit_grd (c : Chip) (f : Fld) (n i : Nat) (b : Bool) : (c.setBit f n i b).grd = c.grd := rfl
@[simp] theorem setBit_pmu (c : Chip) (f : Fld) (n i : Nat) (b : Bool) : (c.setBit f n i b).pmu = c.pmu := rfl
@[simp] theorem setBit_mtr (c : Chip) (f : Fld) (n i : Nat) (b : Bool) : (c.setBit f n i b).mtr = c.mtr := rfl
@[simp] theorem setBit_net (c : Chip) (f : Fld) (n i : Nat) (b : Bool) : (c.setBit f n i b).net = c.net := rfl
@[simp] theorem setBit_sio (c : Chip) (f : Fld) (n i : Nat) (b : Bool) : (c.setBit f n i b).sio = c.sio := rfl
@[simp] theorem setBit_kpr (c : Chip) (f : Fld) (n i : Nat) (b : Bool) : (c.setBit f n i b).kpr = c.kpr := rfl
@[simp] theorem setBit_ist (c : Chip) (f : Fld) (n i : Nat) (b : Bool) : (c.setBit f n i b).ist = c.ist := rfl
@[simp] theorem setBit_tap (c : Chip) (f : Fld) (n i : Nat) (b : Bool) : (c.setBit f n i b).tap = c.tap := rfl

/-! c.inc f n -/

@[simp] theorem inc_now (c : Chip) (f : Fld) (n : Nat) : (c.inc f n).now = c.now := rfl
@[simp] theorem inc_free (c : Chip) (f : Fld) (n : Nat) : (c.inc f n).free = c.free := rfl
@[simp] theorem inc_fresh (c : Chip) (f : Fld) (n : Nat) : (c.inc f n).fresh = c.fresh := rfl
@[simp] theorem inc_hpp (c : Chip) (f : Fld) (n : Nat) : (c.inc f n).hpp = c.hpp := rfl
@[simp] theorem inc_dev (c : Chip) (f : Fld) (n : Nat) : (c.inc f n).dev = c.dev := rfl
@[simp] theorem inc_flt (c : Chip) (f : Fld) (n : Nat) : (c.inc f n).flt = c.flt := rfl
@[simp] theorem inc_rst (c : Chip) (f : Fld) (n : Nat) : (c.inc f n).rst = c.rst := rfl
@[simp] theorem inc_tim (c : Chip) (f : Fld) (n : Nat) : (c.inc f n).tim = c.tim := rfl
@[simp] theorem inc_pgm (c : Chip) (f : Fld) (n : Nat) : (c.inc f n).pgm = c.pgm := rfl
@[simp] theorem inc_adc (c : Chip) (f : Fld) (n : Nat) : (c.inc f n).adc = c.adc := rfl
@[simp] theorem inc_lnk (c : Chip) (f : Fld) (n : Nat) : (c.inc f n).lnk = c.lnk := rfl
@[simp] theorem inc_arm (c : Chip) (f : Fld) (n : Nat) : (c.inc f n).arm = c.arm := rfl
@[simp] theorem inc_mod (c : Chip) (f : Fld) (n : Nat) : (c.inc f n).mod = c.mod := rfl
@[simp] theorem inc_dhb (c : Chip) (f : Fld) (n : Nat) : (c.inc f n).dhb = c.dhb := rfl
@[simp] theorem inc_mon (c : Chip) (f : Fld) (n : Nat) : (c.inc f n).mon = c.mon := rfl
@[simp] theorem inc_ctl (c : Chip) (f : Fld) (n : Nat) : (c.inc f n).ctl = c.ctl := rfl
@[simp] theorem inc_grd (c : Chip) (f : Fld) (n : Nat) : (c.inc f n).grd = c.grd := rfl
@[simp] theorem inc_pmu (c : Chip) (f : Fld) (n : Nat) : (c.inc f n).pmu = c.pmu := rfl
@[simp] theorem inc_mtr (c : Chip) (f : Fld) (n : Nat) : (c.inc f n).mtr = c.mtr := rfl
@[simp] theorem inc_net (c : Chip) (f : Fld) (n : Nat) : (c.inc f n).net = c.net := rfl
@[simp] theorem inc_sio (c : Chip) (f : Fld) (n : Nat) : (c.inc f n).sio = c.sio := rfl
@[simp] theorem inc_kpr (c : Chip) (f : Fld) (n : Nat) : (c.inc f n).kpr = c.kpr := rfl
@[simp] theorem inc_ist (c : Chip) (f : Fld) (n : Nat) : (c.inc f n).ist = c.ist := rfl
@[simp] theorem inc_tap (c : Chip) (f : Fld) (n : Nat) : (c.inc f n).tap = c.tap := rfl

/-! c.incBy f n k -/

@[simp] theorem incBy_now (c : Chip) (f : Fld) (n k : Nat) : (c.incBy f n k).now = c.now := rfl
@[simp] theorem incBy_free (c : Chip) (f : Fld) (n k : Nat) : (c.incBy f n k).free = c.free := rfl
@[simp] theorem incBy_fresh (c : Chip) (f : Fld) (n k : Nat) : (c.incBy f n k).fresh = c.fresh := rfl
@[simp] theorem incBy_hpp (c : Chip) (f : Fld) (n k : Nat) : (c.incBy f n k).hpp = c.hpp := rfl
@[simp] theorem incBy_dev (c : Chip) (f : Fld) (n k : Nat) : (c.incBy f n k).dev = c.dev := rfl
@[simp] theorem incBy_flt (c : Chip) (f : Fld) (n k : Nat) : (c.incBy f n k).flt = c.flt := rfl
@[simp] theorem incBy_rst (c : Chip) (f : Fld) (n k : Nat) : (c.incBy f n k).rst = c.rst := rfl
@[simp] theorem incBy_tim (c : Chip) (f : Fld) (n k : Nat) : (c.incBy f n k).tim = c.tim := rfl
@[simp] theorem incBy_pgm (c : Chip) (f : Fld) (n k : Nat) : (c.incBy f n k).pgm = c.pgm := rfl
@[simp] theorem incBy_adc (c : Chip) (f : Fld) (n k : Nat) : (c.incBy f n k).adc = c.adc := rfl
@[simp] theorem incBy_lnk (c : Chip) (f : Fld) (n k : Nat) : (c.incBy f n k).lnk = c.lnk := rfl
@[simp] theorem incBy_arm (c : Chip) (f : Fld) (n k : Nat) : (c.incBy f n k).arm = c.arm := rfl
@[simp] theorem incBy_mod (c : Chip) (f : Fld) (n k : Nat) : (c.incBy f n k).mod = c.mod := rfl
@[simp] theorem incBy_dhb (c : Chip) (f : Fld) (n k : Nat) : (c.incBy f n k).dhb = c.dhb := rfl
@[simp] theorem incBy_mon (c : Chip) (f : Fld) (n k : Nat) : (c.incBy f n k).mon = c.mon := rfl
@[simp] theorem incBy_ctl (c : Chip) (f : Fld) (n k : Nat) : (c.incBy f n k).ctl = c.ctl := rfl
@[simp] theorem incBy_grd (c : Chip) (f : Fld) (n k : Nat) : (c.incBy f n k).grd = c.grd := rfl
@[simp] theorem incBy_pmu (c : Chip) (f : Fld) (n k : Nat) : (c.incBy f n k).pmu = c.pmu := rfl
@[simp] theorem incBy_mtr (c : Chip) (f : Fld) (n k : Nat) : (c.incBy f n k).mtr = c.mtr := rfl
@[simp] theorem incBy_net (c : Chip) (f : Fld) (n k : Nat) : (c.incBy f n k).net = c.net := rfl
@[simp] theorem incBy_sio (c : Chip) (f : Fld) (n k : Nat) : (c.incBy f n k).sio = c.sio := rfl
@[simp] theorem incBy_kpr (c : Chip) (f : Fld) (n k : Nat) : (c.incBy f n k).kpr = c.kpr := rfl
@[simp] theorem incBy_ist (c : Chip) (f : Fld) (n k : Nat) : (c.incBy f n k).ist = c.ist := rfl
@[simp] theorem incBy_tap (c : Chip) (f : Fld) (n k : Nat) : (c.incBy f n k).tap = c.tap := rfl

/-! c.incMod f n -/

@[simp] theorem incMod_now (c : Chip) (f : Fld) (n : Nat) : (c.incMod f n).now = c.now := rfl
@[simp] theorem incMod_free (c : Chip) (f : Fld) (n : Nat) : (c.incMod f n).free = c.free := rfl
@[simp] theorem incMod_fresh (c : Chip) (f : Fld) (n : Nat) : (c.incMod f n).fresh = c.fresh := rfl
@[simp] theorem incMod_hpp (c : Chip) (f : Fld) (n : Nat) : (c.incMod f n).hpp = c.hpp := rfl
@[simp] theorem incMod_dev (c : Chip) (f : Fld) (n : Nat) : (c.incMod f n).dev = c.dev := rfl
@[simp] theorem incMod_flt (c : Chip) (f : Fld) (n : Nat) : (c.incMod f n).flt = c.flt := rfl
@[simp] theorem incMod_rst (c : Chip) (f : Fld) (n : Nat) : (c.incMod f n).rst = c.rst := rfl
@[simp] theorem incMod_tim (c : Chip) (f : Fld) (n : Nat) : (c.incMod f n).tim = c.tim := rfl
@[simp] theorem incMod_pgm (c : Chip) (f : Fld) (n : Nat) : (c.incMod f n).pgm = c.pgm := rfl
@[simp] theorem incMod_adc (c : Chip) (f : Fld) (n : Nat) : (c.incMod f n).adc = c.adc := rfl
@[simp] theorem incMod_lnk (c : Chip) (f : Fld) (n : Nat) : (c.incMod f n).lnk = c.lnk := rfl
@[simp] theorem incMod_arm (c : Chip) (f : Fld) (n : Nat) : (c.incMod f n).arm = c.arm := rfl
@[simp] theorem incMod_mod (c : Chip) (f : Fld) (n : Nat) : (c.incMod f n).mod = c.mod := rfl
@[simp] theorem incMod_dhb (c : Chip) (f : Fld) (n : Nat) : (c.incMod f n).dhb = c.dhb := rfl
@[simp] theorem incMod_mon (c : Chip) (f : Fld) (n : Nat) : (c.incMod f n).mon = c.mon := rfl
@[simp] theorem incMod_ctl (c : Chip) (f : Fld) (n : Nat) : (c.incMod f n).ctl = c.ctl := rfl
@[simp] theorem incMod_grd (c : Chip) (f : Fld) (n : Nat) : (c.incMod f n).grd = c.grd := rfl
@[simp] theorem incMod_pmu (c : Chip) (f : Fld) (n : Nat) : (c.incMod f n).pmu = c.pmu := rfl
@[simp] theorem incMod_mtr (c : Chip) (f : Fld) (n : Nat) : (c.incMod f n).mtr = c.mtr := rfl
@[simp] theorem incMod_net (c : Chip) (f : Fld) (n : Nat) : (c.incMod f n).net = c.net := rfl
@[simp] theorem incMod_sio (c : Chip) (f : Fld) (n : Nat) : (c.incMod f n).sio = c.sio := rfl
@[simp] theorem incMod_kpr (c : Chip) (f : Fld) (n : Nat) : (c.incMod f n).kpr = c.kpr := rfl
@[simp] theorem incMod_ist (c : Chip) (f : Fld) (n : Nat) : (c.incMod f n).ist = c.ist := rfl
@[simp] theorem incMod_tap (c : Chip) (f : Fld) (n : Nat) : (c.incMod f n).tap = c.tap := rfl

/-! c.flag f n -/

@[simp] theorem flag_now (c : Chip) (f : Fld) (n : Nat) : (c.flag f n).now = c.now := rfl
@[simp] theorem flag_free (c : Chip) (f : Fld) (n : Nat) : (c.flag f n).free = c.free := rfl
@[simp] theorem flag_hpp (c : Chip) (f : Fld) (n : Nat) : (c.flag f n).hpp = c.hpp := rfl
@[simp] theorem flag_dev (c : Chip) (f : Fld) (n : Nat) : (c.flag f n).dev = c.dev := rfl
@[simp] theorem flag_flt (c : Chip) (f : Fld) (n : Nat) : (c.flag f n).flt = c.flt := rfl
@[simp] theorem flag_rst (c : Chip) (f : Fld) (n : Nat) : (c.flag f n).rst = c.rst := rfl
@[simp] theorem flag_tim (c : Chip) (f : Fld) (n : Nat) : (c.flag f n).tim = c.tim := rfl
@[simp] theorem flag_pgm (c : Chip) (f : Fld) (n : Nat) : (c.flag f n).pgm = c.pgm := rfl
@[simp] theorem flag_adc (c : Chip) (f : Fld) (n : Nat) : (c.flag f n).adc = c.adc := rfl
@[simp] theorem flag_lnk (c : Chip) (f : Fld) (n : Nat) : (c.flag f n).lnk = c.lnk := rfl
@[simp] theorem flag_arm (c : Chip) (f : Fld) (n : Nat) : (c.flag f n).arm = c.arm := rfl
@[simp] theorem flag_mod (c : Chip) (f : Fld) (n : Nat) : (c.flag f n).mod = c.mod := rfl
@[simp] theorem flag_dhb (c : Chip) (f : Fld) (n : Nat) : (c.flag f n).dhb = c.dhb := rfl
@[simp] theorem flag_mon (c : Chip) (f : Fld) (n : Nat) : (c.flag f n).mon = c.mon := rfl
@[simp] theorem flag_ctl (c : Chip) (f : Fld) (n : Nat) : (c.flag f n).ctl = c.ctl := rfl
@[simp] theorem flag_grd (c : Chip) (f : Fld) (n : Nat) : (c.flag f n).grd = c.grd := rfl
@[simp] theorem flag_pmu (c : Chip) (f : Fld) (n : Nat) : (c.flag f n).pmu = c.pmu := rfl
@[simp] theorem flag_mtr (c : Chip) (f : Fld) (n : Nat) : (c.flag f n).mtr = c.mtr := rfl
@[simp] theorem flag_net (c : Chip) (f : Fld) (n : Nat) : (c.flag f n).net = c.net := rfl
@[simp] theorem flag_sio (c : Chip) (f : Fld) (n : Nat) : (c.flag f n).sio = c.sio := rfl
@[simp] theorem flag_kpr (c : Chip) (f : Fld) (n : Nat) : (c.flag f n).kpr = c.kpr := rfl
@[simp] theorem flag_ist (c : Chip) (f : Fld) (n : Nat) : (c.flag f n).ist = c.ist := rfl
@[simp] theorem flag_tap (c : Chip) (f : Fld) (n : Nat) : (c.flag f n).tap = c.tap := rfl

/-! c.noteSet f n m -/

@[simp] theorem noteSet_regs (c : Chip) (f : Fld) (n m : Nat) : (c.noteSet f n m).regs = c.regs := rfl
@[simp] theorem noteSet_now (c : Chip) (f : Fld) (n m : Nat) : (c.noteSet f n m).now = c.now := rfl
@[simp] theorem noteSet_free (c : Chip) (f : Fld) (n m : Nat) : (c.noteSet f n m).free = c.free := rfl
@[simp] theorem noteSet_hpp (c : Chip) (f : Fld) (n m : Nat) : (c.noteSet f n m).hpp = c.hpp := rfl
@[simp] theorem noteSet_dev (c : Chip) (f : Fld) (n m : Nat) : (c.noteSet f n m).dev = c.dev := rfl
@[simp] theorem noteSet_flt (c : Chip) (f : Fld) (n m : Nat) : (c.noteSet f n m).flt = c.flt := rfl
@[simp] theorem noteSet_rst (c : Chip) (f : Fld) (n m : Nat) : (c.noteSet f n m).rst = c.rst := rfl
@[simp] theorem noteSet_tim (c : Chip) (f : Fld) (n m : Nat) : (c.noteSet f n m).tim = c.tim := rfl
@[simp] theorem noteSet_pgm (c : Chip) (f : Fld) (n m : Nat) : (c.noteSet f n m).pgm = c.pgm := rfl
@[simp] theorem noteSet_adc (c : Chip) (f : Fld) (n m : Nat) : (c.noteSet f n m).adc = c.adc := rfl
@[simp] theorem noteSet_lnk (c : Chip) (f : Fld) (n m : Nat) : (c.noteSet f n m).lnk = c.lnk := rfl
@[simp] theorem noteSet_arm (c : Chip) (f : Fld) (n m : Nat) : (c.noteSet f n m).arm = c.arm := rfl
@[simp] theorem noteSet_mod (c : Chip) (f : Fld) (n m : Nat) : (c.noteSet f n m).mod = c.mod := rfl
@[simp] theorem noteSet_dhb (c : Chip) (f : Fld) (n m : Nat) : (c.noteSet f n m).dhb = c.dhb := rfl
@[simp] theorem noteSet_mon (c : Chip) (f : Fld) (n m : Nat) : (c.noteSet f n m).mon = c.mon := rfl
@[simp] theorem noteSet_ctl (c : Chip) (f : Fld) (n m : Nat) : (c.noteSet f n m).ctl = c.ctl := rfl
@[simp] theorem noteSet_grd (c : Chip) (f : Fld) (n m : Nat) : (c.noteSet f n m).grd = c.grd := rfl
@[simp] theorem noteSet_pmu (c : Chip) (f : Fld) (n m : Nat) : (c.noteSet f n m).pmu = c.pmu := rfl
@[simp] theorem noteSet_mtr (c : Chip) (f : Fld) (n m : Nat) : (c.noteSet f n m).mtr = c.mtr := rfl
@[simp] theorem noteSet_net (c : Chip) (f : Fld) (n m : Nat) : (c.noteSet f n m).net = c.net := rfl
@[simp] theorem noteSet_sio (c : Chip) (f : Fld) (n m : Nat) : (c.noteSet f n m).sio = c.sio := rfl
@[simp] theorem noteSet_kpr (c : Chip) (f : Fld) (n m : Nat) : (c.noteSet f n m).kpr = c.kpr := rfl
@[simp] theorem noteSet_ist (c : Chip) (f : Fld) (n m : Nat) : (c.noteSet f n m).ist = c.ist := rfl
@[simp] theorem noteSet_tap (c : Chip) (f : Fld) (n m : Nat) : (c.noteSet f n m).tap = c.tap := rfl

/-! c.setI f n i -/

@[simp] theorem setI_now (c : Chip) (f : Fld) (n : Nat) (i : Int) : (c.setI f n i).now = c.now := rfl
@[simp] theorem setI_free (c : Chip) (f : Fld) (n : Nat) (i : Int) : (c.setI f n i).free = c.free := rfl
@[simp] theorem setI_fresh (c : Chip) (f : Fld) (n : Nat) (i : Int) : (c.setI f n i).fresh = c.fresh := rfl
@[simp] theorem setI_hpp (c : Chip) (f : Fld) (n : Nat) (i : Int) : (c.setI f n i).hpp = c.hpp := rfl
@[simp] theorem setI_dev (c : Chip) (f : Fld) (n : Nat) (i : Int) : (c.setI f n i).dev = c.dev := rfl
@[simp] theorem setI_flt (c : Chip) (f : Fld) (n : Nat) (i : Int) : (c.setI f n i).flt = c.flt := rfl
@[simp] theorem setI_rst (c : Chip) (f : Fld) (n : Nat) (i : Int) : (c.setI f n i).rst = c.rst := rfl
@[simp] theorem setI_tim (c : Chip) (f : Fld) (n : Nat) (i : Int) : (c.setI f n i).tim = c.tim := rfl
@[simp] theorem setI_pgm (c : Chip) (f : Fld) (n : Nat) (i : Int) : (c.setI f n i).pgm = c.pgm := rfl
@[simp] theorem setI_adc (c : Chip) (f : Fld) (n : Nat) (i : Int) : (c.setI f n i).adc = c.adc := rfl
@[simp] theorem setI_lnk (c : Chip) (f : Fld) (n : Nat) (i : Int) : (c.setI f n i).lnk = c.lnk := rfl
@[simp] theorem setI_arm (c : Chip) (f : Fld) (n : Nat) (i : Int) : (c.setI f n i).arm = c.arm := rfl
@[simp] theorem setI_mod (c : Chip) (f : Fld) (n : Nat) (i : Int) : (c.setI f n i).mod = c.mod := rfl
@[simp] theorem setI_dhb (c : Chip) (f : Fld) (n : Nat) (i : Int) : (c.setI f n i).dhb = c.dhb := rfl
@[simp] theorem setI_mon (c : Chip) (f : Fld) (n : Nat) (i : Int) : (c.setI f n i).mon = c.mon := rfl
@[simp] theorem setI_ctl (c : Chip) (f : Fld) (n : Nat) (i : Int) : (c.setI f n i).ctl = c.ctl := rfl
@[simp] theorem setI_grd (c : Chip) (f : Fld) (n : Nat) (i : Int) : (c.setI f n i).grd = c.grd := rfl
@[simp] theorem setI_pmu (c : Chip) (f : Fld) (n : Nat) (i : Int) : (c.setI f n i).pmu = c.pmu := rfl
@[simp] theorem setI_mtr (c : Chip) (f : Fld) (n : Nat) (i : Int) : (c.setI f n i).mtr = c.mtr := rfl
@[simp] theorem setI_net (c : Chip) (f : Fld) (n : Nat) (i : Int) : (c.setI f n i).net = c.net := rfl
@[simp] theorem setI_sio (c : Chip) (f : Fld) (n : Nat) (i : Int) : (c.setI f n i).sio = c.sio := rfl
@[simp] theorem setI_kpr (c : Chip) (f : Fld) (n : Nat) (i : Int) : (c.setI f n i).kpr = c.kpr := rfl
@[simp] theorem setI_ist (c : Chip) (f : Fld) (n : Nat) (i : Int) : (c.setI f n i).ist = c.ist := rfl
@[simp] theorem setI_tap (c : Chip) (f : Fld) (n : Nat) (i : Int) : (c.setI f n i).tap = c.tap := rfl

/-! c.setSat f n i -/

@[simp] theorem setSat_now (c : Chip) (f : Fld) (n : Nat) (i : Int) : (c.setSat f n i).now = c.now := rfl
@[simp] theorem setSat_free (c : Chip) (f : Fld) (n : Nat) (i : Int) : (c.setSat f n i).free = c.free := rfl
@[simp] theorem setSat_fresh (c : Chip) (f : Fld) (n : Nat) (i : Int) : (c.setSat f n i).fresh = c.fresh := rfl
@[simp] theorem setSat_hpp (c : Chip) (f : Fld) (n : Nat) (i : Int) : (c.setSat f n i).hpp = c.hpp := rfl
@[simp] theorem setSat_dev (c : Chip) (f : Fld) (n : Nat) (i : Int) : (c.setSat f n i).dev = c.dev := rfl
@[simp] theorem setSat_flt (c : Chip) (f : Fld) (n : Nat) (i : Int) : (c.setSat f n i).flt = c.flt := rfl
@[simp] theorem setSat_rst (c : Chip) (f : Fld) (n : Nat) (i : Int) : (c.setSat f n i).rst = c.rst := rfl
@[simp] theorem setSat_tim (c : Chip) (f : Fld) (n : Nat) (i : Int) : (c.setSat f n i).tim = c.tim := rfl
@[simp] theorem setSat_pgm (c : Chip) (f : Fld) (n : Nat) (i : Int) : (c.setSat f n i).pgm = c.pgm := rfl
@[simp] theorem setSat_adc (c : Chip) (f : Fld) (n : Nat) (i : Int) : (c.setSat f n i).adc = c.adc := rfl
@[simp] theorem setSat_lnk (c : Chip) (f : Fld) (n : Nat) (i : Int) : (c.setSat f n i).lnk = c.lnk := rfl
@[simp] theorem setSat_arm (c : Chip) (f : Fld) (n : Nat) (i : Int) : (c.setSat f n i).arm = c.arm := rfl
@[simp] theorem setSat_mod (c : Chip) (f : Fld) (n : Nat) (i : Int) : (c.setSat f n i).mod = c.mod := rfl
@[simp] theorem setSat_dhb (c : Chip) (f : Fld) (n : Nat) (i : Int) : (c.setSat f n i).dhb = c.dhb := rfl
@[simp] theorem setSat_mon (c : Chip) (f : Fld) (n : Nat) (i : Int) : (c.setSat f n i).mon = c.mon := rfl
@[simp] theorem setSat_ctl (c : Chip) (f : Fld) (n : Nat) (i : Int) : (c.setSat f n i).ctl = c.ctl := rfl
@[simp] theorem setSat_grd (c : Chip) (f : Fld) (n : Nat) (i : Int) : (c.setSat f n i).grd = c.grd := rfl
@[simp] theorem setSat_pmu (c : Chip) (f : Fld) (n : Nat) (i : Int) : (c.setSat f n i).pmu = c.pmu := rfl
@[simp] theorem setSat_mtr (c : Chip) (f : Fld) (n : Nat) (i : Int) : (c.setSat f n i).mtr = c.mtr := rfl
@[simp] theorem setSat_net (c : Chip) (f : Fld) (n : Nat) (i : Int) : (c.setSat f n i).net = c.net := rfl
@[simp] theorem setSat_sio (c : Chip) (f : Fld) (n : Nat) (i : Int) : (c.setSat f n i).sio = c.sio := rfl
@[simp] theorem setSat_kpr (c : Chip) (f : Fld) (n : Nat) (i : Int) : (c.setSat f n i).kpr = c.kpr := rfl
@[simp] theorem setSat_ist (c : Chip) (f : Fld) (n : Nat) (i : Int) : (c.setSat f n i).ist = c.ist := rfl
@[simp] theorem setSat_tap (c : Chip) (f : Fld) (n : Nat) (i : Int) : (c.setSat f n i).tap = c.tap := rfl

/-! c.setW f n w -/

@[simp] theorem setW_now (c : Chip) (f : Fld) (n : Nat) (w : Word) : (c.setW f n w).now = c.now := rfl
@[simp] theorem setW_free (c : Chip) (f : Fld) (n : Nat) (w : Word) : (c.setW f n w).free = c.free := rfl
@[simp] theorem setW_fresh (c : Chip) (f : Fld) (n : Nat) (w : Word) : (c.setW f n w).fresh = c.fresh := rfl
@[simp] theorem setW_hpp (c : Chip) (f : Fld) (n : Nat) (w : Word) : (c.setW f n w).hpp = c.hpp := rfl
@[simp] theorem setW_dev (c : Chip) (f : Fld) (n : Nat) (w : Word) : (c.setW f n w).dev = c.dev := rfl
@[simp] theorem setW_flt (c : Chip) (f : Fld) (n : Nat) (w : Word) : (c.setW f n w).flt = c.flt := rfl
@[simp] theorem setW_rst (c : Chip) (f : Fld) (n : Nat) (w : Word) : (c.setW f n w).rst = c.rst := rfl
@[simp] theorem setW_tim (c : Chip) (f : Fld) (n : Nat) (w : Word) : (c.setW f n w).tim = c.tim := rfl
@[simp] theorem setW_pgm (c : Chip) (f : Fld) (n : Nat) (w : Word) : (c.setW f n w).pgm = c.pgm := rfl
@[simp] theorem setW_adc (c : Chip) (f : Fld) (n : Nat) (w : Word) : (c.setW f n w).adc = c.adc := rfl
@[simp] theorem setW_lnk (c : Chip) (f : Fld) (n : Nat) (w : Word) : (c.setW f n w).lnk = c.lnk := rfl
@[simp] theorem setW_arm (c : Chip) (f : Fld) (n : Nat) (w : Word) : (c.setW f n w).arm = c.arm := rfl
@[simp] theorem setW_mod (c : Chip) (f : Fld) (n : Nat) (w : Word) : (c.setW f n w).mod = c.mod := rfl
@[simp] theorem setW_dhb (c : Chip) (f : Fld) (n : Nat) (w : Word) : (c.setW f n w).dhb = c.dhb := rfl
@[simp] theorem setW_mon (c : Chip) (f : Fld) (n : Nat) (w : Word) : (c.setW f n w).mon = c.mon := rfl
@[simp] theorem setW_ctl (c : Chip) (f : Fld) (n : Nat) (w : Word) : (c.setW f n w).ctl = c.ctl := rfl
@[simp] theorem setW_grd (c : Chip) (f : Fld) (n : Nat) (w : Word) : (c.setW f n w).grd = c.grd := rfl
@[simp] theorem setW_pmu (c : Chip) (f : Fld) (n : Nat) (w : Word) : (c.setW f n w).pmu = c.pmu := rfl
@[simp] theorem setW_mtr (c : Chip) (f : Fld) (n : Nat) (w : Word) : (c.setW f n w).mtr = c.mtr := rfl
@[simp] theorem setW_net (c : Chip) (f : Fld) (n : Nat) (w : Word) : (c.setW f n w).net = c.net := rfl
@[simp] theorem setW_sio (c : Chip) (f : Fld) (n : Nat) (w : Word) : (c.setW f n w).sio = c.sio := rfl
@[simp] theorem setW_kpr (c : Chip) (f : Fld) (n : Nat) (w : Word) : (c.setW f n w).kpr = c.kpr := rfl
@[simp] theorem setW_ist (c : Chip) (f : Fld) (n : Nat) (w : Word) : (c.setW f n w).ist = c.ist := rfl
@[simp] theorem setW_tap (c : Chip) (f : Fld) (n : Nat) (w : Word) : (c.setW f n w).tap = c.tap := rfl

/-! c.at_ t -/

@[simp] theorem at_regs (c : Chip) (t : Nat) : (c.at_ t).regs = c.regs := rfl
@[simp] theorem at_free (c : Chip) (t : Nat) : (c.at_ t).free = c.free := rfl
@[simp] theorem at_fresh (c : Chip) (t : Nat) : (c.at_ t).fresh = c.fresh := rfl
@[simp] theorem at_hpp (c : Chip) (t : Nat) : (c.at_ t).hpp = c.hpp := rfl
@[simp] theorem at_dev (c : Chip) (t : Nat) : (c.at_ t).dev = c.dev := rfl
@[simp] theorem at_flt (c : Chip) (t : Nat) : (c.at_ t).flt = c.flt := rfl
@[simp] theorem at_rst (c : Chip) (t : Nat) : (c.at_ t).rst = c.rst := rfl
@[simp] theorem at_tim (c : Chip) (t : Nat) : (c.at_ t).tim = c.tim := rfl
@[simp] theorem at_pgm (c : Chip) (t : Nat) : (c.at_ t).pgm = c.pgm := rfl
@[simp] theorem at_adc (c : Chip) (t : Nat) : (c.at_ t).adc = c.adc := rfl
@[simp] theorem at_lnk (c : Chip) (t : Nat) : (c.at_ t).lnk = c.lnk := rfl
@[simp] theorem at_arm (c : Chip) (t : Nat) : (c.at_ t).arm = c.arm := rfl
@[simp] theorem at_mod (c : Chip) (t : Nat) : (c.at_ t).mod = c.mod := rfl
@[simp] theorem at_dhb (c : Chip) (t : Nat) : (c.at_ t).dhb = c.dhb := rfl
@[simp] theorem at_mon (c : Chip) (t : Nat) : (c.at_ t).mon = c.mon := rfl
@[simp] theorem at_ctl (c : Chip) (t : Nat) : (c.at_ t).ctl = c.ctl := rfl
@[simp] theorem at_grd (c : Chip) (t : Nat) : (c.at_ t).grd = c.grd := rfl
@[simp] theorem at_pmu (c : Chip) (t : Nat) : (c.at_ t).pmu = c.pmu := rfl
@[simp] theorem at_mtr (c : Chip) (t : Nat) : (c.at_ t).mtr = c.mtr := rfl
@[simp] theorem at_net (c : Chip) (t : Nat) : (c.at_ t).net = c.net := rfl
@[simp] theorem at_sio (c : Chip) (t : Nat) : (c.at_ t).sio = c.sio := rfl
@[simp] theorem at_kpr (c : Chip) (t : Nat) : (c.at_ t).kpr = c.kpr := rfl
@[simp] theorem at_ist (c : Chip) (t : Nat) : (c.at_ t).ist = c.ist := rfl
@[simp] theorem at_tap (c : Chip) (t : Nat) : (c.at_ t).tap = c.tap := rfl

@[simp] theorem at_now (c : Chip) (t : Nat) : (c.at_ t).now = Max.max c.now t := rfl
@[simp] theorem set_regs (c : Chip) (f : Fld) (n v : Nat) : (c.set f n v).regs = regSet c.regs f n v := rfl
@[simp] theorem setB_regs (c : Chip) (f : Fld) (n : Nat) (b : Bool) : (c.setB f n b).regs = regSet c.regs f n (bit b) := rfl
@[simp] theorem setBit_regs (c : Chip) (f : Fld) (n i : Nat) (b : Bool) :
    (c.setBit f n i b).regs = regSet c.regs f n (putBit (c.get f n) i b) := rfl
@[simp] theorem inc_regs (c : Chip) (f : Fld) (n : Nat) : (c.inc f n).regs = regSet c.regs f n (satN f.width (c.get f n + 1)) := rfl
@[simp] theorem incBy_regs (c : Chip) (f : Fld) (n k : Nat) :
    (c.incBy f n k).regs = regSet c.regs f n (satN f.width (c.get f n + k)) := rfl
@[simp] theorem incMod_regs (c : Chip) (f : Fld) (n : Nat) : (c.incMod f n).regs = regSet c.regs f n (c.get f n + 1) := rfl
@[simp] theorem flag_regs (c : Chip) (f : Fld) (n : Nat) : (c.flag f n).regs = regSet c.regs f n 1 := rfl
@[simp] theorem setI_regs (c : Chip) (f : Fld) (n : Nat) (i : Int) : (c.setI f n i).regs = regSet c.regs f n (ofSigned f.width i) := rfl
@[simp] theorem setW_regs (c : Chip) (f : Fld) (n : Nat) (w : Word) : (c.setW f n w).regs = regSet c.regs f n w.toNat := rfl

/-! Free values -/

@[simp] theorem freeBit_regs (c : Chip) : c.freeBit.2.regs = c.regs := rfl
@[simp] theorem freeBit_now (c : Chip) : c.freeBit.2.now = c.now := rfl
@[simp] theorem freeBit_fresh (c : Chip) : c.freeBit.2.fresh = c.fresh := rfl
@[simp] theorem freeBit_hpp (c : Chip) : c.freeBit.2.hpp = c.hpp := rfl
@[simp] theorem freeBit_dev (c : Chip) : c.freeBit.2.dev = c.dev := rfl
@[simp] theorem freeBit_flt (c : Chip) : c.freeBit.2.flt = c.flt := rfl
@[simp] theorem freeBit_rst (c : Chip) : c.freeBit.2.rst = c.rst := rfl
@[simp] theorem freeBit_tim (c : Chip) : c.freeBit.2.tim = c.tim := rfl
@[simp] theorem freeBit_pgm (c : Chip) : c.freeBit.2.pgm = c.pgm := rfl
@[simp] theorem freeBit_adc (c : Chip) : c.freeBit.2.adc = c.adc := rfl
@[simp] theorem freeBit_lnk (c : Chip) : c.freeBit.2.lnk = c.lnk := rfl
@[simp] theorem freeBit_arm (c : Chip) : c.freeBit.2.arm = c.arm := rfl
@[simp] theorem freeBit_mod (c : Chip) : c.freeBit.2.mod = c.mod := rfl
@[simp] theorem freeBit_dhb (c : Chip) : c.freeBit.2.dhb = c.dhb := rfl
@[simp] theorem freeBit_mon (c : Chip) : c.freeBit.2.mon = c.mon := rfl
@[simp] theorem freeBit_ctl (c : Chip) : c.freeBit.2.ctl = c.ctl := rfl
@[simp] theorem freeBit_grd (c : Chip) : c.freeBit.2.grd = c.grd := rfl
@[simp] theorem freeBit_pmu (c : Chip) : c.freeBit.2.pmu = c.pmu := rfl
@[simp] theorem freeBit_mtr (c : Chip) : c.freeBit.2.mtr = c.mtr := rfl
@[simp] theorem freeBit_net (c : Chip) : c.freeBit.2.net = c.net := rfl
@[simp] theorem freeBit_sio (c : Chip) : c.freeBit.2.sio = c.sio := rfl
@[simp] theorem freeBit_kpr (c : Chip) : c.freeBit.2.kpr = c.kpr := rfl
@[simp] theorem freeBit_ist (c : Chip) : c.freeBit.2.ist = c.ist := rfl
@[simp] theorem freeBit_tap (c : Chip) : c.freeBit.2.tap = c.tap := rfl
@[simp] theorem freeNat_regs (c : Chip) : c.freeNat.2.regs = c.regs := rfl
@[simp] theorem freeNat_now (c : Chip) : c.freeNat.2.now = c.now := rfl
@[simp] theorem freeNat_fresh (c : Chip) : c.freeNat.2.fresh = c.fresh := rfl
@[simp] theorem freeNat_hpp (c : Chip) : c.freeNat.2.hpp = c.hpp := rfl
@[simp] theorem freeNat_dev (c : Chip) : c.freeNat.2.dev = c.dev := rfl
@[simp] theorem freeNat_flt (c : Chip) : c.freeNat.2.flt = c.flt := rfl
@[simp] theorem freeNat_rst (c : Chip) : c.freeNat.2.rst = c.rst := rfl
@[simp] theorem freeNat_tim (c : Chip) : c.freeNat.2.tim = c.tim := rfl
@[simp] theorem freeNat_pgm (c : Chip) : c.freeNat.2.pgm = c.pgm := rfl
@[simp] theorem freeNat_adc (c : Chip) : c.freeNat.2.adc = c.adc := rfl
@[simp] theorem freeNat_lnk (c : Chip) : c.freeNat.2.lnk = c.lnk := rfl
@[simp] theorem freeNat_arm (c : Chip) : c.freeNat.2.arm = c.arm := rfl
@[simp] theorem freeNat_mod (c : Chip) : c.freeNat.2.mod = c.mod := rfl
@[simp] theorem freeNat_dhb (c : Chip) : c.freeNat.2.dhb = c.dhb := rfl
@[simp] theorem freeNat_mon (c : Chip) : c.freeNat.2.mon = c.mon := rfl
@[simp] theorem freeNat_ctl (c : Chip) : c.freeNat.2.ctl = c.ctl := rfl
@[simp] theorem freeNat_grd (c : Chip) : c.freeNat.2.grd = c.grd := rfl
@[simp] theorem freeNat_pmu (c : Chip) : c.freeNat.2.pmu = c.pmu := rfl
@[simp] theorem freeNat_mtr (c : Chip) : c.freeNat.2.mtr = c.mtr := rfl
@[simp] theorem freeNat_net (c : Chip) : c.freeNat.2.net = c.net := rfl
@[simp] theorem freeNat_sio (c : Chip) : c.freeNat.2.sio = c.sio := rfl
@[simp] theorem freeNat_kpr (c : Chip) : c.freeNat.2.kpr = c.kpr := rfl
@[simp] theorem freeNat_ist (c : Chip) : c.freeNat.2.ist = c.ist := rfl
@[simp] theorem freeNat_tap (c : Chip) : c.freeNat.2.tap = c.tap := rfl

/-! A command's SRAM writes -/

@[simp] theorem flush_pending (s : State) : (flush s).pending = s.pending := rfl
@[simp] theorem flush_wq (s : State) : (flush s).chip.pgm.wq = [] := rfl
@[simp] theorem flush_regs (s : State) : (flush s).chip.regs = s.chip.regs := rfl
@[simp] theorem flush_now (s : State) : (flush s).chip.now = s.chip.now := rfl
@[simp] theorem flush_free (s : State) : (flush s).chip.free = s.chip.free := rfl
@[simp] theorem flush_fresh (s : State) : (flush s).chip.fresh = s.chip.fresh := rfl
@[simp] theorem flush_hpp (s : State) : (flush s).chip.hpp = s.chip.hpp := rfl
@[simp] theorem flush_dev (s : State) : (flush s).chip.dev = s.chip.dev := rfl
@[simp] theorem flush_flt (s : State) : (flush s).chip.flt = s.chip.flt := rfl
@[simp] theorem flush_rst (s : State) : (flush s).chip.rst = s.chip.rst := rfl
@[simp] theorem flush_tim (s : State) : (flush s).chip.tim = s.chip.tim := rfl
@[simp] theorem flush_adc (s : State) : (flush s).chip.adc = s.chip.adc := rfl
@[simp] theorem flush_lnk (s : State) : (flush s).chip.lnk = s.chip.lnk := rfl
@[simp] theorem flush_arm (s : State) : (flush s).chip.arm = s.chip.arm := rfl
@[simp] theorem flush_mod (s : State) : (flush s).chip.mod = s.chip.mod := rfl
@[simp] theorem flush_dhb (s : State) : (flush s).chip.dhb = s.chip.dhb := rfl
@[simp] theorem flush_mon (s : State) : (flush s).chip.mon = s.chip.mon := rfl
@[simp] theorem flush_ctl (s : State) : (flush s).chip.ctl = s.chip.ctl := rfl
@[simp] theorem flush_grd (s : State) : (flush s).chip.grd = s.chip.grd := rfl
@[simp] theorem flush_pmu (s : State) : (flush s).chip.pmu = s.chip.pmu := rfl
@[simp] theorem flush_mtr (s : State) : (flush s).chip.mtr = s.chip.mtr := rfl
@[simp] theorem flush_net (s : State) : (flush s).chip.net = s.chip.net := rfl
@[simp] theorem flush_sio (s : State) : (flush s).chip.sio = s.chip.sio := rfl
@[simp] theorem flush_kpr (s : State) : (flush s).chip.kpr = s.chip.kpr := rfl
@[simp] theorem flush_ist (s : State) : (flush s).chip.ist = s.chip.ist := rfl
@[simp] theorem flush_tap (s : State) : (flush s).chip.tap = s.chip.tap := rfl

end Sys2Proof.Laws
end

