-- ==== Sys2Proof/Laws/Ops.lean ====
section
/-! SUPPORT. Laws of the shared operations: reading and writing a field, events, and the shape of every meaning. -/

namespace Sys2Proof.Laws

open Sys2Proof.Machine

/-! Fields -/

/-- A field reads as its table gives it. -/
theorem get_eq (c : Chip) (f : Fld) (n : Nat) : c.get f n = regGet c.regs f n := rfl

/-- Two chips with the same table read alike. -/
theorem get_congr {a b : Chip} (h : a.regs = b.regs) (f : Fld) (n : Nat) : a.get f n = b.get f n := by
  rw [get_eq, get_eq, h]

theorem regGet_set_self (m : Tab Key Nat) (f : Fld) (n v : Nat) : regGet (regSet m f n v) f n = v % 2 ^ f.width :=
  tabGet_set_self Key.code _ m _ _

/-- A write leaves every other field, and the same field of every other instance, alone. -/
theorem regGet_set_other (m : Tab Key Nat) (f g : Fld) (n k v : Nat) (h : ¬(g.id = f.id ∧ g.lo = f.lo ∧ k = n)) :
    regGet (regSet m f n v) g k = regGet m g k := by
  apply tabGet_set_other
  intro e
  injection e with h1 h2 h3
  exact h ⟨h1, h2, h3⟩

theorem regGet_set_fld (m : Tab Key Nat) (f g : Fld) (n k v : Nat) (h : (g.id, g.lo) ≠ (f.id, f.lo)) :
    regGet (regSet m f n v) g k = regGet m g k :=
  regGet_set_other m f g n k v (fun e => h (by rw [e.1, e.2.1]))

theorem regGet_set_inst (m : Tab Key Nat) (f g : Fld) (n k v : Nat) (h : k ≠ n) :
    regGet (regSet m f n v) g k = regGet m g k :=
  regGet_set_other m f g n k v (fun e => h e.2.2)

theorem get_set_self (c : Chip) (f : Fld) (n v : Nat) : (c.set f n v).get f n = v % 2 ^ f.width := regGet_set_self _ f n v

theorem get_set_other (c : Chip) (f g : Fld) (n k v : Nat) (h : ¬(g.id = f.id ∧ g.lo = f.lo ∧ k = n)) :
    (c.set f n v).get g k = c.get g k := regGet_set_other _ f g n k v h

@[simp] theorem noteSet_get (c : Chip) (f g : Fld) (n m k : Nat) : (c.noteSet f n m).get g k = c.get g k := rfl

@[simp] theorem at_get (c : Chip) (t : Nat) (f : Fld) (n : Nat) : (c.at_ t).get f n = c.get f n := rfl

/-! Events -/

/-- An event raised changes only the events in flight (R472). -/
theorem raise_eq (c : Chip) (src d : Nat) (fa : Bool) :
    c.raise src d fa = { c with flt := { c.flt with
      raised := if c.fabric then c.flt.raised ++ [⟨src, d, c.now, fa⟩] else c.flt.raised } } := by
  unfold Chip.raise
  split <;> rfl

@[simp] theorem raise_regs (c : Chip) (src d : Nat) (fa : Bool) : (c.raise src d fa).regs = c.regs := by rw [raise_eq]

@[simp] theorem raise_get (c : Chip) (src d : Nat) (fa : Bool) (f : Fld) (n : Nat) : (c.raise src d fa).get f n = c.get f n := by
  rw [raise_eq]; rfl

/-- One lemma per part of the chip that an event raised leaves alone. -/
@[simp] theorem raise_now (c : Chip) (src d : Nat) (fa : Bool) : (c.raise src d fa).now = c.now := by rw [raise_eq]

@[simp] theorem raise_pgm (c : Chip) (src d : Nat) (fa : Bool) : (c.raise src d fa).pgm = c.pgm := by rw [raise_eq]

@[simp] theorem raise_hpp (c : Chip) (src d : Nat) (fa : Bool) : (c.raise src d fa).hpp = c.hpp := by rw [raise_eq]

@[simp] theorem raise_dev (c : Chip) (src d : Nat) (fa : Bool) : (c.raise src d fa).dev = c.dev := by rw [raise_eq]

@[simp] theorem raise_fabric (c : Chip) (src d : Nat) (fa : Bool) : (c.raise src d fa).fabric = c.fabric := by rw [raise_eq]; rfl

theorem raise_raised (c : Chip) (src d : Nat) (fa : Bool) : (c.raise src d fa).flt.raised =
    if c.fabric then c.flt.raised ++ [⟨src, d, c.now, fa⟩] else c.flt.raised := by rw [raise_eq]

/-! Meanings -/

/-- What every meaning does: it answers a next state whose queue is the old one, with the writes to the SRAM entered. -/
theorem run_next (f : Memory → Chip → Chip) (s : State) :
    run f s = .next { chip := { f s.sram s.chip with pgm := { (f s.sram s.chip).pgm with wq := [] } },
                      sram := (f s.sram s.chip).pgm.wq.foldl (fun m aw => Memory.writeWord m aw.1 aw.2) s.sram,
                      pending := s.pending } := rfl

/-- A meaning that writes no SRAM changes only the chip. -/
theorem run_settled (f : Memory → Chip → Chip) (s : State) (h : (f s.sram s.chip).pgm.wq = []) :
    run f s = .next { s with chip := f s.sram s.chip } := by
  have e : { (f s.sram s.chip).pgm with wq := [] } = (f s.sram s.chip).pgm := by rw [← h]
  rw [run_next, e, h]
  rfl

/-- A meaning keeps the SRAM in its canonical form and leaves no write behind. -/
theorem run_inv (f : Memory → Chip → Chip) (s t : State) (h : run f s = .next t) (hw : Memory.wf s.sram = true) :
    Memory.wf t.sram = true ∧ t.chip.pgm.wq = [] ∧ t.pending = s.pending := by
  rw [run_next] at h
  injection h with h
  subst h
  exact ⟨writeWords_wf _ _ hw, rfl, rfl⟩

end Sys2Proof.Laws
end

