-- ==== Sys2Proof/Laws/Frame.lean ====
section
/-! SUPPORT. What an operation may change: the attributes and the parts of the chip outside which it leaves everything as it was.
Each lemma takes the outermost update off, so that a frame is proved by peeling an operation apart. -/

namespace Sys2Proof.Laws

open Sys2Proof.Machine

/-- The parts of the chip beside its fields, and beside the note of which flags were set at this instant (R12). -/
inductive Part where
  | now | free | hpp | dev | flt | rst | tim | pgm | adc | lnk | arm | mod | dhb | mon | ctl | grd | pmu | mtr | net | sio | kpr | ist | tap
  deriving DecidableEq, Repr

/-- A part is the same in b as in a. -/
def Part.same (a b : Chip) : Part → Prop
  | .now => b.now = a.now
  | .free => b.free = a.free
  | .hpp => b.hpp = a.hpp
  | .dev => b.dev = a.dev
  | .flt => b.flt = a.flt
  | .rst => b.rst = a.rst
  | .tim => b.tim = a.tim
  | .pgm => b.pgm = a.pgm
  | .adc => b.adc = a.adc
  | .lnk => b.lnk = a.lnk
  | .arm => b.arm = a.arm
  | .mod => b.mod = a.mod
  | .dhb => b.dhb = a.dhb
  | .mon => b.mon = a.mon
  | .ctl => b.ctl = a.ctl
  | .grd => b.grd = a.grd
  | .pmu => b.pmu = a.pmu
  | .mtr => b.mtr = a.mtr
  | .net => b.net = a.net
  | .sio => b.sio = a.sio
  | .kpr => b.kpr = a.kpr
  | .ist => b.ist = a.ist
  | .tap => b.tap = a.tap

/-- b differs from a only in fields of the attributes `ids` and in the parts `ps`. -/
structure Keeps (ids : List Nat) (ps : List Part) (a b : Chip) : Prop where
  fields : ∀ (f : Fld) (n : Nat), f.id ∉ ids → b.get f n = a.get f n
  parts : ∀ p : Part, p ∉ ps → Part.same a b p

variable {ids : List Nat} {ps : List Part} {a b c : Chip}

theorem keeps_refl : Keeps ids ps a a := ⟨fun _ _ _ => rfl, fun p _ => by cases p <;> rfl⟩

theorem keeps_trans (h : Keeps ids ps a b) (g : Keeps ids ps b c) : Keeps ids ps a c :=
  ⟨fun f n hf => (g.fields f n hf).trans (h.fields f n hf), fun p hp => by
    have h1 := h.parts p hp
    have h2 := g.parts p hp
    cases p <;> exact Eq.trans h2 h1⟩

/-- A frame stays one when more may change. -/
theorem keeps_mono {ids2 : List Nat} {ps2 : List Part} (h : Keeps ids ps a b) (hi : ∀ x ∈ ids, x ∈ ids2) (hp : ∀ x ∈ ps, x ∈ ps2) :
    Keeps ids2 ps2 a b :=
  ⟨fun f n hf => h.fields f n (fun e => hf (hi _ e)), fun p hn => h.parts p (fun e => hn (hp _ e))⟩

/-- An operation with a frame of its own is taken off. -/
theorem keeps_op {f : Chip → Chip} {ids2 : List Nat} {ps2 : List Part} (hf : ∀ d, Keeps ids2 ps2 d (f d)) (h : Keeps ids ps a b)
    (hi : ∀ x ∈ ids2, x ∈ ids) (hp : ∀ x ∈ ps2, x ∈ ps) : Keeps ids ps a (f b) :=
  keeps_trans h (keeps_mono (hf b) hi hp)

theorem keeps_set {f : Fld} {n v : Nat} (h : Keeps ids ps a b) (hf : f.id ∈ ids) : Keeps ids ps a (b.set f n v) :=
  keeps_trans h ⟨fun g k hg => get_set_other b f g n k v (fun e => hg (e.1 ▸ hf)), fun p _ => by cases p <;> rfl⟩

theorem keeps_setB {f : Fld} {n : Nat} {v : Bool} (h : Keeps ids ps a b) (hf : f.id ∈ ids) : Keeps ids ps a (b.setB f n v) :=
  keeps_set h hf

theorem keeps_setBit {f : Fld} {n i : Nat} {v : Bool} (h : Keeps ids ps a b) (hf : f.id ∈ ids) : Keeps ids ps a (b.setBit f n i v) :=
  keeps_set h hf

theorem keeps_noteSet {f : Fld} {n m : Nat} (h : Keeps ids ps a b) : Keeps ids ps a (b.noteSet f n m) :=
  keeps_trans h ⟨fun _ _ _ => rfl, fun p _ => by cases p <;> rfl⟩

theorem keeps_flag {f : Fld} {n : Nat} (h : Keeps ids ps a b) (hf : f.id ∈ ids) : Keeps ids ps a (b.flag f n) :=
  keeps_noteSet (keeps_set h hf)

theorem keeps_inc {f : Fld} {n : Nat} (h : Keeps ids ps a b) (hf : f.id ∈ ids) : Keeps ids ps a (b.inc f n) := keeps_set h hf

theorem keeps_incBy {f : Fld} {n k : Nat} (h : Keeps ids ps a b) (hf : f.id ∈ ids) : Keeps ids ps a (b.incBy f n k) := keeps_set h hf

theorem keeps_setI {f : Fld} {n : Nat} {i : Int} (h : Keeps ids ps a b) (hf : f.id ∈ ids) : Keeps ids ps a (b.setI f n i) := keeps_set h hf

theorem keeps_setSat {f : Fld} {n : Nat} {i : Int} (h : Keeps ids ps a b) (hf : f.id ∈ ids) : Keeps ids ps a (b.setSat f n i) :=
  keeps_set h hf

theorem keeps_setW {f : Fld} {n : Nat} {w : Word} (h : Keeps ids ps a b) (hf : f.id ∈ ids) : Keeps ids ps a (b.setW f n w) := keeps_set h hf

theorem keeps_raise {src d : Nat} {fa : Bool} (h : Keeps ids ps a b) (hp : Part.flt ∈ ps) : Keeps ids ps a (b.raise src d fa) :=
  keeps_trans h (by
    rw [raise_eq]
    exact ⟨fun _ _ _ => rfl, fun p hn => by cases p <;> first | rfl | exact absurd hp hn⟩)

theorem keeps_each {α : Type} {l : List α} {f : Chip → α → Chip} (hf : ∀ d x, Keeps ids ps d (f d x)) (h : Keeps ids ps a b) :
    Keeps ids ps a (b.each l f) := by
  unfold Chip.each
  induction l generalizing b with
  | nil => exact h
  | cons x l ih => exact ih (keeps_trans h (hf b x))

theorem keeps_ite {p : Prop} [Decidable p] (h : p → Keeps ids ps a b) (g : ¬p → Keeps ids ps a c) :
    Keeps ids ps a (if p then b else c) := by
  split
  · exact h ‹_›
  · exact g ‹_›

theorem keeps_at {t : Nat} (h : Keeps ids ps a b) (hp : Part.now ∈ ps) : Keeps ids ps a (b.at_ t) :=
  keeps_trans h ⟨fun _ _ _ => rfl, fun p hn => by cases p <;> first | rfl | exact absurd hp hn⟩

theorem keeps_now {x} (h : Keeps ids ps a b) (hp : Part.now ∈ ps) : Keeps ids ps a { b with now := x } :=
  keeps_trans h ⟨fun _ _ _ => rfl, fun p hn => by cases p <;> first | rfl | exact absurd hp hn⟩

theorem keeps_free {x} (h : Keeps ids ps a b) (hp : Part.free ∈ ps) : Keeps ids ps a { b with free := x } :=
  keeps_trans h ⟨fun _ _ _ => rfl, fun p hn => by cases p <;> first | rfl | exact absurd hp hn⟩

theorem keeps_hpp {x} (h : Keeps ids ps a b) (hp : Part.hpp ∈ ps) : Keeps ids ps a { b with hpp := x } :=
  keeps_trans h ⟨fun _ _ _ => rfl, fun p hn => by cases p <;> first | rfl | exact absurd hp hn⟩

theorem keeps_dev {x} (h : Keeps ids ps a b) (hp : Part.dev ∈ ps) : Keeps ids ps a { b with dev := x } :=
  keeps_trans h ⟨fun _ _ _ => rfl, fun p hn => by cases p <;> first | rfl | exact absurd hp hn⟩

theorem keeps_flt {x} (h : Keeps ids ps a b) (hp : Part.flt ∈ ps) : Keeps ids ps a { b with flt := x } :=
  keeps_trans h ⟨fun _ _ _ => rfl, fun p hn => by cases p <;> first | rfl | exact absurd hp hn⟩

theorem keeps_rst {x} (h : Keeps ids ps a b) (hp : Part.rst ∈ ps) : Keeps ids ps a { b with rst := x } :=
  keeps_trans h ⟨fun _ _ _ => rfl, fun p hn => by cases p <;> first | rfl | exact absurd hp hn⟩

theorem keeps_tim {x} (h : Keeps ids ps a b) (hp : Part.tim ∈ ps) : Keeps ids ps a { b with tim := x } :=
  keeps_trans h ⟨fun _ _ _ => rfl, fun p hn => by cases p <;> first | rfl | exact absurd hp hn⟩

theorem keeps_pgm {x} (h : Keeps ids ps a b) (hp : Part.pgm ∈ ps) : Keeps ids ps a { b with pgm := x } :=
  keeps_trans h ⟨fun _ _ _ => rfl, fun p hn => by cases p <;> first | rfl | exact absurd hp hn⟩

theorem keeps_adc {x} (h : Keeps ids ps a b) (hp : Part.adc ∈ ps) : Keeps ids ps a { b with adc := x } :=
  keeps_trans h ⟨fun _ _ _ => rfl, fun p hn => by cases p <;> first | rfl | exact absurd hp hn⟩

theorem keeps_lnk {x} (h : Keeps ids ps a b) (hp : Part.lnk ∈ ps) : Keeps ids ps a { b with lnk := x } :=
  keeps_trans h ⟨fun _ _ _ => rfl, fun p hn => by cases p <;> first | rfl | exact absurd hp hn⟩

theorem keeps_arm {x} (h : Keeps ids ps a b) (hp : Part.arm ∈ ps) : Keeps ids ps a { b with arm := x } :=
  keeps_trans h ⟨fun _ _ _ => rfl, fun p hn => by cases p <;> first | rfl | exact absurd hp hn⟩

theorem keeps_mod {x} (h : Keeps ids ps a b) (hp : Part.mod ∈ ps) : Keeps ids ps a { b with mod := x } :=
  keeps_trans h ⟨fun _ _ _ => rfl, fun p hn => by cases p <;> first | rfl | exact absurd hp hn⟩

theorem keeps_dhb {x} (h : Keeps ids ps a b) (hp : Part.dhb ∈ ps) : Keeps ids ps a { b with dhb := x } :=
  keeps_trans h ⟨fun _ _ _ => rfl, fun p hn => by cases p <;> first | rfl | exact absurd hp hn⟩

theorem keeps_mon {x} (h : Keeps ids ps a b) (hp : Part.mon ∈ ps) : Keeps ids ps a { b with mon := x } :=
  keeps_trans h ⟨fun _ _ _ => rfl, fun p hn => by cases p <;> first | rfl | exact absurd hp hn⟩

theorem keeps_ctl {x} (h : Keeps ids ps a b) (hp : Part.ctl ∈ ps) : Keeps ids ps a { b with ctl := x } :=
  keeps_trans h ⟨fun _ _ _ => rfl, fun p hn => by cases p <;> first | rfl | exact absurd hp hn⟩

theorem keeps_grd {x} (h : Keeps ids ps a b) (hp : Part.grd ∈ ps) : Keeps ids ps a { b with grd := x } :=
  keeps_trans h ⟨fun _ _ _ => rfl, fun p hn => by cases p <;> first | rfl | exact absurd hp hn⟩

theorem keeps_pmu {x} (h : Keeps ids ps a b) (hp : Part.pmu ∈ ps) : Keeps ids ps a { b with pmu := x } :=
  keeps_trans h ⟨fun _ _ _ => rfl, fun p hn => by cases p <;> first | rfl | exact absurd hp hn⟩

theorem keeps_mtr {x} (h : Keeps ids ps a b) (hp : Part.mtr ∈ ps) : Keeps ids ps a { b with mtr := x } :=
  keeps_trans h ⟨fun _ _ _ => rfl, fun p hn => by cases p <;> first | rfl | exact absurd hp hn⟩

theorem keeps_net {x} (h : Keeps ids ps a b) (hp : Part.net ∈ ps) : Keeps ids ps a { b with net := x } :=
  keeps_trans h ⟨fun _ _ _ => rfl, fun p hn => by cases p <;> first | rfl | exact absurd hp hn⟩

theorem keeps_sio {x} (h : Keeps ids ps a b) (hp : Part.sio ∈ ps) : Keeps ids ps a { b with sio := x } :=
  keeps_trans h ⟨fun _ _ _ => rfl, fun p hn => by cases p <;> first | rfl | exact absurd hp hn⟩

theorem keeps_kpr {x} (h : Keeps ids ps a b) (hp : Part.kpr ∈ ps) : Keeps ids ps a { b with kpr := x } :=
  keeps_trans h ⟨fun _ _ _ => rfl, fun p hn => by cases p <;> first | rfl | exact absurd hp hn⟩

theorem keeps_ist {x} (h : Keeps ids ps a b) (hp : Part.ist ∈ ps) : Keeps ids ps a { b with ist := x } :=
  keeps_trans h ⟨fun _ _ _ => rfl, fun p hn => by cases p <;> first | rfl | exact absurd hp hn⟩

theorem keeps_tap {x} (h : Keeps ids ps a b) (hp : Part.tap ∈ ps) : Keeps ids ps a { b with tap := x } :=
  keeps_trans h ⟨fun _ _ _ => rfl, fun p hn => by cases p <;> first | rfl | exact absurd hp hn⟩

end Sys2Proof.Laws
end

