-- ==== Sys2Proof/Laws/Interp.lean ====
section
/-! SUPPORT. Laws of the interpreter: what it does before every opcode, once. -/

namespace Sys2Proof.Laws

open Sys2Proof.Machine

/-- Rewinding the writer changes the port alone. -/
theorem rewind_eq (c : Chip) : ∃ h : Hpp, c.rewind = { c with hpp := h } ∧ h.replies = c.hpp.replies ∧ h.unread = c.hpp.unread ∧
    h.rdy = c.hpp.rdy ∧ h.last = c.hpp.last ∧ h.txn = c.hpp.txn ∧ h.quad = c.hpp.quad := by
  unfold Chip.rewind
  split
  · exact ⟨_, rfl, rfl, rfl, rfl, rfl, rfl, rfl⟩
  · exact ⟨c.hpp, rfl, rfl, rfl, rfl, rfl, rfl, rfl⟩

/-- The chip a packet is executed from differs from the state's in the time and the basins alone. -/
theorem taken_eq (s : State) (t : Nat) (rest : List BasinWord) : ∃ h : Hpp,
    s.taken t rest = { s.chip.at_ t with hpp := h } ∧ h.replies = s.chip.hpp.replies ∧ h.unread = rest ∧ h.rdy = s.chip.hpp.rdy := by
  obtain ⟨h, e, h1, h2, h3, -⟩ := rewind_eq { s.chip.at_ t with hpp := { s.chip.hpp with unread := rest, taken := [], event := false } }
  exact ⟨h, e, h1, h2, h3⟩

theorem closeLoad_none {c : Chip} (h : c.dev.load = none) : c.closeLoad = c := by simp [Chip.closeLoad, h]

/-- A packet that passes every check that comes before its opcode is executed by its opcode's own rule (R50 to R52, R90, R94). -/
theorem interpret_accepts {s : State} {p : Packet} {rest : List BasinWord} (t : Nat) (mine : Packet → Bool)
    (body : Chip → Packet → Chip) (hp : s.HasPacket p rest) (ha : s.Accepts p) (hm : mine p = true)
    (hl : p.opc = 0xE0 ∨ s.chip.dev.load = none) : s.chip.interpret t mine body = body (s.taken t rest) p := by
  obtain ⟨-, hf, hr⟩ := hp
  obtain ⟨a1, a2, a3, o, ho, b1, b2, b3, b4⟩ := ha
  have hf' : (s.chip.at_ t).front = some (p, rest) := hf
  have hr' : (s.chip.at_ t).ready = true := hr
  obtain ⟨h, e, -⟩ := taken_eq s t rest
  have hs : (s.taken t rest).state = s.chip.state := by rw [e]; rfl
  have hd : (s.taken t rest).dev = s.chip.dev := by rw [e]; rfl
  have hc : (if p.opc = 0xE0 then s.taken t rest else (s.taken t rest).closeLoad) = s.taken t rest := by
    split
    · rfl
    · exact closeLoad_none (by rw [hd]; exact hl.resolve_left ‹_›)
  unfold Chip.interpret
  simp only [hf', hr', hm, Bool.and_self, if_true]
  change Chip.judge1 (s.taken t rest) p _ = _
  unfold Chip.judge1
  simp only [a1, a2, a3, hc, ho, b1, hs, b3]
  simp only [Bool.false_eq_true, if_false, ne_eq, not_true_eq_false, false_or, b2]
  cases hn : o.len with
  | none => rfl
  | some n => simp [b4 n hn]

end Sys2Proof.Laws
end

