-- ==== Sys2Proof/Laws/Outputs.lean ====
section
/-! SUPPORT. What the output stages may change: safe disconnect outputs, direct ports, lanes in a hold. Each operation is taken off
a frame that allows its attributes and parts. -/

namespace Sys2Proof.Laws

open Sys2Proof.Machine Sys2Proof.Machine.Reg

variable {ids : List Nat} {ps : List Part} {a b : Chip}

/-! Safe disconnect outputs -/

theorem keeps_drive {j : Nat} {x y : Bool} (hp : Part.sio ∈ ps) (h : Keeps ids ps a b) : Keeps ids ps a (b.drive j x y) :=
  keeps_sio h hp

theorem keeps_driveFree {j : Nat} (hp : Part.sio ∈ ps) (h : Keeps ids ps a b) : Keeps ids ps a (b.driveFree j) := keeps_drive hp h

theorem keeps_setSdo {j : Nat} {v : SdoOut} (hp : Part.sio ∈ ps) (h : Keeps ids ps a b) : Keeps ids ps a (b.setSdo j v) :=
  keeps_sio h hp

theorem keeps_driveSdo {j : Nat} {o : Bool} (hp : Part.sio ∈ ps) (h : Keeps ids ps a b) : Keeps ids ps a (b.driveSdo j o) := by
  unfold Chip.driveSdo
  dsimp only
  repeat' first
    | exact h
    | with_reducible apply keeps_setSdo hp
    | with_reducible apply keeps_driveFree hp
    | with_reducible apply keeps_drive hp
    | split

/-- Attributes that a safe disconnect output shows itself in. -/
def sdoIds : List Nat := [SIO.SDOSTAT.HOST.id, SIO.SDOCTL.ON.id]

theorem keeps_sources {j : Nat} {l : List (Fld × Bool)} (hl : ∀ e ∈ l, e.1.id ∈ ids) (h : Keeps ids ps a b) :
    Keeps ids ps a (b.each l (fun c p => c.setB p.1 j p.2)) := by
  unfold Chip.each
  induction l generalizing b with
  | nil => exact h
  | cons x l ih => exact ih (fun e he => hl e (by simp [he])) (keeps_setB h (hl x (by simp)))

theorem keeps_refreshOne {j : Nat} {x y : Bool} (hi : ∀ k ∈ sdoIds, k ∈ ids) (hp : Part.sio ∈ ps) (h : Keeps ids ps a b) :
    Keeps ids ps a (b.refreshOne j x y) := by
  have h1 : SIO.SDOSTAT.HOST.id ∈ ids := hi _ (by decide)
  have h2 : SIO.SDOCTL.ON.id ∈ ids := hi _ (by decide)
  unfold Chip.refreshOne
  apply keeps_driveSdo hp
  apply keeps_setB _ h1
  have hs : Keeps ids ps a (b.each (b.sdoSources j) (fun c p => c.setB p.1 j p.2)) := by
    apply keeps_sources _ h
    intro e he
    simp only [Chip.sdoSources, List.mem_cons, List.mem_nil_iff, or_false] at he
    rcases he with rfl | rfl | rfl | rfl | rfl <;> exact h1
  exact keeps_ite (fun _ => keeps_set hs h2) (fun _ => hs)

/-- Outputs that follow their sources change only what they show. -/
theorem keeps_refreshSdo (hi : ∀ k ∈ sdoIds, k ∈ ids) (hp : Part.sio ∈ ps) (h : Keeps ids ps a b) : Keeps ids ps a b.refreshSdo :=
  keeps_each (fun _ _ => keeps_refreshOne hi hp keeps_refl) h

/-! Direct ports -/

/-- Attributes that a direct port shows itself in. -/
def portIds : List Nat := [DHB.STAT.TRK.id, DHB.EVT.FAULT.id, DHB.CNT.FAULT.id]

theorem keeps_setPort {p : Nat} {v : Port} (hp : Part.dhb ∈ ps) (h : Keeps ids ps a b) : Keeps ids ps a (b.setPort p v) :=
  keeps_dhb h hp

theorem keeps_setOnPin {p : Nat} {u x : Bool} (hi : ∀ k ∈ portIds, k ∈ ids) (h : Keeps ids ps a b) :
    Keeps ids ps a (b.setOnPin p u x) := by
  have h1 : DHB.STAT.TRK.id ∈ ids := hi _ (by decide)
  cases u <;> exact keeps_setB h h1

theorem keeps_turnOff {p : Nat} {u : Bool} (hi : ∀ k ∈ portIds, k ∈ ids) (hp : Part.dhb ∈ ps) (h : Keeps ids ps a b) :
    Keeps ids ps a (b.turnOff p u) :=
  keeps_ite (fun _ => keeps_setPort hp (keeps_setOnPin hi h)) (fun _ => h)

theorem keeps_cancelTurnOn {p : Nat} {u x : Bool} (hi : ∀ k ∈ portIds, k ∈ ids) (hp : Part.dhb ∈ ps) (h : Keeps ids ps a b) :
    Keeps ids ps a (b.cancelTurnOn p u x) :=
  keeps_ite (fun _ => keeps_ite
    (fun _ => keeps_inc (keeps_flag (keeps_setPort hp h) (hi DHB.EVT.FAULT.id (by decide))) (hi DHB.CNT.FAULT.id (by decide)))
    (fun _ => keeps_setPort hp h)) (fun _ => h)

theorem keeps_follow {p : Nat} {u x y : Bool} (hi : ∀ k ∈ portIds, k ∈ ids) (hp : Part.dhb ∈ ps) (h : Keeps ids ps a b) :
    Keeps ids ps a (b.follow p u x y) :=
  keeps_setPort hp (keeps_ite (fun _ => h) (fun _ => keeps_turnOff hi hp (keeps_cancelTurnOn hi hp h)))

theorem keeps_toCarrier {p : Nat} (hi : ∀ k ∈ portIds, k ∈ ids) (hp : Part.dhb ∈ ps) (h : Keeps ids ps a b) :
    Keeps ids ps a (b.toCarrier p) := keeps_setPort hp (keeps_setB h (hi DHB.STAT.TRK.id (by decide)))

theorem keeps_portUpdate {p : Nat} (hi : ∀ k ∈ portIds, k ∈ ids) (hp : Part.dhb ∈ ps) (h : Keeps ids ps a b) :
    Keeps ids ps a (b.portUpdate p) := by
  unfold Chip.portUpdate
  apply keeps_follow hi hp
  apply keeps_follow hi hp
  have h0 : Keeps ids ps a (if b.portPrio p == 2 && (b.port p).prio != 2 && ((b.port p).u.pend.isSome || (b.port p).l.pend.isSome)
      then b.flag DHB.EVT.TRIPDT p else b) := keeps_ite (fun _ => keeps_flag h (hi DHB.EVT.FAULT.id (by decide))) (fun _ => h)
  dsimp only
  generalize (if b.portPrio p == 2 && (b.port p).prio != 2 && ((b.port p).u.pend.isSome || (b.port p).l.pend.isSome)
      then b.flag DHB.EVT.TRIPDT p else b) = d at h0 ⊢
  have h1 := keeps_setPort (p := p) (v := { d.port p with prio := b.portPrio p }) hp h0
  generalize d.setPort p { d.port p with prio := b.portPrio p } = e at h1 ⊢
  have h2 : Keeps ids ps a (if b.portPrio p == 5 && (b.port p).prio != 5 then e.toCarrier p else e) :=
    keeps_ite (fun _ => keeps_toCarrier hi hp h1) (fun _ => h1)
  exact keeps_ite (fun _ => keeps_setPort hp h2) (fun _ => h2)

/-- Ports that follow their sources change only what they show. -/
theorem keeps_portsUpdate (hi : ∀ k ∈ portIds, k ∈ ids) (hp : Part.dhb ∈ ps) (h : Keeps ids ps a b) :
    Keeps ids ps a b.portsUpdate := keeps_each (fun _ _ => keeps_portUpdate hi hp keeps_refl) h

theorem keeps_portFault {p cause : Nat} (hi : ∀ k ∈ portIds, k ∈ ids) (hp : Part.dhb ∈ ps) (hf : Part.flt ∈ ps)
    (h : Keeps ids ps a b) : Keeps ids ps a (b.portFault p cause) :=
  keeps_ite (fun _ => h) (fun _ => keeps_portUpdate hi hp (keeps_raise (keeps_inc (keeps_flag (keeps_set (keeps_setPort hp h)
    (hi DHB.STAT.TRK.id (by decide))) (hi DHB.EVT.FAULT.id (by decide))) (hi DHB.CNT.FAULT.id (by decide))) hf))

/-! Lanes in a hold -/

/-- Attributes in which a lane shows that it is held. -/
def holdIds : List Nat := [LNK.STAT.TRIPHOLD.id, MOD.LST.TRK.id]

theorem keeps_setLane {n : Nat} {v : LaneRec} (hp : Part.lnk ∈ ps) (h : Keeps ids ps a b) : Keeps ids ps a (b.setLane n v) :=
  keeps_lnk h hp

theorem keeps_setSched {n : Nat} {v : SchedRec} (hp : Part.arm ∈ ps) (h : Keeps ids ps a b) : Keeps ids ps a (b.setSched n v) :=
  keeps_arm h hp

theorem keeps_burst {n : Nat} (hp : Part.lnk ∈ ps) (h : Keeps ids ps a b) : Keeps ids ps a (b.burst n) :=
  keeps_ite (fun _ => h) (fun _ => keeps_setLane hp h)

theorem keeps_holdArm {n : Nat} (hi : ∀ k ∈ holdIds, k ∈ ids) (hl : Part.lnk ∈ ps) (ha : Part.arm ∈ ps) (h : Keeps ids ps a b) :
    Keeps ids ps a (b.holdArm n) :=
  keeps_each (fun _ _ => keeps_setSched ha (keeps_set (keeps_set (keeps_burst hl keeps_refl)
    (hi LNK.STAT.TRIPHOLD.id (by decide))) (hi MOD.LST.TRK.id (by decide)))) h

theorem keeps_releaseArm {n : Nat} (hi : ∀ k ∈ holdIds, k ∈ ids) (h : Keeps ids ps a b) : Keeps ids ps a (b.releaseArm n) :=
  keeps_each (fun _ _ => keeps_set keeps_refl (hi LNK.STAT.TRIPHOLD.id (by decide))) h

/-- Attributes that a change of the holds may change. -/
def heldIds : List Nat := sdoIds ++ portIds ++ holdIds

/-- Parts that a change of the holds may change. -/
def heldParts : List Part := [.sio, .dhb, .lnk, .arm]

/-- A change of the holds changes lanes, ports and outputs, and nothing else (R256, R258). -/
theorem keeps_holdsChanged {m : Nat} (hi : ∀ k ∈ heldIds, k ∈ ids) (hp : ∀ k ∈ heldParts, k ∈ ps) (h : Keeps ids ps a b) :
    Keeps ids ps a (b.holdsChanged m) := by
  have i1 : ∀ k ∈ sdoIds, k ∈ ids := fun k hk => hi k (by simp [heldIds, hk])
  have i2 : ∀ k ∈ portIds, k ∈ ids := fun k hk => hi k (by simp [heldIds, hk])
  have i3 : ∀ k ∈ holdIds, k ∈ ids := fun k hk => hi k (by simp [heldIds, hk])
  have p1 : Part.sio ∈ ps := hp _ (by decide)
  have p2 : Part.dhb ∈ ps := hp _ (by decide)
  have p3 : Part.lnk ∈ ps := hp _ (by decide)
  have p4 : Part.arm ∈ ps := hp _ (by decide)
  unfold Chip.holdsChanged
  exact keeps_refreshSdo i1 p1 (keeps_portsUpdate i2 p2 (keeps_each (fun _ _ => keeps_releaseArm i3 keeps_refl)
    (keeps_each (fun _ _ => keeps_holdArm i3 p3 p4 keeps_refl) h)))

end Sys2Proof.Laws
end

