-- ==== Sys2Proof/WellFormed.lean ====
section
/-! DEFINITION. Well-formed commands: every operand in the range the spec gives it. -/

namespace Sys2Proof

/-- The number of the unit a command acts on: lane, port, comparator, group, channel, input, output or check; 0 when it names none. -/
def Instr.unit : Instr → Nat
  | .transaction _ _ _ _ => 0
  | .idleTimeout _ => 0
  | .nop _ _ _ _ => 0
  | .peek _ _ _ _ => 0
  | .fetch _ _ _ _ _ => 0
  | .unassignedOpcode _ => 0
  | .getAttr _ => 0
  | .setAttr _ => 0
  | .getBlock _ => 0
  | .setBlock _ => 0
  | .modify _ => 0
  | .modifyStep => 0
  | .stagedWritesApply => 0
  | .commitConfig _ => 0
  | .configCheck _ => 0
  | .armMap _ => 0
  | .laneAdmit _ => 0
  | .laneAdmitStart => 0
  | .laneRetire _ => 0
  | .captureArm _ => 0
  | .captureRelease _ => 0
  | .readPage _ _ => 0
  | .timeGet _ => 0
  | .timeStep _ => 0
  | .timeRate _ => 0
  | .tripClear _ => 0
  | .faultAck _ => 0
  | .resetCmd _ => 0
  | .resetBegin _ => 0
  | .selftest _ => 0
  | .commitNv _ _ => 0
  | .identify _ => 0
  | .patchBegin _ => 0
  | .patchData _ => 0
  | .patchFinish _ => 0
  | .tick _ _ _ => 0
  | .tickStrobe => 0
  | .launch => 0
  | .uplinkFrame _ n _ _ _ => n
  | .syncLoss _ n => n
  | .lossOfLight _ n => n
  | .admissionTimeout _ n => n
  | .selfTestTimeout _ n => n
  | .autoAdmissionStart n => n
  | .laneResumeDown => 0
  | .odiagRequest _ n => n
  | .odiagTimeout _ n => n
  | .carrierEvent _ _ i => i
  | .bootstrapRefreshEnd _ p => p
  | .mtrigDelivery _ => 0
  | .dhbTurnOn _ p _ => p
  | .dhbHandshakeTimeout _ p _ => p
  | .dhbAckChange _ p _ _ _ => p
  | .dhbResume _ p => p
  | .dhbForce _ p _ => p
  | .comparatorDecision _ k _ _ _ => k
  | .tripInput _ n _ _ => n
  | .tripHoldEnd => 0
  | .comparatorFirstDecision _ k _ _ _ => k
  | .comparatorSelfTest _ _ => 0
  | .thresholdReadback _ _ => 0
  | .conversionResult _ g _ _ _ => g
  | .sequenceTrigger _ => 0
  | .adcHostTrigger _ _ => 0
  | .sequenceEnd _ g => g
  | .sequenceRecord _ g => g
  | .foregroundCalibrationDone _ g _ => g
  | .sliceCalibrationEnd _ g _ _ => g
  | .sliceHandover _ g _ => g
  | .sliceFail _ g _ => g
  | .serviceConversion _ g _ _ => g
  | .pageRequest _ => 0
  | .captureTrigger _ => 0
  | .pgmHostTrigger _ _ => 0
  | .pageRetire _ p => p
  | .refclkLoss _ _ => 0
  | .refclkDrift _ _ => 0
  | .refclkGood _ _ => 0
  | .refclkRevert _ => 0
  | .refclkPrefWrite _ _ => 0
  | .dllLock _ => 0
  | .dllChainSwitch _ => 0
  | .dllUnlock _ => 0
  | .dllRelockTimeout _ => 0
  | .ptpMessage _ i _ => i
  | .ptpTransmit _ i _ => i
  | .ptpAnnounceTimeout _ i => i
  | .ptpSyncTimeout _ i => i
  | .holdoverTimeout _ => 0
  | .ppsInEdge _ => 0
  | .ppsInMissing _ => 0
  | .ppsOutPulse _ => 0
  | .ppsOutEnd _ => 0
  | .syncInEdge _ => 0
  | .timestampInput _ u _ => u
  | .rtcWrite _ => 0
  | .trigSlotEvaluation _ => 0
  | .grdTripClear _ => 0
  | .grdIslandClear _ => 0
  | .pmuReport _ _ k => k
  | .turnOffTransmission _ => 0
  | .turnOnTransmission _ => 0
  | .sendCfg1 _ => 0
  | .sendCfg2 _ => 0
  | .pmuCommandIgnored _ => 0
  | .twArrival _ _ _ => 0
  | .twCollectionEnd _ => 0
  | .pmuFltrig _ => 0
  | .faultRecordComplete _ => 0
  | .twremWrite _ _ _ _ _ => 0
  | .powerSample _ => 0
  | .pulseStart _ k => k
  | .pulseEnd _ k => k
  | .meterSnapshot _ => 0
  | .meterZero _ => 0
  | .meterRecordCopy _ => 0
  | .meterInputInvalid _ ch => ch
  | .ethFrameRx _ i _ _ _ => i
  | .discardEntryExpire _ => 0
  | .ethFrameTx _ i => i
  | .prpSupervisionTx _ => 0
  | .lanSilent _ i => i
  | .linkPoll _ i _ => i
  | .mdioAccess _ _ => 0
  | .mdioAccessDone _ _ => 0
  | .safetyPairTimeout _ => 0
  | .safetyFrameRx _ => 0
  | .safetyFrameTx _ => 0
  | .remoteWatchdogExpiry _ m => m
  | .safetyInputChange _ k _ _ => k
  | .discrepancyTimeout _ k => k
  | .siFaultAck _ _ => 0
  | .sdoOn _ j _ => j
  | .sdoFaultAck _ j => j
  | .sdoReadbackChange _ j _ _ => j
  | .sdoReadbackDeadline _ j _ => j
  | .testPulse _ j _ => j
  | .testPulseEnd _ j => j
  | .testReturnTimeout _ j => j
  | .faultEvent _ _ _ => 0
  | .fatalEntry _ => 0
  | .reactionDone _ => 0
  | .faultWindowClose _ j => j
  | .faultHoldEnd => 0
  | .mainPor _ _ => 0
  | .rstNAssert _ _ => 0
  | .rstNRelease _ => 0
  | .rstNLog _ => 0
  | .viohLoss _ => 0
  | .blockReset b => b
  | .fuseLoadDone _ _ => 0
  | .domainRelease _ _ _ _ => 0
  | .clockGoodTimeout _ => 0
  | .interpreterStart _ => 0
  | .supplyWarning _ => 0
  | .supplyRestored _ => 0
  | .keeperPor _ => 0
  | .loadCut _ => 0
  | .cellDisconnect _ => 0
  | .cellReconnect _ => 0
  | .chargeEnd _ => 0
  | .chargeRestart _ => 0
  | .chargeTimeout _ => 0
  | .mppsetSample _ _ _ => 0
  | .nvJudge _ _ => 0
  | .nvBurstDone _ _ => 0
  | .nvBurstAbort _ _ => 0
  | .kprSleep _ _ => 0
  | .rtcAlarm _ => 0
  | .istPassStart _ k _ _ _ => k
  | .istPassLate _ k => k
  | .laneWindowEnd _ => 0
  | .tapBypass _ _ => 0
  | .tapIdcode _ => 0
  | .tapSamplePreload _ _ _ => 0
  | .tapExtest _ => 0
  | .tapPtest _ => 0
  | .mainPorRelease _ => 0
  | .powerGood _ => 0
  | .crystalOscillatorStart _ => 0
  | .preChargeEnd _ => 0
  | .harvesterColdStart _ => 0
  | .testLogicReset _ => 0

/-- How many units of that kind the block has; 1 when the command names none. -/
def Instr.units : Instr → Nat
  | .transaction _ _ _ _ => 1
  | .idleTimeout _ => 1
  | .nop _ _ _ _ => 1
  | .peek _ _ _ _ => 1
  | .fetch _ _ _ _ _ => 1
  | .unassignedOpcode _ => 1
  | .getAttr _ => 1
  | .setAttr _ => 1
  | .getBlock _ => 1
  | .setBlock _ => 1
  | .modify _ => 1
  | .modifyStep => 1
  | .stagedWritesApply => 1
  | .commitConfig _ => 1
  | .configCheck _ => 1
  | .armMap _ => 1
  | .laneAdmit _ => 1
  | .laneAdmitStart => 1
  | .laneRetire _ => 1
  | .captureArm _ => 1
  | .captureRelease _ => 1
  | .readPage _ _ => 1
  | .timeGet _ => 1
  | .timeStep _ => 1
  | .timeRate _ => 1
  | .tripClear _ => 1
  | .faultAck _ => 1
  | .resetCmd _ => 1
  | .resetBegin _ => 1
  | .selftest _ => 1
  | .commitNv _ _ => 1
  | .identify _ => 1
  | .patchBegin _ => 1
  | .patchData _ => 1
  | .patchFinish _ => 1
  | .tick _ _ _ => 1
  | .tickStrobe => 1
  | .launch => 1
  | .uplinkFrame _ _ _ _ _ => 192
  | .syncLoss _ _ => 192
  | .lossOfLight _ _ => 192
  | .admissionTimeout _ _ => 192
  | .selfTestTimeout _ _ => 192
  | .autoAdmissionStart _ => 192
  | .laneResumeDown => 1
  | .odiagRequest _ _ => 192
  | .odiagTimeout _ _ => 192
  | .carrierEvent _ lane _ => if lane then 192 else 12
  | .bootstrapRefreshEnd _ _ => 12
  | .mtrigDelivery _ => 1
  | .dhbTurnOn _ _ _ => 12
  | .dhbHandshakeTimeout _ _ _ => 12
  | .dhbAckChange _ _ _ _ _ => 12
  | .dhbResume _ _ => 12
  | .dhbForce _ _ _ => 12
  | .comparatorDecision _ _ _ _ _ => 96
  | .tripInput _ _ _ _ => 8
  | .tripHoldEnd => 1
  | .comparatorFirstDecision _ _ _ _ _ => 96
  | .comparatorSelfTest _ _ => 1
  | .thresholdReadback _ _ => 1
  | .conversionResult _ _ _ _ _ => 4
  | .sequenceTrigger _ => 1
  | .adcHostTrigger _ _ => 1
  | .sequenceEnd _ _ => 4
  | .sequenceRecord _ _ => 4
  | .foregroundCalibrationDone _ _ _ => 4
  | .sliceCalibrationEnd _ _ _ _ => 4
  | .sliceHandover _ _ _ => 4
  | .sliceFail _ _ _ => 4
  | .serviceConversion _ _ _ _ => 4
  | .pageRequest _ => 1
  | .captureTrigger _ => 1
  | .pgmHostTrigger _ _ => 1
  | .pageRetire _ _ => 2048
  | .refclkLoss _ _ => 1
  | .refclkDrift _ _ => 1
  | .refclkGood _ _ => 1
  | .refclkRevert _ => 1
  | .refclkPrefWrite _ _ => 1
  | .dllLock _ => 1
  | .dllChainSwitch _ => 1
  | .dllUnlock _ => 1
  | .dllRelockTimeout _ => 1
  | .ptpMessage _ _ _ => 2
  | .ptpTransmit _ _ _ => 2
  | .ptpAnnounceTimeout _ _ => 2
  | .ptpSyncTimeout _ _ => 2
  | .holdoverTimeout _ => 1
  | .ppsInEdge _ => 1
  | .ppsInMissing _ => 1
  | .ppsOutPulse _ => 1
  | .ppsOutEnd _ => 1
  | .syncInEdge _ => 1
  | .timestampInput _ _ _ => 16
  | .rtcWrite _ => 1
  | .trigSlotEvaluation _ => 1
  | .grdTripClear _ => 1
  | .grdIslandClear _ => 1
  | .pmuReport _ _ _ => 256
  | .turnOffTransmission _ => 1
  | .turnOnTransmission _ => 1
  | .sendCfg1 _ => 1
  | .sendCfg2 _ => 1
  | .pmuCommandIgnored _ => 1
  | .twArrival _ _ _ => 1
  | .twCollectionEnd _ => 1
  | .pmuFltrig _ => 1
  | .faultRecordComplete _ => 1
  | .twremWrite _ _ _ _ _ => 1
  | .powerSample _ => 1
  | .pulseStart _ _ => 4
  | .pulseEnd _ _ => 4
  | .meterSnapshot _ => 1
  | .meterZero _ => 1
  | .meterRecordCopy _ => 1
  | .meterInputInvalid _ _ => 6
  | .ethFrameRx _ _ _ _ _ => 2
  | .discardEntryExpire _ => 1
  | .ethFrameTx _ _ => 2
  | .prpSupervisionTx _ => 1
  | .lanSilent _ _ => 2
  | .linkPoll _ _ _ => 2
  | .mdioAccess _ _ => 1
  | .mdioAccessDone _ _ => 1
  | .safetyPairTimeout _ => 1
  | .safetyFrameRx _ => 1
  | .safetyFrameTx _ => 1
  | .remoteWatchdogExpiry _ _ => 4
  | .safetyInputChange _ _ _ _ => 8
  | .discrepancyTimeout _ _ => 8
  | .siFaultAck _ _ => 1
  | .sdoOn _ _ _ => 4
  | .sdoFaultAck _ _ => 4
  | .sdoReadbackChange _ _ _ _ => 4
  | .sdoReadbackDeadline _ _ _ => 4
  | .testPulse _ _ _ => 4
  | .testPulseEnd _ _ => 4
  | .testReturnTimeout _ _ => 4
  | .faultEvent _ _ _ => 1
  | .fatalEntry _ => 1
  | .reactionDone _ => 1
  | .faultWindowClose _ _ => 64
  | .faultHoldEnd => 1
  | .mainPor _ _ => 1
  | .rstNAssert _ _ => 1
  | .rstNRelease _ => 1
  | .rstNLog _ => 1
  | .viohLoss _ => 1
  | .blockReset _ => 64
  | .fuseLoadDone _ _ => 1
  | .domainRelease _ _ _ _ => 1
  | .clockGoodTimeout _ => 1
  | .interpreterStart _ => 1
  | .supplyWarning _ => 1
  | .supplyRestored _ => 1
  | .keeperPor _ => 1
  | .loadCut _ => 1
  | .cellDisconnect _ => 1
  | .cellReconnect _ => 1
  | .chargeEnd _ => 1
  | .chargeRestart _ => 1
  | .chargeTimeout _ => 1
  | .mppsetSample _ _ _ => 1
  | .nvJudge _ _ => 1
  | .nvBurstDone _ _ => 1
  | .nvBurstAbort _ _ => 1
  | .kprSleep _ _ => 1
  | .rtcAlarm _ => 1
  | .istPassStart _ _ _ _ _ => 8
  | .istPassLate _ _ => 8
  | .laneWindowEnd _ => 1
  | .tapBypass _ _ => 1
  | .tapIdcode _ => 1
  | .tapSamplePreload _ _ _ => 1
  | .tapExtest _ => 1
  | .tapPtest _ => 1
  | .mainPorRelease _ => 1
  | .powerGood _ => 1
  | .crystalOscillatorStart _ => 1
  | .preChargeEnd _ => 1
  | .harvesterColdStart _ => 1
  | .testLogicReset _ => 1

/-- Every operand of the command is in range. -/
def Instr.wf : Instr → Bool
  | .transaction _ edges data _ => decide (2 * data.length ≤ edges + 1)
  | .idleTimeout _ => true
  | .nop _ tag flg _ => decide (tag < 256 ∧ flg < 64)
  | .peek _ tag flg _ => decide (tag < 256 ∧ flg < 64)
  | .fetch _ tag flg _ _ => decide (tag < 256 ∧ flg < 64)
  | .unassignedOpcode _ => true
  | .getAttr _ => true
  | .setAttr _ => true
  | .getBlock _ => true
  | .setBlock _ => true
  | .modify _ => true
  | .modifyStep => true
  | .stagedWritesApply => true
  | .commitConfig _ => true
  | .configCheck _ => true
  | .armMap _ => true
  | .laneAdmit _ => true
  | .laneAdmitStart => true
  | .laneRetire _ => true
  | .captureArm _ => true
  | .captureRelease _ => true
  | .readPage _ errs => errs.all (fun e => decide (e.1 < 512))
  | .timeGet _ => true
  | .timeStep _ => true
  | .timeRate _ => true
  | .tripClear _ => true
  | .faultAck _ => true
  | .resetCmd _ => true
  | .resetBegin _ => true
  | .selftest _ => true
  | .commitNv _ _ => true
  | .identify _ => true
  | .patchBegin _ => true
  | .patchData _ => true
  | .patchFinish _ => true
  | .tick _ _ _ => true
  | .tickStrobe => true
  | .launch => true
  | .uplinkFrame _ n before comma frame => decide (n < 192 ∧ comma < 1024 ∧ frame.length = 10) && (before ++ frame).all (fun g => decide (g < 1024))
  | .syncLoss _ n => decide (n < 192)
  | .lossOfLight _ n => decide (n < 192)
  | .admissionTimeout _ n => decide (n < 192)
  | .selfTestTimeout _ n => decide (n < 192)
  | .autoAdmissionStart n => decide (n < 192)
  | .laneResumeDown => true
  | .odiagRequest _ n => decide (n < 192)
  | .odiagTimeout _ n => decide (n < 192)
  | .carrierEvent _ lane i => decide (i < (if lane then 192 else 12))
  | .bootstrapRefreshEnd _ p => decide (p < 12)
  | .mtrigDelivery _ => true
  | .dhbTurnOn _ p _ => decide (p < 12)
  | .dhbHandshakeTimeout _ p _ => decide (p < 12)
  | .dhbAckChange _ p _ _ _ => decide (p < 12)
  | .dhbResume _ p => decide (p < 12)
  | .dhbForce _ p v => decide (p < 12 ∧ v < 2 ^ 32)
  | .comparatorDecision _ k _ _ _ => decide (k < 96)
  | .tripInput _ n _ _ => decide (n < 8)
  | .tripHoldEnd => true
  | .comparatorFirstDecision _ k _ _ _ => decide (k < 96)
  | .comparatorSelfTest _ _ => true
  | .thresholdReadback _ _ => true
  | .conversionResult _ g kind _ _ => decide (g < 4) && (match kind with | .cont j => decide (j < 8) | .tick e => decide (e < 16) | .seq e => decide (e < 16))
  | .sequenceTrigger _ => true
  | .adcHostTrigger _ go => decide (go < 2 ^ 32)
  | .sequenceEnd _ g => decide (g < 4)
  | .sequenceRecord _ g => decide (g < 4)
  | .foregroundCalibrationDone _ g errs => decide (g < 4 ∧ errs.length = 9)
  | .sliceCalibrationEnd _ g _ _ => decide (g < 4)
  | .sliceHandover _ g _ => decide (g < 4)
  | .sliceFail _ g s_ => decide (g < 4 ∧ s_ < 9)
  | .serviceConversion _ g ch _ => decide (g < 4 ∧ ch < 16)
  | .pageRequest _ => true
  | .captureTrigger _ => true
  | .pgmHostTrigger _ go => decide (go < 2 ^ 32)
  | .pageRetire _ p => decide (p < 2048)
  | .refclkLoss _ _ => true
  | .refclkDrift _ _ => true
  | .refclkGood _ _ => true
  | .refclkRevert _ => true
  | .refclkPrefWrite _ _ => true
  | .dllLock _ => true
  | .dllChainSwitch _ => true
  | .dllUnlock _ => true
  | .dllRelockTimeout _ => true
  | .ptpMessage _ i _ => decide (i < 2)
  | .ptpTransmit _ i _ => decide (i < 2)
  | .ptpAnnounceTimeout _ i => decide (i < 2)
  | .ptpSyncTimeout _ i => decide (i < 2)
  | .holdoverTimeout _ => true
  | .ppsInEdge _ => true
  | .ppsInMissing _ => true
  | .ppsOutPulse _ => true
  | .ppsOutEnd _ => true
  | .syncInEdge _ => true
  | .timestampInput _ u _ => decide (u < 16)
  | .rtcWrite _ => true
  | .trigSlotEvaluation _ => true
  | .grdTripClear _ => true
  | .grdIslandClear _ => true
  | .pmuReport _ _ k => decide (k < 256)
  | .turnOffTransmission _ => true
  | .turnOnTransmission _ => true
  | .sendCfg1 _ => true
  | .sendCfg2 _ => true
  | .pmuCommandIgnored _ => true
  | .twArrival _ _ _ => true
  | .twCollectionEnd _ => true
  | .pmuFltrig _ => true
  | .faultRecordComplete _ => true
  | .twremWrite _ _ time tap _ => decide (time < 2 ^ 64 ∧ tap < 64)
  | .powerSample _ => true
  | .pulseStart _ k => decide (k < 4)
  | .pulseEnd _ k => decide (k < 4)
  | .meterSnapshot _ => true
  | .meterZero _ => true
  | .meterRecordCopy _ => true
  | .meterInputInvalid _ ch => decide (ch < 6)
  | .ethFrameRx _ i _ _ _ => decide (i < 2)
  | .discardEntryExpire _ => true
  | .ethFrameTx _ i => decide (i < 2)
  | .prpSupervisionTx _ => true
  | .lanSilent _ i => decide (i < 2)
  | .linkPoll _ i _ => decide (i < 2)
  | .mdioAccess _ v => decide (v < 2 ^ 32)
  | .mdioAccessDone _ d => decide (d < 65536)
  | .safetyPairTimeout _ => true
  | .safetyFrameRx _ => true
  | .safetyFrameTx _ => true
  | .remoteWatchdogExpiry _ m => decide (m < 4)
  | .safetyInputChange _ k ch _ => decide (k < 8 ∧ ch < 2)
  | .discrepancyTimeout _ k => decide (k < 8)
  | .siFaultAck _ mask => decide (mask < 2 ^ 32)
  | .sdoOn _ j _ => decide (j < 4)
  | .sdoFaultAck _ j => decide (j < 4)
  | .sdoReadbackChange _ j ch _ => decide (j < 4 ∧ ch < 2)
  | .sdoReadbackDeadline _ j ch => decide (j < 4 ∧ ch < 2)
  | .testPulse _ j ch => decide (j < 4 ∧ ch < 2)
  | .testPulseEnd _ j => decide (j < 4)
  | .testReturnTimeout _ j => decide (j < 4)
  | .faultEvent _ _ _ => true
  | .fatalEntry _ => true
  | .reactionDone _ => true
  | .faultWindowClose _ j => decide (j < 64)
  | .faultHoldEnd => true
  | .mainPor _ _ => true
  | .rstNAssert _ _ => true
  | .rstNRelease _ => true
  | .rstNLog _ => true
  | .viohLoss _ => true
  | .blockReset b => decide (b < 64)
  | .fuseLoadDone _ words => decide (words.length = 32) && words.all (fun w => decide (w < 2 ^ 32))
  | .domainRelease _ _ _ _ => true
  | .clockGoodTimeout _ => true
  | .interpreterStart _ => true
  | .supplyWarning _ => true
  | .supplyRestored _ => true
  | .keeperPor _ => true
  | .loadCut _ => true
  | .cellDisconnect _ => true
  | .cellReconnect _ => true
  | .chargeEnd _ => true
  | .chargeRestart _ => true
  | .chargeTimeout _ => true
  | .mppsetSample _ _ _ => true
  | .nvJudge _ _ => true
  | .nvBurstDone _ _ => true
  | .nvBurstAbort _ _ => true
  | .kprSleep _ _ => true
  | .rtcAlarm _ => true
  | .istPassStart _ k _ _ _ => decide (k < 8)
  | .istPassLate _ k => decide (k < 8)
  | .laneWindowEnd _ => true
  | .tapBypass _ code => decide (code < 256)
  | .tapIdcode _ => true
  | .tapSamplePreload _ _ _ => true
  | .tapExtest _ => true
  | .tapPtest _ => true
  | .mainPorRelease _ => true
  | .powerGood _ => true
  | .crystalOscillatorStart _ => true
  | .preChargeEnd _ => true
  | .harvesterColdStart _ => true
  | .testLogicReset _ => true

end Sys2Proof
end

