-- ==== Sys2Proof/Laws/PerInstr.lean ====
section
/-! SUPPORT. Statements about every command as syntax, one lemma per constructor. -/

namespace Sys2Proof.Laws

/-- A well-formed command names a unit that the block has. -/
def Wf.Statement (i : Instr) : Prop := i.wf = true → i.unit < i.units

theorem Wf.transaction (t : Nat) (edges : Nat) (data : List Byte) (hold : Bool) : Wf.Statement (.transaction t edges data hold) := by
  intro _; exact Nat.one_pos
theorem Wf.idleTimeout (t : Nat) : Wf.Statement (.idleTimeout t) := by
  intro _; exact Nat.one_pos
theorem Wf.nop (t : Nat) (tag : Nat) (flg : Nat) (crc : Word) : Wf.Statement (.nop t tag flg crc) := by
  intro _; exact Nat.one_pos
theorem Wf.peek (t : Nat) (tag : Nat) (flg : Nat) (crc : Word) : Wf.Statement (.peek t tag flg crc) := by
  intro _; exact Nat.one_pos
theorem Wf.fetch (t : Nat) (tag : Nat) (flg : Nat) (crc : Word) (edges : Nat) : Wf.Statement (.fetch t tag flg crc edges) := by
  intro _; exact Nat.one_pos
theorem Wf.unassignedOpcode (t : Nat) : Wf.Statement (.unassignedOpcode t) := by
  intro _; exact Nat.one_pos
theorem Wf.getAttr (t : Nat) : Wf.Statement (.getAttr t) := by
  intro _; exact Nat.one_pos
theorem Wf.setAttr (t : Nat) : Wf.Statement (.setAttr t) := by
  intro _; exact Nat.one_pos
theorem Wf.getBlock (t : Nat) : Wf.Statement (.getBlock t) := by
  intro _; exact Nat.one_pos
theorem Wf.setBlock (t : Nat) : Wf.Statement (.setBlock t) := by
  intro _; exact Nat.one_pos
theorem Wf.modify (t : Nat) : Wf.Statement (.modify t) := by
  intro _; exact Nat.one_pos
theorem Wf.modifyStep : Wf.Statement (.modifyStep) := by
  intro _; exact Nat.one_pos
theorem Wf.stagedWritesApply : Wf.Statement (.stagedWritesApply) := by
  intro _; exact Nat.one_pos
theorem Wf.commitConfig (t : Nat) : Wf.Statement (.commitConfig t) := by
  intro _; exact Nat.one_pos
theorem Wf.configCheck (t : Nat) : Wf.Statement (.configCheck t) := by
  intro _; exact Nat.one_pos
theorem Wf.armMap (t : Nat) : Wf.Statement (.armMap t) := by
  intro _; exact Nat.one_pos
theorem Wf.laneAdmit (t : Nat) : Wf.Statement (.laneAdmit t) := by
  intro _; exact Nat.one_pos
theorem Wf.laneAdmitStart : Wf.Statement (.laneAdmitStart) := by
  intro _; exact Nat.one_pos
theorem Wf.laneRetire (t : Nat) : Wf.Statement (.laneRetire t) := by
  intro _; exact Nat.one_pos
theorem Wf.captureArm (t : Nat) : Wf.Statement (.captureArm t) := by
  intro _; exact Nat.one_pos
theorem Wf.captureRelease (t : Nat) : Wf.Statement (.captureRelease t) := by
  intro _; exact Nat.one_pos
theorem Wf.readPage (t : Nat) (errs : List (Nat × Bool)) : Wf.Statement (.readPage t errs) := by
  intro _; exact Nat.one_pos
theorem Wf.timeGet (t : Nat) : Wf.Statement (.timeGet t) := by
  intro _; exact Nat.one_pos
theorem Wf.timeStep (t : Nat) : Wf.Statement (.timeStep t) := by
  intro _; exact Nat.one_pos
theorem Wf.timeRate (t : Nat) : Wf.Statement (.timeRate t) := by
  intro _; exact Nat.one_pos
theorem Wf.tripClear (t : Nat) : Wf.Statement (.tripClear t) := by
  intro _; exact Nat.one_pos
theorem Wf.faultAck (t : Nat) : Wf.Statement (.faultAck t) := by
  intro _; exact Nat.one_pos
theorem Wf.resetCmd (t : Nat) : Wf.Statement (.resetCmd t) := by
  intro _; exact Nat.one_pos
theorem Wf.resetBegin (t : Nat) : Wf.Statement (.resetBegin t) := by
  intro _; exact Nat.one_pos
theorem Wf.selftest (t : Nat) : Wf.Statement (.selftest t) := by
  intro _; exact Nat.one_pos
theorem Wf.commitNv (t : Nat) (vst : Nat) : Wf.Statement (.commitNv t vst) := by
  intro _; exact Nat.one_pos
theorem Wf.identify (t : Nat) : Wf.Statement (.identify t) := by
  intro _; exact Nat.one_pos
theorem Wf.patchBegin (t : Nat) : Wf.Statement (.patchBegin t) := by
  intro _; exact Nat.one_pos
theorem Wf.patchData (t : Nat) : Wf.Statement (.patchData t) := by
  intro _; exact Nat.one_pos
theorem Wf.patchFinish (t : Nat) : Wf.Statement (.patchFinish t) := by
  intro _; exact Nat.one_pos
theorem Wf.tick (place : Option Nat) (slots : Nat) (stall : Bool) : Wf.Statement (.tick place slots stall) := by
  intro _; exact Nat.one_pos
theorem Wf.tickStrobe : Wf.Statement (.tickStrobe) := by
  intro _; exact Nat.one_pos
theorem Wf.launch : Wf.Statement (.launch) := by
  intro _; exact Nat.one_pos
theorem Wf.uplinkFrame (t : Nat) (n : Nat) (before : List Nat) (comma : Nat) (frame : List Nat) : Wf.Statement (.uplinkFrame t n before comma frame) := by
  intro h; simp only [Instr.wf, Bool.and_eq_true, decide_eq_true_eq] at h; exact h.1.1
theorem Wf.syncLoss (t : Nat) (n : Nat) : Wf.Statement (.syncLoss t n) := by
  intro h; exact of_decide_eq_true h
theorem Wf.lossOfLight (t : Nat) (n : Nat) : Wf.Statement (.lossOfLight t n) := by
  intro h; exact of_decide_eq_true h
theorem Wf.admissionTimeout (t : Nat) (n : Nat) : Wf.Statement (.admissionTimeout t n) := by
  intro h; exact of_decide_eq_true h
theorem Wf.selfTestTimeout (t : Nat) (n : Nat) : Wf.Statement (.selfTestTimeout t n) := by
  intro h; exact of_decide_eq_true h
theorem Wf.autoAdmissionStart (n : Nat) : Wf.Statement (.autoAdmissionStart n) := by
  intro h; exact of_decide_eq_true h
theorem Wf.laneResumeDown : Wf.Statement (.laneResumeDown) := by
  intro _; exact Nat.one_pos
theorem Wf.odiagRequest (t : Nat) (n : Nat) : Wf.Statement (.odiagRequest t n) := by
  intro h; exact of_decide_eq_true h
theorem Wf.odiagTimeout (t : Nat) (n : Nat) : Wf.Statement (.odiagTimeout t n) := by
  intro h; exact of_decide_eq_true h
theorem Wf.carrierEvent (t : Nat) (lane : Bool) (i : Nat) : Wf.Statement (.carrierEvent t lane i) := by
  intro h; exact of_decide_eq_true h
theorem Wf.bootstrapRefreshEnd (t : Nat) (p : Nat) : Wf.Statement (.bootstrapRefreshEnd t p) := by
  intro h; exact of_decide_eq_true h
theorem Wf.mtrigDelivery (t : Nat) : Wf.Statement (.mtrigDelivery t) := by
  intro _; exact Nat.one_pos
theorem Wf.dhbTurnOn (t : Nat) (p : Nat) (up : Bool) : Wf.Statement (.dhbTurnOn t p up) := by
  intro h; exact of_decide_eq_true h
theorem Wf.dhbHandshakeTimeout (t : Nat) (p : Nat) (up : Bool) : Wf.Statement (.dhbHandshakeTimeout t p up) := by
  intro h; exact of_decide_eq_true h
theorem Wf.dhbAckChange (t : Nat) (p : Nat) (up : Bool) (level : Bool) (held : Bool) : Wf.Statement (.dhbAckChange t p up level held) := by
  intro h; exact of_decide_eq_true h
theorem Wf.dhbResume (t : Nat) (p : Nat) : Wf.Statement (.dhbResume t p) := by
  intro h; exact of_decide_eq_true h
theorem Wf.dhbForce (t : Nat) (p : Nat) (v : Nat) : Wf.Statement (.dhbForce t p v) := by
  intro h; exact (of_decide_eq_true h).1
theorem Wf.comparatorDecision (t : Nat) (k : Nat) (vd : Int) (th : Int) (h : Int) : Wf.Statement (.comparatorDecision t k vd th h) := by
  intro h; exact of_decide_eq_true h
theorem Wf.tripInput (t : Nat) (n : Nat) (low : Bool) (ps : Nat) : Wf.Statement (.tripInput t n low ps) := by
  intro h; exact of_decide_eq_true h
theorem Wf.tripHoldEnd : Wf.Statement (.tripHoldEnd) := by
  intro _; exact Nat.one_pos
theorem Wf.comparatorFirstDecision (t : Nat) (k : Nat) (vd : Int) (th : Int) (h : Int) : Wf.Statement (.comparatorFirstDecision t k vd th h) := by
  intro h; exact of_decide_eq_true h
theorem Wf.comparatorSelfTest (t : Nat) (res : Option (Bool × Bool × Int)) : Wf.Statement (.comparatorSelfTest t res) := by
  intro _; exact Nat.one_pos
theorem Wf.thresholdReadback (t : Nat) (vd : Int) : Wf.Statement (.thresholdReadback t vd) := by
  intro _; exact Nat.one_pos
theorem Wf.conversionResult (t : Nat) (g : Nat) (kind : ConvKind) (vd : Int) (done : Bool) : Wf.Statement (.conversionResult t g kind vd done) := by
  intro h; simp only [Instr.wf, Bool.and_eq_true, decide_eq_true_eq] at h; exact h.1
theorem Wf.sequenceTrigger (t : Nat) : Wf.Statement (.sequenceTrigger t) := by
  intro _; exact Nat.one_pos
theorem Wf.adcHostTrigger (t : Nat) (go : Nat) : Wf.Statement (.adcHostTrigger t go) := by
  intro _; exact Nat.one_pos
theorem Wf.sequenceEnd (t : Nat) (g : Nat) : Wf.Statement (.sequenceEnd t g) := by
  intro h; exact of_decide_eq_true h
theorem Wf.sequenceRecord (t : Nat) (g : Nat) : Wf.Statement (.sequenceRecord t g) := by
  intro h; exact of_decide_eq_true h
theorem Wf.foregroundCalibrationDone (t : Nat) (g : Nat) (errs : List (Int × Int)) : Wf.Statement (.foregroundCalibrationDone t g errs) := by
  intro h; exact (of_decide_eq_true h).1
theorem Wf.sliceCalibrationEnd (t : Nat) (g : Nat) (gerr : Int) (oerr : Int) : Wf.Statement (.sliceCalibrationEnd t g gerr oerr) := by
  intro h; exact of_decide_eq_true h
theorem Wf.sliceHandover (t : Nat) (g : Nat) (sum : Int) : Wf.Statement (.sliceHandover t g sum) := by
  intro h; exact of_decide_eq_true h
theorem Wf.sliceFail (t : Nat) (g : Nat) (s_ : Nat) : Wf.Statement (.sliceFail t g s_) := by
  intro h; exact (of_decide_eq_true h).1
theorem Wf.serviceConversion (t : Nat) (g : Nat) (ch : Nat) (vd : Int) : Wf.Statement (.serviceConversion t g ch vd) := by
  intro h; exact (of_decide_eq_true h).1
theorem Wf.pageRequest (t : Nat) : Wf.Statement (.pageRequest t) := by
  intro _; exact Nat.one_pos
theorem Wf.captureTrigger (t : Nat) : Wf.Statement (.captureTrigger t) := by
  intro _; exact Nat.one_pos
theorem Wf.pgmHostTrigger (t : Nat) (go : Nat) : Wf.Statement (.pgmHostTrigger t go) := by
  intro _; exact Nat.one_pos
theorem Wf.pageRetire (t : Nat) (p : Nat) : Wf.Statement (.pageRetire t p) := by
  intro h; exact of_decide_eq_true h
theorem Wf.refclkLoss (t : Nat) (b : Bool) : Wf.Statement (.refclkLoss t b) := by
  intro _; exact Nat.one_pos
theorem Wf.refclkDrift (t : Nat) (w : Drift) : Wf.Statement (.refclkDrift t w) := by
  intro _; exact Nat.one_pos
theorem Wf.refclkGood (t : Nat) (b : Bool) : Wf.Statement (.refclkGood t b) := by
  intro _; exact Nat.one_pos
theorem Wf.refclkRevert (t : Nat) : Wf.Statement (.refclkRevert t) := by
  intro _; exact Nat.one_pos
theorem Wf.refclkPrefWrite (t : Nat) (b : Bool) : Wf.Statement (.refclkPrefWrite t b) := by
  intro _; exact Nat.one_pos
theorem Wf.dllLock (t : Nat) : Wf.Statement (.dllLock t) := by
  intro _; exact Nat.one_pos
theorem Wf.dllChainSwitch (t : Nat) : Wf.Statement (.dllChainSwitch t) := by
  intro _; exact Nat.one_pos
theorem Wf.dllUnlock (t : Nat) : Wf.Statement (.dllUnlock t) := by
  intro _; exact Nat.one_pos
theorem Wf.dllRelockTimeout (t : Nat) : Wf.Statement (.dllRelockTimeout t) := by
  intro _; exact Nat.one_pos
theorem Wf.ptpMessage (t : Nat) (i : Nat) (m : PtpMsg) : Wf.Statement (.ptpMessage t i m) := by
  intro h; exact of_decide_eq_true h
theorem Wf.ptpTransmit (t : Nat) (i : Nat) (k : PtpKind) : Wf.Statement (.ptpTransmit t i k) := by
  intro h; exact of_decide_eq_true h
theorem Wf.ptpAnnounceTimeout (t : Nat) (i : Nat) : Wf.Statement (.ptpAnnounceTimeout t i) := by
  intro h; exact of_decide_eq_true h
theorem Wf.ptpSyncTimeout (t : Nat) (i : Nat) : Wf.Statement (.ptpSyncTimeout t i) := by
  intro h; exact of_decide_eq_true h
theorem Wf.holdoverTimeout (t : Nat) : Wf.Statement (.holdoverTimeout t) := by
  intro _; exact Nat.one_pos
theorem Wf.ppsInEdge (p : Pulse) : Wf.Statement (.ppsInEdge p) := by
  intro _; exact Nat.one_pos
theorem Wf.ppsInMissing (t : Nat) : Wf.Statement (.ppsInMissing t) := by
  intro _; exact Nat.one_pos
theorem Wf.ppsOutPulse (t : Nat) : Wf.Statement (.ppsOutPulse t) := by
  intro _; exact Nat.one_pos
theorem Wf.ppsOutEnd (t : Nat) : Wf.Statement (.ppsOutEnd t) := by
  intro _; exact Nat.one_pos
theorem Wf.syncInEdge (p : Pulse) : Wf.Statement (.syncInEdge p) := by
  intro _; exact Nat.one_pos
theorem Wf.timestampInput (t : Nat) (u : Nat) (e : PinEdge) : Wf.Statement (.timestampInput t u e) := by
  intro h; exact of_decide_eq_true h
theorem Wf.rtcWrite (t : Nat) : Wf.Statement (.rtcWrite t) := by
  intro _; exact Nat.one_pos
theorem Wf.trigSlotEvaluation (w : TrigTurn) : Wf.Statement (.trigSlotEvaluation w) := by
  intro _; exact Nat.one_pos
theorem Wf.grdTripClear (t : Nat) : Wf.Statement (.grdTripClear t) := by
  intro _; exact Nat.one_pos
theorem Wf.grdIslandClear (t : Nat) : Wf.Statement (.grdIslandClear t) := by
  intro _; exact Nat.one_pos
theorem Wf.pmuReport (t : Nat) (sec : Int) (k : Nat) : Wf.Statement (.pmuReport t sec k) := by
  intro h; exact of_decide_eq_true h
theorem Wf.turnOffTransmission (t : Nat) : Wf.Statement (.turnOffTransmission t) := by
  intro _; exact Nat.one_pos
theorem Wf.turnOnTransmission (t : Nat) : Wf.Statement (.turnOnTransmission t) := by
  intro _; exact Nat.one_pos
theorem Wf.sendCfg1 (t : Nat) : Wf.Statement (.sendCfg1 t) := by
  intro _; exact Nat.one_pos
theorem Wf.sendCfg2 (t : Nat) : Wf.Statement (.sendCfg2 t) := by
  intro _; exact Nat.one_pos
theorem Wf.pmuCommandIgnored (t : Nat) : Wf.Statement (.pmuCommandIgnored t) := by
  intro _; exact Nat.one_pos
theorem Wf.twArrival (t : Nat) (x : Nat) (l : List TwSample) : Wf.Statement (.twArrival t x l) := by
  intro _; exact Nat.one_pos
theorem Wf.twCollectionEnd (t : Nat) : Wf.Statement (.twCollectionEnd t) := by
  intro _; exact Nat.one_pos
theorem Wf.pmuFltrig (t : Nat) : Wf.Statement (.pmuFltrig t) := by
  intro _; exact Nat.one_pos
theorem Wf.faultRecordComplete (t : Nat) : Wf.Statement (.faultRecordComplete t) := by
  intro _; exact Nat.one_pos
theorem Wf.twremWrite (t : Nat) (num : Nat) (time : Nat) (tap : Nat) (fine : Nat) : Wf.Statement (.twremWrite t num time tap fine) := by
  intro _; exact Nat.one_pos
theorem Wf.powerSample (t : Nat) : Wf.Statement (.powerSample t) := by
  intro _; exact Nat.one_pos
theorem Wf.pulseStart (t : Nat) (k : Nat) : Wf.Statement (.pulseStart t k) := by
  intro h; exact of_decide_eq_true h
theorem Wf.pulseEnd (t : Nat) (k : Nat) : Wf.Statement (.pulseEnd t k) := by
  intro h; exact of_decide_eq_true h
theorem Wf.meterSnapshot (t : Nat) : Wf.Statement (.meterSnapshot t) := by
  intro _; exact Nat.one_pos
theorem Wf.meterZero (t : Nat) : Wf.Statement (.meterZero t) := by
  intro _; exact Nat.one_pos
theorem Wf.meterRecordCopy (t : Nat) : Wf.Statement (.meterRecordCopy t) := by
  intro _; exact Nat.one_pos
theorem Wf.meterInputInvalid (t : Nat) (ch : Nat) : Wf.Statement (.meterInputInvalid t ch) := by
  intro h; exact of_decide_eq_true h
theorem Wf.ethFrameRx (t : Nat) (i : Nat) (f : List Byte) (fcs : Bool) (full : Bool) : Wf.Statement (.ethFrameRx t i f fcs full) := by
  intro h; exact of_decide_eq_true h
theorem Wf.discardEntryExpire (t : Nat) : Wf.Statement (.discardEntryExpire t) := by
  intro _; exact Nat.one_pos
theorem Wf.ethFrameTx (t : Nat) (i : Nat) : Wf.Statement (.ethFrameTx t i) := by
  intro h; exact of_decide_eq_true h
theorem Wf.prpSupervisionTx (t : Nat) : Wf.Statement (.prpSupervisionTx t) := by
  intro _; exact Nat.one_pos
theorem Wf.lanSilent (t : Nat) (i : Nat) : Wf.Statement (.lanSilent t i) := by
  intro h; exact of_decide_eq_true h
theorem Wf.linkPoll (t : Nat) (i : Nat) (up : Bool) : Wf.Statement (.linkPoll t i up) := by
  intro h; exact of_decide_eq_true h
theorem Wf.mdioAccess (t : Nat) (v : Nat) : Wf.Statement (.mdioAccess t v) := by
  intro _; exact Nat.one_pos
theorem Wf.mdioAccessDone (t : Nat) (d : Nat) : Wf.Statement (.mdioAccessDone t d) := by
  intro _; exact Nat.one_pos
theorem Wf.safetyPairTimeout (t : Nat) : Wf.Statement (.safetyPairTimeout t) := by
  intro _; exact Nat.one_pos
theorem Wf.safetyFrameRx (t : Nat) : Wf.Statement (.safetyFrameRx t) := by
  intro _; exact Nat.one_pos
theorem Wf.safetyFrameTx (t : Nat) : Wf.Statement (.safetyFrameTx t) := by
  intro _; exact Nat.one_pos
theorem Wf.remoteWatchdogExpiry (t : Nat) (m : Nat) : Wf.Statement (.remoteWatchdogExpiry t m) := by
  intro h; exact of_decide_eq_true h
theorem Wf.safetyInputChange (t : Nat) (k : Nat) (ch : Nat) (level : Bool) : Wf.Statement (.safetyInputChange t k ch level) := by
  intro h; exact (of_decide_eq_true h).1
theorem Wf.discrepancyTimeout (t : Nat) (k : Nat) : Wf.Statement (.discrepancyTimeout t k) := by
  intro h; exact of_decide_eq_true h
theorem Wf.siFaultAck (t : Nat) (mask : Nat) : Wf.Statement (.siFaultAck t mask) := by
  intro _; exact Nat.one_pos
theorem Wf.sdoOn (t : Nat) (j : Nat) (on : Bool) : Wf.Statement (.sdoOn t j on) := by
  intro h; exact of_decide_eq_true h
theorem Wf.sdoFaultAck (t : Nat) (j : Nat) : Wf.Statement (.sdoFaultAck t j) := by
  intro h; exact of_decide_eq_true h
theorem Wf.sdoReadbackChange (t : Nat) (j : Nat) (ch : Nat) (level : Bool) : Wf.Statement (.sdoReadbackChange t j ch level) := by
  intro h; exact (of_decide_eq_true h).1
theorem Wf.sdoReadbackDeadline (t : Nat) (j : Nat) (ch : Nat) : Wf.Statement (.sdoReadbackDeadline t j ch) := by
  intro h; exact (of_decide_eq_true h).1
theorem Wf.testPulse (t : Nat) (j : Nat) (ch : Nat) : Wf.Statement (.testPulse t j ch) := by
  intro h; exact (of_decide_eq_true h).1
theorem Wf.testPulseEnd (t : Nat) (j : Nat) : Wf.Statement (.testPulseEnd t j) := by
  intro h; exact of_decide_eq_true h
theorem Wf.testReturnTimeout (t : Nat) (j : Nat) : Wf.Statement (.testReturnTimeout t j) := by
  intro h; exact of_decide_eq_true h
theorem Wf.faultEvent (t : Nat) (n : Nat) (fw : Bool) : Wf.Statement (.faultEvent t n fw) := by
  intro _; exact Nat.one_pos
theorem Wf.fatalEntry (t : Nat) : Wf.Statement (.fatalEntry t) := by
  intro _; exact Nat.one_pos
theorem Wf.reactionDone (t : Nat) : Wf.Statement (.reactionDone t) := by
  intro _; exact Nat.one_pos
theorem Wf.faultWindowClose (t : Nat) (j : Nat) : Wf.Statement (.faultWindowClose t j) := by
  intro h; exact of_decide_eq_true h
theorem Wf.faultHoldEnd : Wf.Statement (.faultHoldEnd) := by
  intro _; exact Nat.one_pos
theorem Wf.mainPor (t : Nat) (vin : Bool) : Wf.Statement (.mainPor t vin) := by
  intro _; exact Nat.one_pos
theorem Wf.rstNAssert (t : Nat) (long : Bool) : Wf.Statement (.rstNAssert t long) := by
  intro _; exact Nat.one_pos
theorem Wf.rstNRelease (t : Nat) : Wf.Statement (.rstNRelease t) := by
  intro _; exact Nat.one_pos
theorem Wf.rstNLog (t : Nat) : Wf.Statement (.rstNLog t) := by
  intro _; exact Nat.one_pos
theorem Wf.viohLoss (t : Nat) : Wf.Statement (.viohLoss t) := by
  intro _; exact Nat.one_pos
theorem Wf.blockReset (b : Nat) : Wf.Statement (.blockReset b) := by
  intro h; exact of_decide_eq_true h
theorem Wf.fuseLoadDone (t : Nat) (words : List Nat) : Wf.Statement (.fuseLoadDone t words) := by
  intro _; exact Nat.one_pos
theorem Wf.domainRelease (t : Nat) (refA : Bool) (refB : Bool) (vioh : Bool) : Wf.Statement (.domainRelease t refA refB vioh) := by
  intro _; exact Nat.one_pos
theorem Wf.clockGoodTimeout (t : Nat) : Wf.Statement (.clockGoodTimeout t) := by
  intro _; exact Nat.one_pos
theorem Wf.interpreterStart (t : Nat) : Wf.Statement (.interpreterStart t) := by
  intro _; exact Nat.one_pos
theorem Wf.supplyWarning (t : Nat) : Wf.Statement (.supplyWarning t) := by
  intro _; exact Nat.one_pos
theorem Wf.supplyRestored (t : Nat) : Wf.Statement (.supplyRestored t) := by
  intro _; exact Nat.one_pos
theorem Wf.keeperPor (t : Nat) : Wf.Statement (.keeperPor t) := by
  intro _; exact Nat.one_pos
theorem Wf.loadCut (t : Nat) : Wf.Statement (.loadCut t) := by
  intro _; exact Nat.one_pos
theorem Wf.cellDisconnect (t : Nat) : Wf.Statement (.cellDisconnect t) := by
  intro _; exact Nat.one_pos
theorem Wf.cellReconnect (t : Nat) : Wf.Statement (.cellReconnect t) := by
  intro _; exact Nat.one_pos
theorem Wf.chargeEnd (t : Nat) : Wf.Statement (.chargeEnd t) := by
  intro _; exact Nat.one_pos
theorem Wf.chargeRestart (t : Nat) : Wf.Statement (.chargeRestart t) := by
  intro _; exact Nat.one_pos
theorem Wf.chargeTimeout (t : Nat) : Wf.Statement (.chargeTimeout t) := by
  intro _; exact Nat.one_pos
theorem Wf.mppsetSample (t : Nat) (ohms : Nat) (vteg : Nat) : Wf.Statement (.mppsetSample t ohms vteg) := by
  intro _; exact Nat.one_pos
theorem Wf.nvJudge (t : Nat) (vst : Nat) : Wf.Statement (.nvJudge t vst) := by
  intro _; exact Nat.one_pos
theorem Wf.nvBurstDone (t : Nat) (vst : Nat) : Wf.Statement (.nvBurstDone t vst) := by
  intro _; exact Nat.one_pos
theorem Wf.nvBurstAbort (t : Nat) (vst : Nat) : Wf.Statement (.nvBurstAbort t vst) := by
  intro _; exact Nat.one_pos
theorem Wf.kprSleep (t : Nat) (vst : Nat) : Wf.Statement (.kprSleep t vst) := by
  intro _; exact Nat.one_pos
theorem Wf.rtcAlarm (t : Nat) : Wf.Statement (.rtcAlarm t) := by
  intro _; exact Nat.one_pos
theorem Wf.istPassStart (t : Nat) (k : Nat) (done : Bool) (ok : Bool) (errs : List (Nat × Nat × Bool)) : Wf.Statement (.istPassStart t k done ok errs) := by
  intro h; exact of_decide_eq_true h
theorem Wf.istPassLate (t : Nat) (k : Nat) : Wf.Statement (.istPassLate t k) := by
  intro h; exact of_decide_eq_true h
theorem Wf.laneWindowEnd (t : Nat) : Wf.Statement (.laneWindowEnd t) := by
  intro _; exact Nat.one_pos
theorem Wf.tapBypass (t : Nat) (code : Nat) : Wf.Statement (.tapBypass t code) := by
  intro _; exact Nat.one_pos
theorem Wf.tapIdcode (t : Nat) : Wf.Statement (.tapIdcode t) := by
  intro _; exact Nat.one_pos
theorem Wf.tapSamplePreload (t : Nat) (pins : List Bool) (load : List Bool) : Wf.Statement (.tapSamplePreload t pins load) := by
  intro _; exact Nat.one_pos
theorem Wf.tapExtest (t : Nat) : Wf.Statement (.tapExtest t) := by
  intro _; exact Nat.one_pos
theorem Wf.tapPtest (t : Nat) : Wf.Statement (.tapPtest t) := by
  intro _; exact Nat.one_pos
theorem Wf.mainPorRelease (t : Nat) : Wf.Statement (.mainPorRelease t) := by
  intro _; exact Nat.one_pos
theorem Wf.powerGood (t : Nat) : Wf.Statement (.powerGood t) := by
  intro _; exact Nat.one_pos
theorem Wf.crystalOscillatorStart (t : Nat) : Wf.Statement (.crystalOscillatorStart t) := by
  intro _; exact Nat.one_pos
theorem Wf.preChargeEnd (t : Nat) : Wf.Statement (.preChargeEnd t) := by
  intro _; exact Nat.one_pos
theorem Wf.harvesterColdStart (t : Nat) : Wf.Statement (.harvesterColdStart t) := by
  intro _; exact Nat.one_pos
theorem Wf.testLogicReset (t : Nat) : Wf.Statement (.testLogicReset t) := by
  intro _; exact Nat.one_pos

end Sys2Proof.Laws
end

