-- ==== Sys2Proof/Machine/Pins.lean ====
section
/-! DEFINITION. What the output pins show of the state: their states in reset and the levels that the blocks drive (R70, R205, R332,
R334, R429, R455, R486, R505, R575). No command reads a pin of its own device. -/

namespace Sys2Proof.Machine

open Reg

/-- What a pin shows. -/
inductive Level where
  | low
  | high
  | floating      -- high-impedance
  | pulledDown    -- high-impedance with pull-down
  | kept          -- high-impedance with a bus keeper
  | signal        -- the frames, words or octets that the block sends
  deriving DecidableEq, Repr

/-- Output and bidirectional digital pins: lane output, ON and ST of a switch (port, upper), channel of a safe disconnect output
(output, channel A 0 or B 1), host data line, pulse output, transmit pins of an Ethernet port (0 ETHA, 1 ETHB), and the single ones. -/
inductive OutPin where
  | tlo (n : Nat)
  | on (p : Nat) (up : Bool)
  | st (p : Nat) (up : Bool)
  | sdo (j ch : Nat)
  | hpd (k : Nat)
  | pls (k : Nat)
  | rgmii (i : Nat)
  | devok
  | hpirq
  | ppsOut
  | syncOut
  | mdc
  | mdio
  deriving DecidableEq, Repr

/-- A driven level. -/
def Level.ofBool (b : Bool) : Level := if b then .high else .low

/-- The reset state that a one-bit fuse field of low or high-impedance selects. -/
def lowOrFloating (code : Nat) : Level := if code = 0 then .low else .floating

/-- The state of PLS0 to PLS3 in reset (RST.FPIN.PLSRS). -/
def plsInReset (code : Nat) : Level :=
  if code = 0 then .low else if code = 1 then .high else if code = 2 then .pulledDown else .floating

/-- HPIRQ_N: low while asserted, else as IRQOD says (R70). -/
def Chip.hpirqPin (c : Chip) : Level := if c.irq then .low else if c.on HPP.CFG.IRQOD then .floating else .high

/-- A pin holds its reset state until its domain is released (R505), then shows what its block drives; fuse-selected states are those
of the copies of the fuse shadow (R500). MDC and MDIO follow the main domain's fabric (log entry 84). -/
def Chip.pinLevel (c : Chip) : OutPin → Level
  | .tlo n => .ofBool (c.tloPin n c.now)
  | .on p up => .ofBool (c.released 4 && ((c.port p).sw up).on)
  | .st p up => .ofBool (c.released 4 && c.stPin p up)
  | .sdo j ch => .ofBool (c.fabric && (c.sdo j).level ch)
  | .hpd k => if c.released 7 then .signal else if k = 2 ∨ k = 3 then .kept else .floating
  | .pls k => if c.fabric then .ofBool (c.plsPin k) else plsInReset (c.get RST.FPIN.PLSRS)
  | .rgmii i => if c.released (5 + i) then .signal else lowOrFloating (c.get RST.FPIN.ETHRS)
  | .devok => .ofBool c.devok
  | .hpirq => if c.released 7 then c.hpirqPin else if c.on RST.FPIN.IRQRS then .high else .floating
  | .ppsOut => if c.released 1 then .ofBool c.tim.ppsHigh else lowOrFloating (c.get RST.FPIN.TIMRS)
  | .syncOut => if c.released 1 then .ofBool c.syncOut else lowOrFloating (c.get RST.FPIN.TIMRS)
  | .mdc => if c.fabric then .signal else lowOrFloating (c.get RST.FPIN.ETHRS)
  | .mdio => if c.fabric then .signal else .floating

end Sys2Proof.Machine
end

