-- ==== Sys2Proof/Tests/Slice0.lean ====
section
/-! SUPPORT. The model's own tests: each range check of WellFormed refuses a term, worked figures of the spec, and for every
statement of the obligations a concrete state and operands that meet the hypotheses of each of its clauses together. A clause whose
only hypothesis is s.Inv, or s.Inv and the negation of a condition that is false at reset, is met by State.reset. -/

namespace Sys2Proof.Tests

open Sys2Proof.Machine Sys2Proof.Machine.Reg

set_option maxRecDepth 100000
set_option Elab.async false

/-! States to test on -/

/-- Fields set to values: field, instance, value. -/
def put (l : List (Fld × Nat × Nat)) (s : State) : State :=
  { s with chip := l.foldl (fun c e => c.set e.1 e.2.1 e.2.2) s.chip }

/-- A part of the chip changed. -/
def alter (f : Chip → Chip) (s : State) : State := { s with chip := f s.chip }

/-- The state after a command. -/
def after (i : Instr) (s : State) : State :=
  match exec i s with
  | .next u => u
  | _ => s

/-- Command i has a next state, and p holds there. -/
def gives (i : Instr) (s : State) (p : State → Bool) : Bool :=
  match exec i s with
  | .next u => p u
  | _ => false

/-- All domains released, no reset sequence, state CONFIG, port ready. -/
def up : State :=
  alter (fun c => { c with hpp := { c.hpp with rdy := true }, rst := { c.rst with seq := none } }) (put [(RST.DOM.REL, 0, 255), (DEV.STATE.STATE, 0, 2)] State.reset)

/-- The same in RUN with ticks running, the next tick reference at 640,000 taps (80 µs). -/
def run : State :=
  alter (fun c => { c with dev := { c.dev with committed := true, ticking := true, nextT0 := 640000 } })
    (put [(DEV.STATE.STATE, 0, 3)] up)

/-- A bool form of State.Inv. -/
def inv (s : State) : Bool := Memory.wf s.sram && decide (s.chip.pgm.wq = [])

theorem inv_spec {s : State} (h : inv s = true) : s.Inv := by
  simp only [inv, Bool.and_eq_true, decide_eq_true_eq] at h
  exact h

/-- Lanes of arms 0 and 1, lane 0 STANDBY, lane 1 BLOCKED with lock, lane 2 ACTIVE. -/
def mapped (s : State) : State :=
  put [(LNK.STATE.ARM, 0, 0), (LNK.STATE.ARM, 1, 0), (LNK.STATE.ARM, 2, 1), (LNK.STATE.STATE, 0, 2), (LNK.STATE.STATE, 1, 5),
    (LNK.STAT.LOCK, 1, 1), (LNK.STATE.STATE, 2, 4), (LNK.STAT.LOCK, 2, 1)] s

/-- The link side of lane n changed. -/
def lane (n : Nat) (f : LaneRec → LaneRec) (s : State) : State := alter (fun c => c.setLane n (f (c.lane n))) s

/-- Port p changed. -/
def port (p : Nat) (f : Port → Port) (s : State) : State := alter (fun c => c.setPort p (f (c.port p))) s

/-! Packets -/

def packetWords (opc flg : Nat) (l : List Nat) : List Nat :=
  let w := mkHeader opc 7 l.length flg :: l
  w ++ [finalWord w]

def bytesOf (l : List Nat) : List Byte := (l.flatMap wordBytes).map (fun b => BitVec.ofNat 8 b)

/-- A transaction that carries a packet of TAG 7 has been accepted. -/
def sent (opc flg : Nat) (l : List Nat) (s : State) : State :=
  after (.transaction 0 (32 * (l.length + 2)) (bytesOf (packetWords opc flg l)) false) s

/-- The packet at the front is the only one, whole, allowed, with this opcode, FLG and parameter words. -/
def accepts (s : State) (opc flg : Nat) (l : List Nat) : Bool :=
  inv s && s.chip.ready &&
    match s.chip.front with
    | some (p, []) => !p.lost && !p.badLen && !p.badCrc && p.opc == opc && p.flg == flg && p.params == l &&
        !(opc == 0xE0 && flg == 3) &&
        match opRow opc with
        | some o => flg &&& o.flg == flg && o.states.contains s.chip.state && o.len.all (fun n => p.len == n)
        | none => false
    | _ => false

/-- So the hypotheses that the statements about packets share hold of it. -/
theorem accepts_spec {s : State} {opc flg : Nat} {l : List Nat} (h : accepts s opc flg l = true) :
    ∃ p, s.HasPacket p [] ∧ s.Accepts p ∧ p.opc = opc ∧ p.flg = flg ∧ p.params = l := by
  unfold accepts at h
  split at h
  case h_2 => simp at h
  case h_1 p hp =>
    cases ho : opRow opc with
    | none => simp [ho] at h
    | some o =>
      simp only [ho, Bool.and_eq_true, Bool.not_eq_true', beq_iff_eq, Option.all_eq_true] at h
      obtain ⟨⟨hi, hr⟩, ⟨⟨⟨⟨⟨⟨h1, h2⟩, h3⟩, h4⟩, h5⟩, h6⟩, h7⟩, ⟨h8, h9⟩, h10⟩ := h
      refine ⟨p, ⟨inv_spec hi, hp, hr⟩, ⟨h1, h2, h3, o, by rw [h4]; exact ho, by rw [h5]; exact h8, ?_, ?_, h10⟩, h4, h5, h6⟩
      · rw [h4, h5]; rintro ⟨rfl, rfl⟩; simp at h7
      · simpa using h9

/-- The condition q on the packet at the front. -/
def front (s : State) (q : Packet → Bool) : Bool :=
  match s.chip.front with
  | some (p, []) => q p
  | _ => false

theorem up_portIdle : up.PortIdle := ⟨⟨rfl, rfl⟩, rfl, rfl, rfl, rfl, rfl, rfl⟩

/-! Well-formed commands -/

theorem test_wf_refuses_units : ∀ i ∈ ([.uplinkFrame 0 192 [] 0 (List.replicate 10 0), .syncLoss 0 192, .lossOfLight 0 192,
    .admissionTimeout 0 192, .selfTestTimeout 0 192, .autoAdmissionStart 192, .odiagRequest 0 192, .odiagTimeout 0 192,
    .carrierEvent 0 true 192, .carrierEvent 0 false 12, .bootstrapRefreshEnd 0 12, .dhbTurnOn 0 12 true,
    .dhbHandshakeTimeout 0 12 true, .dhbAckChange 0 12 true true true, .dhbResume 0 12, .dhbForce 0 12 0,
    .comparatorDecision 0 96 0 0 0, .comparatorFirstDecision 0 96 0 0 0, .tripInput 0 8 true 0, .conversionResult 0 4 (.tick 0) 0 true,
    .sequenceEnd 0 4, .sequenceRecord 0 4, .foregroundCalibrationDone 0 4 [(0, 0), (0, 0), (0, 0), (0, 0), (0, 0), (0, 0), (0, 0),
    (0, 0), (0, 0)], .sliceCalibrationEnd 0 4 0 0, .sliceHandover 0 4 0, .sliceFail 0 4 0, .serviceConversion 0 4 0 0,
    .pageRetire 0 2048] : List Instr), i.wf = false := by decide +kernel

theorem test_wf_refuses_more_units : ∀ i ∈ ([.ptpTransmit 0 2 .sync, .ptpAnnounceTimeout 0 2, .ptpSyncTimeout 0 2,
    .ptpMessage 0 2 ⟨.sync, 0, 0, 0, 0, 0, false, 0, false, []⟩, .timestampInput 0 16 ⟨true, 5000⟩, .pmuReport 0 0 256, .pulseStart 0 4,
    .pulseEnd 0 4, .meterInputInvalid 0 6, .ethFrameRx 0 2 [] true false, .ethFrameTx 0 2, .lanSilent 0 2, .linkPoll 0 2 true,
    .remoteWatchdogExpiry 0 4, .safetyInputChange 0 8 0 true, .safetyInputChange 0 0 2 true, .discrepancyTimeout 0 8,
    .sdoOn 0 4 true, .sdoFaultAck 0 4, .sdoReadbackChange 0 4 0 true, .sdoReadbackChange 0 0 2 true, .sdoReadbackDeadline 0 4 0,
    .sdoReadbackDeadline 0 0 2, .testPulse 0 4 0, .testPulse 0 0 2, .testPulseEnd 0 4, .testReturnTimeout 0 4,
    .faultWindowClose 0 64, .blockReset 64, .istPassStart 0 8 true true [], .istPassLate 0 8] : List Instr), i.wf = false := by decide +kernel

theorem test_wf_refuses_values : ∀ i ∈ ([.transaction 0 14 [0, 0, 0, 0, 0, 0, 0, 0] false, .nop 0 256 0 0, .nop 0 0 64 0,
    .peek 0 256 0 0, .peek 0 0 64 0, .fetch 0 256 0 0 0, .fetch 0 0 64 0 0, .readPage 0 [(512, true)], .uplinkFrame 0 0 [] 0 [],
    .uplinkFrame 0 0 [] 0 (List.replicate 10 1024), .dhbForce 0 0 (2 ^ 32), .conversionResult 0 0 (.cont 8) 0 true,
    .conversionResult 0 0 (.tick 16) 0 true, .conversionResult 0 0 (.seq 16) 0 true, .adcHostTrigger 0 (2 ^ 32),
    .foregroundCalibrationDone 0 0 [], .sliceFail 0 0 9, .serviceConversion 0 0 16 0, .pgmHostTrigger 0 (2 ^ 32),
    .twremWrite 0 0 (2 ^ 64) 0 0, .twremWrite 0 0 0 64 0, .mdioAccess 0 (2 ^ 32), .mdioAccessDone 0 65536, .siFaultAck 0 (2 ^ 32),
    .fuseLoadDone 0 [], .fuseLoadDone 0 (List.replicate 32 (2 ^ 32)), .tapBypass 0 256] : List Instr), i.wf = false := by decide +kernel

theorem test_no_row_has_bits : decodeTableWord 32 0 = none := rfl

/-! Figures that the spec works out -/

/-- Chapter 24, step 1: ISW with SYNC, RDY, FUSEOK and INFREE 64. -/
theorem test_status_word : (put [(RST.STAT.FUSEOK, 0, 1)] up).chip.isw = 0xAC001000 := by decide +kernel

/-- Chapter 2, the example at R64: after word 251 the writer stands at offset 2,016 with INFREE 0; header 0x052C_0240. -/
theorem test_basin_example :
    (let held : BasinWord := { word := 0, vb := 8, eot := true, ovt := false, bank := 1 }
     let s := alter (fun c => { c with hpp := { c.hpp with unread := [held], bank := 0, off := 246 } }) up
     let w := mkHeader 5 0x2C 9 0 :: List.replicate 9 0
     s.chip.infree = 1 ∧ mkHeader 5 0x2C 9 0 = 0x052C0240 ∧
      gives (.transaction 0 352 (bytesOf (w ++ [finalWord w])) false) s (fun u => u.chip.hpp.off == 252 && u.chip.infree == 0 &&
        (u.chip.hpp.unread.getD 1 held).word % 2 ^ 32 == 0x40022C05 && (u.chip.hpp.unread.getD 6 held).vb == 4 &&
        (u.chip.hpp.unread.getD 6 held).eot && { u.chip with hpp := { u.chip.hpp with unread := u.chip.hpp.unread.drop 1 } }.infree == 32)) := by
  decide +kernel

/-- Chapter 3, the example at R100: LEVEL 0 is refused at entry 0, word 1, and IDLETO keeps its value. -/
theorem test_set_example :
    (let s := sent 0x03 0 [0x04030000, 0, 0x04000000, 0x1400] (put [(HPP.CFG.IDLETO, 0, 10), (HPP.LEVEL.LEVEL, 0, 64)] run)
     gives (.setAttr 5) s (fun u => u.chip.hpp.replies.map (fun r => r.packet.take 2) == [[0x06070040, 1]] &&
       u.chip.get HPP.CFG.IDLETO == 10 && u.chip.dev.staged.isEmpty)) := by decide +kernel

/-- And with LEVEL 0x80: OK at once, both values in force at the coming tick reference. -/
theorem test_set_resent :
    (let s := sent 0x03 0 [0x04030000, 0x80, 0x04000000, 0x1400] (put [(HPP.CFG.IDLETO, 0, 10), (HPP.LEVEL.LEVEL, 0, 64)] run)
     gives (.setAttr 5) s (fun u => u.chip.hpp.replies.map (fun r => r.packet.take 1) == [[0x00070000]] &&
       u.chip.get HPP.CFG.IDLETO == 10 &&
       gives .stagedWritesApply u (fun v => v.chip.get HPP.CFG.IDLETO == 20 && v.chip.get HPP.LEVEL.LEVEL == 128))) := by decide +kernel

/-- Chapter 24, step 6: 15 loop slots in LRP without sections make F 120 and least LAUNCH 147; step 7: APPLY 311 for LAUNCH 150
with DMAX 1 µs. -/
theorem test_config_example :
    (let s := put ((List.range 15).flatMap (fun k => [(CTL.SCFG.EN, k, 1), (CTL.SCFG.PHASE, k, 0)]) ++
      [(LNK.CFG.DMAX, 0, 8000)]) up
     s.chip.opsF = 120 ∧ s.chip.leastLaunch = 147 ∧ (put [(DEV.LAUNCH.LAUNCH, 0, 150)] s).chip.leastApply = 311) := by decide +kernel
/-! Witnesses: the port and the command interpreter -/

/-- The packet at the front is the only one, starts now, and q holds of it. -/
def held (s : State) (q : Packet → Bool) : Bool := inv s && s.chip.ready && front s q

theorem held_spec {s : State} {q : Packet → Bool} (h : held s q = true) : ∃ p, s.HasPacket p [] ∧ q p = true := by
  unfold held front at h
  split at h
  case h_2 => simp at h
  case h_1 p hp =>
    simp only [Bool.and_eq_true] at h
    exact ⟨p, ⟨inv_spec h.1.1, hp, h.1.2⟩, h.2⟩

def isSound (p : Packet) : Bool := !p.lost && !p.badLen && !p.badCrc

/-- The final word of a packet of LEN 0 and TAG 7. -/
def crcOf (opc flg : Nat) : Word := toWord (finalWord [mkHeader opc 7 0 flg])

/-- One reply, of TIME_GET, waits. -/
def replied : State := after (.timeGet 5) (sent 0x40 0 [] up)

/-- It has been fetched with all its edges. -/
def fetched : State := after (.fetch 9 7 0 (crcOf 8 0) 300) replied

theorem witness_FrontCommandIsExecuted :
    step { up with pending := [.tickStrobe, .launch] } = exec .tickStrobe { up with pending := [.launch] } ∧
      State.reset.pending = [] := ⟨rfl, rfl⟩

theorem witness_StepKeepsSoundState : inv State.reset = true ∧ inv run = true := by decide +kernel

theorem witness_TruncatedHeaderDiscarded : up.PortIdle ∧ 31 < hdrEdges up.chip.hpp.quad ∧
    gives (.transaction 5 31 [] false) up (fun u => u.chip.get HPP.STAT.LENE == 1) = true := ⟨up_portIdle, by decide, by decide⟩

theorem witness_TransactionStoresPacket : up.PortIdle ∧ up.chip.hpp.unread = [] ∧
    (let d := bytesOf (packetWords 0x40 0 [])
     bytesOfEdges up.chip.hpp.quad 64 = d.length ∧ 4 ≤ d.length ∧ d.length ≤ 2048 ∧
      portServes (ofBytes ((d.map (·.toNat)).take 4)) = false) := ⟨up_portIdle, by decide⟩

theorem witness_StatusWord : up.PortIdle ∧ (crcOf 0 0).toNat = finalWord [mkHeader 0 7 0 0] ∧
    (0 : Word).toNat ≠ finalWord [mkHeader 0 7 0 0] ∧
    gives (.nop 5 7 0 (crcOf 0 0)) up (fun u => u.chip.hpp.isw.toNat == 0xA8001000) = true ∧
    (let s := put [(RST.DOM.REL, 0, 128)] State.reset
     inv s ∧ s.chip.released 7 = true ∧ s.chip.hpp.rdy = false ∧ s.chip.hpp.txn = none ∧ s.chip.hpp.quadNext = none ∧
      s.chip.rewind = s.chip) := ⟨up_portIdle, by decide⟩

theorem witness_IdleTimeout :
    (let s := after (.transaction 0 32 [0x40, 0, 0, 0] true) (put [(HPP.CFG.IDLETO, 0, 2)] up)
     inv s ∧ s.chip.hpp.txn.any (fun x => x.rdy && decide (x.at_ + s.chip.get HPP.CFG.IDLETO * 100 * usTaps = 1600000)) ∧
      s.at_ 1600000 = 1600000 ∧ s.at_ 1599999 < 1600000 ∧ inv up ∧ up.chip.hpp.txn = none) ∧
    (let s := after (.transaction 0 32 [0x40, 0, 0, 0] true)
       (alter (fun c => { c with hpp := { c.hpp with rdy := false } }) (put [(HPP.CFG.IDLETO, 0, 2)] up))
     inv s ∧ s.chip.hpp.txn.any (fun x => !x.rdy && x.at_ == 0) ∧ s.chip.hpp.resetRead = false ∧ s.chip.get HPP.CFG.IDLETO ≠ 0 ∧
      gives (.idleTimeout 1600000) s (fun u => u.chip.hpp.txn.isNone && u.chip.get HPP.STAT.HTO == 0)) := by decide +kernel

theorem witness_PeekAndFetchDrive : up.PortIdle ∧ (crcOf 1 3).toNat = finalWord [mkHeader 1 7 0 3] ∧
    ((crcOf 8 0).toNat = finalWord [mkHeader 8 7 0 0] ∧ replied.chip.hpp.replies.map (fun r => (r.reset, r.quad, r.words.length)) =
      [(false, none, 3)] ∧ inv replied ∧ replied.chip.released 7 ∧ replied.chip.hpp.rdy ∧ replied.chip.hpp.txn = none ∧
      replied.chip.hpp.quadNext = none ∧ replied.chip.rewind = replied.chip ∧ fetchEdges replied.chip.hpp.quad 3 = 228) ∧
    ((crcOf 8 1).toNat = finalWord [mkHeader 8 7 0 1] ∧ fetched.chip.hpp.last.isSome ∧ fetched.chip.hpp.replies = [] ∧ inv fetched ∧
      fetched.chip.released 7 ∧ fetched.chip.hpp.rdy ∧ fetched.chip.hpp.txn = none ∧ fetched.chip.hpp.quadNext = none ∧
      fetched.chip.rewind = fetched.chip ∧ crcEdges fetched.chip.hpp.quad = 64) ∧
    up.chip.hpp.replies = [] ∧ up.chip.hpp.last = none := ⟨up_portIdle, by decide⟩

/-- 228 edges clock out a reply of three words; with 227 it stays. -/
theorem witness_FetchesReturnReplies :
    gives (.fetch 9 7 0 (crcOf 8 0) 228) replied (fun u => u.chip.hpp.replies.isEmpty && u.chip.hpp.last.isSome) ∧
    gives (.fetch 9 7 0 (crcOf 8 0) 227) replied (fun u => u.chip.hpp.replies.length == 1 && u.chip.hpp.last.isNone) := by decide +kernel

theorem witness_UnsoundPacketsRefused : serves (.timeGet 5) (packetOf [⟨0, 0x40, 8, true, false⟩]) ∧
    held (alter (fun c => { c with hpp := { c.hpp with unread := [⟨0, 0x40, 8, true, true⟩] } }) up)
      (fun p => serves (.timeGet 5) p && p.lost) ∧
    held (after (.transaction 0 96 (bytesOf [0x40070000, 0, 0]) false) up) (fun p => serves (.timeGet 5) p && !p.lost && p.badLen) ∧
    held (after (.transaction 0 64 (bytesOf [0x40070000, 0]) false) up)
      (fun p => serves (.timeGet 5) p && !p.lost && !p.badLen && p.badCrc) := by decide +kernel

theorem witness_DisallowedPacketsRefused :
    held (sent 0x55 0 [] up) (fun p => serves (.unassignedOpcode 5) p && isSound p && (opRow p.opc).isNone) ∧
    held (sent 0x40 1 [] up) (fun p => serves (.timeGet 5) p && isSound p && (opRow p.opc).all (fun o => p.flg &&& o.flg != p.flg)) ∧
    held (sent 0x10 0 [] run) (fun p => serves (.commitConfig 5) p && isSound p &&
      (opRow p.opc).any (fun o => p.flg &&& o.flg == p.flg && !o.states.contains run.chip.state)) ∧
    held (sent 0x40 0 [5] up) (fun p => serves (.timeGet 5) p && isSound p && (opRow p.opc).any (fun o => p.flg &&& o.flg == p.flg &&
      o.states.contains up.chip.state && o.len == some 0 && p.len != 0)) ∧
    held (sent 0xE0 3 [] up) (fun p => isSound p && p.flg % 4 == 3) ∧ held (sent 0x00 0 [5] up) (fun p => isSound p && p.len != 0) ∧
    held (sent 0x01 63 [5] up) (fun p => isSound p && p.len != 0) ∧ held (sent 0x08 1 [5] up) (fun p => isSound p && p.len != 0) ∧
    (sent 0x55 0 [] up).chip.dev.load = none ∧ up.chip.state = 2 ∧ up.chip.front = none := by decide +kernel

/-- With a PATCH_LOAD open. -/
def loading (s : State) : State := alter (fun c => { c with dev := { c.dev with load := some ⟨0, 2, 0, 0⟩ } }) s

theorem witness_OpenLoadClosesOnOtherOpcode :
    held (loading (sent 0x55 0 [] up)) (fun p => serves (.unassignedOpcode 5) p && isSound p && (opRow p.opc).isNone) ∧
    accepts (loading (sent 0x40 0 [] up)) 0x40 0 [] ∧ (loading up).chip.dev.load.isSome := by decide +kernel

/-- GET of HPP.CFG and DEV.LAUNCH; GET_BLOCK of two instances of LNK.LCFG up to the last, 191. -/
theorem witness_ReadsAnswerValues : accepts (sent 0x02 0 [0x04000000, 0x00110000] up) 0x02 0 [0x04000000, 0x00110000] ∧
    (attrRow 0x0400 0).isSome ∧ (attrRow 0x0011 0).isSome ∧ accepts (sent 0x04 2 [0x2010BE02] up) 0x04 2 [0x2010BE02] ∧
    front (sent 0x04 2 [0x2010BE02] up) (fun p => (blockAttr p 0).isSome && (blockAttr p 1).isSome && (blockAttr p 2).isNone) := by decide +kernel

/-- The value is writable there: the row is defined, is not read-only, takes so many words, and no check refuses the value. -/
def writable (c : Chip) (w : Nat) (l : List Nat) : Bool :=
  match attrRow (arwId w) (arwInst w) with
  | some r => arwCount w == 0 && !r.readOnly && r.words == l.length && (c.valueFaults r (arwInst w) (wordsValue l) (fullMask r)).isEmpty
  | none => false

theorem witness_SetsAreAccepted :
    (let s := sent 0x03 0 [0x04030000, 0x80, 0x04000000, 0x1400] up
     accepts s 0x03 0 [0x04030000, 0x80, 0x04000000, 0x1400] ∧ writable (s.taken 5 []) 0x04030000 [0x80] ∧
      writable (s.taken 5 []) 0x04000000 [0x1400] ∧ s.chip.inRun = false) ∧
    (let s := sent 0x05 3 [0x2010BE02, 1, 1] run
     accepts s 0x05 3 [0x2010BE02, 1, 1] ∧ writable (s.taken 5 []) 0x2010BE00 [1] ∧ writable (s.taken 5 []) 0x2010BF00 [1] ∧
      front s (fun p => (blockAttr p 0).isSome && (blockAttr p 1).isSome && blockInst p 1 == 191) ∧ s.chip.inRun = true) := by decide +kernel

/-- SET of HPP.LEVEL outside RUN; its staged write in RUN; MODIFY of it outside RUN and in RUN, and its indivisible step. -/
theorem witness_WritesStoreFields :
    (let s := sent 0x03 0 [0x04030000, 0x80] up
     accepts s 0x03 0 [0x04030000, 0x80] ∧ s.chip.inRun = false ∧ writable (s.taken 5 []) 0x04030000 [0x80] ∧
      (attrRow 0x0403 0).all plainAttr) ∧
    (let s := after (.setAttr 5) (sent 0x03 0 [0x04030000, 0x80] run)
     inv s ∧ s.chip.inRun ∧ s.chip.dev.ticking ∧ s.chip.dev.staged = [⟨[⟨0x0403, 0, 0x80⟩], none, none⟩] ∧
      gives .stagedWritesApply s (fun u => u.chip.get HPP.LEVEL.LEVEL == 0x80)) ∧
    (let s := sent 0x06 0 [0x04030000, 0xFF, 0x80] up
     accepts s 0x06 0 [0x04030000, 0xFF, 0x80] ∧ s.chip.inRun = false ∧
      (attrRow 0x0403 0).all (fun r => plainAttr r && r.words == 1 && !r.readOnly && r.fields.all (fun f => f.access == .rw) &&
        ((s.taken 5 []).valueFaults r 0 (modValue r ((s.taken 5 []).readAttr r 0) ⟨0x0403, 0, 0xFF, 0x80⟩) 0xFF).isEmpty)) ∧
    (let s := after (.modify 5) (sent 0x06 0 [0x04030000, 0xFF, 0x80] run)
     accepts (sent 0x06 0 [0x04030000, 0xFF, 0x80] run) 0x06 0 [0x04030000, 0xFF, 0x80] ∧ inv s ∧ s.chip.inRun ∧
      s.chip.dev.ticking ∧ s.chip.hpp.rdy ∧ s.chip.dev.wait = some (.modify 7 0 [⟨0x0403, 0, 0xFF, 0x80⟩]) ∧
      (attrRow 0x0403 0).all (fun r => ((s.chip.at_ s.chip.dev.nextT0).valueFaults r 0
        (modValue r ((s.chip.at_ s.chip.dev.nextT0).readAttr r 0) ⟨0x0403, 0, 0xFF, 0x80⟩) 0xFF).isEmpty) ∧
      gives .modifyStep s (fun u => u.chip.get HPP.LEVEL.LEVEL == 0x80 && u.chip.hpp.replies.length == 1)) := by decide +kernel
/-! Witnesses: the commands -/

/-- Every RESULT from 0 to 2 of CONFIG_CHECK; one step of LAUNCH is where RESULT 1 ends. -/
theorem witness_ConfigIsChecked : accepts (sent 0x12 0 [] up) 0x12 0 [] ∧
    ((sent 0x12 0 [] (put [(DEV.LAUNCH.LAUNCH, 0, 131)] up)).taken 5 []).configResult.1 = 1 ∧
    ((sent 0x12 0 [] (put [(DEV.LAUNCH.LAUNCH, 0, 132), (DEV.TICK.PERIOD, 0, 143)] up)).taken 5 []).configResult.1 = 2 ∧
    ((sent 0x12 0 [] (put [(DEV.LAUNCH.LAUNCH, 0, 132), (DEV.TICK.PERIOD, 0, 144)] up)).taken 5 []).configResult.1 = 3 := by decide +kernel

/-- A configuration that passes: ten lanes in arm 0, its level request from slot 0, LAUNCH the least for F 8. -/
def passing : State :=
  put ([(DEV.LAUNCH.LAUNCH, 0, 133), (DEV.TICK.PERIOD, 0, 1250), (DEV.APPLY.APPLY, 0, 311), (LNK.CFG.DMAX, 0, 8000),
    (ARM.CFG.LMAX, 0, 10), (CTL.SCFG.EN, 0, 1), (CTL.SIO.DEST, 0, 0x10)] ++
    (List.range 10).map (fun n => (LNK.STATE.ARM, n, 0))) up

theorem witness_CommitEntersRun : accepts (sent 0x10 0 [] passing) 0x10 0 [] ∧
    ((sent 0x10 0 [] passing).taken 5 []).configResult = (0, 0) ∧
    gives (.commitConfig 5) (sent 0x10 0 [] passing) (fun u => u.chip.inRun && u.chip.dev.ticking &&
      u.chip.hpp.replies.map (fun r => r.words) == [[0, 8, 133]]) ∧ accepts (sent 0x10 0 [] up) 0x10 0 [] ∧
    ((sent 0x10 0 [] up).taken 5 []).configResult.1 = 1 ∧
    (put [(TIM.CFG.TICKSRC, 0, 2)] passing).chip.get TIM.CFG.TICKSRC = 2 := by decide +kernel

/-- Lanes 0 and 191 to arm 5, the last; lane 2 is arm 1's; arm 6 does not exist; 97 lanes are too many. -/
theorem witness_ArmMapAssignsLanes :
    accepts (sent 0x11 0 [5, 8, 0, 0, 0, 0, 2 ^ 31] (mapped up)) 0x11 0 [5, 8, 0, 0, 0, 0, 2 ^ 31] ∧
    setBits 192 (wordsValue [8, 0, 0, 0, 0, 2 ^ 31]) = [3, 191] ∧ (mapped up).chip.laneArm 3 = 255 ∧
    accepts (sent 0x11 0 [5, 4, 0, 0, 0, 0, 0] (mapped up)) 0x11 0 [5, 4, 0, 0, 0, 0, 0] ∧ (mapped up).chip.laneArm 2 = 1 ∧
    accepts (sent 0x11 0 [6, 0, 0, 0, 0, 0, 0] up) 0x11 0 [6, 0, 0, 0, 0, 0, 0] ∧
    (setBits 192 (wordsValue [2 ^ 32 - 1, 2 ^ 32 - 1, 2 ^ 32 - 1, 0, 0, 0])).length = 96 ∧
    (setBits 192 (wordsValue [2 ^ 32 - 1, 2 ^ 32 - 1, 2 ^ 32 - 1, 1, 0, 0])).length = 97 := by decide +kernel

theorem witness_LaneCommands :
    (let s := sent 0x20 0 [0] (mapped run)
     accepts s 0x20 0 [0] ∧ s.chip.admissible 0 ∧ s.chip.admissible 1 ∧ s.chip.admissible 2 = false ∧
      gives (.laneAdmit 5) s (fun u => u.chip.dev.wait == some (.admission 7 0 0) && inv u && u.chip.inRun && u.chip.dev.ticking &&
        u.chip.hpp.rdy && gives .laneAdmitStart u (fun v => v.chip.lstate 0 == lsAdmit && v.chip.hpp.replies.length == 1))) ∧
    accepts (sent 0x20 0 [191] (mapped run)) 0x20 0 [191] ∧ accepts (sent 0x20 0 [192] (mapped run)) 0x20 0 [192] ∧
    (let s := alter (fun c => { c with dev := { c.dev with wait := some (.admission 7 0 2) } }) (mapped run)
     inv s ∧ s.chip.inRun ∧ s.chip.dev.ticking ∧ s.chip.hpp.rdy ∧ s.chip.admissible 2 = false) ∧
    (let s := sent 0x21 0 [0x102] (mapped run)
     accepts s 0x21 0 [0x102] ∧ s.chip.laneArm 2 ≤ 5 ∧ s.chip.lstate 2 = lsActive ∧ s.chip.lstate 1 = lsBlocked ∧
      s.chip.laneArm 191 = 255 ∧ gives (.laneRetire 5) s (fun u => u.chip.lstate 2 == lsBlocked && u.chip.get LNK.STATE.CAUSE 2 == 1)) := by
  decide +kernel

/-- Ring 31 with MINP 4: RUN, FROZEN with pages 200 and 2047, QUEUE with a closed page. -/
def ringed (st : Nat) (s : State) : State :=
  alter (fun c => c.setRing 31 { pages := [200, 2047], frozen := if st = 4 then [200, 2047] else [] })
    (put [(PGM.RCFG.MINP, 31, 4), (PGM.CAP.STATE, 31, st), (pdsc PGM.PDSC.PST 200, 200, if st = 4 then 4 else 3),
      (pdsc PGM.PDSC.PST 2047, 255, if st = 4 then 4 else 2), (pdsc PGM.PDSC.RING 200, 200, 31), (pdsc PGM.PDSC.RING 2047, 255, 31)] s)

/-- PRE 1 and POST 2 with MINP 4; TRIG 71, the last comparator code, and 127. -/
theorem witness_CaptureCommands :
    accepts (sent 0x30 0 [0x1F000102, 71] (ringed 1 run)) 0x30 0 [0x1F000102, 71] ∧
    accepts (sent 0x30 0 [0x1F000102, 127] (ringed 2 up)) 0x30 0 [0x1F000102, 127] ∧
    bitsOf 0x1F000102 28 24 = 31 ∧ bitsOf 0x1F000102 15 8 = 1 ∧ bitsOf 0x1F000102 7 0 = 2 ∧
    (ringed 1 run).chip.get PGM.RCFG.MINP 31 = 4 ∧ (ringed 1 run).chip.rstate 31 = rsRun ∧ (ringed 2 up).chip.rstate 31 = rsArmed ∧
    accepts (sent 0x31 0 [0x1F000000] (ringed 4 up)) 0x31 0 [0x1F000000] ∧ (ringed 4 up).chip.rstate 31 = rsFrozen ∧
    gives (.captureRelease 5) (sent 0x31 0 [0x1F000000] (ringed 4 up)) (fun u => u.chip.rstate 31 == rsRun &&
      u.chip.pd PGM.PDSC.PST 2047 == pstFree) ∧
    accepts (sent 0x31 0 [0x1F000000] (ringed 5 up)) 0x31 0 [0x1F000000] ∧ (ringed 5 up).chip.rstate 31 = rsQueue ∧
    (ringed 5 up).chip.ringInternal 31 = false ∧ (ringed 5 up).chip.oldestClosed 31 = some 200 ∧
    gives (.pgmHostTrigger 5 (2 ^ 31)) (ringed 2 up) (fun u => u.chip.pgm.trig.length == 1) := by decide +kernel

/-- Page 160 from word 1000 to the end; page 15 of the debug area closed and open; 512 words; the three refusals. -/
theorem witness_PageIsRead :
    accepts (sent 0x32 0 [160, 1000 * 65536 + 24] up) 0x32 0 [160, 1000 * 65536 + 24] ∧
    accepts (sent 0x32 0 [15, 512] (put [(RST.FSEC.DBGLOCK, 0, 0)] up)) 0x32 0 [15, 512] ∧
    (put [(RST.FSEC.DBGLOCK, 0, 0)] up).chip.get RST.FSEC.DBGLOCK = 0 ∧
    gives (.readPage 5 []) (sent 0x32 0 [160, 1000 * 65536 + 2] up) (fun u =>
      u.chip.hpp.replies.map (fun r => r.words) == [[0, 0, 0]]) ∧
    accepts (sent 0x32 0 [15, 512] (put [(RST.FSEC.DBGLOCK, 0, 1)] up)) 0x32 0 [15, 512] ∧
    accepts (sent 0x32 0 [160, 0] up) 0x32 0 [160, 0] ∧ accepts (sent 0x32 0 [160, 513] up) 0x32 0 [160, 513] ∧
    accepts (sent 0x32 0 [160, 1000 * 65536 + 25] up) 0x32 0 [160, 1000 * 65536 + 25] := by decide +kernel

/-- The largest rate, 219,902,325 either way, and the next one. -/
theorem witness_TimeCommands : accepts (sent 0x40 0 [] up) 0x40 0 [] ∧ accepts (sent 0x41 0 [5, 0] up) 0x41 0 [5, 0] ∧
    up.chip.ptpDisciplines = false ∧ accepts (sent 0x42 0 [219902325] up) 0x42 0 [219902325] ∧ toSigned 32 219902325 = 219902325 ∧
    toSigned 32 (2 ^ 32 - 219902325) = -219902325 ∧ accepts (sent 0x42 0 [219902326] up) 0x42 0 [219902326] ∧
    (let s := alter (fun c => { c with tim := { c.tim with corrections := 1 } }) (put [(TIM.CFG.SRC, 0, 1)] up)
     s.chip.ptpDisciplines ∧ accepts (sent 0x41 0 [5, 0] s) 0x41 0 [5, 0] ∧ accepts (sent 0x42 0 [1] s) 0x42 0 [1]) := by decide +kernel

/-- Latches 0 and 103; pin 103 still active; bit 104; source 40 to acknowledge in a record. -/
theorem witness_TripClearAndFaultAck :
    (let s := put [(MON.LATCH.LATCH, 0, 2 ^ 103 + 1)] up
     accepts (sent 0x50 0 [1, 0, 0, 255] s) 0x50 0 [1, 0, 0, 255] ∧ accepts (sent 0x50 0 [0, 0, 0, 256] s) 0x50 0 [0, 0, 0, 256] ∧
      s.chip.tripActive (wordsValue [1, 0, 0, 128]) = 0 ∧
      gives (.tripClear 5) (sent 0x50 0 [1, 0, 0, 0] s) (fun u => u.chip.get MON.LATCH.LATCH == 2 ^ 103) ∧
      (put [(MON.DEC.PIN, 0, 128)] s).chip.tripActive (wordsValue [0, 0, 0, 128]) ≠ 0) ∧
    (let s := put [(FLT.STATUS.STATUS, 0, 2 ^ 40), (FLT.REC.VALID, 31, 1), (FLT.REC.PEND, 31, 2 ^ 40)] run
     accepts (sent 0x51 0 [0, 256] s) 0x51 0 [0, 256] ∧ s.chip.unacked 31 ∧ s.chip.flt.lastEv = [] ∧ s.chip.dev.ticking ∧
      gives (.faultAck 5) (sent 0x51 0 [0, 256] s) (fun u => u.chip.get FLT.STATUS.STATUS == 0 && u.chip.get FLT.REC.ACKD 31 == 1)) := by
  decide +kernel

theorem witness_ResetTestRecordsIdentity : accepts (sent 0x60 0 [0x0003] up) 0x60 0 [0x0003] ∧
    accepts (sent 0x60 0 [0x1503] up) 0x60 0 [0x1503] ∧ accepts (sent 0x60 0 [0x1403] up) 0x60 0 [0x1403] ∧
    bitsOf 0x1403 13 8 = 0x14 ∧ bitsOf 0x1503 13 8 = 0x15 ∧ accepts (sent 0x60 0 [2] up) 0x60 0 [2] ∧
    (let s := sent 0x61 0 [0] (put [(IST.CFG.CHKEN, 0, 0x48)] up)
     accepts s 0x61 0 [0] ∧ s.chip.ist.host = none ∧ ((List.range 8).filter (fun j => s.chip.istEnabled j)) = [4, 7] ∧
      gives (.selftest 5) s (fun u => u.chip.ist.host == some (4, [7]) && u.chip.get IST.STAT.HCHK == 4)) ∧
    accepts (sent 0x61 0 [7] up) 0x61 0 [7] ∧
    (let s := sent 0x70 0 [2] (alter (fun c => { c with kpr := { c.kpr with cfg := (1000, 3150, 15) } }) up)
     accepts s 0x70 0 [2] ∧ s.chip.kpr.burst = none ∧ s.chip.kprCfg.1 = 0) ∧
    accepts (sent 0x7F 0 [] up) 0x7F 0 [] := by decide +kernel
/-! Witnesses: lanes, tick, ports -/

/-- Lane 191 admitting since 0, the self-test request acknowledged at 8000. -/
def admitting : State :=
  lane 191 (fun l => { l with adm := some { start := 0, phase := 3, req := 9, ackAt := 8000 } })
    (put [(LNK.STATE.STATE, 191, 3), (LNK.CFG.ADMTO, 0, 4), (LNK.STATE.ARM, 191, 0)] run)

theorem witness_AdmissionTimersFail : inv admitting ∧ admitting.chip.lstate 191 = lsAdmit ∧
    admitting.chip.get LNK.CFG.ADMTO * msTaps = 32000000 ∧
    gives (.admissionTimeout 32000000 191) admitting (fun u => u.chip.lstate 191 == lsBlocked && u.chip.get LNK.STATE.CAUSE 191 == 11) ∧
    gives (.admissionTimeout 31999999 191) admitting (fun u => u.chip.lstate 191 == lsAdmit) ∧
    gives (.selfTestTimeout 8008000 191) admitting (fun u => u.chip.get LNK.STATE.CAUSE 191 == 8) ∧
    gives (.selfTestTimeout 8007999 191) admitting (fun u => u.chip.lstate 191 == lsAdmit) ∧ up.chip.lstate 191 ≠ lsAdmit := by decide +kernel

/-- Lane 2 ACTIVE and locked, its last comma at 0; lane 0 STANDBY. -/
theorem witness_UplinkLossRetires : inv (mapped run) ∧ (mapped run).chip.released 3 ∧ (mapped run).at_ 6143 < 6144 ∧
    gives (.syncLoss 6144 2) (mapped run) (fun u => u.chip.lstate 2 == lsBlocked && u.chip.get LNK.STATE.CAUSE 2 == 3) ∧
    gives (.syncLoss 6144 0) (mapped run) (fun u => u.chip.lstate 0 == lsDown) ∧
    gives (.lossOfLight 384 2) (put [(LNK.CFG.LOLT, 0, 6)] (mapped run)) (fun u => u.chip.get LNK.STATE.CAUSE 2 == 2) ∧
    gives (.lossOfLight 383 2) (put [(LNK.CFG.LOLT, 0, 6)] (mapped run)) (fun u => u.chip.lstate 2 == lsActive) := by decide +kernel

/-- A group with a bit changed; the fourth frame in sequence locks a DOWN lane; a wrong SEQ of a locked ACTIVE lane; the first frame
after an admission; an OFF lane. -/
theorem witness_UplinkFramesAreTracked :
    (let b : List Nat := [0, 0, 0, 0, 0, 0, 0, 4]
     let g := frameOnLine false b
     let bad := g.set 3 (g.getD 3 0 ^^^ 1)
     let down := lane 5 (fun l => { l with run := 3, seq := 3 }) (put [(LNK.STATE.STATE, 5, 1)] run)
     inv down ∧ down.chip.lstate 5 = lsDown ∧ down.chip.on LNK.STAT.LOCK 5 = false ∧ frameSeq b = 4 ∧ frameStat b % 32 = 0 ∧
      (down.chip.lane 5).rxRd.getD false = false ∧ [] ++ g.headD 0 :: g.tail = g ∧ [] ++ bad.headD 0 :: bad.tail = bad ∧
      ((down.chip.lane 5).receive bad).frame.all (fun r => !r.2.2 || r.2.1 != crc16 r.1) ∧
      gives (.uplinkFrame 800 5 [] (bad.headD 0) bad.tail) down (fun u => u.chip.get LNK.STAT.CRC 5 == 1 && u.chip.get LNK.STAT.CODE 5 == 1) ∧
      gives (.uplinkFrame 800 5 [] (g.headD 0) g.tail) down (fun u => u.chip.on LNK.STAT.LOCK 5 && u.chip.lstate 5 == lsStandby) ∧
      (mapped run).chip.lstate 2 = lsActive ∧ frameSeq b ≠ (((mapped run).chip.lane 2).seq + (1472 - 704 - 0 + 384) / 768) % 256 ∧
      gives (.uplinkFrame 1472 2 [] (g.headD 0) g.tail) (lane 2 (fun l => { l with run := 4 }) (mapped run)) (fun u => u.chip.lstate 2 == lsBlocked) ∧
      gives (.uplinkFrame 800 2 [] (g.headD 0) g.tail) (put [(LNK.STATE.STATE, 2, 3)] (mapped run)) (fun u => u.chip.lstate 2 == lsAdmit && (u.chip.lane 2).run == 4) ∧
      (mapped run).chip.lstate 100 = lsOff) := by decide +kernel

/-- AUTO lanes 0 and 1; AUTOFAIL 3 and CAUSE 1 keep a lane out; a failed admission 100 ms ago lets it in. -/
theorem witness_LanesReturnToWork :
    (let s := put [(LNK.LCFG.AUTO, 0, 1), (LNK.LCFG.AUTO, 1, 1), (LNK.STATE.CAUSE, 1, 5)] (mapped run)
     inv s ∧ s.chip.dev.ticking ∧ s.chip.inRun ∧ s.chip.laneHeld 0 = false ∧ s.chip.get LNK.STATE.AUTOFAIL 1 = 0 ∧
      gives (.autoAdmissionStart 0) s (fun u => u.chip.lstate 0 == lsAdmit) ∧
      gives (.autoAdmissionStart 1) (lane 1 (fun l => { l with failAt := some 0 })
        (alter (fun c => { c with dev := { c.dev with nextT0 := 100 * msTaps } }) s)) (fun u => u.chip.lstate 1 == lsAdmit) ∧
      gives (.autoAdmissionStart 0) (put [(LNK.STATE.AUTOFAIL, 0, 3)] s) (fun u => u.chip.lstate 0 == lsStandby) ∧
      gives (.autoAdmissionStart 1) (put [(LNK.STATE.CAUSE, 1, 1)] s) (fun u => u.chip.lstate 1 == lsBlocked)) ∧
    (let s := alter (fun c => { c with lnk := { c.lnk with redown := true } }) (put [(LNK.STATE.ARM, 191, 5)] run)
     inv s ∧ s.chip.lnk.redown ∧ s.chip.inRun ∧ s.chip.released 3 ∧ s.chip.laneArm 191 < 6 ∧ s.chip.lstate 191 = lsOff ∧
      gives .laneResumeDown s (fun u => u.chip.lstate 191 == lsDown)) ∧ up.chip.lnk.redown = false := by decide +kernel

theorem witness_OffStateChecks : inv (mapped run) ∧ (mapped run).chip.lstate 0 = lsStandby ∧ (mapped run).chip.lstate 2 ≠ lsStandby ∧
    (let s := lane 0 (fun l => { l with odAt := some 0 }) (mapped run)
     gives (.odiagTimeout 16000000 0) s (fun u => u.chip.get GPR.LDIAG.ODRES 0 == 4) ∧
     gives (.odiagTimeout 15999999 0) s (fun u => (u.chip.lane 0).odAt.isSome)) := by decide +kernel

/-- A tick is released and launches at nextT0 of the tick plus LAUNCH × 8 ns. -/
theorem witness_TickAndLaunch : run.chip.inRun ∧ run.chip.dev.ticking ∧ run.chip.arm.launchDue = false ∧
    (let s := alter (fun c => { c with arm := { c.arm with launchDue := true } }) (put [(DEV.LAUNCH.LAUNCH, 0, 150),
       (DEV.TICK.PERIOD, 0, 1250), (LNK.STATE.STATE, 191, 1)] run)
     inv s ∧ s.chip.inRun ∧ s.chip.launchOk = false ∧ s.chip.tickAt + 64 * s.chip.get DEV.LAUNCH.LAUNCH = 640000 - 80000 + 9600 ∧
      (alter (fun c => { c with arm := { c.arm with placedAt := some 0 } }) s).chip.launchOk) := by decide +kernel

/-- The frame of a DOWN lane is a BLOCK with SEQ 0 (R147). -/
theorem test_launch :
    (let s := alter (fun c => { c with arm := { c.arm with launchDue := true } }) (put [(DEV.LAUNCH.LAUNCH, 0, 150),
       (DEV.TICK.PERIOD, 0, 1250), (LNK.STATE.STATE, 191, 1)] run)
     gives .launch s (fun u => (u.chip.lane 191).sent.take 6 == [0x80, 0, 0, 0xFF, 0xFF, 0xFF] && (u.chip.lane 191).dlSeq == 1)) := by
  decide +kernel

/-- Port 11 with its upper switch on since 0, no acknowledge: HS 8 makes the handshake 16,000 taps. -/
def turned : State :=
  port 11 (fun v => { v with u := { v.u with on := true, await := true, want := true } }) (put [(DHB.CFG.HS, 11, 8), (DHB.STAT.UAK, 11, 0)] run)

theorem witness_PortFaultsTurnOff : inv turned ∧ (turned.chip.port 11).fault = false ∧ turned.chip.released 4 ∧
    turned.chip.ack 11 true = false ∧ gives (.dhbHandshakeTimeout 16000 11 true) (put [(DHB.STAT.UAK, 11, 1)] turned)
      (fun u => u.chip.get DHB.STAT.FCAUSE 11 == 3) ∧
    gives (.dhbHandshakeTimeout 15999 11 true) (put [(DHB.STAT.UAK, 11, 1)] turned) (fun u => !(u.chip.port 11).fault) ∧
    gives (.dhbAckChange 5 11 true true true) (port 11 (fun v => { v with u := { v.u with ackOff := true, await := false } }) turned)
      (fun u => u.chip.get DHB.STAT.FCAUSE 11 == 5) ∧
    gives (.dhbAckChange 5 11 true false true) (put [(DHB.STAT.UAK, 11, 1)] turned) (fun u => (u.chip.port 11).u.ackOff) := by decide +kernel

/-- The upper switch of port 11 waits; the lower one fell at 0 and was acknowledged; DEAD is 8000. -/
def waitingOn : State :=
  let u : Switch := { pend := some 0, want := true }
  port 11 (fun v => { v with prio := 5, u := u, l := { v.l with fellAt := some 0, ackSeen := true } }) (put [(DHB.STAT.LAK, 11, 1), (DHB.STAT.UAK, 11, 1), (DHB.CFG.MODE, 11, 1),
      (DHB.CFG.DEAD, 11, 8000), (DHB.STAT.TRK, 11, 1)] run)

theorem witness_PortCommands : inv waitingOn ∧ (waitingOn.chip.port 11).u.pend.isSome ∧ (waitingOn.chip.port 11).l.on = false ∧
    waitingOn.chip.ack 11 false ∧ waitingOn.chip.portPrio 11 = 5 ∧ (waitingOn.chip.port 11).refresh = none ∧
    (waitingOn.chip.at_ 8000).predictChange 11 8000 = some 24000 ∧ waitingOn.chip.get DHB.CFG.MINPW 11 = 16000 ∧
    gives (.dhbTurnOn 8000 11 true) waitingOn (fun u => (u.chip.port 11).u.on) ∧
    gives (.dhbTurnOn 7999 11 true) waitingOn (fun u => !(u.chip.port 11).u.on) ∧
    (let s := port 11 (fun v => { v with cmp := { a := 0x3F000000, b := 0x3F000000 } }) (put [(DHB.CAR.PER, 11, 160000), (DHB.CFG.MINPW, 11, 16000)] waitingOn)
     (s.chip.at_ 30000).predictChange 11 30000 = some 40000 ∧ s.chip.get DHB.CFG.MINPW 11 = 16000 ∧
      gives (.dhbTurnOn 30000 11 true) s (fun u => u.chip.get DHB.EVT.CANCEL 11 == 1)) ∧
    (let s := port 11 (fun v => { v with fault := true }) waitingOn
     s.chip.held 17 = false ∧ gives (.dhbResume 5 11) s (fun u => !(u.chip.port 11).fault) ∧
      gives (.dhbResume 5 11) (put [(DHB.STAT.LAK, 11, 0)] s) (fun u => (u.chip.port 11).fault)) ∧
    gives (.dhbForce 5 11 6) waitingOn (fun u => u.chip.get DHB.FORCE.FU 11 == 1 && (u.chip.port 11).prio == 4) ∧
    gives (.dhbForce 5 11 7) waitingOn (fun u => u.chip.get DHB.FORCE.EN 11 == 0) ∧
    gives (.dhbForce 5 11 5) (put [(DHB.CFG.MODE, 11, 2)] waitingOn) (fun u => u.chip.get DHB.FORCE.EN 11 == 0) := by decide +kernel

/-- A refresh whose lower switch has been on for BREF, 3,200 taps. -/
theorem witness_BootstrapRefresh :
    (let s := port 11 (fun v => { v with prio := 5, refresh := some (.lowerOn 0), l := { v.l with on := true } })
       (put [(DHB.CFG.MODE, 11, 1), (DHB.CFG.BREF, 11, 3200), (DHB.STAT.TRK, 11, 1)] run)
     inv s ∧ s.chip.portPrio 11 = 5 ∧ (s.chip.portBase 11 5).1 ∧ (s.chip.port 11).u.on = false ∧ (s.chip.port 11).u.want = false ∧
      gives (.bootstrapRefreshEnd 3200 11) s (fun u => (u.chip.port 11).refresh == some .upperPending && !(u.chip.port 11).l.on) ∧
      gives (.bootstrapRefreshEnd 3199 11) s (fun u => (u.chip.port 11).l.on)) := by decide +kernel

/-- Port 11 on a carrier of 160,000 taps with compares a. -/
def carried (a : Word) (last : Nat) : State :=
  port 11 (fun _ => { prio := 5, last := last, cmp := { a := a, b := a } }) (put [(DHB.CAR.PER, 11, 160000), (DHB.CFG.MODE, 11, 1),
    (DHB.CFG.DEAD, 11, 8000), (DHB.CFG.MINPW, 11, 16000)] run)

/-- Event A at 120,000: moved one tap before THR has passed, executed when it has; at 155,000 a pulse shorter than THR is suppressed. -/
theorem witness_CarriersAndTriggers :
    (let e := fun (a : Word) (t : Nat) => let k := (carried a 0).chip.portCarrier 11 t
       let u := (carried a 0).chip.portPos 11 t
       (k.eventA u, k.eventB u, k.period u)
     e 0x3F000000 120000 = (true, false, false) ∧ e 0x3D800000 155000 = (true, false, false)) ∧
    (carried 0x3F000000 0).chip.portPrio 11 = 5 ∧ (carried 0x3F000000 0).chip.portThr 11 = 24000 ∧
    (carried 0x3F000000 0).chip.get DHB.STAT.TRK 11 = 0 ∧
    gives (.carrierEvent 120000 false 11) (carried 0x3F000000 96000) (fun u => u.chip.on DHB.STAT.TRK 11) ∧
    gives (.carrierEvent 120000 false 11) (carried 0x3F000000 96001) (fun u => u.chip.get DHB.EVT.CLAMP 11 == 1) ∧
    gives (.carrierEvent 155000 false 11) (carried 0x3D800000 0) (fun u => u.chip.get DHB.EVT.SUPPR 11 == 1) ∧
    (put [(ARM.CFG.MODE, 1, 1)] (mapped run)).chip.laneArm 2 = 1 ∧ up.chip.inRun = false ∧
    (let s := alter (fun c => { c with mod := { c.mod with fired := [(15, 64), (3, 20)] }, ctl := { c.ctl with trig := [4, 5] } })
       (put [(CTL.SCFG.TSRC, 4, 3), (CTL.SCFG.TSRC, 5, 3), (ADC.QCFG.EN, 15, 1), (ADC.QCFG.SRC, 15, 3)] run)
     nextFiring s.chip.mod.fired = some (3, 20) ∧ gives (.mtrigDelivery 20) s (fun u => (u.chip.slot 4).trig == some 20 &&
        u.chip.adc.trigs == [(3, 3, 3, 20)]) ∧ gives (.mtrigDelivery 19) s (fun u => u.chip.mod.fired.length == 2)) := by decide +kernel
/-! Witnesses: monitors, conversion, pages -/

/-- Comparators 94 (HI) and 95 (LO) on, CODE 512 (threshold 0 V), hysteresis code 1 (6 to 10 mV). -/
def comparing : State :=
  put [(MON.CFG.MODE, 94, 1), (MON.CFG.MODE, 95, 1), (MON.CFG.CODE, 94, 512), (MON.CFG.CODE, 95, 512), (MON.CFG.HYST, 94, 1),
    (MON.CFG.HYST, 95, 1)] run

/-- Settling of comparator 95 ends at 8000. -/
def settling : State :=
  alter (fun c => { c with mon := { c.mon with settle := nset none c.mon.settle 95 (some 8000) } }) comparing

/-- HI turns on above the threshold and off below it less the hysteresis; between them it keeps; LO mirrored. Threshold errors up to
10 mV either way; the first decision without hysteresis, band up to the hysteresis. -/
theorem witness_ComparatorsDecide : inv comparing ∧ comparing.chip.cmpOn 94 ∧ comparing.chip.mon.settle = [] ∧
    comparing.chip.mon.test = none ∧ comparing.chip.mon.codeAt = [] ∧ vth 512 = 0 ∧ vth 1023 = 2495117187 ∧
    hystRange (comparing.chip.get MON.CFG.HYST 94) = (6000000, 10000000) ∧ comparing.chip.on MON.ROUTE.LEN 94 = false ∧
    comparing.chip.on MOD.CMT.SRC = false ∧
    gives (.comparatorDecision 5 94 10000001 10000000 6000000) comparing (fun u => (u.chip.get MON.DEC.CMP).testBit 94 &&
      gives (.comparatorDecision 6 94 4000000 10000000 6000000) u (fun v => (v.chip.get MON.DEC.CMP).testBit 94) &&
      gives (.comparatorDecision 6 94 3999999 10000000 6000000) u (fun v => !(v.chip.get MON.DEC.CMP).testBit 94)) ∧
    gives (.comparatorDecision 5 95 (-10000001) (-10000000) 10000000) comparing (fun u => u.chip.get MON.STAT.ACTIVE 95 == 1) ∧
    inv settling ∧ gives (.comparatorFirstDecision 8000 95 5999999 0 6000000) settling (fun u =>
      u.chip.get MON.STAT.INBAND 95 == 1 && !(u.chip.get MON.DEC.CMP).testBit 95) ∧
    gives (.comparatorFirstDecision 8000 95 6000000 0 6000000) settling (fun u => u.chip.get MON.STAT.INBAND 95 == 0) ∧
    up.chip.cmpOn 94 = false := by decide +kernel

/-- Trip input 7: 2,000 ps are recognised, 499 ps never. -/
theorem witness_TripInput : inv run ∧ run.chip.fabric ∧ run.chip.on MON.ROUTE.LEN 103 = false ∧
    gives (.tripInput 5 7 true 2000) run (fun u => u.chip.get MON.DEC.PIN == 128 && u.chip.get MON.CNT.ACT 103 == 1) ∧
    gives (.tripInput 5 7 true 499) run (fun u => u.chip.get MON.DEC.PIN == 0) := by decide +kernel

theorem witness_ActiveDecisionsLatch :
    (let s := put [(MON.ROUTE.LEN, 94, 1), (MON.ROUTE.SDO, 94, 15), (MON.ROUTE.ARM, 94, 63)] comparing
     inv s ∧ s.chip.on MON.ROUTE.LEN 94 ∧ s.chip.mon.raw = [] ∧ s.chip.get MON.LATCH.LATCH = 0 ∧
      gives (.comparatorDecision 5 94 1 0 0) s (fun u => u.chip.get MON.LATCH.LATCH == 2 ^ 94 && u.chip.get MON.FIRST.SRC == 94 &&
        u.chip.get MON.HOLD.HELD == 2 ^ 18 * 15 + 63)) ∧ run.chip.dev.ticking ∧ up.chip.dev.ticking = false := by decide +kernel

/-- Comparator 94 of group 3 under the host's test, its last sample 0. -/
def testing (k : Nat) : State :=
  alter (fun c => { c.setGroup 3 { service := nset none [] 11 (some (0, 0)) } with ist := { c.ist with host := some (k, []) } })
    (put [(IST.STAT.ACTIVE, 0, 2 ^ (k - 1)), (MON.TST.TSTEN, 0, 1), (MON.TST.GUARD, 0, 1), (MON.CFG.MODE, 95, 0),
      (MON.CFG.CODE, 94, 514), (ADC.GSTAT.READY, 3, 1)] comparing)

/-- GUARD 1 code: the sample 0 lies 2 codes below CODE 514. The readback of CODE 514 expects 8. -/
theorem witness_SelfTestAndReadback :
    (let s := testing 1
     inv s ∧ s.chip.istNext 1 = some 94 ∧ s.chip.istHost 1 ∧ s.chip.istActive 1 ∧ s.chip.cmpOn 94 ∧ s.chip.mon.settle = [] ∧
      s.chip.mon.test = none ∧ (s.chip.outSlice (cmpGroup 94)).isSome ∧ (s.chip.at_ 5).cmpSample 94 = some 0 ∧
      0 ≤ s.chip.testCode 94 0 ∧ s.chip.testCode 94 0 ≤ 1023 ∧
      4 * (s.chip.get MON.TST.GUARD : Int) ≤ 4 * (s.chip.get MON.CFG.CODE 94 : Int) - (0 + 2048) ∧
      gives (.comparatorSelfTest 5 none) s (fun u => u.chip.get MON.STAT.TESTING 94 == 1 && u.chip.mon.test.isSome &&
        gives (.comparatorSelfTest 6 (some (true, false, 0))) u (fun v => v.chip.get MON.STAT.TRES 94 == 1) &&
        gives (.comparatorSelfTest 6 (some (false, false, 0))) u (fun v => v.chip.get MON.STAT.TRES 94 == 2))) ∧
    (let s := put [(MON.TST.RBTOL, 0, 4)] (testing 2)
     inv s ∧ s.chip.istNext 2 = some 94 ∧ s.chip.istHost 2 ∧ s.chip.istActive 2 ∧ s.chip.adcReady 3 ∧ cmpGroup 94 = 3 ∧
      s.chip.mon.codeAt = [] ∧ (convert 14648437).1 = 12 ∧ (convert 15869140).1 = 13 ∧
      gives (.thresholdReadback 5 14648437) s (fun u => u.chip.get MON.STAT.RBFAIL 94 == 0 && u.chip.get MON.RB.MEAS 94 == 12) ∧
      gives (.thresholdReadback 5 15869140) s (fun u => u.chip.get MON.STAT.RBFAIL 94 == 1)) := by decide +kernel

/-- Group 3 ready in RUN, its last entry 15 in the tick set on slot 7, entry 14 in sequence 3. -/
def converting : State :=
  alter (fun c => { c with adc := { c.adc with strobed := true } }) (put [(ADC.GSTAT.READY, 3, 1), (ADC.SEQ.EN, 63, 1), (ADC.SEQ.SLOT, 63, 7),
    (ADC.SEQ.CH, 63, 15), (ADC.SEQ.TRG, 63, 0), (ADC.SEQ.EN, 62, 1), (ADC.SEQ.TRG, 62, 4), (ADC.SEQ.SLOT, 62, 6),
    (ADC.QCFG.EN, 15, 1), (ADC.QCFG.EN, 14, 1), (ADC.SLOT.MODE, 29, 1), (ADC.SLOT.CH, 29, 5)] run)

/-- With a run of sequence 3 since 0, which ends after one round. -/
def running : State := alter (fun c => c.setGroup 3 { cur := some { q := 3, start := 0, src := 16, dly := false } }) converting

/-- 2.5 V / 2,048 is one code; the largest VALUE 2,047 and CLIP beyond it. -/
theorem witness_ConversionResults : inv run ∧ run.chip.inRun ∧ run.chip.dev.ticking ∧ up.chip.inRun = false ∧ inv converting ∧
    converting.chip.adcReady 3 ∧ converting.chip.sliceOf 3 7 = some 7 ∧ converting.chip.on ADC.SEQ.EN 63 ∧
    convert 2498779296 = (2047, false) ∧ convert 2500000000 = (2047, true) ∧ convert (-2500000000) = (-2048, false) ∧
    gives (.conversionResult 5 3 (.tick 15) 2500000000 true) converting (fun u => u.chip.get ADC.RES.VALUE 31 == 2047 &&
      u.chip.get ADC.EVT.CLIP 3 == 1 && nget 0 u.chip.adc.tick 63 != 0) ∧
    (running.chip.group 3).ended = [] ∧ running.chip.get ADC.SEQ.TRG 62 = 3 + 1 ∧
    gives (.conversionResult 10000 3 (.seq 14) 1220703 true) running (fun u => u.chip.get ADC.RES.VALUE 30 == 1) ∧
    converting.chip.inSet 3 5 = false ∧ converting.chip.on ADC.SLOT.RINGEN 29 = false ∧
    (converting.chip.raw (converting.at_ 8000) - usTaps + 8000 - converting.chip.strobePhase 3 5 % 8000) % 8000 = 0 ∧
    gives (.conversionResult 8000 3 (.cont 5) 0 true) converting (fun u => u.chip.get ADC.RES.VALID 29 == 1) ∧
    gives (.conversionResult 5 3 (.tick 15) 0 false) converting (fun u => u.chip.slice 3 7 == 15 && u.chip.get ADC.RES.VALID 31 == 0) ∧
    converting.chip.serviceFree 3 false ∧ (put [(ADC.MAP.ASSIGN, 3, 0xF76543210)] converting).chip.serviceFree 3 false = false ∧
    gives (.serviceConversion 5 3 15 0) converting (fun u => (nget none (u.chip.group 3).service 15).isSome) ∧
    run.chip.adcReady 3 = false ∧ up.chip.dev.ticking = false := by decide +kernel

/-- A trigger for a free group, for a busy one, and for a busy one with its latch full; the run of one round ends after 1 µs. -/
theorem witness_SequencesRun :
    (let trig := fun (s : State) => alter (fun c => { c with adc := { c.adc with trigs := [(3, 3, 16, 7), (3, 2, 5, 7), (3, 3, 16, 8)] } }) s
     let full := alter (fun c => c.setGroup 3 { c.group 3 with latch := some (3, 16, 5) }) running
     inv (trig converting) ∧ firstTrig [(3, 3, 16, 7), (3, 2, 5, 7)] = some (3, 2, 5, 7) ∧ (trig converting).chip.on ADC.QCFG.EN 14 ∧ (trig converting).chip.on ADC.QCFG.EN 15 ∧ ((trig converting).chip.group 3).cur = none ∧
      running.chip.seqEndAt 3 { q := 3, start := 0, src := 16, dly := false } = 8000 ∧
      gives (.adcHostTrigger 5 0x8000) converting (fun u => u.chip.adc.trigs == [(3, 3, 16, 640000)]) ∧
      gives (.sequenceTrigger 7) (trig converting) (fun u => u.chip.get ADC.GSTAT.RUNQ 3 == 2 && u.chip.adc.trigs.length == 2) ∧
      gives (.sequenceTrigger 7) (trig running) (fun u => u.chip.get ADC.GSTAT.PEND 3 == 1) ∧
      gives (.sequenceTrigger 7) (trig full) (fun u => u.chip.get ADC.EVT.OVR 3 == 1) ∧
      gives (.sequenceEnd 7999 3) running (fun u => (u.chip.group 3).cur.isSome) ∧
      gives (.sequenceEnd 8000 3) running (fun u => (u.chip.group 3).cur.isNone && (u.chip.group 3).ended.length == 1) ∧
      gives (.sequenceEnd 8000 3) full (fun u => (u.chip.group 3).cur.isSome && (u.chip.group 3).latch.isNone)) ∧
    (let s := after (.sequenceEnd 8000 3) (put [(ADC.QCFG.ENG, 15, 1)] running)
     inv s ∧ (s.chip.group 3).ended.length = 1 ∧ s.chip.on ADC.QCFG.RINGEN 15 = false ∧ s.chip.on ADC.QCFG.ENG 15 ∧
      s.chip.seqEntries 3 3 = [14] ∧ s.chip.get ADC.SEQ.ROUND 62 = 0 ∧
      (s.chip.group 3).ended.all (fun r => r.readyAt (s.chip.topRound 3 r.q) == 10000) ∧
      gives (.sequenceRecord 9999 3) s (fun u => (u.chip.group 3).ended.length == 1) ∧
      gives (.sequenceRecord 10000 3) s (fun u => (u.chip.group 3).ended.isEmpty)) ∧
    (let s := after (.sequenceEnd 8000 3) running
     (s.chip.group 3).ended.length = 1 ∧ s.chip.on ADC.QCFG.ENG 15 = false) ∧ run.chip.adc.trigs = [] := by decide +kernel

/-- Slice 8 calibrates (ASSIGN 0x8...), then waits (0x9...) and takes the oldest slice's slot; slice 7 fails; failed already (0xF). -/
theorem witness_SlicesRotate :
    inv run ∧ run.chip.released 2 ∧ run.chip.on ADC.GSTAT.READY 3 = false ∧
    gives (.foregroundCalibrationDone 5 3 (List.replicate 9 (2000, -512))) run (fun u => u.chip.on ADC.GSTAT.READY 3 &&
      u.chip.get ADC.CAL.GERR 35 == 2000 && u.chip.get ADC.CAL.OERR 35 == 4096 - 512) ∧
    (List.range 9).find? (fun x => converting.chip.slice 3 x == 8) = some 8 ∧ converting.chip.state ≠ stBoot ∧
    (converting.chip.group 3).calFrom = 0 ∧ calTaps = 16000000 ∧
    gives (.sliceCalibrationEnd 16000000 3 (-2000) 512) converting (fun u => u.chip.slice 3 8 == 9) ∧
    (let s := put [(ADC.MAP.ASSIGN, 3, 0x976543210), (ADC.GCFG.CALEN, 3, 1)] converting
     s.chip.adcReady 3 ∧ s.chip.on ADC.GCFG.CALEN 3 ∧ (List.range 9).find? (fun x => s.chip.slice 3 x == 9) = some 8 ∧
      s.chip.oldestSlice 3 = some 0 ∧ s.chip.isCont 3 0 = false ∧ s.chip.slotIdle 3 0 ∧
      gives (.sliceHandover 5 3 0) s (fun u => u.chip.slice 3 8 == 0 && u.chip.slice 3 0 == 8)) ∧
    (let s := put [(ADC.MAP.ASSIGN, 3, 0x976543210), (ADC.GCFG.CALEN, 3, 1), (ADC.SLOT.MODE, 24, 1), (ADC.GCFG.SHTOL, 3, 2)] converting
     s.chip.isCont 3 0 ∧ (s.chip.group 3).shadowAt = 0 ∧
      gives (.sliceHandover 127999 3 (-33)) s (fun u => u.chip.slice 3 8 == 9) ∧
      gives (.sliceHandover 128000 3 (-33)) s (fun u => u.chip.slice 3 8 == 0 && u.chip.get ADC.EVT.SHDIFF 3 == 1) ∧
      gives (.sliceHandover 128000 3 32) s (fun u => u.chip.get ADC.EVT.SHDIFF 3 == 0)) ∧
    (let s := put [(ADC.MAP.ASSIGN, 3, 0x976543210), (ADC.GCFG.CALEN, 3, 1), (ADC.SEQ.SLOT, 62, 0)] running
     s.chip.oldestSlice 3 = some 0 ∧ s.chip.slotIdle 3 0 = false) ∧
    converting.chip.slice 3 7 = 7 ∧ converting.chip.outSlice 3 = some 8 ∧
    gives (.sliceFail 5 3 7) converting (fun u => u.chip.slice 3 7 == 15 && u.chip.slice 3 8 == 7) ∧
    (put [(ADC.MAP.ASSIGN, 3, 0xF76543210)] converting).chip.slice 3 8 = 15 := by decide +kernel

/-- Ring 31 asks for a page below its MINP; without pages and MAXP 0 its item is lost. -/
theorem witness_PagesAndTriggers :
    (let s := alter (fun c => { c with pgm := { c.pgm with waiting := [⟨31, [1, 2], none, none⟩] } }) run
     let r := put [(PGM.RCFG.EN, 31, 1), (PGM.RCFG.MINP, 31, 2), (PGM.RCFG.MAXP, 31, 2), (PGM.CAP.STATE, 31, 1)] s
     inv r ∧ r.chip.nextRequest = some 31 ∧ (r.chip.ring 31).pages.length < r.chip.reserve 31 ∧ r.chip.freePages ≠ [] ∧
      s.chip.nextRequest = some 31 ∧
      ((put [(PGM.RCFG.MAXP, 31, 0)] s).chip.at_ 5).takePage 31 = none) ∧
    (let s := alter (fun c => { c with pgm := { c.pgm with trig := [(.source 5, 64), (.host 0x80000000, 64)] }, tim := { c.tim with run := true } }) (ringed 2 run)
     inv s ∧ (s.chip.at_ 63).raw 63 = 63 ∧ s.chip.rstate 31 = rsArmed ∧ s.chip.trigFor 31 (.source 5) = false ∧ s.chip.trigFor 31 (.host 0x80000000) ∧
      gives (.captureTrigger 70) s (fun u => u.chip.rstate 31 == rsArmed && gives (.captureTrigger 70) u (fun v => v.chip.rstate 31 != rsArmed)) ∧
      gives (.captureTrigger 70) (put [(PGM.CAP.STATE, 31, 3), (PGM.CAP.TRIG, 31, 5)] s) (fun u => u.chip.get PGM.RCNT.TRIGX 31 == 1)) ∧
    (let s := alter (fun c => { c with pgm := { c.pgm with toRetire := [2047] } }) run
     inv s ∧ s.chip.pd PGM.PDSC.PST 2047 = pstFree ∧ gives (.pageRetire 5 2047) s (fun u => u.chip.pd PGM.PDSC.PST 2047 == pstRetired)) ∧
    run.chip.pgm.waiting = [] ∧ run.chip.pgm.trig = [] ∧ 2047 ∉ run.chip.pgm.toRetire := by decide +kernel
/-! Witnesses: time base, engine, grid, synchrophasors, meter -/

/-- The time base running since instant 0 with the line locked and both references GOOD. -/
def timed : State :=
  alter (fun c => { c with tim := { c.tim with run := true } })
    (put [(TIM.STAT.DLLOCK, 0, 1), (TIM.STAT.CLKA, 0, 0), (TIM.STAT.CLKB, 0, 0), (TIM.STAT.SEL, 0, 0)] run)

/-- Reference A, selected, fails while B is GOOD; B comes back as preferred after 10 s; the line unlocks and locks again. -/
theorem witness_ClocksSwitch : inv timed ∧ timed.chip.released 1 ∧ timed.chip.fabric ∧ timed.chip.selB = false ∧
    timed.chip.clk true = 0 ∧ timed.chip.on TIM.STAT.DLLOCK ∧ (put [(TIM.STAT.DLLOCK, 0, 0)] timed).chip.on TIM.STAT.DLLOCK = false ∧
    State.reset.chip.released 1 = false ∧
    gives (.refclkLoss 5 false) timed (fun u => u.chip.selB && u.chip.clk false == 1 && u.chip.flt.raised.length == 2) ∧
    timed.chip.get TIM.CLK.FTOL = 100 ∧ gives (.refclkDrift 5 ⟨true, 100001⟩) timed (fun u => !u.chip.selB && u.chip.clk true == 2) ∧
    gives (.refclkDrift 5 ⟨true, 100000⟩) timed (fun u => u.chip.clk true == 0) ∧
    gives (.refclkDrift 5 ⟨false, 100001⟩) timed (fun u => u.chip.selB &&
      gives (.refclkGood 800000005 false) u (fun v => v.chip.clk false == 0) && gives (.refclkGood 800000004 false) u (fun v => v.chip.clk false == 2)) ∧
    gives (.refclkLoss 5 false) (put [(RST.DOM.REL, 0, 1)] timed) (fun u => !u.chip.selB && u.chip.flt.raised.isEmpty) ∧
    (let s := alter (fun c => { c with tim := { c.tim with goodAt := nset none [] 1 (some 0) } })
       (put [(TIM.CLK.PREF, 0, 1), (TIM.CLK.REVERT, 0, 1)] timed)
     s.chip.on TIM.CLK.PREF ∧ nget none s.chip.tim.goodAt 1 = some 0 ∧
      gives (.refclkRevert 80000000000) s (fun u => u.chip.selB) ∧ gives (.refclkRevert 79999999999) s (fun u => !u.chip.selB)) ∧
    gives (.refclkPrefWrite 5 true) timed (fun u => u.chip.selB) ∧
    gives (.refclkPrefWrite 5 true) (put [(TIM.STAT.CLKB, 0, 3)] timed) (fun u => !u.chip.selB) := by decide +kernel

/-- Edges 16 ns apart overrun a stamp unit below 128 taps; a pulse at the second; PPS_IN 10 µs off; holdover; SYNC_IN. -/
theorem witness_StampsAndSeconds :
    (let s := put [(TIM.TSI.EDGE, 15, 1)] timed
     inv s ∧ (s.chip.get TIM.TSI.EDGE 15).testBit 0 ∧ s.chip.on TIM.TSI.RINGEN 15 = false ∧ s.chip.tim.lastEdge = [] ∧
      gives (.timestampInput 1000 15 ⟨true, 4000⟩) s (fun u => u.chip.get TIM.TSV.NUM 15 == 1 &&
        gives (.timestampInput 1127 15 ⟨true, 4000⟩) u (fun v => v.chip.get TIM.EVT.TSIOVR == 1) &&
        gives (.timestampInput 1128 15 ⟨true, 4000⟩) u (fun v => v.chip.get TIM.TSV.NUM 15 == 2))) ∧
    (let s := put [(TIM.PPS.OEN, 0, 1), (TIM.PPS.FREE, 0, 1), (TIM.PPS.WIDTH, 0, 1)] timed
     inv s ∧ (s.chip.at_ 8000000007).corrected (s.chip.raw 8000000007) = 8000000007 ∧ s.chip.tim.ppsHigh = false ∧
      gives (.ppsOutPulse 8000000007) s (fun u => u.chip.tim.ppsHigh && u.chip.tim.ppsNext == 2 &&
        gives (.ppsOutEnd 8008000007) u (fun v => !v.chip.tim.ppsHigh)) ∧ timed.chip.on TIM.PPS.OEN = false) ∧
    (let s := put [(TIM.CFG.SRC, 0, 2), (TIM.STAT.TVALID, 0, 1)] timed
     inv s ∧ nearSecond 8000080001 = 80001 ∧ nearSecond 8000080000 = 80000 ∧ 10 * usTaps = 80000 ∧ s.chip.on TIM.STAT.TVALID ∧
      gives (.ppsInEdge ⟨8000080001, 4000⟩) s (fun u => u.chip.get TIM.CNT.PPSBAD == 1 &&
        gives (.ppsInEdge ⟨8000080128, 4000⟩) u (fun v => v.chip.get TIM.EVT.TSIOVR == 1 && v.chip.get TIM.CNT.PPSBAD == 1)) ∧
      gives (.ppsInEdge ⟨8000080000, 4000⟩) s (fun u => u.chip.tim.corrections == 1) ∧
      gives (.ppsInEdge ⟨8000080001, 3999⟩) s (fun u => u.chip.get TIM.CNT.PPSBAD == 0) ∧
      (let m := alter (fun c => { c with tim := { c.tim with ppsInAt := some 0, corrections := 1 } }) s
       inv m ∧ m.chip.on TIM.STAT.HOLD = false ∧ gives (.ppsInMissing 24000000000) m (fun u => u.chip.on TIM.STAT.HOLD) ∧
        gives (.ppsInMissing 23999999999) m (fun u => !u.chip.on TIM.STAT.HOLD))) ∧
    (let s := put [(TIM.STAT.HOLD, 0, 1), (TIM.STAT.TVALID, 0, 1), (TIM.CFG.HOLDMAX, 0, 1)] timed
     s.chip.on TIM.STAT.HOLD ∧ gives (.holdoverTimeout 8000000000) s (fun u => !u.chip.on TIM.STAT.TVALID) ∧
      gives (.holdoverTimeout 7999999999) s (fun u => u.chip.on TIM.STAT.TVALID)) := by decide +kernel

theorem witness_SyncInEdge :
    (let s := alter (fun c => { c with dev := { c.dev with ticking := false } }) (put [(TIM.STAT.WAITSYNC, 0, 1), (TIM.CFG.TICKSRC, 0, 2)] timed)
     inv s ∧ s.chip.released 1 ∧ s.chip.inRun ∧ s.chip.on TIM.STAT.WAITSYNC ∧
      gives (.syncInEdge ⟨1000, 4000⟩) s (fun u => u.chip.dev.ticking && u.chip.get TIM.STAT.PHI == 1000 % 64)) ∧
    (let s := put [(TIM.CFG.TICKSRC, 0, 2), (DEV.TICK.PERIOD, 0, 1250), (TIM.SYNC.STOL, 0, 16), (TIM.STAT.WAITSYNC, 0, 0)] timed
     s.chip.dev.ticking ∧ s.chip.on TIM.TSI.RINGEN 17 = false ∧ s.chip.period = 80000 ∧
      gives (.syncInEdge ⟨(640000 + 16), 4000⟩) s (fun u => u.chip.get TIM.EVT.SYNCERR == 0) ∧
      gives (.syncInEdge ⟨(640000 + 17), 4000⟩) s (fun u => u.chip.get TIM.EVT.SYNCERR == 1)) := by decide +kernel

/-- PTP port 1 listening to master 7. -/
def listening : State :=
  alter (fun c => c.setPtp 1 { parent := some (7, []), valid := true }) (put [(TIM.PORT.PEN, 1, 1), (TIM.PSTAT.PSTATE, 1, 3), (NET.PSTAT.LINK, 1, 1)] timed)

def ptpMsg (k : PtpKind) (dom : Nat) : PtpMsg := ⟨k, dom, 0, 7, 0, 0, false, 0, true, []⟩

theorem witness_PtpPortsTalk : inv listening ∧ listening.chip.ptpOn 1 ∧ listening.chip.on NET.PSTAT.LINK 1 ∧ (listening.chip.at_ 5).ptpRefresh = listening.chip.at_ 5 ∧
    listening.chip.get TIM.PTP.DOMAIN = 0 ∧ listening.chip.get TIM.CFG.SRC ≠ 1 ∧ listening.chip.on TIM.PTP.RCT = false ∧
    gives (.ptpMessage 5 1 (ptpMsg .sync 1)) listening (fun u => u.chip.get TIM.CNT.PDROP == 1) ∧
    listening.chip.servoIdle ∧ listening.chip.tim.servoPort = none ∧
    gives (.ptpMessage 5 1 (ptpMsg .sync 0)) listening (fun u => (u.chip.ptp 1).valid && (u.chip.ptp 1).syncAt == 5 &&
      u.chip.tim.servoPort == some 1 && u.chip.get TIM.PSTAT.PSTATE 1 == psSlave) ∧
    (let s := alter (fun c => { c.setPtp 0 { parent := some (9, []), valid := true } with tim := { (c.setPtp 0 { parent := some (9, []), valid := true }).tim with servoPort := some 0 } }) listening
     s.chip.servoIdle = false ∧ gives (.ptpMessage 5 1 (ptpMsg .sync 0)) s (fun u => u.chip.get TIM.PSTAT.PSTATE 1 == psPassive)) ∧
    (let s := put [(NET.PSTAT.LINK, 1, 0)] listening
     s.chip.on NET.PSTAT.LINK 1 = false ∧ (s.chip.at_ 5).ptpMaySend 1 .pdelayReq ∧ ((alter (fun c => { c with net := { c.net with busy := [(1, 6)] } }) s).chip.at_ 5).ptpMaySend 1 .pdelayReq = false ∧
      gives (.ptpMessage 5 1 (ptpMsg .sync 0)) s (fun u => u.chip.get NET.PCNT.RXCRC 1 == 1) ∧
      gives (.ptpTransmit 5 1 .pdelayReq) s (fun u => u.chip.get NET.PCNT.TXDROP 1 == 1)) ∧
    gives (.ptpTransmit 5 1 .pdelayReq) listening (fun u => (u.chip.ptp 1).req.isSome &&
      gives (.ptpMessage 1005 1 (ptpMsg .pdelayResp 0)) u (fun v => (v.chip.ptp 1).req.isNone)) ∧
    logTaps 0 = 8000000000 ∧ (listening.chip.ptp 1).annAt = 0 ∧
    gives (.ptpAnnounceTimeout 24000000000 1) listening (fun u => (u.chip.ptp 1).parent.isNone) ∧
    gives (.ptpAnnounceTimeout 23999999999 1) listening (fun u => (u.chip.ptp 1).parent.isSome) ∧
    gives (.ptpAnnounceTimeout 24000000000 1) (put [(TIM.PTP.SONLY, 0, 1)] listening) (fun u => u.chip.get TIM.PSTAT.PSTATE 1 == psListening) ∧
    (listening.chip.ptp 0).parent = none ∧
    gives (.ptpSyncTimeout 24000000000 1) listening (fun u => !(u.chip.ptp 1).valid && (u.chip.ptp 1).parent.isSome) ∧
    gives (.ptpAnnounceTimeout 24000000000 1) (put [(TIM.PTP.SONLY, 0, 0)] listening) (fun u =>
      u.chip.get TIM.PSTAT.PSTATE 1 == psMaster && u.chip.tim.gm) ∧
    gives (.ptpSyncTimeout 23999999999 1) listening (fun u => (u.chip.ptp 1).valid) ∧ timed.chip.ptpOn 1 = false := by decide +kernel

/-- TRIG slot 23 waits with a firing: y = KREF × 1 = 2.0, limited to YHI 1.5; an infinite KREF holds y. -/
def triggered (l : List (Fld × Nat × Nat)) : State :=
  alter (fun c => { c.setSlot 23 { trig := some 64 } with ctl := { (c.setSlot 23 { trig := some 64 }).ctl with trig := [23] } })
    (put ([(CTL.SCFG.EN, 23, 1), (CTL.SCFG.PHASE, 23, 2), (CTL.SIO.REFSRC, 23, 1), (CTL.SIO.KREF, 23, 0x40000000),
      (CTL.LIM.YHI, 23, 0x3FC00000), (CTL.LIM.YLO, 23, 0xBFC00000), (CTL.SIO.DEST, 23, 0x40)] ++ l) run)

theorem witness_EngineCommands : inv (triggered []) ∧ (triggered []).chip.inRun ∧ (triggered []).chip.dev.ticking ∧
    (triggered []).chip.trigPending = [23] ∧ ((triggered []).chip.slot 23).trig = some 64 ∧ 6 ≤ (triggered []).chip.get CTL.SCFG.WEIR 23 ∧
    (triggered []).chip.on CTL.PRB.EN 7 = false ∧ (triggered []).chip.on CTL.SCTL.HOLD 23 = false ∧
    ((triggered []).chip.slot 23).recs = [] ∧ (triggered []).chip.ctl.hist = [] ∧ (triggered []).chip.get CTL.SCFG.NSEC 23 = 0 ∧
    gives (.trigSlotEvaluation ⟨70, 0⟩) (triggered []) (fun u => u.chip.getW CTL.OUT.Y 23 == 0x3FC00000 && u.chip.destVal 0x50 == 0x3FC00000) ∧
    gives (.trigSlotEvaluation ⟨70, 0⟩) (triggered [(CTL.SIO.KREF, 23, 0x7F800000)]) (fun u => u.chip.get CTL.SST.NANH 23 == 1) ∧
    (triggered []).chip.ctl.left = 0 ∧ gives (.trigSlotEvaluation ⟨70, 1⟩) (triggered [(CTL.SCTL.HOLD, 23, 1)]) (fun u => (u.chip.slot 23).trig.isNone &&
      u.chip.get CTL.CNT.EVALS == 0) ∧ run.chip.trigPending = [] := by decide +kernel

/-- TRIP is left when no point that trips still holds; point 63 does while F lies above its LEVEL. -/
theorem witness_GridCommands :
    (let s := alter (fun c => { c with grd := { c.grd with rts := 3, isl := true, icause := 5 } })
       (put [(GRD.STAT.RTS, 0, 3), (GRD.STAT.ISL, 0, 1), (GRD.STAT.ICAUSE, 0, 5)] run)
     let p := put [(GRD.RTP.ACT, 63, 2), (GRD.RTP.LEVEL, 63, 0x3F800000), (GRD.VAL.F, 0, 0x40000000)] s
     inv s ∧ s.chip.fabric ∧ p.chip.pointCond 63 (p.chip.getW GRD.VAL.VMIN) (p.chip.getW GRD.VAL.VMAX) (p.chip.getW GRD.VAL.F) ∧
      (∀ i, i < 64 → s.chip.get GRD.RTP.ACT i ≠ 2) ∧
      gives (.grdTripClear 5) s (fun u => u.chip.get GRD.STAT.RTS == 2) ∧ gives (.grdTripClear 5) p (fun u => u.chip.get GRD.STAT.RTS == 3) ∧
      s.chip.grd.pas = false ∧ gives (.grdIslandClear 5) s (fun u => u.chip.get GRD.STAT.ISL == 0) ∧
      gives (.grdIslandClear 5) (alter (fun c => { c with grd := { c.grd with pas := true } }) s) (fun u => u.chip.get GRD.STAT.ISL == 1) ∧
      run.chip.get GRD.STAT.RTS ≠ 3) := by decide +kernel

/-- Fs 50: instant 49 of second 1 lies at 1.98 s; its window of 20 ms and Δ 2 ms end at 1.992 s. -/
theorem witness_SynchrophasorReport :
    (let s := put [(PMU.CFG.EN, 0, 1), (PMU.CFG.RATE, 0, 50), (PMU.CFG.FNOM, 0, 0)] timed
     inv s ∧ s.chip.reportUs 49 = 980000 ∧ s.chip.pmuHalf false = 160000000 ∧ s.chip.pmuDelta = 16000000 ∧
      (s.chip.at_ 16016000000).reportReady 1 49 ∧ (s.chip.at_ 16015999999).reportReady 1 49 = false ∧
      (s.chip.at_ 16016000000).reportReady 1 50 = false) := by decide +kernel

/-- A command frame waits; ring 31 has page 2047 open. -/
def commanded (k : Nat) : State :=
  alter (fun c => { c.setRing 31 { pages := [2047] } with pmu := { c.pmu with cmds := [⟨k, 1, 2, 3⟩] } })
    (put [(PMU.CFG.RING, 0, 31), (PMU.CFG.EN, 0, 1), (PGM.CAP.STATE, 31, 1), (pdsc PGM.PDSC.PST 2047, 255, 2),
      (pdsc PGM.PDSC.RING 2047, 255, 31), (pdsc PGM.PDSC.FILL 2047, 255, 2)] timed)

theorem witness_SynchrophasorCommands : inv (commanded 1) ∧ (commanded 1).chip.pmu.cmds = [⟨1, 1, 2, 3⟩] ∧
    gives (.turnOffTransmission 5) (put [(PMU.NET.TXON, 0, 1)] (commanded 1)) (fun u => u.chip.get PMU.NET.TXON == 0) ∧
    gives (.turnOnTransmission 5) (commanded 2) (fun u => u.chip.get PMU.NET.TXON == 1) ∧
    (commanded 4).chip.rstate 31 = rsRun ∧ (commanded 4).chip.openPage 31 = some 2047 ∧ (commanded 4).chip.pgm.waiting = [] ∧
    (commanded 4).chip.pd PGM.PDSC.FILL 2047 = 2 ∧
    2 + (packWords (((commanded 4).chip.at_ 5).configFrame 0xAA22)).length < 1024 ∧
    2 + (packWords (((commanded 5).chip.at_ 5).configFrame 0xAA32)).length < 1024 ∧
    gives (.pmuCommandIgnored 5) (commanded 3) (fun u => u.chip.get PMU.EVT.CMDX == 1) ∧
    gives (.pmuCommandIgnored 5) (commanded 1) (fun u => u.chip.get PMU.EVT.CMDX == 0) := by decide +kernel

/-- The line of chapter 14: LEN 180,000 m, VEL 293.8 m/µs. -/
def line : State :=
  put [(PMU.CFG.TWEN, 0, 1), (PMU.TWCFG.LEN, 0, 0x482FC800), (PMU.TWCFG.VEL, 0, 0x4392E666), (PMU.TWCFG.TH, 0, 64)] timed

/-- The first arrival of chapter 14 collected at t1, record 41 open, then the reflection 424,778.750 ns later. -/
def collected : State :=
  alter (fun c => { c with pmu := { c.pmu with num := 42, openAt := some 0, collecting := true, collEnd := 158120960, arrivals :=
    [(1000, false), (1000 + 54371680, false), (1000 + 102469760, true)] } })
    (put [(PMU.FREC.NUM, 9, 41), (PMU.FREC.TWV, 9, 1), (PMU.STAT.REC, 0, 1)] line)

/-- 26 Plume samples with a step of S above TH at sample 5. -/
def wave (ok : Bool) : List TwSample :=
  List.replicate 5 ⟨0, 0, 0, true⟩ ++ List.replicate 21 ⟨600, -300, -300, ok⟩

/-- Those samples in the streams of the line, from raw instant 0, newest first. -/
def waved (ok : Bool) (s : State) : State :=
  let st := fun (f : TwSample → Int) => ((wave ok).zipIdx.map (fun y => (1000 * y.2, f y.1, y.1.ok))).reverse
  alter (fun c => { c with pmu := { c.pmu with streams := [(0, st TwSample.a), (1, st TwSample.b), (2, st TwSample.c)] } })
    (put [(PMU.TWCFG.GA, 0, 0), (PMU.TWCFG.GB, 0, 1), (PMU.TWCFG.GC, 0, 2)] s)

/-- DT 54,371,680 and DSE 62,400.0 m (chapter 14, to one last place). -/
theorem witness_FaultRecordsOfTheLine : inv line ∧ line.chip.pmuRuns ∧ line.chip.pmu.openAt = none ∧ up.chip.pmuRuns = false ∧
    gives (.pmuFltrig 5) line (fun u => u.chip.get PMU.STAT.REC == 1) ∧
    gives (.pmuFltrig 5) collected (fun u => u.chip.get PMU.EVT.FLBUSY == 1) ∧
    9 * line.chip.get PMU.TWCFG.TH * line.chip.get PMU.TWCFG.TH < twS9 (twAt (wave true) 5) ∧ (wave true).length = 26 ∧
    twPeak (wave true) 5 = 5 ∧ (∀ y ∈ ((wave true).drop 1).take 9, y.ok = true) ∧ (∃ y ∈ ((wave false).drop 1).take 9, y.ok = false) ∧
    inv (waved true line) ∧ ((waved true line).chip.at_ 26000).twDetect = some (5000, wave true) ∧ (waved true line).chip.pmu.openAt = none ∧
    gives (.twArrival 26000 5000 (wave true)) (waved true line) (fun u => u.chip.pmu.collecting && u.chip.get PMU.EVT.TW == 1 &&
      u.chip.pmu.collEnd != 0 && u.chip.pmu.arrivals.length == 1) ∧
    ((waved false line).chip.at_ 26000).twDetect = some (5000, wave false) ∧
    gives (.twArrival 26000 5000 (wave false)) (waved false line) (fun u => u.chip.get PMU.CNT.TWBAD == 1) ∧
    ((waved true collected).chip.at_ 26000).twDetect = some (5000, wave true) ∧ (waved true collected).chip.pmu.collecting ∧
    gives (.twArrival 26000 5000 (wave true)) (waved true collected) (fun u => u.chip.pmu.arrivals.length == 4 && u.chip.get PMU.FREC.NARR 9 == 4) ∧
    gives (.twArrival 26000 5000 (wave true)) (alter (fun c => { c with pmu := { c.pmu with collEnd := 79999 } }) (waved true collected))
      (fun u => u.chip.pmu.arrivals.length == 3) ∧ (line.chip.at_ 26000).twDetect = none ∧
    gives (.twArrival 26000 5000 (wave true)) (alter (fun c => { c with pmu := { c.pmu with collecting := false } }) (waved true collected))
      (fun u => u.chip.get PMU.EVT.FLBUSY == 1) ∧
    gives (.twCollectionEnd 9882560) collected (fun u => u.chip.get PMU.FREC.DT 9 == 54371680 && u.chip.get PMU.FREC.SEV 9 == 1 &&
      [0x4773BFFF, 0x4773C000].contains (u.chip.get PMU.FREC.DSE 9)) ∧
    gives (.twCollectionEnd 9882559) collected (fun u => u.chip.pmu.collecting) ∧
    (let s := alter (fun c => { c with pmu := { c.pmu with collecting := false } }) collected
     s.chip.openSlot = 9 ∧ s.chip.on PMU.CFG.IMPEN = false ∧
      gives (.faultRecordComplete 10000000) s (fun u => u.chip.get PMU.STAT.LASTNUM == 41 && u.chip.get PMU.EVT.FLREC == 1)) ∧
    (let s := put [(PMU.CFG.IMPEN, 0, 1), (PMU.FLCFG.PSET, 0, 1)] collected
     s.chip.pmuF0 = 50 ∧ gives (.faultRecordComplete 179999999) s (fun u => u.chip.pmu.openAt.isSome)) ∧
    gives (.twremWrite 5 41 0 0 0) collected (fun u => u.chip.get PMU.FREC.DEV 9 == 1) ∧
    gives (.twremWrite 5 40 0 0 0) collected (fun u => u.chip.get PMU.FREC.DEV 8 == 0) := by decide +kernel
/-- The meter in RUN with decimator 0 on; samples of 3,600 ones on every channel. -/
def metering : State :=
  let ch : MeterCh := { hist := List.replicate 3600 (0x3F800000, false) }
  alter (fun c => { c with mtr := { c.mtr with chs := (List.range 6).map (fun k => (k, ch)) } })
    (put [(MTR.CFG.EN, 0, 1), (MTR.CFG.ECPER, 0, 1), (MTR.PLS.EN, 3, 1), (MTR.PLS.PW, 3, 2), (MTR.PST.PEND, 3, 2), (KPR.CFG.NVPER, 0, 1)] timed)

theorem witness_PowerSample : inv metering ∧ metering.chip.meterRuns ∧ metering.chip.raw (metering.at_ 1000000) / (125 * usTaps) = 1 ∧
    metering.chip.mtr.lastK = 0 ∧ (∀ ch, ch < 6 → (metering.chip.decim (metering.chip.get MTR.CH.DEC ch)).meter = []) ∧
    (∀ e, e < 3 → metering.chip.elemInvalid e = false) := by decide +kernel

theorem witness_PowerSampleFull : ∀ e, e < 3 → (metering.chip.elemSample e).isSome = true := by decide +kernel

/-- Output 3 with two pulses queued; the pulse of 2 ms ends after 16,000,000 taps. -/
theorem witness_MeterRuns : metering.chip.plsOn 3 ∧ metering.chip.get MTR.PST.PEND 3 = 2 ∧ 2 < 2 ^ MTR.PST.PEND.width ∧
    (metering.chip.pls 3).until_ = none ∧ (metering.chip.pls 3).free = 0 ∧ up.chip.meterRuns = false ∧
    gives (.pulseStart 0 3) metering (fun u => u.chip.get MTR.PST.PEND 3 == 1 && (u.chip.pls 3).until_ == some 16000000 &&
      gives (.pulseEnd 16000000 3) u (fun v => (v.chip.pls 3).until_.isNone && (v.chip.pls 3).free == 32000000 &&
        gives (.pulseStart 31999999 3) v (fun w => w.chip.get MTR.PST.PEND 3 == 1) &&
        gives (.pulseStart 32000000 3) v (fun w => w.chip.get MTR.PST.PEND 3 == 0))) ∧
    (metering.chip.decim (metering.chip.get MTR.CH.DEC 5)).meter = [] ∧
    gives (.meterSnapshot 5) (alter (fun c => { c with mtr := { c.mtr with acc := [(27, 2 ^ 24 * 5)] } }) metering)
      (fun u => u.chip.get MTR.SNAP.VALUE 27 == 5 && u.chip.get MTR.SNAPH.NUM == 1) ∧
    inv up ∧ up.chip.fabric ∧ up.chip.inRun = false ∧ gives (.meterZero 5) metering (fun u => u.chip.get MTR.PST.PEND 3 == 2) ∧
    metering.chip.mtr.copyAt + metering.chip.get MTR.CFG.ECPER * secTaps = 8000000000 ∧
    gives (.meterRecordCopy 7999999999) metering (fun u => u.chip.kpr.meter.isNone) ∧
    gives (.meterRecordCopy 8000000000) metering (fun u => u.chip.kpr.meter.isSome && u.chip.kpr.pend.isEmpty) ∧
    gives (.meterRecordCopy 480000000000) metering (fun u => (nget none u.chip.kpr.pend 1).isSome) := by decide +kernel

/-! Witnesses: Ethernet -/

/-- Port 1 up in single mode (or port 0), MAC 0x2. -/
def linked (prp : Nat) : State :=
  put [(NET.PORT.EN, 0, 1), (NET.PORT.EN, 1, 1), (NET.PSTAT.LINK, 0, 1), (NET.PSTAT.LINK, 1, 1), (NET.MAC.ADDR, 0, 2), (NET.CFG.MODE, 0, prp)] timed

def frameOf (dst src etype : Nat) (l : List Nat) (trailer : Option (Nat × Nat)) : List Byte :=
  let f := octets 6 dst ++ octets 6 src ++ octets 2 etype ++ l ++ List.replicate (46 - l.length) 0
  (match trailer with
    | none => f
    | some (q, lan) => f ++ octets 2 q ++ octets 2 (lan * 4096 + f.length + 6 - 14) ++ [0x88, 0xFB]).map (BitVec.ofNat 8)

/-- A frame of 60 octets that nobody takes; a supervision frame and a safety frame, with and without trailer. -/
theorem witness_EthernetReception :
    inv (linked 0) ∧ (linked 0).chip.ethOn 1 ∧ (linked 0).chip.on NET.PSTAT.LINK 1 ∧ timed.chip.ethOn 1 = false ∧
    (let f := frameOf 9 8 0x0900 [] none
     f.length = 60 ∧ (linked 0).chip.rxKind (parseFrame (f.map BitVec.toNat)) = 0 ∧
      (parseFrame (f.map BitVec.toNat)).trailer = none ∧
      gives (.ethFrameRx 5 1 f true false) (linked 0) (fun u => u.chip.get NET.PCNT.RXDROP 1 == 1) ∧
      gives (.ethFrameRx 5 1 f true true) (linked 0) (fun u => u.chip.get NET.PCNT.RXOVR 1 == 1) ∧
      gives (.ethFrameRx 5 1 (f.take 59) true false) (linked 0) (fun u => u.chip.get NET.PCNT.RXCRC 1 == 1)) ∧
    (let f := frameOf 0x01154E000100 8 0x88FB [] (some (65535, 0xB))
     let x := parseFrame (f.map BitVec.toNat)
     (linked 1).chip.rxKind x = 4 ∧ (linked 1).chip.prp ∧ x.trailer = some (65535, 0xB) ∧ (linked 1).chip.net.table = [] ∧
      gives (.ethFrameRx 5 1 f true false) (linked 1) (fun u => u.chip.net.table.length == 1 &&
        gives (.ethFrameRx 6 1 f true false) u (fun v => v.chip.get NET.PRPCNT.REPEAT == 1) &&
        gives (.ethFrameRx 6 0 (frameOf 0x01154E000100 8 0x88FB [] (some (65535, 0xA))) true false) u
          (fun v => v.chip.get NET.PRPCNT.DUPL == 1 && v.chip.net.table.isEmpty))) := by decide +kernel

theorem witness_SafetyFramesArrive :
    (let s := fun (prp : Nat) => put [(NET.SAFE.SMC, 0, 0x010000000005), (NET.SAFE.ETYPE, 0, 0x88B5), (NET.SAFE.WIN, 0, 100)] (linked prp)
     let f := frameOf 0x010000000005 8 0x88B5 [1, 2, 3]
     let x := fun (y : Option (Nat × Nat)) => parseFrame ((f y).map BitVec.toNat)
     (s 0).chip.rxKind (x none) = 5 ∧ (x none).trailer = none ∧ (x (some (7, 0xA))).trailer = some (7, 0xA) ∧
      (s 1).chip.rxKind (x (some (7, 0xA))) = 5 ∧ (s 1).chip.net.pairs = [] ∧
      gives (.ethFrameRx 5 0 (f none) true false) (s 0) (fun u => u.chip.sio.frames.length == 1) ∧
      gives (.ethFrameRx 5 0 (f (some (7, 0xA))) true false) (s 1) (fun u => u.chip.sio.frames.isEmpty && u.chip.net.pairs.length == 1 &&
        gives (.ethFrameRx 800005 1 (f (some (7, 0xB))) true false) u (fun v => v.chip.sio.frames.map (·.both) == [true]) &&
        gives (.safetyPairTimeout 800005) u (fun v => v.chip.sio.frames.map (·.both) == [false]) &&
        gives (.safetyPairTimeout 800004) u (fun v => v.chip.sio.frames.isEmpty))) ∧
    (let s := put [(NET.PSTAT.SILENT, 1, 0), (NET.CFG.LANTO, 0, 3)] (linked 0)
     s.chip.on NET.PSTAT.SILENT 1 = false ∧ gives (.lanSilent 24000000000 1) s (fun u => u.chip.on NET.PSTAT.SILENT 1) ∧
      gives (.lanSilent 23999999999 1) s (fun u => !u.chip.on NET.PSTAT.SILENT 1)) := by decide +kernel

theorem witness_EthernetTransmission :
    (let f : TxFrame := ⟨1, List.replicate 60 0, 14, none⟩
     let g : TxFrame := ⟨4, List.replicate 60 0, 14, none⟩
     let s := alter (fun c => { c with net := { c.net with queue := nset [] [] 1 [g, f] } }) (linked 0)
     inv s ∧ s.chip.pgm.frames = [] ∧ s.chip.on PMU.NET.UEN = false ∧ nget 0 s.chip.net.busy 1 = 0 ∧
      [1, 3, 4].findSome? (fun p => (nget [] s.chip.net.queue 1).find? (fun x => x.prio == p)) = some f ∧
      nget [] (linked 0).chip.net.queue 1 = [] ∧ gives (.ethFrameTx 5 1) s (fun u => nget [] u.chip.net.queue 1 == [g]) ∧
      gives (.linkPoll 5 1 false) s (fun u => u.chip.get NET.PCNT.TXDROP 1 == 2 && u.chip.get NET.EVT.LINK == 1)) ∧
    (let s := put [(NET.CFG.LIFE, 0, 2)] (linked 1)
     s.chip.prp ∧ s.chip.fabric ∧ gives (.prpSupervisionTx 16000000000) s (fun u => (nget [] u.chip.net.queue 1).length == 1 &&
        u.chip.net.supSeq == 1) ∧ gives (.prpSupervisionTx 15999999999) s (fun u => (nget [] u.chip.net.queue 1).isEmpty)) ∧
    (let s := put [(SIO.FCFG.TXEN, 0, 1), (NET.SAFE.SMC, 0, 0x010000000005)] (linked 0)
     s.chip.inRun ∧ s.chip.on SIO.FCFG.TXEN ∧ s.chip.prp = false ∧ s.chip.ethOn 0 ∧ s.chip.sio.sentAt = none ∧
      gives (.safetyFrameTx 5) s (fun u => u.chip.sio.fcnt == 1 && (nget [] u.chip.net.queue 0).length == 1)) ∧
    (linked 0).chip.on NET.MDIO.BUSY = false ∧
    gives (.mdioAccess 5 0x3F1F0000) (linked 0) (fun u => u.chip.on NET.MDIO.BUSY && u.chip.get NET.MDIO.PHYAD == 31 &&
      gives (.mdioAccessDone u.chip.net.mdioEnd 7) u (fun v => !v.chip.on NET.MDIO.BUSY)) := by decide +kernel
/-! Witnesses: safety inputs and outputs, faults -/

/-- No reset sequence runs; output 3 enabled with tests on; input 7 EQUIV, both channels high, routed to output 3. -/
def guarded : State :=
  alter (fun c => { c with rst := { c.rst with seq := none, vin := true, core := true } })
    (put [(SIO.SDOCFG.EN, 3, 1), (SIO.SDOCFG.TEN, 3, 1), (SIO.SDOCFG.TPER, 3, 1), (SIO.SDOCFG.TPW, 3, 1), (SIO.SDOCFG.RBT, 3, 1), (SIO.SICFG.MODE, 7, 1),
      (SIO.SICFG.SDO, 7, 8), (SIO.SICFG.TDISC, 7, 10), (SIO.SICFG.EVEN, 7, 1), (SIO.SISTAT.A, 7, 1), (SIO.SISTAT.B, 7, 1),
      (SIO.SISTAT.DEMAND, 7, 0)] run)

/-- Output 3 energised. -/
def energised : State := after (.sdoOn 5 3 true) guarded

/-- One channel opens: demand; after TDISC, 10 ms, the disagreement is a fault; acknowledged once both channels are open. -/
theorem witness_SafetyInputs : inv guarded ∧ guarded.chip.fabric ∧ guarded.chip.siUsed 7 ∧ guarded.chip.siUsed 6 = false ∧
    gives (.safetyInputChange 100 7 1 false) energised (fun u => u.chip.get SIO.SISTAT.DEMAND 7 == 1 && !(u.chip.sdo 3).a &&
      nget none u.chip.sio.disagree 7 == some 100 && u.chip.flt.raised.length == 1 &&
      gives (.discrepancyTimeout (100 + 10 * msTaps) 7) u (fun v => v.chip.on SIO.SISTAT.FAULT 7 &&
        gives (.siFaultAck (101 + 10 * msTaps) 128) v (fun w => w.chip.on SIO.SISTAT.FAULT 7) &&
        gives (.safetyInputChange (102 + 10 * msTaps) 7 0 false) v (fun w => (w.chip.siOkA 7 || w.chip.siOkB 7) == false &&
          gives (.siFaultAck (103 + 10 * msTaps) 128) w (fun x => !x.chip.on SIO.SISTAT.FAULT 7 && x.chip.get SIO.SISTAT.DEMAND 7 == 1))) &&
      gives (.discrepancyTimeout (99 + 10 * msTaps) 7) u (fun v => !v.chip.on SIO.SISTAT.FAULT 7)) := by decide +kernel

/-- Output 3 turns on, is refused while NOTRUN; its readback must agree RBT, 10 µs, after the change. -/
theorem witness_SafetyOutputs : guarded.chip.sdoBlocked 3 = false ∧ (guarded.chip.sdo 3).test = none ∧
    guarded.chip.sdoBlocked 2 ∧ guarded.chip.readback 3 0 = false ∧ guarded.chip.readback 3 1 = false ∧
    gives (.sdoOn 5 3 true) guarded (fun u => (u.chip.sdo 3).a && (u.chip.sdo 3).b) ∧
    gives (.sdoOn 5 2 true) guarded (fun u => !(u.chip.sdo 2).a) ∧ energised.chip.agreeAt 3 0 = 80005 ∧
    energised.chip.on SIO.SDOSTAT.FAULT 3 = false ∧
    gives (.sdoReadbackDeadline 80004 3 0) energised (fun u => !u.chip.on SIO.SDOSTAT.FAULT 3) ∧
    gives (.sdoReadbackDeadline 80005 3 0) energised (fun u => u.chip.on SIO.SDOSTAT.FAULT 3 && u.chip.get SIO.SDOSTAT.FCAUSE 3 == 1 &&
      gives (.sdoFaultAck 80006 3) u (fun v => !v.chip.on SIO.SDOSTAT.FAULT 3)) ∧
    gives (.testPulse 90000 3 1) energised (fun u => (u.chip.sdo 3).test.any (fun x => x.ended.isNone) &&
      gives (.sdoReadbackDeadline 90001 3 1) u (fun v => !v.chip.on SIO.SDOSTAT.FAULT 3)) ∧
    gives (.sdoReadbackChange 90000 3 1 true) energised (fun u => !u.chip.on SIO.SDOSTAT.FAULT 3 &&
      gives (.sdoFaultAck 90001 3) u (fun v => v.chip.on SIO.SDOSTAT.FB 3)) := by decide +kernel

/-- A dark pulse of channel B that reaches its level and returns; one that does not reach it; a bright pulse skipped. -/
theorem witness_SafetyTests :
    (let s := put [(SIO.SDOSTAT.FA, 3, 1), (SIO.SDOSTAT.FB, 3, 1)] energised
     inv s ∧ s.chip.inRun ∧ s.chip.pulseRuns = false ∧ (s.chip.sdo 3).dueB = 0 ∧
      gives (.testPulse 90000 3 1) s (fun u => (u.chip.sdo 3).test == some { ch := 1, bright := false, start := 90000 } &&
        gives (.testPulseEnd 170000 3) u (fun v => v.chip.get SIO.SDOSTAT.FCAUSE 3 == 4 && v.chip.get SIO.SDOSTAT.TRESB 3 == 2) &&
        gives (.sdoReadbackChange 100000 3 1 false) u (fun v => (v.chip.sdo 3).test.any (·.reached) &&
          gives (.testPulseEnd 169999 3) v (fun w => (w.chip.sdo 3).test == (v.chip.sdo 3).test) &&
          gives (.testPulseEnd 170000 3) v (fun w => (w.chip.sdo 3).test.any (fun x => x.ended == some 170000) && (w.chip.sdo 3).b &&
            gives (.sdoReadbackChange 180000 3 1 true) w (fun x => x.chip.get SIO.SDOSTAT.TRESB 3 == 1 && x.chip.get SIO.CNT.TESTS == 1) &&
            gives (.testReturnTimeout 249999 3) w (fun x => (x.chip.sdo 3).test.isSome) &&
            gives (.testReturnTimeout 250000 3) w (fun x => x.chip.get SIO.SDOSTAT.FCAUSE 3 == 2))))) ∧
    (guarded.chip.sdo 3).a = false ∧ gives (.testPulse 90000 3 0) guarded (fun u => (u.chip.sdo 3).test.any (·.bright)) ∧
    gives (.testPulse 90000 3 0) (put [(SIO.SDOSTAT.FB, 3, 1)] guarded) (fun u => u.chip.get SIO.SDOSTAT.TRESA 3 == 4) ∧
    up.chip.inRun = false := by decide +kernel

/-- A frame of node 9 with FCNT 5 for receiver 3; the watchdog of 100 ms. -/
theorem witness_SafetyFrames :
    (let l := [1, 9, 0, 5, 0, 0, 0, 0, 0, 0, 0, 0, 0, 0, 0, 0]
     let p := l ++ wordBytes (crc32c l)
     let s := fun (q : List Nat) => alter (fun c => { c with sio := { c.sio with frames := [⟨q, true⟩] } })
       (put [(SIO.RXCFG.EN, 3, 1), (SIO.RXCFG.NODE, 3, 9), (SIO.RXCFG.RXTO, 3, 100), (SIO.RXCFG.REQBOTH, 3, 1)] guarded)
     inv (s p) ∧ (s p).chip.acceptor p = some 3 ∧ (s p).chip.acceptor (p.take 19) = none ∧
      gives (.safetyFrameRx 5) (s (p.take 19)) (fun u => u.chip.get SIO.EVT.RXBAD == 1) ∧
      gives (.safetyFrameRx 5) (s p) (fun u => u.chip.get SIO.RXSTAT.FCNT 3 == 5 && u.chip.on SIO.RXSTAT.LIVE 3 &&
        gives (.remoteWatchdogExpiry (5 + 100 * msTaps) 3) u (fun v => !v.chip.on SIO.RXSTAT.LIVE 3) &&
        gives (.remoteWatchdogExpiry (4 + 100 * msTaps) 3) u (fun v => v.chip.on SIO.RXSTAT.LIVE 3)) ∧
      guarded.chip.sio.frames = []) := by decide +kernel

/-- An event of source 61 opens a record and a window of 4 ms; one of source 63, class C3, a reaction that takes in source 61. -/
theorem witness_FaultEvents :
    (let s := alter (fun c => { c with flt := { c.flt with raised := [⟨61, 1, 5, false⟩] } })
       (put [(FLT.SCFG.CLASS, 61, 1), (FLT.SCFG.WIN, 61, 4), (FLT.SCFG.ESC, 61, 2), (FLT.SCFG.NESC, 61, 2), (FLT.SCFG.PROF, 61, 3)] guarded)
     inv s ∧ s.chip.fabric ∧ s.chip.flt.raised.take 1 = [⟨61, 1, 5, false⟩] ∧ s.chip.flt.react = none ∧ s.chip.classAt 61 1 = 1 ∧
      s.chip.matching 61 1 = none ∧ recSlots.find? (fun i => !s.chip.on FLT.REC.VALID i) = some 0 ∧
      gives (.faultEvent 10 1 false) s (fun u => u.chip.get FLT.REC.SRC 0 == 2 ^ 61 && u.chip.get FLT.REC.COUNT 0 == 1 &&
        u.chip.get FLT.REC.DETAIL 0 == 1 && u.chip.flt.raised.isEmpty && u.chip.matching 61 1 == some 0 &&
        gives (.faultWindowClose (10 + 4 * msTaps) 61) u (fun v => v.chip.get FLT.SRC.WOPEN 61 == 0) &&
        gives (.faultWindowClose (9 + 4 * msTaps) 61) u (fun v => v.chip.get FLT.SRC.WOPEN 61 == 1)) ∧
      gives (.faultEvent 10 0 true) s (fun u => u.chip.get FLT.REC.FIRST 0 == 63 && u.chip.flt.react == some ⟨some 0, 3⟩ &&
        gives (.faultEvent 11 1 false) u (fun v => v.chip.get FLT.REC.COUNT 0 == 2 && v.chip.get FLT.CNT.MERGED == 1) &&
        gives (.reactionDone 11) u (fun v => v.chip.flt.react.isNone)) ∧
      guarded.chip.flt.raised = [] ∧ State.reset.chip.fabric = false) := by decide +kernel

/-- A C3 event in RUN: FATAL at once where no burst runs. -/
theorem witness_ReactionsAndWindowsEnd :
    (let s := alter (fun c => { c with flt := { c.flt with raised := [⟨62, 0, 5, true⟩] } }) guarded
     gives (.faultEvent 10 1 false) s (fun u => u.chip.flt.fatalPend && u.chip.get FLT.HOLD.HELD == 2 ^ 22 - 1 && inv u &&
        gives (.fatalEntry 10) u (fun v => v.chip.state == stFatal && !v.chip.dev.ticking)) ∧
      guarded.chip.flt.react = none ∧ guarded.chip.flt.fatalPend = false ∧
      gives .faultHoldEnd (put [(FLT.HOLD.HELD, 0, 5)] guarded) (fun u => u.chip.get FLT.HOLD.HELD == 0) ∧ guarded.chip.dev.ticking) := by
  decide +kernel

/-- FATAL pending while lane 191 sends a burst that reached the output stage at 10. -/
def bursting : State :=
  lane 191 (fun l => { l with burstAt := some 10 }) (alter (fun c => { c with flt := { c.flt with fatalPend := true } }) guarded)

/-- Its four symbols alone take 256 taps, so FATAL waits at 265, whatever the pad delay. -/
theorem witness_FatalEntryWaits : inv bursting ∧ bursting.chip.flt.fatalPend ∧ (bursting.chip.lane 191).burstAt = some 10 ∧
    bursting.at_ 265 = 265 ∧ ∀ c : Chip, 265 < c.burstEnd 10 := by
  refine ⟨by decide, by decide, by decide, by decide, fun c => ?_⟩
  simp only [Chip.burstEnd, burstPin]
  omega
/-! Witnesses: resets and start-up -/

/-- A RESET of level code k and block b whose deadline has come; no sequence runs. -/
def resetting (k b : Nat) : State :=
  alter (fun c => { c with dev := { c.dev with resetReq := some ⟨k, b, 100⟩ }, rst := { c.rst with seq := none, vin := true, core := true } }) timed

/-- Every cause of a reset, its level, and a graver sequence that absorbs it. -/
theorem witness_ResetsAreTaken : inv (resetting 0 0) ∧ (resetting 0 0).chip.rst.seq = none ∧
    gives (.resetBegin 100) (resetting 0 0) (fun u => u.chip.rst.seq == some ⟨1, true⟩ && u.chip.get RST.STAT.LASTSRC == 3) ∧
    gives (.resetBegin 99) (resetting 0 0) (fun u => u.chip.dev.resetReq.isSome) ∧
    gives (.resetBegin 100) (resetting 1 0) (fun u => u.chip.rst.seq == some ⟨2, false⟩ && u.chip.get RST.DOM.REL == 1) ∧
    gives (.resetBegin 100) (resetting 2 0) (fun u => u.chip.rst.seq == some ⟨3, false⟩ && u.chip.inRun) ∧
    gives (.resetBegin 100) (resetting 3 1) (fun u => u.chip.rst.seq == some ⟨4, false⟩ && !u.chip.released 7) ∧
    gives (.resetBegin 100) (resetting 3 9) (fun u => u.chip.rst.blocks == [9] && inv u && gives (.blockReset 9) u
      (fun v => v.chip.rst.blocks.isEmpty)) ∧ 9 ∈ tickPathBlocks := by decide +kernel

theorem witness_ResetCauses :
    (let s := alter (fun c => { c with dev := { c.dev with resetReq := none } }) (resetting 0 0)
     s.chip.rst.pinLow = false ∧ s.chip.rst.core ∧ s.chip.dev.resetReq = none ∧
      gives (.rstNAssert 5 true) s (fun u => u.chip.get RST.STAT.LASTSRC == 2 && u.chip.rst.pinLow) ∧
      (let x := put [(TIM.STAT.CLKB, 0, 3)] s
       x.chip.clk true ≠ 0 ∧ x.chip.selB = false ∧ gives (.refclkLoss 5 false) x (fun u => u.chip.get RST.STAT.LASTSRC == 4)) ∧
      (let x := alter (fun c => { c with tim := { c.tim with unlockAt := some 0 } }) (put [(TIM.STAT.DLLOCK, 0, 0)] s)
       gives (.dllRelockTimeout 8000000) x (fun u => u.chip.get RST.STAT.LASTSRC == 5) ∧
        gives (.dllRelockTimeout 7999999) x (fun u => u.chip.get RST.STAT.LASTSRC != 5)) ∧
      gives (.viohLoss 5) s (fun u => u.chip.get RST.STAT.LASTSRC == 6) ∧
      (let g := alter (fun c => { c with rst := { c.rst with seq := some ⟨0, false⟩ } }) s
       gives (.viohLoss 5) g (fun u => u.chip.get RST.CNT.MERGED == 1)) ∧
      gives (.mainPor 5 true) (put [(KPR.STAT.CONN, 0, 1)] s) (fun u => u.chip.state == stBoot && !u.chip.rst.vin && !u.chip.rst.core) ∧
      gives (.mainPor 5 false) s (fun u => u.chip.rst.vin && !u.chip.rst.core)) := by decide +kernel

/-- 32 fuse words that check. -/
def fuses : List Nat := List.replicate 31 0 ++ [crc32c ((List.replicate 31 0).flatMap wordBytes)]

theorem witness_StartUp : inv State.reset ∧ State.reset.chip.rst.vin = false ∧
    gives (.mainPorRelease 5) State.reset (fun u => u.chip.rst.vin && inv u && gives (.powerGood 6) u (fun v => v.chip.rst.core &&
      v.chip.rst.seq == some ⟨0, true⟩ && inv v &&
      gives (.fuseLoadDone 7 [1]) v (fun w => w.chip.rst.fails == 1 && w.chip.rst.queue.isEmpty) &&
      gives (.fuseLoadDone 7 fuses) v (fun w => w.chip.fabric && w.chip.rst.queue == [1, 2, 3, 4, 5, 6, 7] && w.chip.rst.seq == some ⟨0, false⟩ &&
        gives (.domainRelease (w.chip.gapEnd 1) true false false) w (fun x => x.chip.released 1 && x.chip.tim.run && x.chip.rst.queue.length == 6) &&
        gives (.domainRelease (w.chip.gapEnd 1 - 1) true false false) w (fun x => !x.chip.released 1) &&
        gives (.domainRelease (w.chip.gapEnd 1 + msTaps + 1) true false false) w (fun x => !x.chip.released 1) &&
        gives (.domainRelease (w.chip.gapEnd 1) false false false) w (fun x => !x.chip.released 1) &&
        gives (.clockGoodTimeout (w.chip.gapEnd 1 + msTaps)) w (fun x => x.chip.bitOn RST.DOM.HELD 0 1) &&
        gives (.clockGoodTimeout (w.chip.gapEnd 1 + msTaps - 1)) w (fun x => !x.chip.bitOn RST.DOM.HELD 0 1)))) ∧
    fusesGood fuses ∧ fusesGood [1] = false := by decide +kernel

theorem witness_StartUpEnds :
    (let s := alter (fun c => { c with rst := { c.rst with seq := none }, kpr := { c.kpr with kpor := true, lcuts := 2 } })
       (put [(RST.DOM.REL, 0, 255)] State.reset)
     inv s ∧ s.chip.state = stBoot ∧ s.chip.fabric ∧ s.chip.released 7 ∧ s.chip.rst.queue = [] ∧ s.chip.hpp.rdy = false ∧
      gives (.interpreterStart 5) s (fun u => u.chip.state == stConfig && u.chip.hpp.rdy && u.chip.get KPR.CNT.LCUT == 2) ∧
      gives (.interpreterStart 5) (put [(RST.STAT.DEFAULTS, 0, 1)] s) (fun u => u.chip.state == stDiag)) ∧
    (let s := alter (fun c => { c with rst := { c.rst with pinLow := true, vin := true, core := true, seq := some ⟨2, false⟩ } })
       (put [(RST.DOM.KEEP, 0, 1)] State.reset)
     inv s ∧ s.chip.keepRuns ∧ gives (.rstNLog (100 * msTaps)) s (fun u => u.chip.kpr.log.length == 1 && u.chip.rst.logged &&
        gives (.rstNLog (1100 * msTaps)) u (fun v => v.chip.kpr.log.map (·.dur) == [1100]) &&
        gives (.rstNRelease (1200 * msTaps)) u (fun v => v.chip.kpr.log.map (fun e => (e.dur, e.open_)) == [(1200, false)])) ∧
      gives (.rstNLog (100 * msTaps - 1)) s (fun u => u.chip.kpr.log.isEmpty) ∧ s.chip.fabric = false ∧
      gives (.rstNRelease 5) s (fun u => !u.chip.rst.pinLow && u.chip.fabric) ∧ State.reset.chip.rst.pinLow = false) := by decide +kernel

/-! Witnesses: the keeper -/

/-- The keeper runs, VIN33 feeds the rail, the cell is connected, no sequence runs. -/
def kept : State :=
  alter (fun c => { c with rst := { c.rst with seq := none, vin := true, core := true } })
    (put [(RST.DOM.KEEP, 0, 1), (KPR.STAT.RAIL, 0, 1), (KPR.STAT.CONN, 0, 1), (KPR.VMON.VST, 0, 3000), (KPR.CFG.KCELL, 0, 100)] timed)

/-- On the cell. -/
def onCell : State := after (.supplyWarning 5) kept

theorem witness_KeeperSupply : inv kept ∧ kept.chip.rst.vin ∧ kept.chip.on KPR.STAT.RAIL ∧ kept.chip.fabric ∧
    gives (.supplyWarning 5) kept (fun u => !u.chip.on KPR.STAT.RAIL && u.chip.get KPR.EVT.WARN == 1) ∧ inv onCell ∧
    gives (.supplyRestored 9) onCell (fun u => u.chip.get KPR.STAT.CHG == 2 && u.chip.kpr.chargeFrom == some 9) ∧
    gives (.supplyRestored 9) (put [(KPR.VMON.VST, 0, 2999)] onCell) (fun u => u.chip.get KPR.STAT.CHG == 1) ∧
    gives (.loadCut 9) onCell (fun u => u.chip.kpr.cutAt == some 9 && u.chip.kpr.log.length == 1 &&
      gives (.cellReconnect 10) u (fun v => v.chip.kpr.log.all (fun e => !e.open_))) ∧
    gives (.cellDisconnect 9) kept (fun u => u.chip.flt.raised.length == 1 && u.chip.keepRuns) ∧
    gives (.cellDisconnect 9) onCell (fun u => !u.chip.keepRuns) ∧
    (let s := put [(RST.DOM.KEEP, 0, 0)] kept
     s.chip.keepRuns = false ∧ s.chip.kpr.kpor = false ∧ gives (.keeperPor 5) s (fun u => u.chip.kpr.kpor && inv u &&
      gives (.crystalOscillatorStart 6) u (fun v => v.chip.keepRuns))) := by decide +kernel

theorem witness_KeeperCharges :
    gives (.preChargeEnd 5) (put [(KPR.STAT.CHG, 0, 1)] kept) (fun u => u.chip.get KPR.STAT.CHG == 2) ∧ kept.chip.kpr.full = false ∧
    gives (.chargeEnd 5) kept (fun u => u.chip.get KPR.STAT.CHG == 3 && u.chip.kpr.full &&
      gives (.chargeRestart 6) u (fun v => v.chip.get KPR.STAT.CHG == 2)) ∧
    (let s := alter (fun c => { c with kpr := { c.kpr with chargeFrom := some 0 } }) kept
     s.chip.kpr.chargeLate = false ∧ gives (.chargeTimeout (86400 * secTaps)) s (fun u => u.chip.kpr.chargeLate) ∧
      gives (.chargeTimeout (86400 * secTaps - 1)) s (fun u => !u.chip.kpr.chargeLate)) ∧ kept.chip.kpr.mppAt = none ∧
    gives (.mppsetSample 5 1000 200) kept (fun u => u.chip.get KPR.STAT.HARV == 1 && inv u &&
      gives (.mppsetSample (5 + 64 * secTaps) 1000 199) u (fun v => v.chip.get KPR.STAT.HARV == 0) &&
      gives (.mppsetSample (4 + 64 * secTaps) 1000 199) u (fun v => v.chip.get KPR.STAT.HARV == 1)) ∧
    State.reset.chip.rst.vin = false ∧
    gives (.harvesterColdStart 5) (put [(KPR.STAT.CONN, 0, 0)] State.reset) (fun u => u.chip.get KPR.STAT.HARV == 1) ∧
    (let s := put [(TIM.STAT.TVALID, 0, 1)] kept
     s.chip.on TIM.STAT.TVALID ∧ s.chip.released 1 ∧ s.chip.kpr.rtcSec = none ∧
      gives (.rtcWrite 8000000000) s (fun u => u.chip.rtcNow == 32768 && u.chip.on KPR.STAT.RTCV)) := by decide +kernel

/-- 100 mJ per V: 3 blocks need 20 µJ and 30,000 above 3,000 mV. -/
theorem witness_KeeperStore :
    (let r : NvRec := { nums := [1], blks := 3 }
     let s := alter (fun c => { c with kpr := { c.kpr with pend := nset none [] 2 (some r) } }) kept
     inv s ∧ s.chip.keepRuns ∧ s.chip.kpr.judgedAt = none ∧ s.chip.kpr.burst = none ∧ s.chip.kpr.cutAt = none ∧
      s.chip.kprCfg.1 = 100 ∧ admits 100 3301 3 ∧ admits 100 3300 3 = false ∧
      gives (.nvJudge 5 3301) s (fun u => u.chip.get KPR.STAT.BURST == 1 && u.chip.get KPR.STAT.BSET == 2 && inv u &&
        u.chip.kpr.burst.any (fun b => b.set == 2 && !b.host && !b.newer && b.body.seq == 1) &&
        gives (.nvBurstDone 6 3300) u (fun v => (v.chip.nvHalf 2 0).any (fun x => x.seq == 1) && v.chip.get KPR.NVS.LAST 2 == 1)) ∧
      gives (.nvJudge 5 3300) s (fun u => u.chip.get KPR.NVS.LAST 2 == 2 && u.chip.kpr.burst.isNone && u.chip.get KPR.EVT.REFUSE == 1) ∧
      kept.chip.kpr.pend = [] ∧
      (let b := alter (fun c => { c with kpr := { c.kpr with burst := some { set := 2, body := r }, cutAt := some 3 } }) s
       inv b ∧ gives (.nvBurstAbort 6 2900) b (fun u => u.chip.kpr.burst.isNone && u.chip.get KPR.NVS.LAST 2 == 3) ∧
        (let d := alter (fun c => { c with kpr := { c.kpr with sleepDue := some 5 } }) (put [(DEV.STATE.STATE, 0, 2)] b)
         d.chip.state = stConfig ∧ d.chip.kpr.burst.isSome ∧ gives (.kprSleep 5 2900) d (fun u => u.chip.kpr.asleep && u.chip.state == stBoot) ∧
          gives (.kprSleep 4 2900) d (fun u => !u.chip.kpr.asleep)))) ∧
    (let s := alter (fun c => { c with kpr := { c.kpr with alarm := some 1, asleep := true } }) (put [(KPR.STAT.RTCV, 0, 1)] kept)
     inv s ∧ (s.chip.at_ 8000000000).rtcNow = 32768 ∧ gives (.rtcAlarm 8000000000) s (fun u => !u.chip.kpr.asleep && u.chip.get KPR.STAT.WAKE == 2) ∧
      kept.chip.kpr.alarm = none) := by decide +kernel

/-! Witnesses: in-service test, test access port -/

/-- Checks 1 to 7 on with the least periods; lanes 0 and 191 of an arm, ACTIVE. -/
def served : State :=
  put [(IST.CFG.EN, 0, 1), (IST.CFG.CHKEN, 0, 127), (IST.PER.SCRPER, 0, 1), (IST.PER.ROMPER, 0, 1), (IST.PER.LWIN, 0, 1), (IST.CFG.CPER, 0, 10),
    (LNK.STATE.STATE, 191, 4), (LNK.STATE.STATE, 0, 4), (LNK.CNT.CRC, 191, 5), (IST.LANE.LERR, 0, 4)] guarded

theorem witness_InServiceTest : inv served ∧ served.chip.istRuns ∧ served.chip.istEnabled 6 ∧ served.chip.istActive 6 = false ∧
    (served.chip.at_ 800000000).istDue 3 ∧ (served.chip.at_ 799999999).istDue 3 = false ∧ served.chip.ist.late = [] ∧
    gives (.istPassStart 800000000 3 true true []) served (fun u => u.chip.get IST.RES.LAST 2 == 1) ∧
    gives (.istPassStart 8000000000 4 true true []) served (fun u => u.chip.get IST.RES.LAST 3 == 1) ∧
    gives (.istPassStart 8000000000 5 true false []) served (fun u => u.chip.get IST.RES.LAST 4 == 2 && u.chip.flt.raised.length == 1) ∧
    gives (.istPassStart 8000000000 5 false true []) served (fun u => u.chip.istActive 5 && inv u &&
      gives (.istPassLate 16000000000 5) u (fun v => v.chip.get IST.RES.LAST 4 == 3) &&
      gives (.istPassLate 15999999999 5) u (fun v => v.chip.get IST.RES.LAST 4 == 0)) ∧
    (let s := put [(IST.CFG.CHKEN, 0, 32)] served
     s.chip.istEnabled 5 = false ∧ s.chip.rst.shadow = [] ∧ gives (.istPassStart 8000000000 6 true true []) s (fun u => u.chip.get IST.RES.LAST 5 == 1)) ∧
    served.chip.istNext 1 = none ∧ (served.chip.at_ 80000000).istDue 1 ∧
    gives (.istPassStart 80000000 1 true true []) served (fun u => !u.chip.istActive 1) ∧
    gives (.istPassStart 80000000 1 true true []) (put [(MON.CFG.MODE, 95, 1)] served) (fun u => u.chip.istActive 1) ∧
    served.chip.laneBad 191 ∧ served.chip.laneBad 0 = false ∧ served.chip.ist.epi = [] ∧
    gives (.laneWindowEnd 8000000000) served (fun u => u.chip.bitOn IST.LFAIL.LANE 0 191 && !u.chip.bitOn IST.LFAIL.LANE 0 0 &&
      u.chip.get IST.RES.LAST 6 == 2) ∧ gives (.laneWindowEnd 7999999999) served (fun u => u.chip.ist.winAt == 0) := by decide +kernel

/-- EXTEST acts with RST_N low, the fabric in reset and debug open; in RUN it is BYPASS. -/
theorem witness_TestAccessPort :
    (let s := alter (fun c => { c with rst := { c.rst with pinLow := true }, tap := { c.tap with boundary := [true, false] } }) (put [(RST.FSEC.DBGLOCK, 0, 0)] State.reset)
     inv s ∧ s.chip.fabric = false ∧ s.chip.get RST.FSEC.DBGLOCK = 0 ∧
      gives (.tapExtest 5) s (fun u => u.chip.tapActs == .extest && u.chip.extestDrives == some [true, false]) ∧
      gives (.tapPtest 5) s (fun u => u.chip.tapActs == .ptest && u.chip.extestDrives == none) ∧
      gives (.tapExtest 5) run (fun u => u.chip.tapActs == .bypass && u.chip.extestDrives == none) ∧
      gives (.tapIdcode 5) run (fun u => u.chip.tapData == some 0x1719254B) ∧ 255 ∉ [0, 1, 2, 0x10] ∧
      gives (.tapBypass 5 255) run (fun u => u.chip.tap.instr == .bypass) ∧
      gives (.tapSamplePreload 5 [true] [false]) run (fun u => u.chip.tap.sampled == [true] && u.chip.tap.boundary == [false])) := by decide +kernel

/-- R505 with the defaults of R500: in reset outputs are low, PLS low, HPIRQ_N and the Ethernet clock pins as their fields say; in RUN
DEVOK is high and HPIRQ_N released. -/
theorem test_pins : [OutPin.tlo 5, .on 3 true, .st 3 false, .sdo 1 0, .devok, .hpd 0, .hpd 3, .hpirq, .pls 2, .ppsOut, .rgmii 1, .mdc, .mdio].map
      State.reset.chip.pinLevel = [.low, .low, .low, .low, .low, .floating, .kept, .floating, .low, .low, .low, .low, .floating] ∧
    run.chip.pinLevel .devok = .high ∧ run.chip.pinLevel .hpirq = .high ∧
    (put [(RST.FPIN.PLSRS, 0, 2), (RST.FPIN.IRQRS, 0, 1)] State.reset).chip.pinLevel (.pls 0) = .pulledDown := by decide +kernel

theorem witness_FieldsDoNotOverlap : (attrRow 0x0403 0).isSome ∧ (attrRow 0x5013 0).isSome ∧ attrRow 0x0403 1 = none := by decide +kernel

/-! Worked vectors of the algorithms that R121 names, from their standards: SHA-256 of FIPS 180-4 (56 letters), ECDSA on P-256 with
the key and signature that RFC 6979 gives for the message "sample". So patchGood can hold: the key alone is open (log entry 10). -/

theorem test_sha256 : sha256 [0x61626364, 0x62636465, 0x63646566, 0x64656667, 0x65666768, 0x66676869, 0x6768696A, 0x68696A6B,
    0x696A6B6C, 0x6A6B6C6D, 0x6B6C6D6E, 0x6C6D6E6F, 0x6D6E6F70, 0x6E6F7071] =
    0x248D6A61D20638B8E5C026930C3E6039A33CE45964FF2167F6ECEDD419DB06C1 := by decide +kernel

theorem witness_signature : ecdsaVerify (0x60FED4BA255A9D31C961EB74C6356D68C049B8923B61FA6CE669622E60F29FB6,
    0x7903FE1008B8BC99A41AE9E95628BC64F2F1B20C2D7E9F5177A3C294D4462299)
    0xAF2BDBE1AA9B6EC1E2ADE1D694F41FC71A831D0268E9891562113D8A62ADD1BF
    0xEFD48B2AACB6A8FD1140DD9CD45E81D69D2C877B56AAF991C34D0EA84EAF3716
    0xF7CB1C942D657C41D436C7A1B6E29F65F3E900DBB9AFF4064DC4AB2F843ACDA8 = true := by decide +kernel

theorem witness_PatchLoads :
    (let up := put [(RST.FSEC.KEYREV, 0, 7), (RST.FSEC.PATCHMIN, 0, 5)] up
     accepts (sent 0xE0 0 [5, 16384, 3] up) 0xE0 0 [5, 16384, 3] ∧ up.chip.bitOn RST.FSEC.KEYREV 0 3 = false ∧
      up.chip.get RST.FSEC.PATCHMIN ≤ 5 ∧ ¬(up.chip.on RST.FSEC.PLOCK = true ∧ up.chip.on RST.FSEC.DBGLOCK = false) ∧
      gives (.patchBegin 5) (sent 0xE0 0 [5, 2, 3] up) (fun u => u.chip.dev.load == some ⟨5, 2, 3, 0⟩)) ∧
    accepts (loading (sent 0xE0 1 [8, 9] up)) 0xE0 1 [8, 9] ∧
    (let s := fun (l : List Nat) (flg n : Nat) => alter (fun c => { c with dev := { c.dev with load := some ⟨0, 2, 0, n⟩ } }) (sent 0xE0 flg l up)
     held (s [8, 9] 1 0) (fun p => p.opc == 0xE0 && p.flg == 1 && p.len == 2 && p.params == [8, 9]) ∧
      held (s [8, 9] 1 1) (fun p => p.len == 2) ∧
      gives (.patchData 5) (s [8, 9] 1 0) (fun u => Memory.readWord u.sram 4 == 9) ∧
      held (s (List.replicate 16 1) 2 2) (fun p => p.len == 16 && p.params == List.replicate 16 1) ∧
      held (s (List.replicate 16 0) 2 1) (fun p => p.len == 16)) ∧
    held (sent 0xE0 1 [8] up) (fun p => p.flg == 1 && p.len != 0) ∧ held (sent 0xE0 2 (List.replicate 16 0) up) (fun p => p.len == 16) := by decide +kernel
end Sys2Proof.Tests
end

section
/-! CLAIM. The register map (R8, R13, R79): how the fields of a row lie in its words. -/

namespace Sys2Proof.Scope

open Sys2Proof.Machine

/-- Two fields of a row share no bit. -/
def NoSharedBit (f g : FieldRow) : Prop := f.fld.hi < g.fld.lo ∨ g.fld.hi < f.fld.lo

/-- The fields of a row carry its ID and lie inside its words, and no two of them share a bit (R8, R13, R79). -/
def LaidOut (r : AttrRow) : Prop :=
  (∀ f ∈ r.fields, f.fld.id = r.id ∧ f.fld.lo ≤ f.fld.hi ∧ f.fld.hi < 32 * r.words) ∧
    r.fields.Pairwise NoSharedBit

/-- Every row of the 21 assigned block codes is laid out: the field maps, read row by row. -/
theorem assignedRows_laidOut : ∀ b < 21, ∀ r ∈ blockRows b, LaidOut r := by
  unfold LaidOut NoSharedBit
  decide +kernel

theorem blockRows_unassigned (k : Nat) : blockRows (k + 21) = [] := rfl

theorem blockRows_laidOut {b : Nat} {r : AttrRow} (h : r ∈ blockRows b) : LaidOut r := by
  by_cases hb : b < 21
  · exact assignedRows_laidOut b hb r h
  · obtain ⟨k, rfl⟩ := Nat.exists_eq_add_of_le' (not_lt.1 hb)
    rw [blockRows_unassigned] at h
    exact absurd h List.not_mem_nil

theorem findRow_id {id : Nat} {r : AttrRow} (h : findRow id = some r) : r.id = id := by
  simpa using List.find?_some h

theorem findRow_laidOut {id : Nat} {r : AttrRow} (h : findRow id = some r) : LaidOut r :=
  blockRows_laidOut (List.mem_of_find?_eq_some h)

theorem attrRow_eq_some {id n : Nat} {r : AttrRow} : attrRow id n = some r ↔ findRow id = some r ∧ n < r.insts := by
  unfold attrRow
  cases findRow id with
  | none => simp
  | some a =>
    simp only [Option.ite_none_right_eq_some, Option.some.injEq]
    constructor
    · rintro ⟨h, rfl⟩; exact ⟨rfl, h⟩
    · rintro ⟨rfl, h⟩; exact ⟨h, rfl⟩

theorem attrRow_id {id n : Nat} {r : AttrRow} (h : attrRow id n = some r) : r.id = id := findRow_id (attrRow_eq_some.1 h).1

theorem attrRow_laidOut {id n : Nat} {r : AttrRow} (h : attrRow id n = some r) : LaidOut r :=
  findRow_laidOut (attrRow_eq_some.1 h).1

/-- Two different fields of a row share no bit. -/
theorem LaidOut.disjoint {r : AttrRow} (h : LaidOut r) {f g : FieldRow} (hf : f ∈ r.fields) (hg : g ∈ r.fields) (hn : f.fld ≠ g.fld) :
    NoSharedBit f g :=
  have : Std.Symm NoSharedBit := ⟨fun _ _ => Or.symm⟩
  h.2.forall hf hg (fun e => hn (congrArg FieldRow.fld e))

/-- No two places of a row's list of fields hold a field with the same least significant bit: the keys of the fields differ. -/
theorem LaidOut.lo_ne {r : AttrRow} (h : LaidOut r) : r.fields.Pairwise (fun f g => f.fld.lo ≠ g.fld.lo) := by
  obtain ⟨hin, hp⟩ := h
  refine hp.imp_of_mem (fun {f g} hf hg hd => ?_)
  have := (hin f hf).2.1
  have := (hin g hg).2.1
  unfold NoSharedBit at hd
  omega

/-- Settles O60: a row of the map is found in its block's list, where every row is laid out; instances share the row. -/
theorem fieldsDoNotOverlap : Obligations.FieldsDoNotOverlap := by
  unfold Obligations.FieldsDoNotOverlap
  intro id n r h
  obtain ⟨hrow, hn⟩ := attrRow_eq_some.1 h
  have hlaid := attrRow_laidOut h
  have hid := attrRow_id h
  refine ⟨hid, hn, fun f hf => ?_, fun f hf g hg => hlaid.disjoint hf hg, fun m => ?_⟩
  · rw [← hid]
    exact hlaid.1 f hf
  · simp only [attrRow, hrow]

end Sys2Proof.Scope
end

section
/-! SUPPORT. Storing a write (R12, R13): what each field of a plain row (plainAttr) holds after it, and that nothing else changes. -/

namespace Sys2Proof.Scope

open Sys2Proof.Machine Sys2Proof.Machine.Reg Sys2Proof.Laws

/-! One field -/

/-- The fields that a write does not store by their access code alone lie in HPP.MIRSEL, TIM, SIO and CTL. -/
def StoredByCode (f : Fld) : Prop :=
  f.id ≠ SIO.SDOCTL.ON.id ∧ f.id ≠ HPP.MIRSEL.ID.id ∧ f.id ≠ TIM.TSI.EDGE.id ∧ f.id ≠ CTL.ISTATE.X2.id

theorem storeField_byCode {f : FieldRow} (h : StoredByCode f.fld) (c : Chip) (i v : Nat) :
    c.storeField i v f = match f.access with
      | .rw => c.set f.fld i (fv v f.fld)
      | .rwl => if c.dev.committed then c else c.set f.fld i (fv v f.fld)
      | .w1c => c.set f.fld i (clearBits (c.get f.fld i) (fv v f.fld) (c.freshBits f.fld i))
      | .ro => c
      | .wo => c := by
  obtain ⟨h1, h2, h3, h4⟩ := h
  have hno : ¬(f.fld = SIO.SDOCTL.ON ∨ (f.fld = HPP.MIRSEL.ID ∧ i < 4) ∨ (f.fld = TIM.TSI.EDGE ∧ 16 ≤ i) ∨
      (f.fld = CTL.ISTATE.X2 ∧ c.secType (i / 4) (i % 4) = 2)) := by
    rintro (e | ⟨e, -⟩ | ⟨e, -⟩ | ⟨e, -⟩)
    · exact h1 (by rw [e])
    · exact h2 (by rw [e])
    · exact h3 (by rw [e])
    · exact h4 (by rw [e])
  unfold Chip.storeField
  exact if_neg hno

/-- Storing changes the table of fields alone. -/
theorem storeField_regs_only {f : FieldRow} (h : StoredByCode f.fld) (c : Chip) (i v : Nat) :
    ∃ m, c.storeField i v f = { c with regs := m } := by
  rw [storeField_byCode h]
  cases f.access with
  | rw | w1c => exact ⟨_, rfl⟩
  | ro | wo => exact ⟨c.regs, rfl⟩
  | rwl =>
    cases c.dev.committed
    · exact ⟨_, rfl⟩
    · exact ⟨c.regs, rfl⟩

/-- A value written is as wide as its field. -/
theorem fv_mod_width (v : Nat) (f : Fld) : fv v f % 2 ^ f.width = fv v f := Nat.mod_mod _ _

theorem get_storeField_self {f : FieldRow} (h : StoredByCode f.fld) (c : Chip) (i v : Nat) :
    (c.storeField i v f).get f.fld i = written c f i v := by
  rw [storeField_byCode h]
  unfold written
  cases f.access with
  | rw => exact (get_set_self _ _ _ _).trans (fv_mod_width _ _)
  | w1c => exact get_set_self _ _ _ _
  | ro | wo => rfl
  | rwl =>
    cases hc : c.dev.committed
    · exact (get_set_self _ _ _ _).trans (fv_mod_width _ _)
    · rfl

theorem get_storeField_other {f : FieldRow} (h : StoredByCode f.fld) (c : Chip) (i v : Nat) {g : Fld} {n : Nat}
    (hg : ¬(g.id = f.fld.id ∧ g.lo = f.fld.lo ∧ n = i)) : (c.storeField i v f).get g n = c.get g n := by
  rw [storeField_byCode h]
  cases f.access with
  | rw | w1c => exact get_set_other _ _ _ _ _ _ hg
  | ro | wo => rfl
  | rwl =>
    cases hc : c.dev.committed
    · exact get_set_other _ _ _ _ _ _ hg
    · rfl

/-! What a write stores depends on the field, on the commit and on the flags set at this instant -/

/-- b writes as a does: the same fields, the same commit, the same flags set at the same instant. -/
structure WritesAlike (a b : Chip) : Prop where
  regs : b.regs = a.regs
  committed : b.dev.committed = a.dev.committed
  fresh : b.fresh = a.fresh
  now : b.now = a.now

theorem WritesAlike.symm {a b : Chip} (h : WritesAlike a b) : WritesAlike b a :=
  ⟨h.regs.symm, h.committed.symm, h.fresh.symm, h.now.symm⟩

theorem written_congr {a b : Chip} {f : FieldRow} {i : Nat} (v : Nat) (hg : b.get f.fld i = a.get f.fld i)
    (hd : b.dev.committed = a.dev.committed) (hf : b.fresh = a.fresh) (hn : b.now = a.now) :
    written b f i v = written a f i v := by
  unfold written Chip.freshBits
  rw [hg, hd, hf, hn]

theorem stored_congr {a b d e : Chip} {r : AttrRow} {i v : Nat} (h : Stored a d r i v) (hb : WritesAlike a b) (he : e.regs = d.regs) :
    Stored b e r i v := by
  obtain ⟨hself, hother⟩ := h
  refine ⟨fun f hf => ?_, fun f n hn => ?_⟩
  · rw [get_congr he, hself f hf, written_congr v (get_congr hb.regs _ _) hb.committed hb.fresh hb.now]
  · rw [get_congr he, hother f n hn, get_congr hb.regs]

/-! A whole row -/

/-- Fields with different keys, stored one after the other, each hold what R12 says of the chip before all of them. -/
theorem storeFields_stored {l : List FieldRow} (hc : ∀ f ∈ l, StoredByCode f.fld)
    (hp : l.Pairwise (fun f g => f.fld.lo ≠ g.fld.lo)) (c : Chip) (i v : Nat) :
    (∃ m, c.each l (fun c f => c.storeField i v f) = { c with regs := m }) ∧
    (∀ f ∈ l, (c.each l (fun c f => c.storeField i v f)).get f.fld i = written c f i v) ∧
    ∀ (g : Fld) (n : Nat), (∀ x ∈ l, ¬(g.id = x.fld.id ∧ g.lo = x.fld.lo ∧ n = i)) →
      (c.each l (fun c f => c.storeField i v f)).get g n = c.get g n := by
  induction l generalizing c with
  | nil => exact ⟨⟨c.regs, rfl⟩, fun _ hf => absurd hf List.not_mem_nil, fun _ _ _ => rfl⟩
  | cons x l ih =>
    have hx := hc x List.mem_cons_self
    obtain ⟨hne, hp⟩ := List.pairwise_cons.1 hp
    obtain ⟨m, hm⟩ := storeField_regs_only hx c i v
    obtain ⟨⟨m2, hm2⟩, hself, hother⟩ := ih (fun f hf => hc f (List.mem_cons_of_mem x hf)) hp (c.storeField i v x)
    refine ⟨⟨m2, ?_⟩, fun f hf => ?_, fun g n hg => ?_⟩
    · exact hm2.trans (by rw [hm])
    · rcases List.mem_cons.1 hf with rfl | hf
      · exact (hother f.fld i (fun y hy e => hne y hy e.2.1)).trans (get_storeField_self hx c i v)
      · refine (hself f hf).trans (written_congr v ?_ ?_ ?_ ?_)
        · exact get_storeField_other hx c i v (fun e => hne f hf e.2.1.symm)
        all_goals rw [hm]
    · exact (hother g n (fun y hy => hg y (List.mem_cons_of_mem x hy))).trans
        (get_storeField_other hx c i v (hg x List.mem_cons_self))

theorem plainAttr_storedByCode {r : AttrRow} (hr : LaidOut r) (hp : plainAttr r = true) : ∀ f ∈ r.fields, StoredByCode f.fld := by
  intro f hf
  rw [StoredByCode, (hr.1 f hf).1]
  refine ⟨?_, ?_, ?_, ?_⟩ <;>
  · intro e
    rw [plainAttr, e] at hp
    exact absurd hp (by decide)

/-- A write of a plain row stores it, and changes nothing but fields. -/
theorem storeAttr_stored {r : AttrRow} (hr : LaidOut r) (hp : plainAttr r = true) (c : Chip) (i v : Nat) :
    (∃ m, c.storeAttr r i v = { c with regs := m }) ∧ Stored c (c.storeAttr r i v) r i v :=
  storeFields_stored (plainAttr_storedByCode hr hp) hr.lo_ne c i v

/-! A packet with one write -/

/-- The blocks of the plain attributes. -/
theorem plainAttr_block {r : AttrRow} (h : plainAttr r = true) :
    r.id / 1024 = 0 ∨ r.id / 1024 = 1 ∨ r.id / 1024 = 2 ∨ r.id / 1024 = 3 ∨ r.id / 1024 = 8 ∨ r.id / 1024 = 9 := by
  simpa using (Bool.and_eq_true_iff.1 h).1

theorem effect_plain {r : AttrRow} (h : plainAttr r = true) (c c0 : Chip) (i v : Nat) : c.effect c0 r.id i v = c := by
  unfold Chip.effect
  rcases plainAttr_block h with h | h | h | h | h | h <;> simp only [h]

theorem coefFields_plain {r : AttrRow} (h : plainAttr r = true) : coefFields r.id = [] := by
  have := plainAttr_block h
  unfold coefFields
  rw [if_neg (by omega), if_neg (by omega), if_neg (by omega)]

/-- A packet whose one write is of a plain row stores it and has no other effect (R84). -/
theorem applyWrites_plain {w : Write} {r : AttrRow} (hw : attrRow w.id w.inst = some r) (hp : plainAttr r = true) (c : Chip) :
    c.applyWrites [w] = c.storeAttr r w.inst w.value := by
  have hid := attrRow_id hw
  have hco : coefFields w.id = [] := hid ▸ coefFields_plain hp
  have hs : c.storeWrite w = c.storeAttr r w.inst w.value := by
    unfold Chip.storeWrite
    simp [hw, hco]
  calc c.applyWrites [w] = (c.storeWrite w).effect c w.id w.inst w.value := rfl
    _ = c.storeWrite w := hid ▸ effect_plain hp _ _ _ _
    _ = c.storeAttr r w.inst w.value := hs

/-- So it leaves every part of the chip beside the fields, and stores. -/
theorem applyWrites_stored {w : Write} {r : AttrRow} (hw : attrRow w.id w.inst = some r) (hp : plainAttr r = true) (c : Chip) :
    ∃ m, c.applyWrites [w] = { c with regs := m } ∧ Stored c { c with regs := m } r w.inst w.value := by
  obtain ⟨⟨m, hm⟩, hs⟩ := storeAttr_stored (attrRow_laidOut hw) hp c w.inst w.value
  rw [hm] at hs
  exact ⟨m, (applyWrites_plain hw hp c).trans hm, hs⟩

end Sys2Proof.Scope
end

section
/-! SUPPORT. The access opcodes on one row (R84, R96, R98): what the interpreter parses, and what it then does. -/

namespace Sys2Proof.Scope

open Sys2Proof.Machine Sys2Proof.Laws

/-! Packets -/

theorem wordsOfBytes_length : ∀ l : List Nat, (wordsOfBytes l).length = l.length / 4
  | [] | [_] | [_, _] | [_, _, _] => by simp [wordsOfBytes]
  | a :: b :: d :: e :: l => by
    simp only [wordsOfBytes, List.length_cons, wordsOfBytes_length l]
    omega

/-- A packet that is framed has LEN parameter words (R44, R51). -/
theorem params_length {p : Packet} (h : p.badLen = false) : p.params.length = p.len := by
  have hb : p.bytes.length = 4 * (p.len + 2) := by
    simpa [Packet.badLen] using (Bool.or_eq_false_iff.1 h).1
  rw [Packet.params, Packet.words, List.length_take, List.length_drop, wordsOfBytes_length, hb]
  omega

theorem params_length_of_accepts {s : State} {p : Packet} (h : s.Accepts p) : p.params.length = p.len := by
  obtain ⟨-, hlen, -⟩ := h
  exact params_length hlen

/-- The interpreter starts packets only with RDY 1. -/
theorem rdy_of_ready {c : Chip} (h : c.ready = true) : c.hpp.rdy = true := by
  simp only [Chip.ready, Bool.and_eq_true] at h
  obtain ⟨⟨⟨⟨⟨⟨hrdy, -⟩, -⟩, -⟩, -⟩, -⟩, -⟩ := h
  exact hrdy

/-- The chip that a packet is executed from writes as the state's chip at that instant does. -/
theorem taken_writesAlike (s : State) (t : Nat) (rest : List BasinWord) : WritesAlike (s.chip.at_ t) (s.taken t rest) := by
  obtain ⟨h, e, -⟩ := taken_eq s t rest
  constructor <;> rw [e]

/-- A meaning whose chip is known, and writes no SRAM. -/
theorem run_of_chip_eq {f : Memory → Chip → Chip} {s : State} {c : Chip} (h : f s.sram s.chip = c) (hq : c.pgm.wq = []) :
    run f s = .next { s with chip := c } := by
  subst h
  exact run_settled f s hq

/-- An accepted packet is executed by its opcode's rule; one that writes no SRAM changes the chip alone. -/
theorem run_interpret_accepts {s : State} {p : Packet} {rest : List BasinWord} {t : Nat} {mine : Packet → Bool}
    {body : Chip → Packet → Chip} {c : Chip} (hp : s.HasPacket p rest) (ha : s.Accepts p) (hm : mine p = true)
    (hload : s.chip.dev.load = none) (hb : body (s.taken t rest) p = c) (hq : c.pgm.wq = []) :
    run (fun _ c => c.interpret t mine body) s = .next { s with chip := c } :=
  run_of_chip_eq ((interpret_accepts t mine body hp ha hm (.inr hload)).trans hb) hq

/-- The chip that a packet is executed from has no SRAM write left to be entered. -/
theorem taken_wq {s : State} {p : Packet} {rest : List BasinWord} (h : s.HasPacket p rest) (t : Nat) : (s.taken t rest).pgm.wq = [] := by
  obtain ⟨hpp, e, -⟩ := taken_eq s t rest
  obtain ⟨⟨-, hq⟩, -⟩ := h
  rw [e]
  exact hq

theorem taken_inRun (s : State) (t : Nat) (rest : List BasinWord) : (s.taken t rest).inRun = s.chip.inRun := by
  obtain ⟨hpp, e, -⟩ := taken_eq s t rest
  rw [e]
  rfl

/-! SET (R96) -/

/-- One entry of a SET, its value as wide as the row it names and refused by no check. -/
theorem setParse_one {c : Chip} {w : Nat} {l : List Nat} {r : AttrRow} (hn : Names w r (arwInst w)) (hl : l.length = r.words)
    (hw : Writable c r (arwInst w) (wordsValue l)) (fuel : Nat) :
    c.setParse (fuel + 1) 0 0 (w :: l) = ([], [⟨arwId w, arwInst w, wordsValue l⟩], none) := by
  obtain ⟨hrow, -, hcount⟩ := hn
  obtain ⟨hro, hv⟩ := hw
  have hend : ∀ k, c.setParse fuel 1 k [] = ([], [], none) := by cases fuel <;> exact fun _ => rfl
  simp [Chip.setParse, hrow, hcount, ← hl, hend, Chip.writeFindings, hro, hv]

/-- An accepted SET of one writable row outside RUN writes it and answers OK. -/
theorem exec_setAttr_one {t : Nat} {s : State} {p : Packet} {rest : List BasinWord} {w : Nat} {l : List Nat} {r : AttrRow}
    (hp : s.HasPacket p rest) (ha : s.Accepts p) (ho : p.opc = 0x03) (hload : s.chip.dev.load = none) (hrun : s.chip.inRun = false)
    (hpar : p.params = w :: l) (hl : l.length = r.words) (hn : Names w r (arwInst w)) (hplain : plainAttr r = true)
    (hw : Writable (s.taken t rest) r (arwInst w) (wordsValue l)) :
    ∃ (m : Tab Key Nat) (d : Chip), d = { s.taken t rest with regs := m } ∧
      Stored (s.taken t rest) d r (arwInst w) (wordsValue l) ∧
      exec (.setAttr t) s =
        .next { s with chip := d.answer (d.wroteReply p.tag p.flg [⟨arwId w, arwInst w, wordsValue l⟩] []) } := by
  obtain ⟨m, hm, hs⟩ := applyWrites_stored (w := ⟨arwId w, arwInst w, wordsValue l⟩) hn.1 hplain (s.taken t rest)
  have hlen : p.len = l.length + 1 := by rw [← params_length_of_accepts ha, hpar]; rfl
  refine ⟨m, _, rfl, hs, run_interpret_accepts hp ha (by simp [opIs, ho]) hload ?_ (taken_wq hp t)⟩
  simp only [hlen, hpar, List.length_cons, setParse_one hn hl hw, Chip.accept_, taken_inRun, hrun, hm]
  rfl

/-! STAGED_WRITES_APPLY (R32, R33) -/

/-- A staged packet with one write of a plain row stores it, leaves the list and queues its reply. -/
theorem applyStaged_one {c : Chip} {x : Staged} {l : List Staged} {w : Write} {r : AttrRow} (hx : c.dev.staged = x :: l)
    (hw : x.writes = [w]) (harm : x.arm = none) (hrow : attrRow w.id w.inst = some r) (hplain : plainAttr r = true) :
    Stored c c.applyStaged r w.inst w.value ∧ c.applyStaged.dev.staged = l ∧ c.applyStaged.now = c.now ∧
      c.applyStaged.pgm = c.pgm ∧
      c.applyStaged.hpp.replies = if c.hpp.rdy then c.hpp.replies ++ x.reply.toList else c.hpp.replies := by
  obtain ⟨m, hm, hs⟩ := applyWrites_stored hrow hplain c
  have hst : ∀ d : Chip, d.regs = m → Stored c d r w.inst w.value := fun d hd => stored_congr hs ⟨rfl, rfl, rfl, rfl⟩ hd
  unfold Chip.applyStaged
  simp only [hx, hw, harm, hm]
  cases x.reply with
  | none => exact ⟨hst _ rfl, rfl, rfl, rfl, by simp⟩
  | some q =>
    cases hr : c.hpp.rdy
    · exact ⟨hst _ rfl, rfl, rfl, rfl, rfl⟩
    · exact ⟨hst _ rfl, rfl, rfl, rfl, rfl⟩

/-- In RUN, with ticks running, a change at the coming tick reference happens at its instant. -/
theorem atReference_running {c : Chip} (hrun : c.inRun = true) (htick : c.dev.ticking = true) (f : Chip → Chip) :
    c.atReference f = f (c.at_ c.dev.nextT0) := by
  unfold Chip.atReference
  rw [hrun, htick]
  rfl

/-! MODIFY (R98) -/

theorem accessMask_of_rw {r : AttrRow} (h : r.fields.all (fun f => f.access == .rw) = true) {a : Access} (ha : a ≠ .rw) :
    accessMask r a = 0 := by
  have : r.fields.filter (fun f => f.access == a) = [] := by
    rw [List.filter_eq_nil_iff]
    intro f hf he
    have := List.all_eq_true.1 h f hf
    simp only [beq_iff_eq] at this he
    exact ha (he.symm.trans this)
  rw [accessMask, this]
  rfl

/-- The indivisible step of a MODIFY of one plain row that has RW fields only, its value refused by no check: the row
takes the new value, and the reply carries the value read and the value written. -/
theorem modifyNow_one {c : Chip} {e : ModEntry} {r : AttrRow} (hrow : attrRow e.id e.inst = some r) (hplain : plainAttr r = true)
    (hrw : r.fields.all (fun f => f.access == .rw) = true) (hrdy : c.hpp.rdy = true)
    (hv : c.valueFaults r e.inst (modValue r (c.readAttr r e.inst) e) e.mask = []) (tag flg : Nat) :
    ∃ (m : Tab Key Nat) (d : Chip), d = { c with regs := m } ∧ Stored c d r e.inst (modValue r (c.readAttr r e.inst) e) ∧
      ∃ q z sh, c.modifyNow tag flg [e] = d.answer
        { status := stOK, tag := tag, flg := flg,
          words := [c.readAttr r e.inst, modValue r (c.readAttr r e.inst) e &&& keepMask r], quad := q, reset := z, shown := sh } := by
  obtain ⟨m, hm, hs⟩ := applyWrites_stored (w := ⟨e.id, e.inst, modValue r (c.readAttr r e.inst) e⟩) hrow hplain c
  have hsteps : c.modSteps 0 [e] = ([], [⟨e.id, e.inst, modValue r (c.readAttr r e.inst) e⟩],
      [(r, e.inst, c.readAttr r e.inst, modValue r (c.readAttr r e.inst) e)]) := by
    simp [Chip.modSteps, hrow, hv]
  have hwo := accessMask_of_rw hrw (a := .wo) (by decide)
  have hw1c := accessMask_of_rw hrw (a := .w1c) (by decide)
  have hro := accessMask_of_rw hrw (a := .ro) (by decide)
  refine ⟨m, _, rfl, hs, ?_⟩
  unfold Chip.modifyNow
  simp only [hsteps, refusal, worst, hm, hrdy, hwo, hw1c, hro, Chip.replyIf, Chip.wroteReply,
    List.flatMap_cons, List.flatMap_nil, List.append_nil, Nat.or_zero, Nat.and_zero, if_true]
  exact ⟨_, _, _, rfl⟩

theorem modifyFindings_one {w m v : Nat} {r : AttrRow} (hn : Names w r (arwInst w)) (h1 : r.words = 1) (hro : r.readOnly = false) :
    modifyFindings 0 [w, m, v] = [] := by
  obtain ⟨hrow, -, hcount⟩ := hn
  simp [modifyFindings, hrow, h1, hro, hcount]

/-- An accepted MODIFY of one row waits for its step in RUN, and takes it at once outside RUN. -/
theorem exec_modify_one {t : Nat} {s : State} {p : Packet} {rest : List BasinWord} {w m v : Nat} {r : AttrRow} {c : Chip}
    (hp : s.HasPacket p rest) (ha : s.Accepts p) (ho : p.opc = 0x06) (hload : s.chip.dev.load = none) (hpar : p.params = [w, m, v])
    (hn : Names w r (arwInst w)) (h1 : r.words = 1) (hro : r.readOnly = false)
    (hc : (if s.chip.inRun then
        { s.taken t rest with dev := { s.chip.dev with wait := some (.modify p.tag p.flg [⟨arwId w, arwInst w, m, v⟩]) } }
      else (s.taken t rest).modifyNow p.tag p.flg [⟨arwId w, arwInst w, m, v⟩]) = c) (hq : c.pgm.wq = []) :
    exec (.modify t) s = .next { s with chip := c } := by
  have hlen : p.len = 3 := by rw [← params_length_of_accepts ha, hpar]; rfl
  obtain ⟨h, e, -⟩ := taken_eq s t rest
  have hdev : (s.taken t rest).dev = s.chip.dev := by rw [e]; rfl
  refine run_interpret_accepts hp ha (by simp [opIs, ho]) hload ?_ hq
  simp only [hlen, hpar, modifyFindings_one hn h1 hro, taken_inRun, hdev]
  exact hc

/-- The packet that waits for the tick reference is x. -/
def waitsFor (c : Chip) (x : Option Wait) : Chip := { c with dev := { c.dev with wait := x } }

theorem modifyWaiting_modify {c : Chip} {tag flg : Nat} {l : List ModEntry} (h : c.dev.wait = some (.modify tag flg l)) :
    c.modifyWaiting = (waitsFor c none).modifyNow tag flg l := by
  unfold Chip.modifyWaiting
  rw [h]
  rfl

/-- What the checks judge, and what a row reads, does not depend on the packet that waits. -/
theorem valueFaults_waitsFor (c : Chip) (x : Option Wait) (r : AttrRow) (i v mask : Nat) :
    (waitsFor c x).valueFaults r i v mask = c.valueFaults r i v mask := rfl

theorem readAttr_waitsFor (c : Chip) (x : Option Wait) (r : AttrRow) (i : Nat) : (waitsFor c x).readAttr r i = c.readAttr r i := rfl

end Sys2Proof.Scope
end

section
/-! CLAIM. Writes of plain attributes (R12, R84, R98). -/

namespace Sys2Proof.Scope

open Sys2Proof.Machine Sys2Proof.Laws

/-- SET outside RUN. -/
theorem setAttr_stores {t : Nat} {s : State} {p : Packet} {rest : List BasinWord} {w : Nat} {l : List Nat} {r : AttrRow}
    (hp : s.HasPacket p rest) (ha : s.Accepts p) (ho : p.opc = 0x03) (hload : s.chip.dev.load = none) (hrun : s.chip.inRun = false)
    (hpar : p.params = w :: l) (hl : l.length = r.words) (hn : Names w r (arwInst w)) (hplain : plainAttr r = true)
    (hw : Writable (s.taken t rest) r (arwInst w) (wordsValue l)) :
    ∃ u, exec (.setAttr t) s = .next u ∧ Stored (s.chip.at_ t) u.chip r (arwInst w) (wordsValue l) ∧ u.sram = s.sram ∧
      ∃ q, u.chip.hpp.replies = s.chip.hpp.replies ++
        [{ status := stOK, tag := p.tag, flg := p.flg, words := [], quad := q, reset := s.chip.kpr.sleepDue.isSome }] := by
  obtain ⟨m, d, rfl, hs, he⟩ := exec_setAttr_one (t := t) hp ha ho hload hrun hpar hl hn hplain hw
  refine ⟨_, he, stored_congr hs (taken_writesAlike s t rest).symm rfl, rfl, quadOf [⟨arwId w, arwInst w, wordsValue l⟩], ?_⟩
  obtain ⟨h, e, hreplies, -⟩ := taken_eq s t rest
  simp only [Chip.answer, Chip.wroteReply, e, hreplies, at_kpr]

/-- STAGED_WRITES_APPLY in RUN. -/
theorem stagedWritesApply_stores {s : State} {w : Write} {r : AttrRow} {x : Staged} {l : List Staged} (hinv : s.Inv)
    (hrun : s.chip.inRun = true) (htick : s.chip.dev.ticking = true) (hx : s.chip.dev.staged = x :: l) (hw : x.writes = [w])
    (harm : x.arm = none) (hrow : attrRow w.id w.inst = some r) (hplain : plainAttr r = true) :
    ∃ u, exec .stagedWritesApply s = .next u ∧ Stored (s.chip.at_ s.chip.dev.nextT0) u.chip r w.inst w.value ∧ u.sram = s.sram ∧
      u.chip.dev.staged = l ∧ u.chip.now = s.at_ s.chip.dev.nextT0 ∧
      u.chip.hpp.replies = (if s.chip.hpp.rdy then s.chip.hpp.replies ++ x.reply.toList else s.chip.hpp.replies) := by
  obtain ⟨hs, hst, hnow, hpgm, hrep⟩ := applyStaged_one (c := s.chip.at_ s.chip.dev.nextT0) hx hw harm hrow hplain
  have he : exec .stagedWritesApply s = .next { s with chip := (s.chip.at_ s.chip.dev.nextT0).applyStaged } :=
    run_of_chip_eq (f := fun _ c => c.atReference Chip.applyStaged) (atReference_running hrun htick _) (by rw [hpgm]; exact hinv.2)
  exact ⟨_, he, hs, rfl, hst, hnow, hrep⟩

/-- MODIFY outside RUN. -/
theorem modify_stores {t : Nat} {s : State} {p : Packet} {rest : List BasinWord} {w m v : Nat} {r : AttrRow}
    (hp : s.HasPacket p rest) (ha : s.Accepts p) (ho : p.opc = 0x06) (hload : s.chip.dev.load = none) (hpar : p.params = [w, m, v])
    (hn : Names w r (arwInst w)) (h1 : r.words = 1) (hro : r.readOnly = false) (hrun : s.chip.inRun = false)
    (hplain : plainAttr r = true) (hrw : r.fields.all (fun f => f.access == .rw) = true)
    (hv : (s.taken t rest).valueFaults r (arwInst w) (modValue r ((s.taken t rest).readAttr r (arwInst w)) ⟨arwId w, arwInst w, m, v⟩) m
      = []) :
    ∃ u, exec (.modify t) s = .next u ∧ (let old := (s.taken t rest).readAttr r (arwInst w)
      let new := modValue r old ⟨arwId w, arwInst w, m, v⟩
      Stored (s.chip.at_ t) u.chip r (arwInst w) new ∧ ∃ q z sh, u.chip.hpp.replies = s.chip.hpp.replies ++
        [{ status := stOK, tag := p.tag, flg := p.flg, words := [old, new &&& keepMask r], quad := q, reset := z, shown := sh }]) := by
  obtain ⟨h, e, hreplies, -, hrdy⟩ := taken_eq s t rest
  have hready : (s.taken t rest).hpp.rdy = true := by
    obtain ⟨-, -, hready⟩ := hp
    rw [e]
    exact hrdy.trans (rdy_of_ready hready)
  obtain ⟨k, d, rfl, hs, q, z, sh, hd⟩ := modifyNow_one (e := ⟨arwId w, arwInst w, m, v⟩) hn.1 hplain hrw hready hv p.tag p.flg
  have he := exec_modify_one (t := t) hp ha ho hload hpar hn h1 hro ((if_neg (by simp [hrun])).trans hd) (taken_wq hp t)
  refine ⟨_, he, stored_congr hs (taken_writesAlike s t rest).symm rfl, q, z, sh, ?_⟩
  simp only [Chip.answer, e, hreplies]

/-- MODIFY_STEP in RUN. -/
theorem modifyStep_stores {s : State} {tag flg : Nat} {e : ModEntry} {r : AttrRow} (hinv : s.Inv) (hrun : s.chip.inRun = true)
    (htick : s.chip.dev.ticking = true) (hrdy : s.chip.hpp.rdy = true) (hwait : s.chip.dev.wait = some (.modify tag flg [e]))
    (hrow : attrRow e.id e.inst = some r) (hplain : plainAttr r = true) (hrw : r.fields.all (fun f => f.access == .rw) = true)
    (hv : (s.chip.at_ s.chip.dev.nextT0).valueFaults r e.inst
      (modValue r ((s.chip.at_ s.chip.dev.nextT0).readAttr r e.inst) e) e.mask = []) :
    ∃ u, exec .modifyStep s = .next u ∧ (let old := (s.chip.at_ s.chip.dev.nextT0).readAttr r e.inst
      Stored (s.chip.at_ s.chip.dev.nextT0) u.chip r e.inst (modValue r old e) ∧ u.chip.dev = { s.chip.dev with wait := none } ∧
      ∃ q z sh, u.chip.hpp.replies = s.chip.hpp.replies ++
        [{ status := stOK, tag := tag, flg := flg, words := [old, modValue r old e &&& keepMask r], quad := q, reset := z,
           shown := sh }]) := by
  obtain ⟨k, d, hd, hs, q, z, sh, hnow⟩ := modifyNow_one (c := waitsFor (s.chip.at_ s.chip.dev.nextT0) none) hrow hplain hrw hrdy
    (by rw [valueFaults_waitsFor, readAttr_waitsFor]; exact hv) tag flg
  rw [readAttr_waitsFor] at hs hnow
  have hwaiting := modifyWaiting_modify (c := s.chip.at_ s.chip.dev.nextT0) hwait
  have he := run_of_chip_eq (f := fun _ c => c.atReference Chip.modifyWaiting) (s := s)
    ((atReference_running hrun htick _).trans (hwaiting.trans hnow)) (by rw [hd]; exact hinv.2)
  subst hd
  exact ⟨_, he, stored_congr hs ⟨rfl, rfl, rfl, rfl⟩ rfl, rfl, q, z, sh, rfl⟩

/-- Settles O14: each of the four ways to write stores the one row as its access codes say. -/
theorem writesStoreFields : Obligations.WritesStoreFields := by
  unfold Obligations.WritesStoreFields
  refine ⟨fun t s p rest w l r hp ha ho hload hrun hpar hl hn hplain hw =>
      setAttr_stores hp ha ho hload hrun hpar hl hn hplain hw,
    fun s w r x l hinv hrun htick hx hw harm hrow hplain => stagedWritesApply_stores hinv hrun htick hx hw harm hrow hplain,
    fun t s p rest w m v r hp ha ho hload hpar hn h1 hro => ⟨fun hrun => ?_, fun hrun hplain hrw hv =>
      modify_stores hp ha ho hload hpar hn h1 hro hrun hplain hrw hv⟩,
    fun s tag flg e r hinv hrun htick hrdy hwait hrow hplain hrw hv =>
      modifyStep_stores hinv hrun htick hrdy hwait hrow hplain hrw hv⟩
  exact exec_modify_one hp ha ho hload hpar hn h1 hro (if_pos hrun) (taken_wq hp t)

end Sys2Proof.Scope
end

section
/-! CLAIM. A COMMIT_CONFIG that passes and meets no first reference under GRID (R337), from a state in which ticks already run. -/

namespace Sys2Proof.Scope

open Sys2Proof.Machine Sys2Proof.Machine.Reg Sys2Proof.Laws

/-- The header of COMMIT_CONFIG, TAG 7. -/
def commitHeader : Nat := mkHeader 0x10 7 0 0

/-- The packet COMMIT_CONFIG as one basin word: its header and its CRC word, first byte lowest (R58). -/
def commitWord : BasinWord :=
  { bank := 0, word := ofBytes (bytesOfWords [commitHeader, finalWord [commitHeader]]).reverse, vb := 8, eot := true, ovt := false }

/-- The packet in it. -/
def commitPacket : Packet := packetOf [commitWord]

/-- TICKSRC 1 with time valid. PERIOD 8193 and RATE 2^27, which R109 allows: from one TB edge to the next time grows by
8193 / 8192 cycles, so every 8192 edges it skips one of the 8193 cycles of a tick; GOFS 8192 names the one skipped each time. -/
def skippingFields : List (Fld × Nat) :=
  [(DEV.STATE.STATE, stConfig), (DEV.TICK.PERIOD, 8193), (DEV.LAUNCH.LAUNCH, 132), (DEV.APPLY.APPLY, 500),
    (TIM.CFG.TICKSRC, 1), (TIM.STAT.TVALID, 1), (TIM.RATE.RATE, 2 ^ 27), (TIM.GRID.GOFS, 8192)]

/-- The packet waits in CONFIG at a ready port, and ticks are recorded as running, with the next reference at instant 0. -/
def tickingInConfig : State :=
  { chip := skippingFields.foldl (fun c e => c.set e.1 0 e.2)
      { hpp := { rdy := true, unread := [commitWord] }, rst := { seq := none }, dev := { ticking := true, nextT0 := 0 } }
    sram := []
    pending := [] }

theorem tickingInConfig_hasPacket : tickingInConfig.HasPacket commitPacket [] := by
  refine ⟨⟨?_, ?_⟩, ?_, ?_⟩ <;> decide +kernel

theorem tickingInConfig_accepts : tickingInConfig.Accepts commitPacket :=
  ⟨by decide +kernel, by decide +kernel, by decide +kernel, ⟨0, [stConfig], some 0⟩, by decide +kernel, by decide +kernel,
    by decide +kernel, by decide +kernel, fun n h => by cases h; decide +kernel⟩

/-- Every check of R25 and of the blocks passes. -/
theorem tickingInConfig_passes : (tickingInConfig.taken 0 []).configResult.1 = 0 := by decide +kernel

/-- No reference is found, so the commit leaves the ticks as they were. -/
theorem commitConfig_tickingInConfig : ∃ u, exec (.commitConfig 0) tickingInConfig = .next u ∧ u.chip.dev.ticking = true ∧
    u.chip.dev.nextT0 = 0 := by
  refine ⟨_, rfl, ?_, ?_⟩ <;> decide +kernel

/-- Refutes O16: nothing says that ticks do not run in CONFIG. Where they do and GRID has no first reference, the accepted commit
leaves them running with the reference they had, which is no TB edge at least 100 us after the reply. -/
theorem not_commitEntersRun : ¬ Obligations.CommitEntersRun := by
  unfold Obligations.CommitEntersRun
  intro h
  obtain ⟨v, hv, htick, hnext⟩ := commitConfig_tickingInConfig
  obtain ⟨u, hu, -, -, -, -, -, -, -, hgrid⟩ := (h 0 tickingInConfig commitPacket [] tickingInConfig_hasPacket
    tickingInConfig_accepts (by decide +kernel) (by decide +kernel)).1 tickingInConfig_passes
  obtain rfl : v = u := Host.Outcome.next.inj (hv.symm.trans hu)
  obtain ⟨k, hk, hlate, -⟩ := hgrid (by decide +kernel) htick
  have hc0 : tickingInConfig.chip.tim.c0 = 0 := by decide +kernel
  have : 0 < 100 * usTaps := by decide
  omega

end Sys2Proof.Scope
end

section
/-! SUPPORT. The frames of a launch (R125, R128, R131, R137, R147): what a lane in use sends, and that it changes its own record alone. -/

namespace Sys2Proof.Scope

open Sys2Proof.Machine Sys2Proof.Machine.Reg Sys2Proof.Laws

/-! A change for each element of a list -/

/-- What no single change alters, all of them together do not. -/
theorem each_same {α β : Type} {π : Chip → β} {f : Chip → α → Chip} (hf : ∀ c x, π (f c x) = π c) (c : Chip) (l : List α) :
    π (c.each l f) = π c := by
  unfold Chip.each
  induction l generalizing c with
  | nil => rfl
  | cons x l ih => exact (ih _).trans (hf c x)

theorem keeps_each_mem {α : Type} {ids : List Nat} {ps : List Part} {a b : Chip} {l : List α} {f : Chip → α → Chip}
    (hf : ∀ d, ∀ x ∈ l, Keeps ids ps d (f d x)) (h : Keeps ids ps a b) : Keeps ids ps a (b.each l f) := by
  unfold Chip.each
  induction l generalizing b with
  | nil => exact h
  | cons x l ih =>
    exact ih (fun d y hy => hf d y (List.mem_cons_of_mem x hy)) (keeps_trans h (hf b x List.mem_cons_self))

/-! One lane's record -/

theorem lane_setLane_self (c : Chip) (n : Nat) (v : LaneRec) : (c.setLane n v).lane n = v := nget_nset_self _ _ _ _

theorem lane_setLane_other (c : Chip) {n m : Nat} (v : LaneRec) (h : m ≠ n) : (c.setLane n v).lane m = c.lane m :=
  nget_nset_other _ _ _ _ _ _ h

theorem lane_congr {a b : Chip} (h : b.lnk = a.lnk) (n : Nat) : b.lane n = a.lane n := by rw [Chip.lane, Chip.lane, h]

/-- A lane's record after a frame that left at t (R125, R128, R131, R137): `old` is its record before. -/
structure Launched (t : Nat) (old new : LaneRec) : Prop where
  sentAt : new.sentAt = t
  groups : ∃ rd, new.groups = frameOnLine rd new.sent
  length : new.sent.length = 8
  type : new.sent.headD 0 / 64 ≠ 1
  next : new.sent.headD 0 / 16 % 4 ≠ 3
  pres : new.sent.headD 0 / 4 % 4 ≠ 3
  sentSeq : new.sentSeq = old.dlSeq
  dlSeq : new.dlSeq = (old.dlSeq + 1) % 256

/-- The frame of a lane in DOWN or STANDBY (R147): HOLD BLOCK, code 0, no edge; AUX and SEQ as on every frame. -/
def idleFrame (wd : Nat) (l : LaneRec) : List Nat :=
  [0x80, 0, 0, 0xFF, 0xFF, 0xFF, 64 * wd + (if l.odAt.isSome ∧ l.odSeen = false then 32 else 0), l.dlSeq]

/-! A frame -/

/-- A STATE byte that a frame may carry: TYPE is not 01, neither state code is 11 (R131). -/
def MayBeSent (sb : Nat) : Prop := sb / 64 ≠ 1 ∧ sb / 16 % 4 ≠ 3 ∧ sb / 4 % 4 ≠ 3

theorem stateByte_mayBeSent {ty next pres : Nat} (byp : Nat) (h : ¬(ty % 4 = 1 ∨ next % 4 = 3 ∨ pres % 4 = 3)) :
    MayBeSent (stateByte ty next pres byp) := by
  unfold MayBeSent stateByte
  omega

theorem sendFrame_launched {sb : Nat} (h : MayBeSent sb) (c : Chip) (n t code edge : Nat) :
    Launched t (c.lane n) ((c.sendFrame n t sb code edge).lane n) := by
  obtain ⟨htype, hnext, hpres⟩ := h
  unfold Chip.sendFrame
  rw [lane_setLane_self]
  exact ⟨rfl, ⟨_, rfl⟩, rfl, htype, hnext, hpres, rfl, rfl⟩

theorem sendFrame_lane_other (c : Chip) {n m : Nat} (h : m ≠ n) (t sb code edge : Nat) :
    (c.sendFrame n t sb code edge).lane m = c.lane m := lane_setLane_other c _ h

/-! The events of the frames -/

/-- From a to b nothing but STATE11, source 15, has been raised (R131). -/
def RaisesState11 (a b : Chip) : Prop :=
  ∃ l : List Raised, (∀ e ∈ l, e.src = 15) ∧ b.flt = { a.flt with raised := a.flt.raised ++ l }

theorem raisesState11_of_eq {a b : Chip} (h : b.flt = a.flt) : RaisesState11 a b := ⟨[], by simp, by simp [h]⟩

theorem raisesState11_trans {a b c : Chip} (h : RaisesState11 a b) (g : RaisesState11 b c) : RaisesState11 a c := by
  obtain ⟨l, hl, hb⟩ := h
  obtain ⟨k, hk, hc⟩ := g
  refine ⟨l ++ k, fun e he => (List.mem_append.1 he).elim (hl e) (hk e), ?_⟩
  rw [hc, hb]
  simp only [List.append_assoc]

theorem raise_raisesState11 (c : Chip) : RaisesState11 c (c.raise 15) := by
  rw [raise_eq]
  split
  · exact ⟨[⟨15, 0, c.now, false⟩], by simp, rfl⟩
  · exact raisesState11_of_eq rfl

/-! The frame of one lane at the launch -/

/-- Attributes in which the profile code of a frame shows (R224). -/
def frameIds : List Nat := [GPR.LST.CODE.id]

/-- e is c after one frame of lane n that left at t: its profile code shown, STATE11 raised or not. -/
def SendsFrame (c : Chip) (n t : Nat) (e : Chip) : Prop :=
  ∃ d sb code edge, MayBeSent sb ∧ Keeps frameIds [.flt] c d ∧ RaisesState11 c d ∧ e = d.sendFrame n t sb code edge

/-- What sendState can do (R129, R131): it sends the frame asked for, or raises STATE11 and sends HOLD BLOCK. -/
theorem sendState_sendsFrame (c : Chip) (n t ty next pres byp code edge : Nat) :
    SendsFrame c n t (c.sendState n t ty next pres byp code edge) := by
  unfold Chip.sendState
  split
  · exact ⟨_, _, _, _, stateByte_mayBeSent 0 (by decide), keeps_raise keeps_refl (by decide), raise_raisesState11 c, rfl⟩
  · exact ⟨_, _, _, _, stateByte_mayBeSent byp ‹_›, keeps_refl, raisesState11_of_eq rfl, rfl⟩

theorem sendsFrame_of_shown {c d e : Chip} {n t : Nat} (h : Keeps frameIds [] c d) (g : SendsFrame d n t e) : SendsFrame c n t e := by
  obtain ⟨x, sb, code, edge, hsb, hx, hr, he⟩ := g
  exact ⟨x, sb, code, edge, hsb, keeps_trans (keeps_mono h (fun _ hi => hi) (by simp)) hx,
    raisesState11_trans (raisesState11_of_eq (h.parts .flt List.not_mem_nil)) hr, he⟩

theorem SendsFrame.launched {c e : Chip} {n t : Nat} (h : SendsFrame c n t e) : Launched t (c.lane n) (e.lane n) := by
  obtain ⟨d, sb, code, edge, hsb, hd, -, rfl⟩ := h
  rw [← lane_congr (hd.parts .lnk (by decide)) n]
  exact sendFrame_launched hsb ..

/-- From c to e at most lane n has sent a frame: its own record alone has changed, and STATE11 alone been raised. -/
structure SendsOnly (n : Nat) (c e : Chip) : Prop where
  keeps : Keeps frameIds [.lnk, .flt] c e
  lane_other : ∀ m, m ≠ n → e.lane m = c.lane m
  wd : e.lnk.wd = c.lnk.wd
  raises : RaisesState11 c e

theorem SendsFrame.sendsOnly {c e : Chip} {n t : Nat} (h : SendsFrame c n t e) : SendsOnly n c e := by
  obtain ⟨d, sb, code, edge, -, hd, hr, rfl⟩ := h
  have hlnk : d.lnk = c.lnk := hd.parts .lnk (by decide)
  refine ⟨keeps_setLane (by decide) (keeps_mono hd (fun _ hi => hi) (by simp)), fun m hm => ?_, ?_, hr⟩
  · exact (sendFrame_lane_other d hm ..).trans (lane_congr hlnk m)
  · calc (d.sendFrame n t sb code edge).lnk.wd = d.lnk.wd := rfl
      _ = c.lnk.wd := by rw [hlnk]

theorem launchLane_off {c : Chip} {n : Nat} (h : c.lstate n = lsOff) (t : Nat) (ok : Bool) : c.launchLane t ok n = c := if_pos h

/-- Every lane in use sends one frame, whatever its state, its hold and the outcome of the tick. -/
theorem launchLane_sendsFrame {c : Chip} {n : Nat} (h : c.lstate n ≠ lsOff) (t : Nat) (ok : Bool) :
    SendsFrame c n t (c.launchLane t ok n) := by
  unfold Chip.launchLane
  simp only [if_neg h]
  split
  case isTrue => exact sendState_sendsFrame ..
  split
  case isTrue hactive =>
    split
    case isTrue hok =>
      split
      case h_1 x hx =>
        exact sendsFrame_of_shown (keeps_set (keeps_set keeps_refl (by decide)) (by decide)) (sendState_sendsFrame ..)
      case h_2 => exact sendState_sendsFrame ..
    case isFalse => exact sendState_sendsFrame ..
  split
  case isTrue hadmit =>
    split
    case h_1 => split <;> exact sendState_sendsFrame ..
    case h_2 => exact sendState_sendsFrame ..
  case isFalse => exact sendState_sendsFrame ..

/-- A lane in DOWN or STANDBY sends the same frame whether its arm is held or not (R147, R257). -/
theorem launchLane_idle {c : Chip} {n : Nat} (h : c.lstate n = lsDown ∨ c.lstate n = lsStandby) (t : Nat) (ok : Bool) :
    c.launchLane t ok n = c.sendState n t 2 0 0 0 0 0xFFFFFF := by
  unfold Chip.launchLane
  rcases h with h | h <;> simp [h, lsOff, lsDown, lsStandby, lsActive, lsAdmit, lsBlocked]

theorem sent_launchLane_idle {c : Chip} {n : Nat} (h : c.lstate n = lsDown ∨ c.lstate n = lsStandby) (t : Nat) (ok : Bool) :
    ((c.launchLane t ok n).lane n).sent = idleFrame c.lnk.wd (c.lane n) := by
  rw [launchLane_idle h]
  simp [Chip.sendState, Chip.sendFrame, lane_setLane_self, stateByte, idleFrame]

theorem launchLane_sendsOnly (c : Chip) (t : Nat) (ok : Bool) (n : Nat) : SendsOnly n c (c.launchLane t ok n) := by
  by_cases h : c.lstate n = lsOff
  · rw [launchLane_off h]
    exact ⟨keeps_refl, fun _ _ => rfl, rfl, raisesState11_of_eq rfl⟩
  · exact (launchLane_sendsFrame h t ok).sendsOnly

/-! The frames of all lanes -/

/-- Lanes l send their frames, one after the other. -/
def sendAll (t : Nat) (ok : Bool) (c : Chip) (l : List Nat) : Chip := c.each l (fun c n => c.launchLane t ok n)

theorem sendAll_cons (t : Nat) (ok : Bool) (c : Chip) (n : Nat) (l : List Nat) :
    sendAll t ok c (n :: l) = sendAll t ok (c.launchLane t ok n) l := rfl

theorem sendAll_append (t : Nat) (ok : Bool) (c : Chip) (k l : List Nat) :
    sendAll t ok c (k ++ l) = sendAll t ok (sendAll t ok c k) l := List.foldl_append

theorem sendAll_keeps (t : Nat) (ok : Bool) (c : Chip) (l : List Nat) : Keeps frameIds [.lnk, .flt] c (sendAll t ok c l) :=
  keeps_each (fun d n => (launchLane_sendsOnly d t ok n).keeps) keeps_refl

theorem sendAll_wd (t : Nat) (ok : Bool) (c : Chip) (l : List Nat) : (sendAll t ok c l).lnk.wd = c.lnk.wd :=
  each_same (π := fun c => c.lnk.wd) (fun d n => (launchLane_sendsOnly d t ok n).wd) c l

theorem sendAll_raises (t : Nat) (ok : Bool) (c : Chip) (l : List Nat) : RaisesState11 c (sendAll t ok c l) := by
  induction l generalizing c with
  | nil => exact raisesState11_of_eq rfl
  | cons n l ih => exact raisesState11_trans (launchLane_sendsOnly c t ok n).raises (ih _)

theorem sendAll_lane_other (t : Nat) (ok : Bool) (c : Chip) {l : List Nat} {n : Nat} (h : n ∉ l) :
    (sendAll t ok c l).lane n = c.lane n := by
  induction l generalizing c with
  | nil => rfl
  | cons m l ih =>
    obtain ⟨hm, hl⟩ := not_or.1 (mt List.mem_cons.2 h)
    exact (ih _ hl).trans ((launchLane_sendsOnly c t ok m).lane_other n hm)

theorem sendAll_lstate (t : Nat) (ok : Bool) (c : Chip) (l : List Nat) (n : Nat) : (sendAll t ok c l).lstate n = c.lstate n :=
  (sendAll_keeps t ok c l).fields _ _ (by decide)

/-- Lane n sends once: its record is the one that its own frame leaves, sent from a chip in which the lane is as it was. -/
theorem sendAll_lane_self (t : Nat) (ok : Bool) (c : Chip) {l : List Nat} (hl : l.Nodup) {n : Nat} (hn : n ∈ l) :
    ∃ d : Chip, (sendAll t ok c l).lane n = (d.launchLane t ok n).lane n ∧ d.lane n = c.lane n ∧ d.lstate n = c.lstate n ∧
      d.lnk.wd = c.lnk.wd := by
  obtain ⟨k, l, rfl⟩ := List.append_of_mem hn
  obtain ⟨-, hnodup, hdisjoint⟩ := List.nodup_append.1 hl
  obtain ⟨hafter, -⟩ := List.nodup_cons.1 hnodup
  have hbefore : n ∉ k := fun h => hdisjoint n h n List.mem_cons_self rfl
  refine ⟨sendAll t ok c k, ?_, sendAll_lane_other t ok c hbefore, sendAll_lstate t ok c k n, sendAll_wd t ok c k⟩
  rw [sendAll_append, sendAll_cons, sendAll_lane_other _ _ _ hafter]

theorem sendAll_lane_off (t : Nat) (ok : Bool) (c : Chip) {l : List Nat} (hl : l.Nodup) {n : Nat} (h : c.lstate n = lsOff) :
    (sendAll t ok c l).lane n = c.lane n := by
  by_cases hn : n ∈ l
  · obtain ⟨d, hself, hlane, hstate, -⟩ := sendAll_lane_self t ok c hl hn
    rw [hself, launchLane_off (hstate.trans h), hlane]
  · exact sendAll_lane_other t ok c hn

theorem upTo_nodup (k : Nat) : (upTo k).Nodup := List.nodup_range

theorem mem_upTo {n k : Nat} : n ∈ upTo k ↔ n < k := List.mem_range

end Sys2Proof.Scope
end

section
/-! SUPPORT. Release of a tick's results (R28, R182): what it shows, and what it leaves alone. -/

namespace Sys2Proof.Scope

open Sys2Proof.Machine Sys2Proof.Machine.Reg Sys2Proof.Laws

/-- Attributes in which the results of a tick show (R182, R194, R199). -/
def resultIds : List Nat :=
  [ARM.LST.CMD.id, MOD.LST.TRK.id, MOD.LCMP.CMPA.id, ARM.STAT.NMAP.id, ARM.ACCT.SPARE.id, ARM.CNT.EDGES.id, MOD.EVT.SUPPR.id,
    MOD.CNT.SUPPR.id]

section

variable {ps : List Part} {a b : Chip}

theorem keeps_showLane {n cmd age flags : Nat} (h : Keeps resultIds ps a b) : Keeps resultIds ps a (b.showLane n cmd age flags) := by
  refine keeps_each_mem (fun d e he => keeps_setB keeps_refl ?_) (keeps_set (keeps_set h (by decide)) (by decide))
  revert e
  decide

theorem keeps_showArm {k ldel nedge : Nat} (h : Keeps resultIds ps a b) : Keeps resultIds ps a (b.showArm k ldel nedge) := by
  unfold Chip.showArm
  repeat' first
    | exact h
    | with_reducible refine keeps_set ?_ (by decide)
    | with_reducible refine keeps_setB ?_ (by decide)
    | with_reducible refine keeps_setI ?_ (by decide)

theorem keeps_countEdges {k : Nat} (h : Keeps resultIds ps a b) : Keeps resultIds ps a (b.countEdges k) := by
  have hone : ∀ {d : Chip} {m : Nat} {e f : Fld}, Keeps resultIds ps a d → e.id ∈ resultIds → f.id ∈ resultIds →
      Keeps resultIds ps a (if m = 0 then d else (d.flag e k).incBy f k m) :=
    fun hd he hf => keeps_ite (fun _ => hd) (fun _ => keeps_incBy (keeps_flag hd he) hf)
  exact hone (hone (hone (keeps_incBy h (by decide)) (by decide) (by decide)) (by decide) (by decide)) (by decide) (by decide)

theorem keeps_releaseLane {w0 n : Nat} (ha : Part.arm ∈ ps) (hm : Part.mod ∈ ps) (h : Keeps resultIds ps a b) :
    Keeps resultIds ps a (b.releaseLane w0 n) := by
  have hshown : ∀ {v : SchedRec} {cmd age flags trk x : Nat} {e : Bool}, Keeps resultIds ps a
      (((((b.setSched n v).showLane n cmd age flags).set MOD.LST.TRK n trk).setB MOD.LST.EDGE n e).set MOD.LST.X n x) :=
    keeps_set (keeps_setB (keeps_set (keeps_showLane (keeps_setSched ha h)) (by decide)) (by decide)) (by decide)
  unfold Chip.releaseLane
  dsimp only
  split
  · exact keeps_set hshown (by decide)
  · exact keeps_setB (keeps_set (keeps_set (keeps_mod hshown hm) (by decide)) (by decide)) (by decide)

theorem keeps_overrunLane {n : Nat} (ha : Part.arm ∈ ps) (h : Keeps resultIds ps a b) : Keeps resultIds ps a (b.overrunLane n) :=
  keeps_set (keeps_showLane (keeps_setSched ha h)) (by decide)

/-- The release of a tick's results shows them, and changes Cascade and the modulators alone (R28, R182). -/
theorem keeps_launchArms {ok : Bool} (ha : Part.arm ∈ ps) (hm : Part.mod ∈ ps) (h : Keeps resultIds ps a b) :
    Keeps resultIds ps a (b.launchArms ok) := by
  refine keeps_each (fun d k => ?_) h
  cases ok
  · exact keeps_showArm (keeps_each (fun _ _ => keeps_overrunLane ha keeps_refl) keeps_refl)
  · exact keeps_countEdges (keeps_showArm (keeps_each (fun _ _ => keeps_releaseLane ha hm keeps_refl) keeps_refl))

end

/-! The first window missed -/

theorem releaseLane_missed (c : Chip) (w0 n : Nat) : (c.releaseLane w0 n).arm.missed = c.arm.missed := by
  unfold Chip.releaseLane
  dsimp only
  split <;> rfl

theorem overrunLane_missed (c : Chip) (n : Nat) : (c.overrunLane n).arm.missed = c.arm.missed := rfl

theorem showArm_arm (c : Chip) (a ldel nedge : Nat) : (c.showArm a ldel nedge).arm = c.arm :=
  (keeps_showArm (ps := []) keeps_refl).parts .arm List.not_mem_nil

theorem countEdges_arm (c : Chip) (a : Nat) : (c.countEdges a).arm = c.arm :=
  (keeps_countEdges (ps := []) keeps_refl).parts .arm List.not_mem_nil

theorem launchArms_missed (c : Chip) (ok : Bool) : (c.launchArms ok).arm.missed = c.arm.missed := by
  refine each_same (π := fun c => c.arm.missed) (fun d a => ?_) c _
  cases ok
  · exact (congrArg Arm.missed (showArm_arm ..)).trans (each_same (π := fun c => c.arm.missed) overrunLane_missed d _)
  · exact (congrArg Arm.missed ((countEdges_arm ..).trans (showArm_arm ..))).trans
      (each_same (π := fun c => c.arm.missed) (fun e n => releaseLane_missed e _ n) d _)

end Sys2Proof.Scope
end

section
/-! SUPPORT. The launch of a tick as a whole (R24, R27, R137): frames, results, ports, in that order. -/

namespace Sys2Proof.Scope

open Sys2Proof.Machine Sys2Proof.Machine.Reg Sys2Proof.Laws

theorem keeps_launchPorts {ps : List Part} {a b : Chip} (hp : Part.dhb ∈ ps) (h : Keeps [DHB.EVT.CMPBAD.id] ps a b) :
    Keeps [DHB.EVT.CMPBAD.id] ps a b.launchPorts :=
  keeps_each (fun _ _ => keeps_ite (fun _ => keeps_flag (keeps_setPort hp keeps_refl) (by decide))
    (fun _ => keeps_setPort hp keeps_refl)) h

/-- Each lane in use has sent its frame for the launch at t. -/
def framesSent (t : Nat) (ok : Bool) (c : Chip) : Chip := if c.released 3 then sendAll t ok c (upTo 192) else c

/-- The ports have taken over their compares, or the tick overran (R27, R217, R359). -/
def portsServed (ok : Bool) (c : Chip) : Chip :=
  if ok then (if c.released 4 then c.launchPorts else c) else c.takeBackDests.raise 23

/-- The launch is noted as done, with the first window missed (R201). -/
def launchNoted (ok : Bool) (c : Chip) : Chip :=
  { c with arm := { c.arm with
    launchDue := false
    missed := if ok then none else some (c.arm.missed.getD (c.windowStart c.tickAt)) } }

/-- The launch, step by step (R24, R27, R137). -/
theorem launch_eq {c : Chip} {t : Nat} (ht : t = c.tickAt + 64 * c.get DEV.LAUNCH.LAUNCH) :
    c.launch = launchNoted c.launchOk (portsServed c.launchOk ((framesSent t c.launchOk (c.at_ t)).launchArms c.launchOk)) := by
  subst ht
  rfl

/-- Attributes that a launch changes. -/
def launchIds : List Nat := frameIds ++ resultIds ++ [DHB.EVT.CMPBAD.id]

/-- Parts that a launch changes. -/
def launchParts : List Part := [.lnk, .flt, .arm, .mod, .dhb, .ctl]

section

variable (t : Nat) (ok : Bool) (c : Chip)

theorem framesSent_keeps : Keeps frameIds [.lnk, .flt] c (framesSent t ok c) :=
  keeps_ite (fun _ => sendAll_keeps t ok c _) (fun _ => keeps_refl)

theorem framesSent_raises : RaisesState11 c (framesSent t ok c) := by
  unfold framesSent
  split
  · exact sendAll_raises t ok c _
  · exact raisesState11_of_eq rfl

theorem framesSent_lane_off {n : Nat} (h : c.lstate n = lsOff) : (framesSent t ok c).lane n = c.lane n := by
  unfold framesSent
  split
  · exact sendAll_lane_off t ok c (upTo_nodup _) h
  · rfl

/-- A lane in use has sent its own frame, from a chip in which the lane is as it was. -/
theorem framesSent_lane (h3 : c.released 3 = true) {n : Nat} (hn : n < 192) :
    ∃ d : Chip, (framesSent t ok c).lane n = (d.launchLane t ok n).lane n ∧ d.lane n = c.lane n ∧ d.lstate n = c.lstate n ∧
      d.lnk.wd = c.lnk.wd := by
  rw [framesSent, if_pos h3]
  exact sendAll_lane_self t ok c (upTo_nodup _) (mem_upTo.2 hn)

theorem launchArms_keeps : Keeps resultIds [.arm, .mod] c (c.launchArms ok) := keeps_launchArms (by decide) (by decide) keeps_refl

theorem portsServed_keeps : Keeps [DHB.EVT.CMPBAD.id] [.dhb, .ctl, .flt] c (portsServed ok c) :=
  keeps_ite (fun _ => keeps_ite (fun _ => keeps_launchPorts (by decide) keeps_refl) (fun _ => keeps_refl))
    (fun _ => keeps_raise (keeps_ctl keeps_refl (by decide)) (by decide))

theorem portsServed_flt_inTime : (portsServed true c).flt = c.flt := by
  change (if c.released 4 then c.launchPorts else c).flt = c.flt
  split
  · exact (keeps_launchPorts (ps := [.dhb]) (by decide) keeps_refl).parts .flt (by decide)
  · rfl

theorem portsServed_flt_overrun : (portsServed false c).flt =
    { c.flt with raised := if c.fabric then c.flt.raised ++ [⟨23, 0, c.now, false⟩] else c.flt.raised } :=
  congrArg Chip.flt (raise_eq c.takeBackDests 23 0 false)

/-- A launch in time raises nothing for the overrun, one that is late raises source 23 (R30). -/
theorem portsServed_flt : (portsServed ok c).flt = { c.flt with raised := c.flt.raised ++
    (if ok = false ∧ c.fabric = true then [⟨23, 0, c.now, false⟩] else []) } := by
  cases ok
  · rw [portsServed_flt_overrun]
    cases c.fabric <;> simp
  · simp [portsServed_flt_inTime]

theorem portsServed_arm : (portsServed ok c).arm = c.arm := (portsServed_keeps ok c).parts .arm (by decide)

end

theorem results_keeps (t : Nat) (ok : Bool) (c : Chip) : Keeps launchIds launchParts c ((framesSent t ok c).launchArms ok) :=
  keeps_op (launchArms_keeps ok) (keeps_mono (framesSent_keeps t ok c) (by decide) (by decide)) (by decide) (by decide)

theorem served_keeps (t : Nat) (ok : Bool) (c : Chip) :
    Keeps launchIds launchParts c (portsServed ok ((framesSent t ok c).launchArms ok)) :=
  keeps_op (portsServed_keeps ok) (results_keeps t ok c) (by decide) (by decide)

theorem windowStart_tickAt_of_keeps {a b : Chip} (h : Keeps launchIds launchParts a b) :
    b.windowStart b.tickAt = a.windowStart a.tickAt := by
  have hdev : b.dev = a.dev := h.parts .dev (by decide)
  have htim : b.tim = a.tim := h.parts .tim (by decide)
  simp only [Chip.windowStart, Chip.tickAt, Chip.period, hdev, htim, h.fields DEV.APPLY.APPLY 0 (by decide),
    h.fields DEV.TICK.PERIOD 0 (by decide)]

section

variable {c : Chip} {t : Nat} (ht : t = c.tickAt + 64 * c.get DEV.LAUNCH.LAUNCH)

include ht

theorem launch_keeps : Keeps launchIds launchParts (c.at_ t) c.launch := by
  rw [launch_eq ht]
  exact keeps_arm (served_keeps t c.launchOk (c.at_ t)) (by decide)

theorem launch_lnk : c.launch.lnk = (framesSent t c.launchOk (c.at_ t)).lnk := by
  rw [launch_eq ht]
  exact Eq.trans ((portsServed_keeps _ _).parts .lnk (by decide)) ((launchArms_keeps _ _).parts .lnk (by decide))

theorem launch_lane_off {n : Nat} (h : c.lstate n = lsOff) : c.launch.lane n = c.lane n :=
  (lane_congr (launch_lnk ht) n).trans (framesSent_lane_off t _ _ h)

theorem launch_launched (h3 : c.released 3 = true) {n : Nat} (hn : n < 192) (h : c.lstate n ≠ lsOff) :
    Launched t (c.lane n) (c.launch.lane n) := by
  obtain ⟨d, hsent, hlane, hstate, -⟩ := framesSent_lane t c.launchOk (c.at_ t) h3 hn
  rw [lane_congr (launch_lnk ht) n, hsent]
  exact hlane ▸ (launchLane_sendsFrame (fun e => h (hstate.symm.trans e)) t _).launched

theorem launch_sent_idle (h3 : c.released 3 = true) {n : Nat} (hn : n < 192) (h : c.lstate n = lsDown ∨ c.lstate n = lsStandby) :
    (c.launch.lane n).sent = idleFrame c.lnk.wd (c.lane n) := by
  obtain ⟨d, hsent, hlane, hstate, hwd⟩ := framesSent_lane t c.launchOk (c.at_ t) h3 hn
  rw [lane_congr (launch_lnk ht) n, hsent, sent_launchLane_idle (h.imp hstate.trans hstate.trans), hlane, hwd]
  rfl

/-- Every event of a launch: STATE11 of its frames, then the overrun (R30, R131). -/
theorem launch_flt : ∃ l : List Raised, (∀ e ∈ l, e.src = 15) ∧ c.launch.flt = { c.flt with raised := c.flt.raised ++ l ++
    (if c.launchOk = false ∧ c.fabric = true then [⟨23, 0, Max.max c.now t, false⟩] else []) } := by
  obtain ⟨l, hl, hframes⟩ := framesSent_raises t c.launchOk (c.at_ t)
  refine ⟨l, hl, ?_⟩
  rw [launch_eq ht]
  have h := results_keeps t c.launchOk (c.at_ t)
  have hflt := (launchArms_keeps c.launchOk (framesSent t c.launchOk (c.at_ t))).parts .flt (by decide)
  generalize (framesSent t c.launchOk (c.at_ t)).launchArms c.launchOk = d at h hflt
  have hflt : d.flt = { c.flt with raised := c.flt.raised ++ l } := Eq.trans hflt hframes
  have hnow : d.now = Max.max c.now t := h.parts .now (by decide)
  have hfabric : d.fabric = c.fabric := congrArg (fun x => x.testBit 0) (h.fields RST.DOM.REL 0 (by decide))
  calc (portsServed c.launchOk d).flt
      = { d.flt with raised := d.flt.raised ++ (if c.launchOk = false ∧ d.fabric = true then [⟨23, 0, d.now, false⟩] else []) } :=
        portsServed_flt _ _
    _ = _ := by rw [hflt, hnow, hfabric]

theorem launch_missed : c.launch.arm.missed =
    if c.launchOk then none else some (c.arm.missed.getD (c.windowStart c.tickAt)) := by
  rw [launch_eq ht]
  have harm : (framesSent t c.launchOk (c.at_ t)).arm = c.arm := (framesSent_keeps _ _ _).parts .arm (by decide)
  simp only [launchNoted, portsServed_arm, launchArms_missed, harm, windowStart_tickAt_of_keeps (served_keeps t c.launchOk (c.at_ t))]
  rfl

theorem launch_launchDue : c.launch.arm.launchDue = false := by rw [launch_eq ht]; rfl

end

end Sys2Proof.Scope
end

section
/-! CLAIM. TICK and LAUNCH (R24, R27, R30, R31, R137). -/

namespace Sys2Proof.Scope

open Sys2Proof.Machine Sys2Proof.Machine.Reg Sys2Proof.Laws

/-! TICK -/

theorem tickWork_abandoned (c : Chip) (t k n : Nat) {place : Option Nat} {stall : Bool} (h : place = none ∨ stall = true) :
    (c.tickWork t k place n stall).arm.abandoned = true := by
  rcases h with rfl | rfl <;> simp [Chip.tickWork]

/-- A TICK with ticks running does the tick's work and moves on to the next reference (R24). -/
theorem execTick_running {s : State} (hrun : s.chip.inRun = true) (htick : s.chip.dev.ticking = true) (place : Option Nat) (n : Nat)
    (stall : Bool) : ∃ c t k u, execTick place n stall s = .next u ∧ u.chip.arm = (Chip.tickWork c t k place n stall).arm ∧
      u.chip.dev.tick = s.chip.dev.tick + 1 ∧ u.chip.dev.nextT0 = s.chip.dev.nextT0 + s.chip.period ∧ u.pending = s.pending := by
  rw [execTick, run_next, hrun, htick]
  exact ⟨_, _, _, _, rfl, rfl, rfl, rfl, rfl⟩

theorem tick_running {s : State} (place : Option Nat) (n : Nat) (stall : Bool) (hrun : s.chip.inRun = true)
    (htick : s.chip.dev.ticking = true) :
    ∃ u, exec (.tick place n stall) s = .next u ∧ u.chip.dev.tick = s.chip.dev.tick + 1 ∧
      u.chip.dev.nextT0 = s.chip.dev.nextT0 + s.chip.period ∧ u.chip.arm.launchDue = true ∧ u.chip.arm.stalled = stall ∧
      (place = none ∨ stall = true → u.chip.arm.abandoned = true) ∧ (place = none → u.chip.arm.placedAt = none) ∧
      u.pending = s.pending := by
  obtain ⟨c, t, k, u, hu, harm, htickNo, hnext, hpending⟩ := execTick_running hrun htick place n stall
  refine ⟨u, hu, htickNo, hnext, ?_, ?_, ?_, ?_, hpending⟩ <;> rw [harm]
  · rfl
  · rfl
  · exact tickWork_abandoned c t k n
  · rintro rfl
    rfl

/-! LAUNCH -/

theorem exec_launch_due {s : State} (hinv : s.Inv) (hdue : s.chip.arm.launchDue = true) (hrun : s.chip.inRun = true) :
    exec .launch s = .next { s with chip := s.chip.launch } := by
  obtain ⟨-, hwq⟩ := hinv
  refine run_of_chip_eq (f := fun _ c => if c.arm.launchDue && c.inRun then c.launch else c) ?_ ?_
  · simp only [hdue, hrun, Bool.and_self, if_true]
  · have hpgm : s.chip.launch.pgm = s.chip.pgm := (launch_keeps rfl).parts .pgm (by decide)
    rw [hpgm]
    exact hwq

theorem exec_launch_notDue {s : State} (hinv : s.Inv) (h : s.chip.arm.launchDue = false ∨ s.chip.inRun = false) :
    exec .launch s = .next s := by
  obtain ⟨-, hwq⟩ := hinv
  refine run_of_chip_eq (f := fun _ c => if c.arm.launchDue && c.inRun then c.launch else c) ?_ hwq
  rcases h with h | h <;> simp [h]

/-- Settles O30: the tick's work always ends with the launch due; at the launch the lanes send one after the other, each changing its
own record alone, and the releases that follow leave the lanes, the events and DEV as they are. -/
theorem tickAndLaunch : Obligations.TickAndLaunch := by
  unfold Obligations.TickAndLaunch
  refine ⟨fun s place n stall hrun htick => tick_running place n stall hrun htick, fun s t hinv hdue hrun ht => ?_,
    fun s hinv h => exec_launch_notDue hinv h⟩
  have hkeeps := launch_keeps ht
  refine ⟨_, exec_launch_due hinv hdue hrun, hkeeps.parts .now (by decide), launch_launchDue ht, launch_flt ht,
    fun hok => ?_, fun hok => ?_, fun n hn h3 hused => ?_, fun n hoff => launch_lane_off ht hoff,
    fun n hn h3 hidle => launch_sent_idle ht h3 hn hidle, fun n => hkeeps.fields _ _ (by decide), rfl,
    hkeeps.parts .dev (by decide)⟩
  · exact (launch_missed ht).trans (if_pos hok)
  · exact (launch_missed ht).trans (if_neg (by simp [hok]))
  · obtain ⟨hat, hgroups, hlength, htype, hnext, hpres, hseq, hcount⟩ := launch_launched ht h3 hn hused
    exact ⟨hat, hgroups, hlength, htype, hnext, hpres, hseq, hcount⟩

end Sys2Proof.Scope
end

section
/-! SUPPORT. What the host packet port may change (R44 to R71): its own record, the events in flight, its flags and counters. -/

namespace Sys2Proof.Scope

open Sys2Proof.Machine Sys2Proof.Machine.Reg Sys2Proof.Laws

/-! Fields -/

theorem satN_mod_width {w : Nat} (n : Nat) : satN w n % 2 ^ w = satN w n :=
  Nat.mod_eq_of_lt (lt_of_le_of_lt (min_le_right _ _) (Nat.sub_lt (Nat.two_pow_pos w) Nat.one_pos))

theorem get_inc_self (c : Chip) (f : Fld) (n : Nat) : (c.inc f n).get f n = satN f.width (c.get f n + 1) :=
  (get_set_self _ _ _ _).trans (satN_mod_width _)

theorem get_inc_other (c : Chip) (f : Fld) (n : Nat) {g : Fld} {k : Nat} (h : ¬(g.id = f.id ∧ g.lo = f.lo ∧ k = n)) :
    (c.inc f n).get g k = c.get g k := get_set_other _ _ _ _ _ _ h

theorem get_flag_other (c : Chip) (f : Fld) (n : Nat) {g : Fld} {k : Nat} (h : ¬(g.id = f.id ∧ g.lo = f.lo ∧ k = n)) :
    (c.flag f n).get g k = c.get g k := get_set_other _ _ _ _ _ _ h

@[simp] theorem hostFault_hpp (c : Chip) (f : Fld) : (c.hostFault f).hpp = c.hpp := raise_hpp _ _ _ _

@[simp] theorem hostFault_get (c : Chip) (f g : Fld) (n : Nat) : (c.hostFault f).get g n = (c.flag f).get g n :=
  raise_get _ _ _ _ _ _

/-- A flag of one bit that the port sets reads 1. -/
theorem get_hostFault_self (c : Chip) {f : Fld} (h : f.hi = f.lo) : (c.hostFault f).get f 0 = 1 := by
  rw [hostFault_get]
  exact (get_set_self _ _ _ _).trans (by simp [Fld.width, h])

/-! A fault that is flagged and counted (R50, R51) -/

section

variable {f k : Fld}

@[simp] theorem faulted_hpp (c : Chip) : (faulted c f k).hpp = c.hpp := hostFault_hpp _ _

@[simp] theorem faulted_pgm (c : Chip) : (faulted c f k).pgm = c.pgm := raise_pgm _ _ _ _

theorem get_faulted_flag (c : Chip) (hbit : f.hi = f.lo) (hne : f.id ≠ k.id) : (faulted c f k).get f 0 = 1 := by
  rw [faulted, get_inc_other _ _ _ (fun e => hne e.1), get_hostFault_self _ hbit]

theorem get_faulted_other (c : Chip) {g : Fld} {n : Nat} (hf : g.id ≠ f.id) (hk : g.id ≠ k.id) :
    (faulted c f k).get g n = c.get g n := by
  rw [faulted, get_inc_other _ _ _ (fun e => hk e.1), hostFault_get, get_flag_other _ _ _ (fun e => hf e.1)]

theorem get_faulted_count (c : Chip) (hne : f.id ≠ k.id) : (faulted c f k).get k 0 = satN k.width (c.get k + 1) := by
  rw [faulted, get_inc_self, hostFault_get, get_flag_other _ _ _ (fun e => hne e.1.symm)]

end

/-! The frame -/

/-- b differs from a in nothing but the fields listed, the time, the note of flags set at this instant, the port's own record and the
events in flight. -/
structure PortMoves (l : List (Fld × Nat)) (a b : Chip) : Prop where
  rest : b = { a with now := b.now, regs := b.regs, fresh := b.fresh, hpp := b.hpp, flt := b.flt }
  fields : ∀ (f : Fld) (n : Nat), ¬ Listed l f n → b.get f n = a.get f n

variable {l : List (Fld × Nat)} {a b c : Chip}

theorem portMoves_refl : PortMoves l a a := ⟨rfl, fun _ _ _ => rfl⟩

theorem PortMoves.trans (h : PortMoves l a b) (g : PortMoves l b c) : PortMoves l a c :=
  ⟨g.rest.trans (by rw [h.rest]), fun f n hf => (g.fields f n hf).trans (h.fields f n hf)⟩

theorem PortMoves.mono {k : List (Fld × Nat)} (h : PortMoves l a b) (hk : ∀ e ∈ l, e ∈ k) : PortMoves k a b :=
  ⟨h.rest, fun f n hf => h.fields f n (fun ⟨e, he, g⟩ => hf ⟨e, hk e he, g⟩)⟩

theorem PortMoves.at_ (h : PortMoves l a b) (t : Nat) : PortMoves l a (b.at_ t) := h.trans ⟨rfl, fun _ _ _ => rfl⟩

theorem PortMoves.hpp (h : PortMoves l a b) (x : Hpp) : PortMoves l a { b with hpp := x } := h.trans ⟨rfl, fun _ _ _ => rfl⟩

theorem PortMoves.set {f : Fld} {n : Nat} (h : PortMoves l a b) (v : Nat) (hf : (f, n) ∈ l) : PortMoves l a (b.set f n v) :=
  h.trans ⟨rfl, fun _ _ hg => get_set_other _ _ _ _ _ _ (fun e => hg ⟨_, hf, e⟩)⟩

theorem PortMoves.inc {f : Fld} {n : Nat} (h : PortMoves l a b) (hf : (f, n) ∈ l) : PortMoves l a (b.inc f n) := h.set _ hf

theorem PortMoves.flag {f : Fld} {n : Nat} (h : PortMoves l a b) (hf : (f, n) ∈ l) : PortMoves l a (b.flag f n) :=
  (h.set 1 hf).trans ⟨rfl, fun _ _ _ => rfl⟩

theorem PortMoves.hostFault {f : Fld} (h : PortMoves l a b) (hf : (f, 0) ∈ l) : PortMoves l a (b.hostFault f) :=
  (h.flag hf).trans (by
    rw [Chip.hostFault, raise_eq]
    exact ⟨rfl, fun _ _ _ => rfl⟩)

theorem PortMoves.faulted {f k : Fld} (h : PortMoves l a b) (hf : (f, 0) ∈ l) (hk : (k, 0) ∈ l) :
    PortMoves l a (Machine.faulted b f k) := (h.hostFault hf).inc hk

/-- A flag outside the reset unit raises HOST_PORT alone (R470). -/
theorem PortMoves.faulted_raised {s : State} {t : Nat} {f k : Fld} (h : PortMoves l s.chip c) (hflt : c.flt = s.chip.flt)
    (hnow : c.now = s.at_ t) (hl : ∀ e ∈ l, e.1.id ≠ RST.DOM.REL.id) (hf : (f, 0) ∈ l) :
    (Machine.faulted c f k).flt = { s.chip.flt with raised := s.raised t 61 } := by
  have hfabric : (c.flag f).fabric = s.chip.fabric :=
    congrArg (·.testBit 0) ((h.flag hf).fields RST.DOM.REL 0 (fun ⟨e, he, hid, _⟩ => hl e he hid.symm))
  rw [Machine.faulted, inc_flt, Chip.hostFault, raise_eq, hfabric, State.raised, ← hnow, ← hflt]
  rfl

theorem PortMoves.pgm (h : PortMoves l a b) : b.pgm = a.pgm := by rw [h.rest]

/-- A command that lets the port alone work ends in the chip it computes, and is framed by it. -/
theorem exec_of_portMoves {i : Instr} {f : Memory → Chip → Chip} {s : State} (hexec : exec i s = run f s) (hs : s.Inv)
    (hf : f s.sram s.chip = c) (h : PortMoves l s.chip c) :
    exec i s = .next { s with chip := c } ∧ Only s { s with chip := c } l (fun a b => { a with hpp := b.hpp, flt := b.flt }) := by
  obtain ⟨-, hwq⟩ := hs
  exact ⟨hexec.trans (run_of_chip_eq hf (by rw [h.pgm, hwq])), rfl, rfl, h.rest, h.fields⟩

/-- Without an event nothing is raised. -/
theorem only_hpp_of_flt {s u : State} (h : Only s u l (fun a b => { a with hpp := b.hpp, flt := b.flt })) (hflt : u.chip.flt = s.chip.flt) :
    Only s u l (fun a b => { a with hpp := b.hpp }) :=
  ⟨h.sram, h.pending, h.rest.trans (by rw [hflt]), h.fields⟩

end Sys2Proof.Scope
end

section
/-! SUPPORT. A transaction at the host packet port (R42, R44, R47, R53, R58): the bytes that arrive, how the transaction ends, the fall of
HPSEL_N. -/

namespace Sys2Proof.Scope

open Sys2Proof.Machine Sys2Proof.Machine.Reg Sys2Proof.Laws

/-! The bytes that arrive -/

/-- The first m bytes sent, 0 beyond those that the host gave. -/
def received (data : List Nat) (m : Nat) : List Nat := (upTo m).map (fun i => data.getD i 0 % 256)

theorem received_length (data : List Nat) (m : Nat) : (received data m).length = m := by simp [received, upTo]

theorem received_take {data : List Nat} (hbyte : ∀ b ∈ data, b < 256) {n m : Nat} (hm : n ≤ m) (hn : n ≤ data.length) :
    (received data m).take n = data.take n := by
  apply List.ext_getElem
  · simp [received_length, hm, hn]
  · intro i hi _
    have hi : i < data.length := by simp at hi; omega
    simp [received, upTo, hi, Nat.mod_eq_of_lt (hbyte _ (List.getElem_mem hi))]

theorem received_all {data : List Nat} (hbyte : ∀ b ∈ data, b < 256) : received data data.length = data := by
  have h := received_take hbyte (le_refl data.length) (le_refl data.length)
  rwa [List.take_of_length_le (received_length _ _).le, List.take_length] at h

/-! The end of a transaction -/

/-- What a transaction leaves behind when it ends (R47, R58). -/
def closing (c : Chip) (x : Txn) : Chip :=
  if !x.rdy then c
  else if x.edges < hdrEdges c.hpp.quad then faulted c HPP.STAT.LENE HPP.CNTLEN.COUNT
  else if portServes (ofBytes (x.data.take 4)) then c
  else c.endWords x

theorem closeTxn_of_some {c : Chip} {x : Txn} (h : c.hpp.txn = some x) :
    c.closeTxn = (closing { c with hpp := { c.hpp with txn := none } } x).startDue.rewind := by
  rw [Chip.closeTxn, h]
  rfl

theorem closeTxn_of_none {c : Chip} (h : c.hpp.txn = none) : c.closeTxn = c := by rw [Chip.closeTxn, h]

/-- A transaction that has just arrived at a port without another. -/
theorem closeTxn_open {c : Chip} (htxn : c.hpp.txn = none) (x : Txn) :
    ({ c with hpp := { c.hpp with txn := some x } } : Chip).closeTxn = (closing c x).startDue.rewind := by
  have hc : ({ c with hpp := { c.hpp with txn := none } } : Chip) = c := by rw [← htxn]
  rw [closeTxn_of_some rfl, ← hc]

theorem startDue_of_not {c : Chip} (h : c.hpp.resetRead = false) : c.startDue = c := by simp [Chip.startDue, h]

/-- A transaction begun with RDY 0 ends with the rise alone. -/
theorem closeTxn_notReady {c : Chip} {x : Txn} (h : c.hpp.txn = some x) (hrdy : x.rdy = false) (hread : c.hpp.resetRead = false) :
    c.closeTxn = Chip.rewind { c with hpp := { c.hpp with txn := none } } := by
  rw [closeTxn_of_some h, closing, if_pos (by simp [hrdy]), startDue_of_not (c := { c with hpp := { c.hpp with txn := none } }) hread]

/-- A transaction of which nothing goes to the basins. -/
theorem arrive_unstored {c : Chip} {x : Txn}
    (h : x.rdy = false ∨ x.edges < hdrEdges c.hpp.quad ∨ portServes (ofBytes (x.data.take 4)) = true) :
    c.arrive x = { c with hpp := { c.hpp with txn := some { x with part := [], lost := false } } } := by
  have hno : (x.rdy && decide (hdrEdges c.hpp.quad ≤ x.edges) && !portServes (ofBytes (x.data.take 4))) = false := by
    rcases h with h | h | h <;> simp [h]
  rw [Chip.arrive, hno]
  rfl

section

variable {c : Chip} {x : Txn} (htxn : c.hpp.txn = none)
include htxn

/-- A transaction begun with RDY 0 ends without a trace. -/
theorem rise_notReady (h : x.rdy = false) : (c.arrive x).closeTxn = c.startDue.rewind := by
  rw [arrive_unstored (.inl h), closeTxn_open htxn, closing, if_pos (by simp [h])]

/-- One that ends before the last bit of its header is flagged and counted (R47). -/
theorem rise_short (hrdy : x.rdy = true) (h : x.edges < hdrEdges c.hpp.quad) :
    (c.arrive x).closeTxn = (faulted c HPP.STAT.LENE HPP.CNTLEN.COUNT).startDue.rewind := by
  rw [arrive_unstored (.inr (.inl h)), closeTxn_open htxn, closing, if_neg (by simp [hrdy]), if_pos h]

/-- One that the port serves enters no basin (R46). -/
theorem rise_served (hrdy : x.rdy = true) (hlen : hdrEdges c.hpp.quad ≤ x.edges) (h : portServes (ofBytes (x.data.take 4)) = true) :
    (c.arrive x).closeTxn = c.startDue.rewind := by
  rw [arrive_unstored (.inr (.inr h)), closeTxn_open htxn, closing, if_neg (by simp [hrdy]), if_neg (Nat.not_lt.2 hlen), if_pos h]

end

/-- The writer that needs no rewinding needs none wherever it stands at the same place with the same words. -/
theorem rewind_of_alike {a b : Chip} (ha : a.rewind = a) (hunread : b.hpp.unread = a.hpp.unread) (htxn : b.hpp.txn = a.hpp.txn)
    (hbank : b.hpp.bank = a.hpp.bank) (hoff : b.hpp.off = a.hpp.off) : b.rewind = b := by
  unfold Chip.rewind at ha ⊢
  rw [hunread, htxn]
  split at ha
  case isFalse h => exact if_neg h
  case isTrue h =>
    have hb : b.hpp.bank = 0 := hbank.trans (congrArg (·.hpp.bank) ha).symm
    have ho : b.hpp.off = 0 := hoff.trans (congrArg (·.hpp.off) ha).symm
    calc _ = ({ b with hpp := { b.hpp with bank := b.hpp.bank, off := b.hpp.off } } : Chip) := by rw [if_pos h, hb, ho]
      _ = b := rfl

/-! The fall of HPSEL_N -/

/-- The immediate status word is shown and nothing has been clocked out yet. -/
def iswShown (c : Chip) : Chip := { c with hpp := { c.hpp with isw := toWord c.isw, out := [] } }

/-- With no transaction open and no lane mode to come, the fall shows the ISW, and a ready port counts the transaction. -/
theorem fall_idle {c : Chip} (htxn : c.hpp.txn = none) (hquad : c.hpp.quadNext = none) :
    c.fall = if c.hpp.rdy then (iswShown c).inc HPP.CNTTXN.COUNT else iswShown c := by
  have hc : c.closeTxn.takeQuad = c := by rw [closeTxn_of_none htxn, Chip.takeQuad, hquad]
  rw [Chip.fall, hc]
  rfl

/-! A whole transaction -/

theorem hdrEdges_le_crcEdges (quad : Bool) : hdrEdges quad ≤ crcEdges quad := Nat.le_add_right _ _

/-- What the port answers of itself to bytes b of a transaction (R46). -/
def portAnswers (c : Chip) (edges : Nat) (b : List Nat) : Chip :=
  if crcEdges c.hpp.quad ≤ edges ∧ portServes (ofBytes (b.take 4)) = true then
    c.serve c.hpp.rdy (ofBytes (b.take 4)) (ofBytes ((b.drop 4).take 4)) edges
  else c

/-- With HPP released: the fall, the port's own answer, the arrival of the bytes, and the end unless HPSEL_N stays low. -/
theorem transact_eq {c : Chip} (hrel : c.released 7 = true) (edges : Nat) (data : List Nat) (hold : Bool) :
    c.transact edges data hold =
      (let b := received data (bytesOfEdges c.fall.hpp.quad edges)
       let d := portAnswers c.fall edges b
       let e := d.arrive ⟨edges, b, c.fall.hpp.rdy, d.now, [], false⟩
       if hold then e.readEarly else e.closeTxn) := by
  unfold Chip.transact portAnswers
  simp only [hrel, if_true, Bool.and_eq_true, decide_eq_true_eq]
  rfl

/-- A transaction of which the port serves no packet. -/
theorem transact_unserved {c : Chip} (hrel : c.released 7 = true) {edges : Nat} {data : List Nat}
    (h : edges < crcEdges c.fall.hpp.quad ∨
      portServes (ofBytes ((received data (bytesOfEdges c.fall.hpp.quad edges)).take 4)) = false) :
    c.transact edges data false = (c.fall.arrive
      ⟨edges, received data (bytesOfEdges c.fall.hpp.quad edges), c.fall.hpp.rdy, c.fall.now, [], false⟩).closeTxn := by
  have hno : portAnswers c.fall edges (received data (bytesOfEdges c.fall.hpp.quad edges)) = c.fall :=
    if_neg (by rcases h with h | h <;> simp [h])
  rw [transact_eq hrel]
  dsimp only
  rw [hno, if_neg Bool.false_ne_true]

/-! At an idle port -/

/-- The chip when HPSEL_N has fallen at an idle, ready port. -/
def begun (s : State) (t : Nat) : Chip := (iswShown (s.chip.at_ t)).inc HPP.CNTTXN.COUNT

section

variable {s : State} {t : Nat}

theorem begun_hpp : (begun s t).hpp = { s.chip.hpp with isw := toWord s.chip.isw, out := [] } := rfl

theorem begun_quad : (begun s t).hpp.quad = s.chip.hpp.quad := rfl

theorem begun_flt : (begun s t).flt = s.chip.flt := rfl

theorem begun_now : (begun s t).now = s.at_ t := rfl

theorem begun_moves {l : List (Fld × Nat)} (hl : (HPP.CNTTXN.COUNT, 0) ∈ l) : PortMoves l s.chip (begun s t) :=
  ((portMoves_refl.at_ t).hpp _).inc hl

theorem begun_counts : PortMoves [(HPP.CNTTXN.COUNT, 0)] s.chip (begun s t) := begun_moves (by simp)

theorem begun_cnttxn : (begun s t).get HPP.CNTTXN.COUNT = satN 32 (s.chip.get HPP.CNTTXN.COUNT + 1) := get_inc_self _ _ _

/-- A count beside CNTTXN, after a fault flagged in this transaction. -/
theorem begun_faulted_count {f k : Fld} (hk : k.width = 32) (hne : f.id ≠ k.id) (htxn : k.id ≠ HPP.CNTTXN.COUNT.id) :
    (faulted (begun s t) f k).get k = satN 32 (s.chip.get k + 1) := by
  rw [get_faulted_count _ hne, hk, begun, get_inc_other _ _ _ (fun e => htxn e.1)]
  rfl

variable (hs : s.PortIdle)
include hs

theorem inv_of_portIdle : s.Inv := by
  obtain ⟨hinv, -⟩ := hs
  exact hinv

theorem begun_txn : (begun s t).hpp.txn = none := by
  obtain ⟨-, -, -, htxn, -⟩ := hs
  exact htxn

theorem begun_rdy : (begun s t).hpp.rdy = true := by
  obtain ⟨-, -, hrdy, -⟩ := hs
  exact hrdy

theorem fall_of_portIdle : (s.chip.at_ t).fall = begun s t := by
  obtain ⟨-, -, hrdy, htxn, hquad, -, -⟩ := hs
  rw [fall_idle (c := s.chip.at_ t) htxn hquad]
  exact if_pos hrdy

/-- A transaction that leaves the writer where it was ends with no more to do. -/
theorem rise_of_portIdle {c : Chip} {w : Word} {o : List Word} {q : List Reply} {last : Option Reply}
    (h : c.hpp = { s.chip.hpp with isw := w, out := o, replies := q, last := last }) : c.startDue.rewind = c := by
  obtain ⟨-, -, -, -, -, hread, hrewind⟩ := hs
  rw [startDue_of_not (by rw [h]; exact hread)]
  apply rewind_of_alike hrewind <;> rw [h]

end

end Sys2Proof.Scope
end

section
/-! CLAIM. A transaction that ends before the last bit of its header (R47). -/

namespace Sys2Proof.Scope

open Sys2Proof.Machine Sys2Proof.Machine.Reg Sys2Proof.Laws

/-- The chip after a transaction of too few edges at an idle port. -/
theorem transact_short {s : State} (hs : s.PortIdle) {edges : Nat} (h : edges < hdrEdges s.chip.hpp.quad) (t : Nat) (data : List Nat) :
    (s.chip.at_ t).transact edges data false = faulted (begun s t) HPP.STAT.LENE HPP.CNTLEN.COUNT := by
  have hfall := fall_of_portIdle hs (t := t)
  obtain ⟨-, hrel, -⟩ := id hs
  rw [transact_unserved (c := s.chip.at_ t) hrel (.inl (by rw [hfall]; exact h.trans_le (hdrEdges_le_crcEdges _))), hfall,
    rise_short (begun_txn hs) (begun_rdy hs) h]
  exact rise_of_portIdle hs (faulted_hpp _)

/-- Settles O4: of a transaction cut short in its header, begun at an idle port, only the flag and the two counts remain. -/
theorem truncatedHeaderDiscarded : Obligations.TruncatedHeaderDiscarded := by
  unfold Obligations.TruncatedHeaderDiscarded
  intro s t edges data hs hshort
  have hmoves : PortMoves [(HPP.STAT.LENE, 0), (HPP.CNTLEN.COUNT, 0), (HPP.CNTTXN.COUNT, 0)] s.chip (begun s t) :=
    begun_moves (by simp)
  obtain ⟨hexec, honly⟩ := exec_of_portMoves (exec_transaction t edges data false s) (inv_of_portIdle hs) (transact_short hs hshort t _)
    (hmoves.faulted (by simp) (by simp))
  refine ⟨_, hexec, faulted_hpp _, ?_, ?_, ?_, hmoves.faulted_raised begun_flt begun_now (by decide) (by simp), honly⟩
  · exact get_faulted_flag _ rfl (by decide)
  · exact begun_faulted_count rfl (by decide) (by decide)
  · exact (get_faulted_other _ (by decide) (by decide)).trans begun_cnttxn

end Sys2Proof.Scope
end

section
/-! SUPPORT. The writer of the basins (R58, R61, R64): the words that whole bytes are stored in, and that those words give the bytes
back. -/

namespace Sys2Proof.Scope

open Sys2Proof.Machine Sys2Proof.Machine.Reg Sys2Proof.Laws

/-! Words and bytes -/

/-- The word of bank k in which the bytes g are stored (R58). -/
def closedWord (k : Nat) (g : List Nat) (eot : Bool) : BasinWord := ⟨k, packWord g, g.length, eot, false⟩

theorem closedWord_bytes (k : Nat) {g : List Nat} (hbyte : ∀ b ∈ g, b < 256) (eot : Bool) : (closedWord k g eot).bytes = g := by
  have hpack : (List.range g.length).map (fun i => packWord g / 256 ^ i % 256) = g := by
    induction g with
    | nil => rfl
    | cons b g ih =>
      obtain ⟨hb, hg⟩ := List.forall_mem_cons.1 hbyte
      have hword : packWord (b :: g) = b + 256 * packWord g := by
        rw [packWord, List.foldr_cons, Nat.mod_eq_of_lt hb]
        rfl
      have hshift (i : Nat) : packWord (b :: g) / 256 ^ (i + 1) = packWord g / 256 ^ i := by
        rw [pow_succ', ← Nat.div_div_eq_div_mul, hword]
        congr 1
        omega
      rw [List.length_cons, List.range_succ_eq_map, List.map_cons, List.map_map, hword]
      refine congrArg₂ _ (by omega) ?_
      simpa only [Function.comp_def, ← hword, Nat.succ_eq_add_one, hshift] using ih hg
  exact hpack

/-- Bytes grouped by eight are the same bytes, in the same order. -/
theorem groups8_flatten {n : Nat} {l : List Nat} (h : l.length ≤ 8 * n) : (groups8 n l).flatten = l := by
  induction n generalizing l with
  | zero =>
    obtain rfl := List.length_eq_zero_iff.1 (Nat.le_zero.1 h)
    rfl
  | succ n ih =>
    cases l with
    | nil => rfl
    | cons b l =>
      rw [groups8, List.flatten_cons, ih (by simp at h ⊢; omega), List.take_append_drop]
      simp

/-- They fill no more words than their number asks for. -/
theorem groups8_length_le (n : Nat) {l : List Nat} {k : Nat} (h : l.length ≤ 8 * k) : (groups8 n l).length ≤ k := by
  induction n generalizing l k with
  | zero => cases l <;> simp [groups8]
  | succ n ih =>
    cases l with
    | nil => simp [groups8]
    | cons b l =>
      obtain ⟨k, rfl⟩ : ∃ j, k = j + 1 := ⟨k - 1, by simp at h; omega⟩
      rw [groups8, List.length_cons]
      · exact Nat.succ_le_succ (ih (by simp at h ⊢; omega))
      · simp

/-! A packet in the basins -/

theorem tagLast_concat (f : BasinWord → BasinWord) (l : List BasinWord) (w : BasinWord) : tagLast f (l ++ [w]) = l ++ [f w] := by
  induction l with
  | nil => rfl
  | cons x l ih =>
    cases l with
    | nil => rfl
    | cons y l => exact congrArg (x :: ·) ih

/-- Words of which the last alone is tagged EOT are one packet with nothing behind it. -/
theorem splitEot_concat {l : List BasinWord} {w : BasinWord} (hl : ∀ x ∈ l, x.eot = false) (hw : w.eot = true) :
    splitEot (l ++ [w]) = some (l ++ [w], []) := by
  induction l with
  | nil => simp [splitEot, hw]
  | cons x l ih =>
    obtain ⟨hx, hl⟩ := List.forall_mem_cons.1 hl
    simp [splitEot, hx, ih hl]

/-! Storing -/

/-- d is c with words ws closed behind those that it held, in a bank with space for them (R58); LVL may be set (R64). -/
structure Stores (ws : List BasinWord) (c d : Chip) : Prop where
  unread : d.hpp.unread = c.hpp.unread ++ ws
  off : d.hpp.off = c.hpp.off + ws.length
  hpp : d.hpp = { c.hpp with unread := d.hpp.unread, off := d.hpp.off, event := d.hpp.event }
  flt : d.flt = c.flt
  moves : PortMoves [(HPP.STAT.LVL, 0)] c d

theorem stores_nil (c : Chip) : Stores [] c c := ⟨by simp, rfl, rfl, rfl, portMoves_refl⟩

theorem Stores.trans {ws vs : List BasinWord} {c d e : Chip} (h : Stores ws c d) (g : Stores vs d e) : Stores (ws ++ vs) c e where
  unread := by rw [g.unread, h.unread, List.append_assoc]
  off := by rw [g.off, h.off, List.length_append, Nat.add_assoc]
  hpp := g.hpp.trans (by rw [h.hpp])
  flt := g.flt.trans h.flt
  moves := h.moves.trans g.moves

theorem Stores.bank {ws : List BasinWord} {c d : Chip} (h : Stores ws c d) : d.hpp.bank = c.hpp.bank := by rw [h.hpp]

theorem putWord_stores (c : Chip) (g : List Nat) (eot : Bool) : Stores [closedWord c.hpp.bank g eot] c (c.putWord g eot) := by
  unfold Chip.putWord
  dsimp only
  split
  · exact ⟨rfl, rfl, rfl, rfl, PortMoves.flag ((portMoves_refl.hpp _).hpp _) (by simp)⟩
  · exact ⟨rfl, rfl, rfl, rfl, portMoves_refl.hpp _⟩

theorem enterWord_of_space {c : Chip} (h : c.hpp.off < bankWords) : c.enterWord = some c := if_pos h

/-- Groups of bytes for which the writer's bank has space are stored there, one word each. -/
theorem storeBytes_stores (c : Chip) (first : Bool) (gs : List (List Nat)) (h : c.hpp.off + gs.length ≤ bankWords) :
    ∃ d, c.storeBytes first gs = (d, false) ∧ Stores (gs.map (fun g => closedWord c.hpp.bank g false)) c d := by
  induction gs generalizing c first with
  | nil => exact ⟨c, rfl, stores_nil c⟩
  | cons g gs ih =>
    rw [List.length_cons] at h
    have hput := putWord_stores c g false
    have hclose : c.closeWord g false = some (c.putWord g false) := by
      rw [Chip.closeWord, enterWord_of_space (by omega), Option.map_some]
    obtain ⟨d, hd, hstores⟩ := ih (c.putWord g false) false (by rw [hput.off, List.length_singleton]; omega)
    rw [hput.bank] at hstores
    exact ⟨d, by rw [Chip.storeBytes, hclose]; exact hd, hput.trans hstores⟩

/-- The last word stored takes its tag where it stands. -/
theorem Stores.tagWord {ws : List BasinWord} {w : BasinWord} {c d : Chip} (h : Stores (ws ++ [w]) c d) (f : BasinWord → BasinWord) :
    Stores (ws ++ [f w]) c (d.tagWord f) := by
  have hunread : d.hpp.unread = (c.hpp.unread ++ ws) ++ [w] := by rw [h.unread, List.append_assoc]
  have htag : d.tagWord f = { d with hpp := { d.hpp with unread := c.hpp.unread ++ (ws ++ [f w]) } } := by
    rw [Chip.tagWord, if_neg (by simp [hunread]), hunread, tagLast_concat, List.append_assoc]
  rw [htag]
  exact ⟨rfl, by simpa using h.off, by rw [h.hpp], h.flt, h.moves.hpp _⟩

/-! A packet -/

/-- The words of bank k that hold one packet: groups gs of its bytes, and its last ones g. -/
def packetIn (k : Nat) (gs : List (List Nat)) (g : List Nat) : List BasinWord :=
  gs.map (fun b => closedWord k b false) ++ [closedWord k g true]

theorem splitEot_packetIn (k : Nat) (gs : List (List Nat)) (g : List Nat) :
    splitEot (packetIn k gs g) = some (packetIn k gs g, []) := splitEot_concat (by simp [closedWord]) rfl

theorem packetOf_packetIn_lost (k : Nat) (gs : List (List Nat)) (g : List Nat) : (packetOf (packetIn k gs g)).lost = false := by
  simp [packetOf, packetIn, closedWord]

theorem packetOf_packetIn_bytes (k : Nat) {gs : List (List Nat)} {g : List Nat} (hbyte : ∀ b ∈ gs.flatten ++ g, b < 256) :
    (packetOf (packetIn k gs g)).bytes = gs.flatten ++ g := by
  have hgs : gs.flatMap (fun b => (closedWord k b false).bytes) = gs.flatMap id :=
    List.flatMap_congr (fun b hb => closedWord_bytes k
      (fun y hy => hbyte y (List.mem_append_left _ (List.mem_flatten.2 ⟨b, hb, hy⟩))) false)
  have hg : (closedWord k g true).bytes = g := closedWord_bytes k (fun y hy => hbyte y (List.mem_append_right _ hy)) true
  simp only [packetOf, packetIn, List.flatMap_append, List.flatMap_map, List.flatMap_singleton, hgs, hg, List.flatMap_id]

/-- The end of a transaction tags its last whole word, or closes the bytes beyond it as one word tagged EOT (R58). -/
theorem endWords_stores {c d : Chip} {x : Txn} {gs : List (List Nat)}
    (h : Stores (gs.map (fun g => closedWord c.hpp.bank g false)) c d) (hlost : x.lost = false) (hne : x.part = [] → gs ≠ []) :
    ∃ (gs' : List (List Nat)) (g : List Nat), gs'.flatten ++ g = gs.flatten ++ x.part ∧
      Stores (packetIn c.hpp.bank gs' g) c (d.endWords x) := by
  unfold Chip.endWords
  rw [hlost]
  by_cases hpart : x.part = []
  · obtain ⟨gs', g, rfl⟩ := List.eq_nil_or_concat gs |>.resolve_left (hne hpart)
    rw [List.concat_eq_append, List.map_append] at h
    rw [if_neg Bool.false_ne_true, if_pos (by simp [hpart])]
    exact ⟨gs', g, by simp [hpart], h.tagWord (fun w => { w with eot := true })⟩
  · have hput := h.trans (putWord_stores d x.part true)
    rw [h.bank] at hput
    rw [if_neg Bool.false_ne_true, if_neg (by simp [hpart])]
    exact ⟨gs, x.part, rfl, hput⟩

/-! Arrival -/

section

variable {c : Chip} {x : Txn} (hrdy : x.rdy = true) (hlen : hdrEdges c.hpp.quad ≤ x.edges)
  (hport : portServes (ofBytes (x.data.take 4)) = false) (hoff : c.hpp.off = 0) (hspace : x.data.length ≤ 8 * bankWords)
include hrdy hlen hport hoff hspace

/-- Whole words of a transaction, n bytes, are stored as they arrive, up to 256 of them in an empty bank; its other bytes wait in the
writer. -/
theorem arrive_stored {n : Nat} (hn : n = 8 * (x.data.length / 8)) :
    ∃ (d : Chip) (gs : List (List Nat)), Stores (gs.map (fun g => closedWord c.hpp.bank g false)) c d ∧
      gs.flatten = x.data.take n ∧
      c.arrive x = { d with hpp := { d.hpp with txn := some { x with part := x.data.drop n, lost := false } } } := by
  have hwords := groups8_length_le n (l := x.data.take n) (k := x.data.length / 8) (by simp; omega)
  obtain ⟨d, hstore, hd⟩ := storeBytes_stores c true (groups8 n (x.data.take n)) (by omega)
  refine ⟨d, _, hd, groups8_flatten (by simp; omega), ?_⟩
  unfold Chip.arrive
  rw [if_pos (by simp [hrdy, hlen, hport])]
  dsimp only
  rw [← hn, hstore]
  by_cases hpart : x.data.drop n = []
  · simp [hpart]
  · have hfull := hd.off
    rw [List.length_map] at hfull
    have henter : d.enterWord = some d := enterWord_of_space (by rw [List.drop_eq_nil_iff] at hpart; omega)
    simp [hpart, henter]

/-- A whole transaction that an empty bank has space for leaves its bytes in the basins as one packet. -/
theorem rise_stored (htxn : c.hpp.txn = none) (hne : x.data ≠ []) :
    ∃ (d : Chip) (gs : List (List Nat)) (g : List Nat), (c.arrive x).closeTxn = d.startDue.rewind ∧
      Stores (packetIn c.hpp.bank gs g) c d ∧ gs.flatten ++ g = x.data := by
  obtain ⟨n, hn⟩ : ∃ n, n = 8 * (x.data.length / 8) := ⟨_, rfl⟩
  obtain ⟨d, gs, hd, hflat, harrive⟩ := arrive_stored hrdy hlen hport hoff hspace hn
  have hdtxn : d.hpp.txn = none := by rw [hd.hpp]; exact htxn
  have hdquad : d.hpp.quad = c.hpp.quad := by rw [hd.hpp]
  have hsome : x.data.drop n = [] → gs ≠ [] := by
    rintro hpart rfl
    exact hne (by rw [← List.take_append_drop n x.data, ← hflat, hpart]; rfl)
  obtain ⟨gs', g, hbytes, hend⟩ := endWords_stores (x := { x with part := x.data.drop n, lost := false }) hd rfl hsome
  refine ⟨_, gs', g, ?_, hend, ?_⟩
  · rw [harrive, closeTxn_open hdtxn, closing, if_neg (by simp [hrdy]), if_neg (by rw [hdquad]; exact Nat.not_lt.2 hlen),
      if_neg (by simp [hport])]
  · rw [hbytes, hflat, List.take_append_drop]

end

end Sys2Proof.Scope
end

section
/-! CLAIM. A whole transaction at an idle port with empty basins (R44, R46, R58, R61). -/

namespace Sys2Proof.Scope

open Sys2Proof.Machine Sys2Proof.Machine.Reg Sys2Proof.Laws

/-- A transaction of at least four whole bytes has the edges of its header (R44). -/
theorem hdrEdges_le_of_bytes {quad : Bool} {edges : Nat} (h : 4 ≤ bytesOfEdges quad edges) : hdrEdges quad ≤ edges := by
  cases quad <;> simp [bytesOfEdges, hdrEdges] at h ⊢ <;> omega

/-- A writer that has rewound in empty basins stands at the start of Basin A (R59). -/
theorem writer_at_start {c : Chip} (h : c.rewind = c) (hunread : c.hpp.unread = []) (htxn : c.hpp.txn = none) : c.hpp.off = 0 := by
  rw [← h, Chip.rewind, if_pos (by simp [hunread, htxn])]

/-- The words that stay unread keep the writer where it is. -/
theorem rewind_of_unread {c : Chip} (h : c.hpp.unread ≠ []) : c.rewind = c := if_neg (by simp [h])

/-- At an idle port with nothing in its basins the bytes of a whole transaction that the port does not serve are stored as one packet. -/
theorem transact_stores {s : State} (hs : s.PortIdle) (hunread : s.chip.hpp.unread = []) {data : List Nat}
    (hbyte : ∀ b ∈ data, b < 256) {edges : Nat} (hedges : bytesOfEdges s.chip.hpp.quad edges = data.length)
    (hmin : 4 ≤ data.length) (hmax : data.length ≤ 8 * bankWords) (hport : portServes (ofBytes (data.take 4)) = false) (t : Nat) :
    ∃ d gs g, (s.chip.at_ t).transact edges data false = d ∧ Stores (packetIn s.chip.hpp.bank gs g) (begun s t) d ∧
      gs.flatten ++ g = data := by
  have hfall := fall_of_portIdle hs (t := t)
  obtain ⟨-, hrel, -, htxn, -, hread, hrewind⟩ := id hs
  have hdata : received data (bytesOfEdges (begun s t).hpp.quad edges) = data := by
    rw [begun_quad, hedges, received_all hbyte]
  have hheader : hdrEdges (begun s t).hpp.quad ≤ edges := hdrEdges_le_of_bytes (by rw [begun_quad, hedges]; exact hmin)
  have hstart : (begun s t).hpp.off = 0 := writer_at_start (c := s.chip) hrewind hunread htxn
  obtain ⟨d, gs, g, hrise, hd, hbytes⟩ := rise_stored (c := begun s t) (x := ⟨edges, data, true, s.at_ t, [], false⟩) rfl hheader
    hport hstart hmax (begun_txn hs) (List.ne_nil_of_length_pos (show 0 < data.length by omega))
  refine ⟨d, gs, g, ?_, hd, hbytes⟩
  rw [transact_unserved (c := s.chip.at_ t) hrel (.inr (by rw [hfall, hdata]; exact hport)), hfall, hdata, begun_rdy hs]
  refine hrise.trans ?_
  rw [startDue_of_not (by rw [hd.hpp]; exact hread), rewind_of_unread (by rw [hd.unread]; simp [packetIn])]

/-- Settles O5: the words that the writer closes hold the transaction's bytes in order, and only the last of them is tagged EOT. -/
theorem transactionStoresPacket : Obligations.TransactionStoresPacket := by
  unfold Obligations.TransactionStoresPacket
  intro s t edges data hs hunread htaken hedges hmin hmax hport
  have hbyte : ∀ b ∈ data.map (·.toNat), b < 256 := by
    intro b hb
    obtain ⟨y, -, rfl⟩ := List.mem_map.1 hb
    exact y.isLt
  obtain ⟨d, gs, g, htransact, hd, hbytes⟩ := transact_stores hs hunread hbyte (by rwa [List.length_map])
    (by rwa [List.length_map]) (by rw [List.length_map]; exact hmax.trans (by decide)) hport t
  have hmoves : PortMoves [(HPP.CNTTXN.COUNT, 0), (HPP.STAT.LVL, 0)] s.chip d :=
    (begun_moves (by simp)).trans (hd.moves.mono (by simp))
  obtain ⟨hexec, honly⟩ := exec_of_portMoves (exec_transaction _ _ _ _ _) (inv_of_portIdle hs) htransact hmoves
  have hfront : d.front = some (packetOf (packetIn s.chip.hpp.bank gs g), []) := by
    have hwords : d.hpp.taken ++ d.hpp.unread = packetIn s.chip.hpp.bank gs g := by
      rw [hd.unread, hd.hpp, begun_hpp]
      simp [htaken, hunread]
    rw [Chip.front, hwords, splitEot_packetIn, Option.map_some]
  refine ⟨_, packetOf (packetIn s.chip.hpp.bank gs g), hexec, hfront, ?_, packetOf_packetIn_lost _ _ _, ?_, ?_, ?_,
    only_hpp_of_flt honly hd.flt⟩
  · rw [packetOf_packetIn_bytes _ (by rwa [hbytes]), hbytes]
  · exact (congrArg Hpp.replies hd.hpp :)
  · exact (congrArg Hpp.txn hd.hpp).trans (begun_txn hs)
  · exact (hd.moves.fields _ _ (by unfold Listed; decide)).trans begun_cnttxn

end Sys2Proof.Scope
end

section
/-! SUPPORT. Packets that the port serves itself (R46, R57, R66 to R69): header and CRC word, and what the host clocks out. -/

namespace Sys2Proof.Scope

open Sys2Proof.Machine Sys2Proof.Machine.Reg Sys2Proof.Laws

/-! Header and CRC word -/

theorem ofBytes_wordBytes {w : Nat} (h : w < 2 ^ 32) : ofBytes (wordBytes w) = w := by
  simp only [ofBytes, wordBytes, List.foldl_cons, List.foldl_nil]
  omega

theorem wordBytes_lt {w b : Nat} (h : b ∈ wordBytes w) : b < 256 := by
  simp only [wordBytes, List.mem_cons, List.not_mem_nil, or_false] at h
  omega

theorem wordBytes_length (w : Nat) : (wordBytes w).length = 4 := rfl

section

variable {opc tag flg : Nat}

theorem mkHeader_lt (ho : opc < 256) (ht : tag < 256) (hf : flg < 64) : mkHeader opc tag 0 flg < 2 ^ 32 := by
  unfold mkHeader
  omega

theorem hdrOpc_mkHeader (ho : opc < 256) (ht : tag < 256) (hf : flg < 64) : hdrOpc (mkHeader opc tag 0 flg) = opc := by
  unfold hdrOpc bitsOf mkHeader
  omega

theorem hdrLen_mkHeader (hf : flg < 64) : hdrLen (mkHeader opc tag 0 flg) = 0 := by
  unfold hdrLen bitsOf mkHeader
  omega

theorem hdrFlg_mkHeader (hf : flg < 64) : hdrFlg (mkHeader opc tag 0 flg) = flg := by
  unfold hdrFlg bitsOf mkHeader
  omega

end

/-- With the edges of the CRC word the bytes of header and CRC word have arrived (R44). -/
theorem bytesOfEdges_crc {quad : Bool} {edges : Nat} (h : crcEdges quad ≤ edges) : 8 ≤ bytesOfEdges quad edges := by
  cases quad <;> simp [bytesOfEdges, crcEdges, hdrEdges, wordEdges] at h ⊢ <;> omega

section

variable {h w m : Nat} (hh : h < 2 ^ 32) (hw : w < 2 ^ 32)
include hh

/-- The header of a packet of two words. -/
theorem received_header (hm : 4 ≤ m) : ofBytes ((received (wordBytes h ++ wordBytes w) m).take 4) = h := by
  rw [received_take (fun b hb => (List.mem_append.1 hb).elim wordBytes_lt wordBytes_lt) hm (by simp [wordBytes_length]),
    List.take_left' (wordBytes_length h), ofBytes_wordBytes hh]

include hw
omit hh

/-- Its final word. -/
theorem received_final (hm : 8 ≤ m) : ofBytes (((received (wordBytes h ++ wordBytes w) m).drop 4).take 4) = w := by
  rw [List.take_drop, received_take (fun b hb => (List.mem_append.1 hb).elim wordBytes_lt wordBytes_lt) hm
    (by simp [wordBytes_length]), List.take_of_length_le (by simp [wordBytes_length]), List.drop_left' (wordBytes_length h),
    ofBytes_wordBytes hw]

end

/-! Serving, opcode by opcode, at a ready port -/

section

variable {c : Chip} {h w edges : Nat}

theorem serve_nop (ho : hdrOpc h = 0x00) (rdy : Bool) :
    c.serve rdy h w edges = if rdy && !(w == finalWord [h]) then c.portCrc else c := by
  unfold Chip.serve
  simp only [ho]
  rfl

theorem serve_peek (ho : hdrOpc h = 0x01) (hw : w = finalWord [h]) :
    c.serve true h w edges = c.drove edges (peekWords (c.mirror (hdrFlg h)) stOK (hdrFlg h)) := by
  unfold Chip.serve
  simp [ho, hw]

theorem serve_fetch (ho : hdrOpc h = 0x08) (hw : w = finalWord [h]) :
    c.serve true h w edges = c.serveFetch ((hdrFlg h).testBit 0) edges := by
  unfold Chip.serve
  simp [ho, hw]

theorem serve_fetch_badCrc (ho : hdrOpc h = 0x08) (hw : w ≠ finalWord [h]) :
    c.serve true h w edges = c.portCrc.drove edges (markerPacket 0xFFFF0001) := by
  unfold Chip.serve
  simp [ho, hw]

theorem serveFetch_again {r : Reply} (hr : c.hpp.last = some r) : c.serveFetch true edges = c.drove edges r.packet := by
  rw [Chip.serveFetch, if_pos rfl, hr]
  rfl

theorem serveFetch_head {r : Reply} {l : List Reply} (hr : c.hpp.replies = r :: l) :
    c.serveFetch false edges = if fetchEdges c.hpp.quad r.words.length ≤ edges then (c.drove edges r.packet).removeReply r
      else c.drove edges r.packet := by
  rw [Chip.serveFetch, if_neg Bool.false_ne_true, hr]
  simp only [List.head?_cons, Bool.not_false, Bool.true_and, decide_eq_true_eq]
  rfl

theorem serveFetch_none {again : Bool} (hr : again = false ∧ c.hpp.replies = [] ∨ again = true ∧ c.hpp.last = none) :
    c.serveFetch again edges = c.drove edges (markerPacket 0xFFFF0000) := by
  rcases hr with ⟨rfl, hr⟩ | ⟨rfl, hr⟩ <;> simp [Chip.serveFetch, hr]

end

/-! Every answer of the port -/

/-- The ways in which the port answers: nothing, a result, a CRC fault with or without a marker, a reply that leaves the queue. -/
inductive PortAnswer (c : Chip) (edges : Nat) : Chip → Prop where
  | nothing : PortAnswer c edges c
  | fault : PortAnswer c edges c.portCrc
  | result (l : List Nat) : PortAnswer c edges (c.drove edges l)
  | marker (l : List Nat) : PortAnswer c edges (c.portCrc.drove edges l)
  | reply (r : Reply) (l : List Reply) (h : c.hpp.replies = r :: l) : PortAnswer c edges ((c.drove edges r.packet).removeReply r)

theorem serveFetch_answer (c : Chip) (again : Bool) (edges : Nat) : PortAnswer c edges (c.serveFetch again edges) := by
  cases again with
  | true =>
    cases h : c.hpp.last with
    | none => rw [serveFetch_none (.inr ⟨rfl, h⟩)]; exact .result _
    | some r => rw [serveFetch_again h]; exact .result _
  | false =>
    cases h : c.hpp.replies with
    | nil => rw [serveFetch_none (.inl ⟨rfl, h⟩)]; exact .result _
    | cons r l =>
      rw [serveFetch_head h]
      split
      · exact .reply r l h
      · exact .result _

theorem serve_answer (c : Chip) (rdy : Bool) (h w edges : Nat) : PortAnswer c edges (c.serve rdy h w edges) := by
  unfold Chip.serve
  dsimp only
  split
  · split
    · exact .result _
    · split
      · exact .result _
      · exact .marker _
  · split
    · split
      · exact .result _
      · split
        · exact serveFetch_answer c _ edges
        · exact .marker _
    · split
      · exact .fault
      · exact .nothing

/-- An answer leaves the transaction open, and the lane mode in force. -/
theorem PortAnswer.txn_quad {c d : Chip} {edges : Nat} (h : PortAnswer c edges d) : d.hpp.txn = c.hpp.txn ∧ d.hpp.quad = c.hpp.quad := by
  have htxn : c.portCrc.hpp.txn = c.hpp.txn := congrArg Hpp.txn (faulted_hpp c)
  have hquad : c.portCrc.hpp.quad = c.hpp.quad := congrArg Hpp.quad (faulted_hpp c)
  cases h with
  | nothing | result | reply => exact ⟨rfl, rfl⟩
  | fault | marker => exact ⟨htxn, hquad⟩

/-! A whole transaction that the port serves -/

/-- A packet of header and CRC word that the port serves, begun with no other transaction open. -/
theorem transact_served {c : Chip} (hrel : c.released 7 = true) (htxn : c.fall.hpp.txn = none) {h w edges : Nat} (hh : h < 2 ^ 32)
    (hw : w < 2 ^ 32) (hport : portServes h = true) (hedges : crcEdges c.fall.hpp.quad ≤ edges) :
    c.transact edges (wordBytes h ++ wordBytes w) false = (c.fall.serve c.fall.hpp.rdy h w edges).startDue.rewind := by
  have hbytes := bytesOfEdges_crc hedges
  have hheader := received_header (w := w) hh (show 4 ≤ bytesOfEdges c.fall.hpp.quad edges by omega)
  have hfinal := received_final (h := h) hw hbytes
  obtain ⟨htxn', hquad⟩ := (serve_answer c.fall c.fall.hpp.rdy h w edges).txn_quad
  rw [transact_eq hrel, if_neg Bool.false_ne_true, portAnswers, if_pos (by rw [hheader]; exact ⟨hedges, hport⟩), hheader, hfinal]
  cases hrdy : c.fall.hpp.rdy with
  | false =>
    rw [hrdy] at htxn'
    exact rise_notReady (htxn'.trans htxn) rfl
  | true =>
    rw [hrdy] at htxn' hquad
    exact rise_served (htxn'.trans htxn) rfl ((hdrEdges_le_crcEdges _).trans (by rw [hquad]; exact hedges)) (by rw [hheader]; exact hport)

/-- NOP, PEEK or FETCH with a header's own LEN 0 as a whole transaction. -/
theorem shortPacket_served {c : Chip} (hrel : c.released 7 = true) (htxn : c.fall.hpp.txn = none) {opc tag flg edges : Nat} (crc : Word)
    (ho : opc = 0x00 ∨ opc = 0x01 ∨ opc = 0x08) (ht : tag < 256) (hf : flg < 64) (hedges : crcEdges c.fall.hpp.quad ≤ edges) :
    c.shortPacket opc tag flg crc.toNat edges =
      (c.fall.serve c.fall.hpp.rdy (mkHeader opc tag 0 flg) crc.toNat edges).startDue.rewind := by
  have hopc : opc < 256 := by omega
  have hport : portServes (mkHeader opc tag 0 flg) = true := by
    rw [portServes, hdrOpc_mkHeader hopc ht hf, hdrLen_mkHeader hf]
    rcases ho with rfl | rfl | rfl <;> rfl
  rw [Chip.shortPacket, Nat.mod_eq_of_lt hopc, Nat.mod_eq_of_lt ht, Nat.mod_eq_of_lt hf, Nat.mod_eq_of_lt crc.isLt]
  exact transact_served hrel htxn (mkHeader_lt hopc ht hf) crc.isLt hport hedges

/-! What is clocked out (R44, R69) -/

/-- Every word whose last bit is clocked is the result's. -/
theorem shiftedOut_shifted (quad : Bool) (edges : Nat) (l : List Nat) : ShiftedOut quad edges l (shifted quad edges l) := by
  intro k hk
  have hn : k < (edges - (crcEdges quad + 4)) * (if quad then 4 else 1) / 32 := by
    cases quad <;> simp [wordEdges] at hk ⊢ <;> omega
  unfold shifted
  generalize (edges - (crcEdges quad + 4)) * (if quad then 4 else 1) = n at hn ⊢
  rw [List.getElem?_append_left (by simpa [upTo] using hn)]
  simp [upTo, hn]

/-- Two words of a result, clocked to their end. -/
theorem shifted_pair (quad : Bool) (a b : Nat) : shifted quad (crcEdges quad + 4 + 2 * wordEdges quad) [a, b] = [toWord a, toWord b] := by
  cases quad <;> rfl

end Sys2Proof.Scope
end

section
/-! SUPPORT. The end of any transaction (R47, R48, R58): what it may change, and that it leaves the reply queue. -/

namespace Sys2Proof.Scope

open Sys2Proof.Machine Sys2Proof.Machine.Reg Sys2Proof.Laws

/-! The transaction open, the replies queued, the last one removed, the words clocked out -/

/-- d has the open transaction, the queued replies, the last removed reply and the words clocked out of c. -/
structure SameTraffic (c d : Chip) : Prop where
  txn : d.hpp.txn = c.hpp.txn
  replies : d.hpp.replies = c.hpp.replies
  last : d.hpp.last = c.hpp.last
  out : d.hpp.out = c.hpp.out

variable {c d e : Chip}

theorem sameTraffic_refl (c : Chip) : SameTraffic c c := ⟨rfl, rfl, rfl, rfl⟩

theorem SameTraffic.trans (h : SameTraffic c d) (g : SameTraffic d e) : SameTraffic c e :=
  ⟨g.txn.trans h.txn, g.replies.trans h.replies, g.last.trans h.last, g.out.trans h.out⟩

theorem sameTraffic_of_hpp (h : d.hpp = c.hpp) : SameTraffic c d := ⟨by rw [h], by rw [h], by rw [h], by rw [h]⟩

theorem putWord_sameTraffic (c : Chip) (g : List Nat) (eot : Bool) : SameTraffic c (c.putWord g eot) := by
  have h := (putWord_stores c g eot).hpp
  exact ⟨by rw [h], by rw [h], by rw [h], by rw [h]⟩

theorem tagWord_sameTraffic (c : Chip) (f : BasinWord → BasinWord) : SameTraffic c (c.tagWord f) := by
  unfold Chip.tagWord
  split <;> exact ⟨rfl, rfl, rfl, rfl⟩

theorem endWords_sameTraffic (c : Chip) (x : Txn) : SameTraffic c (c.endWords x) := by
  unfold Chip.endWords
  split
  · exact sameTraffic_refl c
  · split
    · exact tagWord_sameTraffic c _
    · exact putWord_sameTraffic c _ _

theorem closing_sameTraffic (c : Chip) (x : Txn) : SameTraffic c (closing c x) := by
  unfold closing
  split
  · exact sameTraffic_refl c
  · split
    · exact sameTraffic_of_hpp (faulted_hpp c)
    · split
      · exact sameTraffic_refl c
      · exact endWords_sameTraffic c x

theorem startDue_sameTraffic (c : Chip) : SameTraffic c c.startDue := by
  unfold Chip.startDue
  split <;> exact ⟨rfl, rfl, rfl, rfl⟩

theorem rewind_sameTraffic (c : Chip) : SameTraffic c c.rewind := by
  unfold Chip.rewind
  split <;> exact ⟨rfl, rfl, rfl, rfl⟩

/-- The end of a transaction leaves the replies, and no transaction open. -/
theorem closeTxn_traffic (c : Chip) : c.closeTxn.hpp.txn = none ∧ c.closeTxn.hpp.replies = c.hpp.replies ∧
    c.closeTxn.hpp.last = c.hpp.last := by
  cases h : c.hpp.txn with
  | none => rw [closeTxn_of_none h]; exact ⟨h, rfl, rfl⟩
  | some x =>
    rw [closeTxn_of_some h]
    obtain ⟨htxn, hreplies, hlast, -⟩ := ((closing_sameTraffic _ x).trans (startDue_sameTraffic _)).trans (rewind_sameTraffic _)
    exact ⟨htxn, hreplies, hlast⟩

/-! Its frame -/

/-- Attributes in which the end of a transaction shows. -/
def closeIds : List Nat := [HPP.STAT.LENE.id, HPP.CNTLEN.COUNT.id]

/-- Parts that it may change: a RESET or a sleep whose reply was removed begins (R115, R534). -/
def closeParts : List Part := [.hpp, .flt, .dev, .kpr]

theorem faulted_keeps {ids : List Nat} {ps : List Part} {f k : Fld} (hf : f.id ∈ ids) (hk : k.id ∈ ids) (hp : Part.flt ∈ ps)
    (c : Chip) : Keeps ids ps c (faulted c f k) := keeps_inc (keeps_raise (keeps_flag keeps_refl hf) hp) hk

theorem putWord_keeps (c : Chip) (g : List Nat) (eot : Bool) : Keeps closeIds closeParts c (c.putWord g eot) := by
  unfold Chip.putWord
  dsimp only
  split
  · exact keeps_flag (keeps_hpp (keeps_hpp keeps_refl (by decide)) (by decide)) (by decide)
  · exact keeps_hpp keeps_refl (by decide)

theorem tagWord_keeps (c : Chip) (f : BasinWord → BasinWord) : Keeps closeIds closeParts c (c.tagWord f) :=
  keeps_ite (fun _ => keeps_hpp keeps_refl (by decide)) (fun _ => keeps_hpp keeps_refl (by decide))

theorem endWords_keeps (c : Chip) (x : Txn) : Keeps closeIds closeParts c (c.endWords x) :=
  keeps_ite (fun _ => keeps_refl) (fun _ => keeps_ite (fun _ => tagWord_keeps c _) (fun _ => putWord_keeps c _ _))

theorem closing_keeps (c : Chip) (x : Txn) : Keeps closeIds closeParts c (closing c x) :=
  keeps_ite (fun _ => keeps_refl) (fun _ => keeps_ite (fun _ => faulted_keeps (by decide) (by decide) (by decide) c)
    (fun _ => keeps_ite (fun _ => keeps_refl) (fun _ => endWords_keeps c x)))

theorem startDue_keeps (c : Chip) : Keeps closeIds closeParts c c.startDue := by
  unfold Chip.startDue
  split
  · have hhpp : Keeps closeIds closeParts c { c with hpp := { c.hpp with resetRead := false } } := keeps_hpp keeps_refl (by decide)
    exact keeps_kpr (keeps_dev hhpp (by decide)) (by decide)
  · exact keeps_refl

theorem rewind_keeps (c : Chip) : Keeps closeIds closeParts c c.rewind :=
  keeps_ite (fun _ => keeps_hpp keeps_refl (by decide)) (fun _ => keeps_refl)

theorem closeTxn_keeps (c : Chip) : Keeps closeIds closeParts c c.closeTxn := by
  cases h : c.hpp.txn with
  | none => rw [closeTxn_of_none h]; exact keeps_refl
  | some x =>
    rw [closeTxn_of_some h]
    have hclosed := keeps_trans (keeps_hpp (a := c) (x := { c.hpp with txn := none }) keeps_refl (by decide)) (closing_keeps _ x)
    exact keeps_trans (keeps_trans hclosed (startDue_keeps _)) (rewind_keeps _)

end Sys2Proof.Scope
end

section
/-! CLAIM. NOP and the idle timeout (R44, R46, R48, R50, R53, R54). -/

namespace Sys2Proof.Scope

open Sys2Proof.Machine Sys2Proof.Machine.Reg Sys2Proof.Laws

/-! NOP -/

theorem nextQuad_idle {c : Chip} (htxn : c.hpp.txn = none) (hquad : c.hpp.quadNext = none) : c.nextQuad = c.hpp.quad := by
  rw [Chip.nextQuad, closeTxn_of_none htxn, Chip.takeQuad, hquad]

section

variable {tag flg : Nat} (ht : tag < 256) (hf : flg < 64)
include ht hf

/-- NOP, PEEK and FETCH at an idle port. -/
theorem shortPacket_idle {s : State} (hs : s.PortIdle) {opc edges : Nat} (crc : Word) (ho : opc = 0x00 ∨ opc = 0x01 ∨ opc = 0x08)
    (hedges : crcEdges s.chip.hpp.quad ≤ edges) (t : Nat) : (s.chip.at_ t).shortPacket opc tag flg crc.toNat edges =
      ((begun s t).serve true (mkHeader opc tag 0 flg) crc.toNat edges).startDue.rewind := by
  have hfall := fall_of_portIdle hs (t := t)
  obtain ⟨-, hrel, -⟩ := id hs
  rw [shortPacket_served (c := s.chip.at_ t) hrel (by rw [hfall]; exact begun_txn hs) crc ho ht hf (by rw [hfall]; exact hedges), hfall,
    begun_rdy hs]

/-- The whole of a NOP at an idle port: a wrong CRC word is flagged and counted. -/
theorem nop_idle {s : State} (hs : s.PortIdle) (crc : Word) (t : Nat) :
    (s.chip.at_ t).shortPacket 0x00 tag flg crc.toNat (crcEdges (s.chip.at_ t).nextQuad) =
      if crc.toNat = finalWord [mkHeader 0 tag 0 flg] then begun s t else faulted (begun s t) HPP.STAT.CRCE HPP.CNTCRC.COUNT := by
  obtain ⟨-, -, -, htxn, hquad, -⟩ := id hs
  rw [nextQuad_idle (c := s.chip.at_ t) htxn hquad, at_hpp, shortPacket_idle ht hf hs crc (.inl rfl) le_rfl,
    serve_nop (hdrOpc_mkHeader (by decide) ht hf)]
  by_cases h : crc.toNat = finalWord [mkHeader 0 tag 0 flg]
  · simp only [h, beq_self_eq_true, Bool.not_true, Bool.and_false, Bool.false_eq_true, if_false, if_true]
    exact rise_of_portIdle hs begun_hpp
  · simp only [h, beq_eq_false_iff_ne.2 h, Bool.not_false, Bool.and_true, if_true, if_false]
    exact rise_of_portIdle hs (faulted_hpp _)

/-- At a port that is not ready NOP shows the ISW and nothing else. -/
theorem nop_notReady {c : Chip} (hrel : c.released 7 = true) (hrdy : c.hpp.rdy = false) (htxn : c.hpp.txn = none)
    (hquad : c.hpp.quadNext = none) (hread : c.hpp.resetRead = false) (hrewind : c.rewind = c) (crc : Word) :
    c.shortPacket 0x00 tag flg crc.toNat (crcEdges c.nextQuad) = iswShown c := by
  have hfall : c.fall = iswShown c := by rw [fall_idle htxn hquad, hrdy]; rfl
  have hrdy' : (iswShown c).hpp.rdy = false := hrdy
  rw [nextQuad_idle htxn hquad, shortPacket_served hrel (by rw [hfall]; exact htxn) crc (.inl rfl) ht hf (by rw [hfall]; rfl),
    hfall, hrdy', serve_nop (hdrOpc_mkHeader (by decide) ht hf), Bool.false_and, if_neg Bool.false_ne_true,
    startDue_of_not (c := iswShown c) hread]
  exact rewind_of_alike hrewind rfl rfl rfl rfl

end

/-! The idle timeout -/

/-- The idle timeout of a transaction whose time has come. -/
theorem exec_idleTimeout_due {s : State} (hs : s.Inv) {x : Txn} (hx : s.chip.hpp.txn = some x) (t : Nat)
    (hon : s.chip.get HPP.CFG.IDLETO ≠ 0) (hdue : x.at_ + s.chip.get HPP.CFG.IDLETO * 100 * usTaps ≤ s.at_ t) :
    exec (.idleTimeout t) s = .next { s with chip :=
      (if x.rdy = true then faulted (s.chip.at_ t).closeTxn HPP.STAT.HTO HPP.CNTHTO.COUNT else (s.chip.at_ t).closeTxn) } := by
  rw [exec_idleTimeout]
  refine run_of_chip_eq ?_ ?_
  · have hx : (s.chip.at_ t).hpp.txn = some x := hx
    have hno : ¬(s.chip.get HPP.CFG.IDLETO = 0 ∨ s.at_ t < x.at_ + s.chip.get HPP.CFG.IDLETO * 100 * usTaps) := by omega
    simp only [hx]
    exact if_neg hno
  · obtain ⟨-, hwq⟩ := hs
    have hpgm : (s.chip.at_ t).closeTxn.pgm = s.chip.pgm := (closeTxn_keeps (s.chip.at_ t)).parts .pgm (by decide)
    split
    · rw [faulted_pgm, hpgm, hwq]
    · rw [hpgm, hwq]

/-- It finds nothing to close. -/
theorem exec_idleTimeout_notDue {s : State} (hs : s.Inv) (t : Nat) (h : ∀ x, s.chip.hpp.txn = some x →
    s.chip.get HPP.CFG.IDLETO = 0 ∨ s.at_ t < x.at_ + s.chip.get HPP.CFG.IDLETO * 100 * usTaps) :
    exec (.idleTimeout t) s = .next { s with chip := s.chip.at_ t } := by
  obtain ⟨-, hwq⟩ := hs
  rw [exec_idleTimeout]
  refine run_of_chip_eq ?_ hwq
  cases hx : s.chip.hpp.txn with
  | none => simp only [at_hpp, hx]
  | some x =>
    simp only [at_hpp, hx]
    exact if_pos (h x hx)

/-- Settles O6: NOP is a transaction that the port serves; the idle timeout is the end of a transaction, followed by a flagged and
counted fault where it was begun with RDY 1. -/
theorem statusWordAndIdleTimeout : Obligations.StatusWordAndIdleTimeout := by
  unfold Obligations.StatusWordAndIdleTimeout
  refine ⟨fun s t tag flg crc hs ht hf hcrc => ?_, fun s t tag flg crc hs ht hf hcrc => ?_,
    fun s t tag flg crc hinv hrel hrdy htxn hquad hread hrewind ht hf => ?_, fun s t x hinv hx hrdy hon hdue => ?_,
    fun s t x hinv hx hrdy hread hon hdue => ?_, fun s t hinv h => exec_idleTimeout_notDue hinv t h⟩
  · obtain ⟨hexec, honly⟩ := exec_of_portMoves (exec_nop t tag flg crc s) (inv_of_portIdle hs)
      ((nop_idle ht hf hs crc t).trans (if_pos hcrc)) begun_counts
    exact ⟨_, hexec, begun_hpp, begun_cnttxn, only_hpp_of_flt honly begun_flt⟩
  · have hmoves : PortMoves [(HPP.CNTTXN.COUNT, 0), (HPP.STAT.CRCE, 0), (HPP.CNTCRC.COUNT, 0)] s.chip (begun s t) :=
      begun_moves (by simp)
    obtain ⟨hexec, honly⟩ := exec_of_portMoves (exec_nop t tag flg crc s) (inv_of_portIdle hs)
      ((nop_idle ht hf hs crc t).trans (if_neg hcrc))
      (hmoves.faulted (f := HPP.STAT.CRCE) (k := HPP.CNTCRC.COUNT) (by simp) (by simp))
    refine ⟨_, hexec, faulted_hpp _, ?_, ?_, hmoves.faulted_raised begun_flt begun_now (by decide) (by simp), honly⟩
    · exact get_faulted_flag _ rfl (by decide)
    · exact begun_faulted_count rfl (by decide) (by decide)
  · obtain ⟨-, hwq⟩ := hinv
    exact (exec_nop t tag flg crc s).trans (run_of_chip_eq (nop_notReady (c := s.chip.at_ t) ht hf hrel hrdy htxn hquad hread
      (rewind_of_alike hrewind rfl rfl rfl rfl) crc) hwq)
  · obtain ⟨htxn, hreplies, -⟩ := closeTxn_traffic (s.chip.at_ t)
    have hexec := exec_idleTimeout_due hinv hx t hon hdue
    rw [if_pos hrdy] at hexec
    have hne : HPP.STAT.HTO.id ≠ HPP.CNTHTO.COUNT.id := by decide
    refine ⟨_, hexec, (congrArg Hpp.txn (faulted_hpp _)).trans htxn, get_faulted_flag _ rfl hne, ?_,
      (congrArg Hpp.replies (faulted_hpp _)).trans hreplies, rfl, rfl⟩
    refine (get_faulted_count _ hne).trans ?_
    rw [(closeTxn_keeps (s.chip.at_ t)).fields HPP.CNTHTO.COUNT 0 (by decide)]
    rfl
  · rw [exec_idleTimeout_due hinv hx t hon hdue, if_neg (by simp [hrdy]), closeTxn_notReady (c := s.chip.at_ t) hx hrdy hread]
    rfl

end Sys2Proof.Scope
end

section
/-! CLAIM. PEEK and FETCH at an idle port (R55, R57, R66 to R69). -/

namespace Sys2Proof.Scope

open Sys2Proof.Machine Sys2Proof.Machine.Reg Sys2Proof.Laws

theorem crcEdges_le_fetchEdges (quad : Bool) (n : Nat) : crcEdges quad ≤ fetchEdges quad n := by
  unfold fetchEdges
  omega

theorem portCrc_eq_faulted (c : Chip) : c.portCrc = faulted c HPP.STAT.CRCE HPP.CNTCRC.COUNT := rfl

theorem drove_hpp (c : Chip) (edges : Nat) (l : List Nat) : (c.drove edges l).hpp = { c.hpp with out := shifted c.hpp.quad edges l } := rfl

/-- No mirror slot shows what is clocked out (R55, R56). -/
theorem mirror_drove (c : Chip) (edges : Nat) (l : List Nat) (k : Nat) : (c.drove edges l).mirror k = c.mirror k := rfl

/-- A reply that carries no lane mode and starts no reset leaves the queue alone. -/
theorem removeReply_hpp {c : Chip} {r : Reply} (hquad : r.quad = none) (hreset : r.reset = false) :
    (c.removeReply r).hpp = { c.hpp with replies := c.hpp.replies.drop 1, last := some r } := by
  simp [Chip.removeReply, hquad, hreset]

section

variable {s : State} {t tag flg edges : Nat} {crc : Word} {d : Chip} (hs : s.PortIdle) (ht : tag < 256) (hf : flg < 64)
include hs ht hf

/-- PEEK that leaves the writer, the lane mode and resets alone. -/
theorem exec_peek_idle {l : List (Fld × Nat)} {w : Word} {o : List Word} {q : List Reply} {last : Option Reply}
    (hserve : (begun s t).serve true (mkHeader 1 tag 0 flg) crc.toNat (crcEdges s.chip.hpp.quad + 4 + 2 * wordEdges s.chip.hpp.quad) = d)
    (hd : d.hpp = { s.chip.hpp with isw := w, out := o, replies := q, last := last }) (hmoves : PortMoves l s.chip d) :
    exec (.peek t tag flg crc) s = .next { s with chip := d } ∧
      Only s { s with chip := d } l (fun a b => { a with hpp := b.hpp, flt := b.flt }) := by
  refine exec_of_portMoves (exec_peek t tag flg crc s) (inv_of_portIdle hs) ?_ hmoves
  obtain ⟨-, -, -, htxn, hquad, -⟩ := id hs
  dsimp only
  rw [nextQuad_idle (c := s.chip.at_ t) htxn hquad, at_hpp, shortPacket_idle ht hf hs crc (.inr (.inl rfl)) (by omega), hserve]
  exact rise_of_portIdle hs hd

/-- FETCH that leaves the writer, the lane mode and resets alone. -/
theorem exec_fetch_idle {l : List (Fld × Nat)} {w : Word} {o : List Word} {q : List Reply} {last : Option Reply}
    (hedges : crcEdges s.chip.hpp.quad ≤ edges) (hserve : (begun s t).serve true (mkHeader 8 tag 0 flg) crc.toNat edges = d)
    (hd : d.hpp = { s.chip.hpp with isw := w, out := o, replies := q, last := last }) (hmoves : PortMoves l s.chip d) :
    exec (.fetch t tag flg crc edges) s = .next { s with chip := d } ∧
      Only s { s with chip := d } l (fun a b => { a with hpp := b.hpp, flt := b.flt }) := by
  refine exec_of_portMoves (exec_fetch t tag flg crc edges s) (inv_of_portIdle hs) ?_ hmoves
  rw [shortPacket_idle ht hf hs crc (.inr (.inr rfl)) hedges, hserve]
  exact rise_of_portIdle hs hd

omit hs

/-- A FETCH with a right CRC word. -/
theorem serve_fetch_header {c : Chip} (hcrc : crc.toNat = finalWord [mkHeader 8 tag 0 flg]) :
    c.serve true (mkHeader 8 tag 0 flg) crc.toNat edges = c.serveFetch (flg.testBit 0) edges := by
  rw [serve_fetch (hdrOpc_mkHeader (by decide) ht hf) hcrc, hdrFlg_mkHeader hf]

end

/-- Settles O7: each answer is the port's own, driven after the fall of HPSEL_N; a FETCH of the whole reply takes that reply
out of the queue. -/
theorem peekAndFetchDrive : Obligations.PeekAndFetchDrive := by
  unfold Obligations.PeekAndFetchDrive
  refine ⟨fun s t tag flg crc hs ht hf hcrc => ?_, fun s t tag flg edges crc r l hs ht hf hflg hcrc hr hreset hquad hedges => ?_,
    fun s t tag flg edges crc r hs ht hf hflg hcrc hr hedges => ?_, fun s t tag flg edges crc hs ht hf hnone hedges => ?_⟩
  · have hserve := serve_peek (c := begun s t) (edges := crcEdges s.chip.hpp.quad + 4 + 2 * wordEdges s.chip.hpp.quad)
      (hdrOpc_mkHeader (by decide) ht hf) hcrc
    rw [hdrFlg_mkHeader hf] at hserve
    obtain ⟨hexec, honly⟩ := exec_peek_idle hs ht hf hserve (drove_hpp _ _ _) (begun_counts.hpp _)
    refine ⟨_, hexec, ?_, only_hpp_of_flt honly rfl⟩
    rw [mirror_drove, drove_hpp, begun_quad, peekWords, shifted_pair]
    rfl
  · have hserve : (begun s t).serve true (mkHeader 8 tag 0 flg) crc.toNat edges =
        ((begun s t).drove edges r.packet).removeReply r := by
      rw [serve_fetch_header ht hf hcrc, hflg, serveFetch_head (c := begun s t) hr]
      exact if_pos hedges
    have hhpp := removeReply_hpp (c := (begun s t).drove edges r.packet) hquad hreset
    obtain ⟨hexec, honly⟩ := exec_fetch_idle hs ht hf ((crcEdges_le_fetchEdges _ _).trans hedges) hserve hhpp
      ((begun_counts.hpp _).hpp _)
    refine ⟨_, hexec, ?_, ?_, only_hpp_of_flt honly rfl⟩
    · exact shiftedOut_shifted _ _ _
    · rw [hhpp, drove_hpp, begun_hpp, hr]
      rfl
  · have hserve : (begun s t).serve true (mkHeader 8 tag 0 flg) crc.toNat edges = (begun s t).drove edges r.packet := by
      rw [serve_fetch_header ht hf hcrc, hflg, serveFetch_again (c := begun s t) hr]
    obtain ⟨hexec, honly⟩ := exec_fetch_idle hs ht hf hedges hserve (drove_hpp _ _ _)
      (begun_counts.hpp _)
    exact ⟨_, hexec, shiftedOut_shifted _ _ _, rfl, only_hpp_of_flt honly rfl⟩
  · have hmoves : PortMoves [(HPP.CNTTXN.COUNT, 0), (HPP.STAT.CRCE, 0), (HPP.CNTCRC.COUNT, 0)] s.chip (begun s t) :=
      begun_moves (by simp)
    by_cases hcrc : crc.toNat = finalWord [mkHeader 8 tag 0 flg]
    · have hserve := (serve_fetch_header (c := begun s t) (edges := edges) ht hf hcrc).trans (serveFetch_none (hnone hcrc))
      obtain ⟨hexec, honly⟩ := exec_fetch_idle hs ht hf hedges hserve (drove_hpp _ _ _) (hmoves.hpp _)
      rw [if_pos hcrc]
      exact ⟨_, hexec, shiftedOut_shifted _ _ _, rfl, honly⟩
    · have hserve := serve_fetch_badCrc (c := begun s t) (edges := edges) (hdrOpc_mkHeader (by decide) ht hf) hcrc
      rw [portCrc_eq_faulted] at hserve
      have hhpp := drove_hpp (faulted (begun s t) HPP.STAT.CRCE HPP.CNTCRC.COUNT) edges (markerPacket 0xFFFF0001)
      rw [faulted_hpp] at hhpp
      obtain ⟨hexec, honly⟩ := exec_fetch_idle hs ht hf hedges hserve hhpp ((hmoves.faulted (by simp) (by simp)).hpp _)
      rw [if_neg hcrc]
      refine ⟨_, hexec, ?_, ?_, honly⟩
      · rw [hhpp]
        exact shiftedOut_shifted _ _ _
      · rw [hhpp, begun_hpp]

end Sys2Proof.Scope
end

section
/-! SUPPORT. The replies in a transaction (R65 to R67): nothing but the port's own answer to a FETCH takes one out of the queue. -/

namespace Sys2Proof.Scope

open Sys2Proof.Machine Sys2Proof.Machine.Reg Sys2Proof.Laws

/-- d has the queued replies and the last removed reply of c. -/
structure SameReplies (c d : Chip) : Prop where
  replies : d.hpp.replies = c.hpp.replies
  last : d.hpp.last = c.hpp.last

/-- Or one more reply has been removed from the head of the queue. -/
def AtMostOneRemoved (c d : Chip) : Prop :=
  SameReplies c d ∨ ∃ r, c.hpp.replies = r :: d.hpp.replies ∧ d.hpp.last = some r

section

variable {c d e : Chip}

theorem sameReplies_refl (c : Chip) : SameReplies c c := ⟨rfl, rfl⟩

theorem SameReplies.trans (h : SameReplies c d) (g : SameReplies d e) : SameReplies c e :=
  ⟨g.replies.trans h.replies, g.last.trans h.last⟩

theorem SameTraffic.sameReplies (h : SameTraffic c d) : SameReplies c d := ⟨h.replies, h.last⟩

theorem AtMostOneRemoved.trans_same (h : AtMostOneRemoved c d) (g : SameReplies d e) : AtMostOneRemoved c e := by
  rcases h with h | ⟨r, hreplies, hlast⟩
  · exact .inl (h.trans g)
  · exact .inr ⟨r, by rw [g.replies, hreplies], g.last.trans hlast⟩

theorem AtMostOneRemoved.of_same (h : AtMostOneRemoved d e) (g : SameReplies c d) : AtMostOneRemoved c e := by
  rcases h with h | ⟨r, hreplies, hlast⟩
  · exact .inl (g.trans h)
  · exact .inr ⟨r, by rw [← hreplies, g.replies], hlast⟩

end

/-! The parts of a transaction -/

theorem closeTxn_sameReplies (c : Chip) : SameReplies c c.closeTxn := by
  obtain ⟨-, hreplies, hlast⟩ := closeTxn_traffic c
  exact ⟨hreplies, hlast⟩

theorem takeQuad_sameReplies (c : Chip) : SameReplies c c.takeQuad := by
  unfold Chip.takeQuad
  split
  · exact sameReplies_refl c
  · split <;> exact ⟨rfl, rfl⟩

theorem fall_sameReplies (c : Chip) : SameReplies c c.fall := by
  have h := (closeTxn_sameReplies c).trans (takeQuad_sameReplies _)
  unfold Chip.fall
  dsimp only
  split <;> exact ⟨h.replies, h.last⟩

theorem enterWord_sameReplies {c d : Chip} (h : c.enterWord = some d) : SameReplies c d := by
  unfold Chip.enterWord at h
  split at h
  · exact Option.some.inj h ▸ sameReplies_refl c
  · split at h
    · exact Option.some.inj h ▸ ⟨rfl, rfl⟩
    · cases h

theorem closeWord_sameReplies {c d : Chip} {g : List Nat} {eot : Bool} (h : c.closeWord g eot = some d) : SameReplies c d := by
  obtain ⟨e, he, rfl⟩ := Option.map_eq_some_iff.1 h
  exact (enterWord_sameReplies he).trans (putWord_sameTraffic e g eot).sameReplies

theorem overflow_sameReplies (c : Chip) (first : Bool) : SameReplies c (c.overflow first) := by
  have hinc : SameReplies c (c.inc HPP.CNTOVF.COUNT) := ⟨rfl, rfl⟩
  cases first
  · exact (hinc.trans (tagWord_sameTraffic _ _).sameReplies).trans (sameTraffic_of_hpp (hostFault_hpp _ _)).sameReplies
  · exact hinc.trans (sameTraffic_of_hpp (hostFault_hpp _ _)).sameReplies

theorem storeBytes_sameReplies (c : Chip) (first : Bool) (gs : List (List Nat)) : SameReplies c (c.storeBytes first gs).1 := by
  induction gs generalizing c first with
  | nil => exact sameReplies_refl c
  | cons g gs ih =>
    unfold Chip.storeBytes
    split
    next d hd => exact (closeWord_sameReplies hd).trans (ih _ _)
    · exact overflow_sameReplies c first

theorem arrive_sameReplies (c : Chip) (x : Txn) : SameReplies c (c.arrive x) := by
  unfold Chip.arrive
  dsimp only
  split
  · have h := storeBytes_sameReplies c true (groups8 (8 * (x.data.length / 8)) (x.data.take (8 * (x.data.length / 8))))
    split
    · exact ⟨h.replies, h.last⟩
    · split
      · exact ⟨h.replies, h.last⟩
      · split
        next d hd =>
          have hword := h.trans (enterWord_sameReplies hd)
          exact ⟨hword.replies, hword.last⟩
        next =>
          have hlost := h.trans (overflow_sameReplies _ (8 * (x.data.length / 8) == 0))
          exact ⟨hlost.replies, hlost.last⟩
  · exact ⟨rfl, rfl⟩

theorem readEarly_sameReplies (c : Chip) : SameReplies c c.readEarly := by
  unfold Chip.readEarly
  split
  · dsimp only
    split <;> exact ⟨rfl, rfl⟩
  · exact sameReplies_refl c

/-! The port's own answer -/

theorem portCrc_sameReplies (c : Chip) : SameReplies c c.portCrc := (sameTraffic_of_hpp (faulted_hpp c)).sameReplies

theorem PortAnswer.removes {c d : Chip} {edges : Nat} (h : PortAnswer c edges d) : AtMostOneRemoved c d := by
  have hcrc := portCrc_sameReplies c
  cases h with
  | nothing | result => exact .inl ⟨rfl, rfl⟩
  | fault | marker => exact .inl ⟨hcrc.replies, hcrc.last⟩
  | reply r l hr => exact .inr ⟨r, hr.trans (congrArg (r :: List.drop 1 ·) hr.symm), rfl⟩

/-! A whole transaction -/

/-- After the port's own answer a transaction leaves the replies as they are. -/
theorem transact_sameReplies {c : Chip} (hrel : c.released 7 = true) (edges : Nat) (data : List Nat) (hold : Bool) :
    SameReplies (portAnswers c.fall edges (received data (bytesOfEdges c.fall.hpp.quad edges))) (c.transact edges data hold) := by
  rw [transact_eq hrel]
  dsimp only
  split
  · exact (arrive_sameReplies _ _).trans (readEarly_sameReplies _)
  · exact (arrive_sameReplies _ _).trans (closeTxn_sameReplies _)

theorem transact_removes (c : Chip) (edges : Nat) (data : List Nat) (hold : Bool) :
    AtMostOneRemoved c (c.transact edges data hold) := by
  cases hrel : c.released 7 with
  | false =>
    rw [Chip.transact, if_neg (by simp [hrel])]
    exact .inl (sameReplies_refl c)
  | true =>
    refine AtMostOneRemoved.trans_same ?_ (transact_sameReplies hrel edges data hold)
    refine AtMostOneRemoved.of_same ?_ (fall_sameReplies c)
    unfold portAnswers
    split
    · exact (serve_answer _ _ _ _ _).removes
    · exact .inl (sameReplies_refl _)

/-- The port as a command's meaning leaves it. -/
theorem hpp_of_exec {i : Instr} {f : Memory → Chip → Chip} {s u : State} (h : exec i s = run f s) (hu : exec i s = .next u) :
    u.chip.hpp = (f s.sram s.chip).hpp := by
  rw [h, run_next] at hu
  injection hu with hu
  rw [← hu]

theorem exists_exec {i : Instr} {f : Memory → Chip → Chip} {s : State} (h : exec i s = run f s) :
    ∃ u, exec i s = .next u ∧ u.chip.hpp = (f s.sram s.chip).hpp :=
  ⟨_, h.trans (run_next f s), rfl⟩

end Sys2Proof.Scope
end

section
/-! CLAIM. Replies leave the queue by FETCH, whole and one at a time (R66, R67). -/

namespace Sys2Proof.Scope

open Sys2Proof.Machine Sys2Proof.Machine.Reg Sys2Proof.Laws

/-- A command of the port removes at most the reply at the head of the queue. -/
theorem exec_removes {i : Instr} {s u : State} (hi : (∃ t tag flg crc, i = .nop t tag flg crc ∨ i = .peek t tag flg crc ∨
      (∃ edges, i = .fetch t tag flg crc edges)) ∨ (∃ t edges data hold, i = .transaction t edges data hold) ∨
      (∃ t, i = .idleTimeout t)) (hu : exec i s = .next u) : AtMostOneRemoved s.chip u.chip := by
  have hat (t : Nat) : SameReplies s.chip (s.chip.at_ t) := ⟨rfl, rfl⟩
  have hof {d : Chip} (hd : u.chip.hpp = d.hpp) (h : AtMostOneRemoved s.chip d) : AtMostOneRemoved s.chip u.chip :=
    h.trans_same (sameTraffic_of_hpp hd).sameReplies
  rcases hi with ⟨t, tag, flg, crc, rfl | rfl | ⟨edges, rfl⟩⟩ | ⟨t, edges, data, hold, rfl⟩ | ⟨t, rfl⟩
  · exact hof (hpp_of_exec (exec_nop t tag flg crc s) hu) ((transact_removes _ _ _ _).of_same (hat t))
  · exact hof (hpp_of_exec (exec_peek t tag flg crc s) hu) ((transact_removes _ _ _ _).of_same (hat t))
  · exact hof (hpp_of_exec (exec_fetch t tag flg crc edges s) hu) ((transact_removes _ _ _ _).of_same (hat t))
  · exact hof (hpp_of_exec (exec_transaction t edges data hold s) hu) ((transact_removes _ _ _ _).of_same (hat t))
  · refine hof (hpp_of_exec (exec_idleTimeout t s) hu) (.inl ?_)
    have hclose := (hat t).trans (closeTxn_sameReplies (s.chip.at_ t))
    dsimp only
    split
    · exact hat t
    · split
      · exact hat t
      · split
        · exact hclose.trans (sameTraffic_of_hpp (faulted_hpp _)).sameReplies
        · exact hclose

section

variable {s : State} {t tag flg edges : Nat} {crc : Word} (hs : s.PortIdle) (ht : tag < 256) (hf : flg < 64)
include hs ht hf

/-- A FETCH with a right CRC word ends as the port's own answer d left the replies and the words clocked out. -/
theorem fetch_ends (hedges : crcEdges s.chip.hpp.quad ≤ edges) (hcrc : crc.toNat = finalWord [mkHeader 8 tag 0 flg]) {d : Chip}
    (hd : (begun s t).serveFetch (flg.testBit 0) edges = d) :
    ∃ u, exec (.fetch t tag flg crc edges) s = .next u ∧ SameTraffic d u.chip := by
  obtain ⟨u, hexec, hu⟩ := exists_exec (exec_fetch t tag flg crc edges s)
  rw [shortPacket_idle ht hf hs crc (.inr (.inr rfl)) hedges, serve_fetch_header ht hf hcrc, hd] at hu
  exact ⟨u, hexec, ((startDue_sameTraffic d).trans (rewind_sameTraffic _)).trans (sameTraffic_of_hpp hu)⟩

/-- A FETCH that does not reach the last bit of the reply at the head leaves it, whatever its CRC word. -/
theorem fetch_early (hflg : flg.testBit 0 = false) {r : Reply} {l : List Reply} (hr : s.chip.hpp.replies = r :: l)
    (hearly : edges < fetchEdges s.chip.hpp.quad r.words.length) :
    SameReplies s.chip ((s.chip.at_ t).shortPacket 0x08 tag flg crc.toNat edges) := by
  have hbegun : SameReplies s.chip (begun s t) := ⟨rfl, rfl⟩
  by_cases hedges : crcEdges s.chip.hpp.quad ≤ edges
  · rw [shortPacket_idle ht hf hs crc (.inr (.inr rfl)) hedges]
    refine hbegun.trans (SameReplies.trans ?_ ((startDue_sameTraffic _).trans (rewind_sameTraffic _)).sameReplies)
    by_cases hcrc : crc.toNat = finalWord [mkHeader 8 tag 0 flg]
    · rw [serve_fetch_header ht hf hcrc, hflg, serveFetch_head (c := begun s t) hr, begun_quad, if_neg (Nat.not_le.2 hearly)]
      exact ⟨rfl, rfl⟩
    · rw [serve_fetch_badCrc (hdrOpc_mkHeader (by decide) ht hf) hcrc]
      have h := portCrc_sameReplies (begun s t)
      exact ⟨h.replies, h.last⟩
  · have hfall := fall_of_portIdle hs (t := t)
    obtain ⟨-, hrel, -⟩ := id hs
    have h := transact_sameReplies (c := s.chip.at_ t) hrel edges
      (wordBytes (mkHeader (0x08 % 256) (tag % 256) 0 (flg % 64)) ++ wordBytes (crc.toNat % 2 ^ 32)) false
    rw [hfall, portAnswers, if_neg (by rw [begun_quad]; exact fun e => hedges e.1)] at h
    exact hbegun.trans h

end

/-- Settles O8: the answer to a FETCH is what the port drives and, once all of it has been clocked out, takes from the queue; whatever
else a transaction or a timeout does leaves the replies. -/
theorem fetchesReturnReplies : Obligations.FetchesReturnReplies := by
  unfold Obligations.FetchesReturnReplies
  refine ⟨fun s t tag flg edges crc r l hs ht hf hflg hcrc hr hedges => ?_, fun s t tag flg edges crc r l hs ht hf hflg hr hearly => ?_,
    fun s t tag flg edges crc r hs ht hf hflg hcrc hr hedges => ?_,
    fun i s u hi hu => (exec_removes hi hu).imp_left (fun h => ⟨h.last, h.replies⟩)⟩
  · have hserve := serveFetch_head (c := begun s t) (edges := edges) hr
    rw [← hflg] at hserve
    obtain ⟨u, hexec, -, hreplies, hlast, hout⟩ := fetch_ends hs ht hf hedges hcrc hserve
    refine ⟨u, hexec, ?_, ?_⟩
    · rw [hout]
      split <;> exact shiftedOut_shifted _ _ _
    · rw [hreplies, hlast, begun_quad]
      split
      · exact ⟨congrArg (List.drop 1) hr, rfl⟩
      · exact ⟨hr, rfl⟩
  · obtain ⟨u, hexec, hu⟩ := exists_exec (exec_fetch t tag flg crc edges s)
    obtain ⟨hreplies, hlast⟩ := fetch_early (t := t) (crc := crc) hs ht hf hflg hr hearly
    exact ⟨u, hexec, by rw [hu, hreplies, hr], by rw [hu, hlast]⟩
  · have hserve := serveFetch_again (c := begun s t) (edges := edges) hr
    rw [← hflg] at hserve
    obtain ⟨u, hexec, -, hreplies, hlast, hout⟩ := fetch_ends hs ht hf hedges hcrc hserve
    refine ⟨u, hexec, ?_, hreplies, hlast.trans hr⟩
    rw [hout]
    exact shiftedOut_shifted _ _ _

end Sys2Proof.Scope
end

section
/-! CLAIM. Unsound packets at the interpreter (R50 to R52, R62, R90, R121). -/

namespace Sys2Proof.Scope

open Sys2Proof.Machine Sys2Proof.Laws

/-- Every command that executes a packet is the interpreter's start of the packets it is for, at its own instant (R52, R94). -/
theorem exec_of_serves {i : Instr} {p : Packet} (h : serves i p = true) (s : State) :
    ∃ (mine : Packet → Bool) (body : Memory → Chip → Packet → Chip),
      exec i s = run (fun m c => c.interpret (startAt i) mine (body m)) s ∧ mine p = true := by
  cases i with
  | unassignedOpcode t => exact ⟨_, _, exec_unassignedOpcode t s, h⟩
  | getAttr t => exact ⟨_, _, exec_getAttr t s, h⟩
  | setAttr t => exact ⟨_, _, exec_setAttr t s, h⟩
  | getBlock t => exact ⟨_, _, exec_getBlock t s, h⟩
  | setBlock t => exact ⟨_, _, exec_setBlock t s, h⟩
  | modify t => exact ⟨_, _, exec_modify t s, h⟩
  | commitConfig t => exact ⟨_, _, exec_commitConfig t s, h⟩
  | armMap t => exact ⟨_, _, exec_armMap t s, h⟩
  | configCheck t => exact ⟨_, _, exec_configCheck t s, h⟩
  | laneAdmit t => exact ⟨_, _, exec_laneAdmit t s, h⟩
  | laneRetire t => exact ⟨_, _, exec_laneRetire t s, h⟩
  | captureArm t => exact ⟨_, _, exec_captureArm t s, h⟩
  | captureRelease t => exact ⟨_, _, exec_captureRelease t s, h⟩
  | readPage t errs => exact ⟨_, _, exec_readPage t errs s, h⟩
  | timeGet t => exact ⟨_, _, exec_timeGet t s, h⟩
  | timeStep t => exact ⟨_, _, exec_timeStep t s, h⟩
  | timeRate t => exact ⟨_, _, exec_timeRate t s, h⟩
  | tripClear t => exact ⟨_, _, exec_tripClear t s, h⟩
  | faultAck t => exact ⟨_, _, exec_faultAck t s, h⟩
  | resetCmd t => exact ⟨_, _, exec_resetCmd t s, h⟩
  | selftest t => exact ⟨_, _, exec_selftest t s, h⟩
  | commitNv t vst => exact ⟨_, _, exec_commitNv t vst s, h⟩
  | identify t => exact ⟨_, _, exec_identify t s, h⟩
  | patchBegin t => exact ⟨_, _, exec_patchBegin t s, h⟩
  | patchData t => exact ⟨_, _, exec_patchData t s, h⟩
  | patchFinish t => exact ⟨_, _, exec_patchFinish t s, h⟩
  | _ => exact absurd h Bool.false_ne_true

/-- A packet that the interpreter starts is judged with its words taken out of the basins (R52). -/
theorem interpret_judges {s : State} {p : Packet} {rest : List BasinWord} {mine : Packet → Bool} (hp : s.HasPacket p rest)
    (hm : mine p = true) (t : Nat) (body : Chip → Packet → Chip) :
    s.chip.interpret t mine body = (s.taken t rest).judge1 p (fun c => body c p) := by
  obtain ⟨-, hfront, hready⟩ := hp
  have hfront : (s.chip.at_ t).front = some (p, rest) := hfront
  have hready : (s.chip.at_ t).ready = true := hready
  unfold Chip.interpret
  simp only [hfront, hready, hm, Bool.and_self, if_true]
  rfl

/-- What the interpreter's judgement makes of the packet is what the command does. -/
theorem exec_of_judge1 {i : Instr} {s : State} {p : Packet} {rest : List BasinWord} (h : serves i p = true) (hp : s.HasPacket p rest)
    {d : Chip} (hd : ∀ body, (s.taken (startAt i) rest).judge1 p body = d) : exec i s = .next (flush { s with chip := d }) := by
  obtain ⟨mine, body, hexec, hmine⟩ := exec_of_serves h s
  have hchip := (interpret_judges hp hmine (startAt i) (body s.sram)).trans (hd _)
  rw [hexec, run, hchip]

section

variable {p : Packet} (c : Chip) (body : Chip → Chip)

/-- Lost bytes come first (R62, R90). -/
theorem judge1_lost (h : p.lost = true) : c.judge1 p body = (if p.isFinish then c.endPatch else c).refuseWith p stBUSY [] := by
  unfold Chip.judge1
  exact if_pos h

/-- Then the framing (R51). -/
theorem judge1_badLen (hlost : p.lost = false) (h : p.badLen = true) :
    c.judge1 p body = (if p.isFinish then c.endPatch else c).refuse p stBADLEN := by
  unfold Chip.judge1
  simp only [hlost, h, Bool.false_eq_true, if_false, if_true]

/-- Then the CRC (R50). -/
theorem judge1_badCrc (hlost : p.lost = false) (hlen : p.badLen = false) (h : p.badCrc = true) :
    c.judge1 p body = (if p.isFinish then c.endPatch else c).refuseWith p stBADCRC [] := by
  unfold Chip.judge1
  simp only [hlost, hlen, h, Bool.false_eq_true, if_false, if_true]

end

/-- Settles O9: every command judges the packet in one way, and the three faults of a packet come first, in this order. -/
theorem unsoundPacketsRefused : Obligations.UnsoundPacketsRefused := by
  unfold Obligations.UnsoundPacketsRefused
  refine ⟨fun i s p rest h hp hlost => ?_, fun i s p rest h hp hlost hlen => ?_, fun i s p rest h hp hlost hlen hcrc => ?_⟩
  · exact exec_of_judge1 h hp (fun body => judge1_lost _ body hlost)
  · exact exec_of_judge1 h hp (fun body => judge1_badLen _ body hlost hlen)
  · exact exec_of_judge1 h hp (fun body => judge1_badCrc _ body hlost hlen hcrc)

end Sys2Proof.Scope
end

section
/-! SUPPORT. The chip that a packet is executed from (R52, R92), and the frame of a command that executes a packet: which fields and
which parts it may change. -/

namespace Sys2Proof.Scope

open Sys2Proof.Machine Sys2Proof.Machine.Reg Sys2Proof.Laws

/-! The chip that a packet is executed from -/

section

variable (s : State) (t : Nat) (rest : List BasinWord)

/-- Only the instant and the port differ from the state's chip. -/
theorem taken_at : s.taken t rest = { s.chip.at_ t with hpp := (s.taken t rest).hpp } := by
  obtain ⟨h, e, -⟩ := taken_eq s t rest
  rw [e]

@[simp] theorem taken_regs : (s.taken t rest).regs = s.chip.regs := (congrArg Chip.regs (taken_at s t rest) :)

@[simp] theorem taken_dev : (s.taken t rest).dev = s.chip.dev := (congrArg Chip.dev (taken_at s t rest) :)

@[simp] theorem taken_pgm : (s.taken t rest).pgm = s.chip.pgm := (congrArg Chip.pgm (taken_at s t rest) :)

@[simp] theorem taken_now : (s.taken t rest).now = s.at_ t := (congrArg Chip.now (taken_at s t rest) :)

@[simp] theorem taken_get (f : Fld) (n : Nat) : (s.taken t rest).get f n = s.chip.get f n := get_congr (taken_regs s t rest) f n

@[simp] theorem taken_on (f : Fld) (n : Nat) : (s.taken t rest).on f n = s.chip.on f n := congrArg (· != 0) (taken_get s t rest f n)

@[simp] theorem taken_state : (s.taken t rest).state = s.chip.state := taken_get s t rest _ _

@[simp] theorem taken_replies : (s.taken t rest).hpp.replies = s.chip.hpp.replies := by
  obtain ⟨h, e, hreplies, -⟩ := taken_eq s t rest
  rw [e]
  exact hreplies

end

/-! An answer -/

section

variable (c : Chip) (r : Reply)

@[simp] theorem answer_regs : (c.answer r).regs = c.regs := rfl

@[simp] theorem answer_dev : (c.answer r).dev = c.dev := rfl

@[simp] theorem answer_pgm : (c.answer r).pgm = c.pgm := rfl

@[simp] theorem answer_get (f : Fld) (n : Nat) : (c.answer r).get f n = c.get f n := rfl

/-- The reply to a packet joins those that the chip holds. -/
theorem answer_replies {s : State} {p : Packet} {st : Nat} {words : List Nat} (h : c.hpp.replies = s.chip.hpp.replies) :
    (c.answer { status := st, tag := p.tag, flg := p.flg, words := words }).hpp.replies = replyTo s p st words :=
  congrArg (· ++ _) h

end

/-- A refusal outside the port's own statuses flags nothing. -/
theorem refuseWith_plain {c : Chip} {p : Packet} {st : Nat} {words : List Nat} (hlen : st ≠ stBADLEN) (hcrc : st ≠ stBADCRC) :
    c.refuseWith p st words = c.answer { status := st, tag := p.tag, flg := p.flg, words := words } := by
  rw [Chip.refuseWith, if_neg hlen, if_neg hcrc]

/-! The frame -/

/-- Chip b in the parts listed, in its fields and its time; chip a in every other part. -/
def takes (ps : List Part) (a b : Chip) : Chip where
  regs := b.regs
  now := b.now
  fresh := b.fresh
  free := if Part.free ∈ ps then b.free else a.free
  hpp := if Part.hpp ∈ ps then b.hpp else a.hpp
  dev := if Part.dev ∈ ps then b.dev else a.dev
  flt := if Part.flt ∈ ps then b.flt else a.flt
  rst := if Part.rst ∈ ps then b.rst else a.rst
  tim := if Part.tim ∈ ps then b.tim else a.tim
  pgm := if Part.pgm ∈ ps then b.pgm else a.pgm
  adc := if Part.adc ∈ ps then b.adc else a.adc
  lnk := if Part.lnk ∈ ps then b.lnk else a.lnk
  arm := if Part.arm ∈ ps then b.arm else a.arm
  mod := if Part.mod ∈ ps then b.mod else a.mod
  dhb := if Part.dhb ∈ ps then b.dhb else a.dhb
  mon := if Part.mon ∈ ps then b.mon else a.mon
  ctl := if Part.ctl ∈ ps then b.ctl else a.ctl
  grd := if Part.grd ∈ ps then b.grd else a.grd
  pmu := if Part.pmu ∈ ps then b.pmu else a.pmu
  mtr := if Part.mtr ∈ ps then b.mtr else a.mtr
  net := if Part.net ∈ ps then b.net else a.net
  sio := if Part.sio ∈ ps then b.sio else a.sio
  kpr := if Part.kpr ∈ ps then b.kpr else a.kpr
  ist := if Part.ist ∈ ps then b.ist else a.ist
  tap := if Part.tap ∈ ps then b.tap else a.tap

theorem takes_self (ps : List Part) (a : Chip) : a = takes ps a a := by simp [takes]

theorem takes_takes (ps : List Part) (a b c : Chip) : takes ps (takes ps a b) c = takes ps a c := by
  simp only [takes, Chip.mk.injEq, true_and]
  refine ⟨?_, ?_, ?_, ?_, ?_, ?_, ?_, ?_, ?_, ?_, ?_, ?_, ?_, ?_, ?_, ?_, ?_, ?_, ?_, ?_, ?_, ?_⟩ <;> split <;> rfl

theorem ite_ite_of_imp {α : Type} {p q : Prop} [Decidable p] [Decidable q] (h : p → q) (x y : α) :
    (if p then x else y) = if q then (if p then x else y) else y := by
  by_cases hp : p <;> simp [hp, h]

/-- What a list of parts takes, a longer one takes. -/
theorem takes_of_subset {ps qs : List Part} (h : ∀ p ∈ ps, p ∈ qs) (a b : Chip) : takes ps a b = takes qs a (takes ps a b) := by
  simp only [takes, Chip.mk.injEq, true_and]
  refine ⟨?_, ?_, ?_, ?_, ?_, ?_, ?_, ?_, ?_, ?_, ?_, ?_, ?_, ?_, ?_, ?_, ?_, ?_, ?_, ?_, ?_, ?_⟩ <;> exact ite_ite_of_imp (h _) _ _

/-- b differs from a in nothing but the fields listed, the parts listed, the time and the note of flags set at this instant. -/
structure Moves (l : List (Fld × Nat)) (ps : List Part) (a b : Chip) : Prop where
  rest : b = takes ps a b
  fields : ∀ (f : Fld) (n : Nat), ¬ Listed l f n → b.get f n = a.get f n

section

variable {l : List (Fld × Nat)} {ps : List Part} {a b c : Chip}

theorem moves_refl : Moves l ps a a := ⟨takes_self ps a, fun _ _ _ => rfl⟩

theorem Moves.trans (h : Moves l ps a b) (g : Moves l ps b c) : Moves l ps a c :=
  ⟨g.rest.trans ((congrArg (takes ps · c) h.rest).trans (takes_takes ps a b c)),
    fun f n hf => (g.fields f n hf).trans (h.fields f n hf)⟩

theorem Moves.mono {k : List (Fld × Nat)} {qs : List Part} (h : Moves l ps a b) (hl : ∀ e ∈ l, e ∈ k) (hps : ∀ p ∈ ps, p ∈ qs) :
    Moves k qs a b :=
  ⟨by rw [h.rest]; exact takes_of_subset hps a b, fun f n hf => h.fields f n (fun ⟨e, he, g⟩ => hf ⟨e, hl e he, g⟩)⟩

/-- A change of parts that are listed is one more step; that it is one holds by the definition of `takes`. -/
theorem Moves.parts (h : Moves l ps a b) (hc : c = takes ps b c) (hr : c.regs = b.regs) : Moves l ps a c :=
  h.trans ⟨hc, fun f n _ => get_congr hr f n⟩

/-- A part that is not listed is the same. -/
theorem Moves.pgm (h : Moves l ps a b) (hps : Part.pgm ∉ ps) : b.pgm = a.pgm := (congrArg Chip.pgm h.rest).trans (if_neg hps)

theorem Moves.dev (h : Moves l ps a b) (hps : Part.dev ∉ ps) : b.dev = a.dev := (congrArg Chip.dev h.rest).trans (if_neg hps)

theorem Moves.hpp (h : Moves l ps a b) (hps : Part.hpp ∉ ps) : b.hpp = a.hpp := (congrArg Chip.hpp h.rest).trans (if_neg hps)

theorem Moves.set {f : Fld} {n : Nat} (h : Moves l ps a b) (v : Nat) (hf : (f, n) ∈ l) : Moves l ps a (b.set f n v) :=
  h.trans ⟨by simp [takes, Chip.set], fun _ _ hg => get_set_other _ _ _ _ _ _ (fun e => hg ⟨_, hf, e⟩)⟩

theorem Moves.flag {f : Fld} {n : Nat} (h : Moves l ps a b) (hf : (f, n) ∈ l) : Moves l ps a (b.flag f n) :=
  (h.set 1 hf).trans ⟨takes_self ps _, fun _ _ _ => rfl⟩

theorem Moves.each {α : Type} {k : List α} {f : Chip → α → Chip} (hf : ∀ x ∈ k, ∀ d, Moves l ps d (f d x)) (h : Moves l ps a b) :
    Moves l ps a (b.each k f) := by
  unfold Chip.each
  induction k generalizing b with
  | nil => exact h
  | cons x k ih =>
    exact ih (fun y hy => hf y (List.mem_cons_of_mem _ hy)) (h.trans (hf x List.mem_cons_self b))

theorem Moves.ite {q : Prop} [Decidable q] (h : q → Moves l ps a b) (g : ¬q → Moves l ps a c) :
    Moves l ps a (if q then b else c) := by
  split
  · exact h ‹_›
  · exact g ‹_›

end

/-- Every command's packet is executed from a chip that differs in the port alone. -/
theorem taken_moves (l : List (Fld × Nat)) {ps : List Part} (hps : Part.hpp ∈ ps) (s : State) (t : Nat) (rest : List BasinWord) :
    Moves l ps s.chip (s.taken t rest) := by
  refine ⟨?_, fun f n _ => taken_get s t rest f n⟩
  rw [taken_at]
  simp [takes, hps]

/-! A meaning -/

/-- A meaning whose chip is known. -/
theorem run_flush {f : Memory → Chip → Chip} {s : State} {c : Chip} (h : f s.sram s.chip = c) :
    run f s = .next (flush { s with chip := c }) := by
  rw [run, h]

/-- The writes to the SRAM are entered; without any nothing is left to enter. -/
theorem flush_of_wq_nil {s : State} (h : s.chip.pgm.wq = []) : flush s = s := by
  have e : { s.chip.pgm with wq := [] } = s.chip.pgm := by rw [← h]
  rw [flush, e, h]
  rfl

end Sys2Proof.Scope
end

section
/-! CLAIM. Packets that the opcode table does not allow (R89 to R92, R94, R121). -/

namespace Sys2Proof.Scope

open Sys2Proof.Machine Sys2Proof.Machine.Reg Sys2Proof.Laws

/-! The judgement of a sound packet while no load is open -/

/-- What the opcode's row makes of a sound packet: opcode and FLG, device state and LEN are judged in this order; d is refused from,
c executed from. -/
def rowVerdict (c d : Chip) (p : Packet) (body : Chip → Chip) : Option OpRow → Chip
  | none => d.refuse p stBADOPC
  | some o =>
    if p.flg &&& o.flg ≠ p.flg ∨ (p.opc = 0xE0 ∧ p.flg = 3) then d.refuse p stBADOPC
    else if ¬ c.state ∈ o.states then d.refuse p (if c.state = stDiag then stFUSE else stSTATE)
    else match o.len with
      | some n => if p.len ≠ n then d.refuse p stBADLEN else body c
      | none => body c

/-- A sound packet is judged by its row; an opcode other than PATCH_LOAD closes an open load first, and a refused FINISH ends it
(R90, R94, R121, R122). -/
theorem judge1_row {p : Packet} (hs : sound p) (c : Chip) (body : Chip → Chip) :
    c.judge1 p body = rowVerdict (if p.opc = 0xE0 then c else c.closeLoad)
      (if p.opc = 0xE0 then (if p.isFinish then c.endPatch else c) else c.closeLoad) p body (opRow p.opc) := by
  obtain ⟨hlost, hlen, hcrc⟩ := hs
  have hd : ∀ x : Chip, (if p.opc = 0xE0 then x else if p.opc = 0xE0 then c else c.closeLoad) = if p.opc = 0xE0 then x else c.closeLoad :=
    fun x => by split <;> rfl
  unfold Chip.judge1
  simp only [hlost, hlen, hcrc, hd, Bool.false_eq_true, if_false]
  cases opRow p.opc <;> rfl

section

variable {c : Chip} {p : Packet} (hs : sound p) (hload : c.dev.load = none)

include hs hload

theorem judge1_sound (body : Chip → Chip) :
    c.judge1 p body = rowVerdict c (if p.isFinish then c.endPatch else c) p body (opRow p.opc) := by
  have hd : (if p.opc = 0xE0 then (if p.isFinish then c.endPatch else c) else c) = if p.isFinish then c.endPatch else c := by
    by_cases h : p.opc = 0xE0 <;> simp [h, Packet.isFinish]
  rw [judge1_row hs, closeLoad_none hload, hd, ite_self]

theorem judge1_unknown (body : Chip → Chip) (h : ∀ o, opRow p.opc = some o → p.flg &&& o.flg ≠ p.flg ∨ (p.opc = 0xE0 ∧ p.flg = 3)) :
    c.judge1 p body = (if p.isFinish then c.endPatch else c).refuse p stBADOPC := by
  rw [judge1_sound hs hload]
  cases ho : opRow p.opc with
  | none => rfl
  | some o => exact if_pos (h o ho)

variable {o : OpRow} (ho : opRow p.opc = some o) (hflg : p.flg &&& o.flg = p.flg) (hphase : ¬(p.opc = 0xE0 ∧ p.flg = 3))

include ho hflg hphase

theorem judge1_badState (body : Chip → Chip) (h : c.state ∉ o.states) :
    c.judge1 p body =
      (if p.isFinish then c.endPatch else c).refuse p (if c.state = stDiag then stFUSE else stSTATE) := by
  simp only [judge1_sound hs hload, rowVerdict, ho, hflg, hphase, h, ne_eq, not_true_eq_false, not_false_eq_true, or_self, if_false, if_true]

theorem judge1_badFixedLen (body : Chip → Chip) (h : c.state ∈ o.states) {n : Nat} (hlen : o.len = some n) (hn : p.len ≠ n) :
    c.judge1 p body = (if p.isFinish then c.endPatch else c).refuse p stBADLEN := by
  simp only [judge1_sound hs hload, rowVerdict, ho, hflg, hphase, h, hlen, hn, ne_eq, not_true_eq_false, not_false_eq_true, or_self, if_false,
    if_true]

end

/-! Refusals of the opcode table -/

theorem refuse_eq {c : Chip} {p : Packet} {st : Nat} (hlen : st ≠ stBADLEN) (hcrc : st ≠ stBADCRC) :
    c.refuse p st = c.answer { status := st, tag := p.tag, flg := p.flg, words := [0] } := refuseWith_plain hlen hcrc

/-- BAD_LEN is flagged, counted and raised (R51). -/
theorem refuse_badLen (c : Chip) (p : Packet) :
    c.refuse p stBADLEN =
      (faulted c HPP.STAT.LENE HPP.CNTLEN.COUNT).answer { status := stBADLEN, tag := p.tag, flg := p.flg, words := [0] } := rfl

/-- The device state's refusal is neither a length nor a CRC failure (R90). -/
theorem refuse_state (c : Chip) (p : Packet) (st : Nat) :
    c.refuse p (if st = stDiag then stFUSE else stSTATE) =
      c.answer { status := if st = stDiag then stFUSE else stSTATE, tag := p.tag, flg := p.flg, words := [0] } := by
  split <;> exact refuse_eq (by decide) (by decide)

section

variable {s : State} {p : Packet} {rest : List BasinWord} (hp : s.HasPacket p rest) (hs : sound p) (hload : s.chip.dev.load = none)

include hp hs hload

theorem exec_unknown {i : Instr} (hi : serves i p = true)
    (h : ∀ o, opRow p.opc = some o → p.flg &&& o.flg ≠ p.flg ∨ (p.opc = 0xE0 ∧ p.flg = 3)) :
    exec i s = .next (flush (s.refused (s.ended (startAt i) rest p) p stBADOPC [0])) :=
  exec_of_judge1 hi hp (fun body => (judge1_unknown hs (by simpa using hload) body h).trans (refuse_eq (by decide) (by decide)))

variable {o : OpRow} (ho : opRow p.opc = some o) (hflg : p.flg &&& o.flg = p.flg) (hphase : ¬(p.opc = 0xE0 ∧ p.flg = 3))

include ho hflg hphase

theorem exec_badState {i : Instr} (hi : serves i p = true) (h : s.chip.state ∉ o.states) :
    exec i s = .next (flush (s.refused (s.ended (startAt i) rest p) p (if s.chip.state = 1 then stFUSE else stSTATE) [0])) := by
  refine exec_of_judge1 hi hp (fun body => ?_)
  rw [judge1_badState hs (by simpa using hload) ho hflg hphase body (by simpa using h), refuse_state, taken_state]
  rfl

theorem exec_badFixedLen {i : Instr} (hi : serves i p = true) (h : s.chip.state ∈ o.states) {n : Nat} (hlen : o.len = some n)
    (hn : p.len ≠ n) :
    exec i s = .next (flush (s.refused (faulted (s.ended (startAt i) rest p) HPP.STAT.LENE HPP.CNTLEN.COUNT) p stBADLEN [0])) :=
  exec_of_judge1 hi hp (fun body =>
    (judge1_badFixedLen hs (by simpa using hload) ho hflg hphase body (by simpa using h) hlen hn).trans (refuse_badLen _ p))

end

/-! UNASSIGNED_OPCODE (R46, R94, R119) -/

section

variable {s : State} {t : Nat} {p : Packet} {rest : List BasinWord}

theorem ended_of_not_finish (h : p.isFinish = false) : s.ended t rest p = s.taken t rest := by simp [State.ended, h]

/-- A packet that is no FINISH is refused without a word of the SRAM. -/
theorem flush_refused (hp : s.HasPacket p rest) (h : p.isFinish = false) (st : Nat) (words : List Nat) :
    flush (s.refused (s.ended t rest p) p st words) = s.refused (s.taken t rest) p st words := by
  rw [ended_of_not_finish h]
  exact flush_of_wq_nil (taken_wq hp t)

/-- The opcodes with a command of their own all stand in the table. -/
theorem opRow_of_handled (h : opHandled p = true) : opRow p.opc ≠ none := by
  have hrows : ∀ k ∈ [0x02, 0x03, 0x04, 0x05, 0x06, 0x10, 0x11, 0x12, 0x20, 0x21, 0x30, 0x31, 0x32, 0x40, 0x41, 0x42, 0x50, 0x51, 0x60,
      0x61, 0x70, 0x7F], opRow k ≠ none := by decide
  rcases Bool.or_eq_true_iff.1 h with h | h
  · exact hrows _ (List.contains_iff_mem.1 h)
  · rw [(by simpa using h : p.opc = 0xE0 ∧ _).1]
    decide

/-- An opcode outside the table, and PATCH_LOAD with FLG[1:0] = 3. -/
theorem unassignedOpcode_unknown (hp : s.HasPacket p rest) (hs : sound p) (hload : s.chip.dev.load = none)
    (h : opRow p.opc = none ∨ (p.opc = 0xE0 ∧ p.flg % 4 = 3 ∧ p.flg < 64)) :
    exec (.unassignedOpcode t) s = .next (s.refused (s.taken t rest) p stBADOPC [0]) := by
  have hserves : opHandled p = false := by
    rcases h with h | ⟨hopc, hflg, -⟩
    · exact Bool.eq_false_iff.2 fun e => opRow_of_handled e h
    · simp [opHandled, hopc, hflg]
  have hfinish : p.isFinish = false := by
    rcases h with h | ⟨-, hflg, -⟩
    · exact Bool.eq_false_iff.2 fun e => absurd h (by simp [(by simpa [Packet.isFinish] using e : p.opc = 0xE0 ∧ _).1, opRow])
    · simp [Packet.isFinish, hflg]
  have hrow : ∀ o, opRow p.opc = some o → p.flg &&& o.flg ≠ p.flg ∨ (p.opc = 0xE0 ∧ p.flg = 3) := by
    rcases h with h | ⟨hopc, hflg, hlt⟩
    · simp [h]
    · rintro o ho
      obtain rfl : o = ⟨3, [stConfig], none⟩ := by rw [hopc] at ho; exact (Option.some.inj ho).symm
      have hand : p.flg &&& 3 = 3 := (Nat.and_two_pow_sub_one_eq_mod _ 2).trans hflg
      exact (eq_or_ne p.flg 3).symm.imp (fun hne e => hne (e.symm.trans hand)) (fun e => ⟨hopc, e⟩)
  rw [exec_unknown hp hs hload (by simp [serves, hserves]) hrow, flush_refused hp hfinish]
  rfl

/-- The opcodes that the port serves itself allow LEN 0 alone (R46, R94). -/
theorem opRow_portOpcode (h : p.opc = 0x00 ∧ p.flg = 0 ∨ p.opc = 0x01 ∧ p.flg < 64 ∨ p.opc = 0x08 ∧ p.flg < 2) :
    ∃ o, opRow p.opc = some o ∧ p.flg &&& o.flg = p.flg ∧ o.states = inCRDF ∧ o.len = some 0 := by
  rcases h with ⟨hopc, hflg⟩ | ⟨hopc, hflg⟩ | ⟨hopc, hflg⟩ <;> rw [hopc]
  · exact ⟨⟨0, inCRDF, some 0⟩, rfl, by rw [hflg]; rfl, rfl, rfl⟩
  · exact ⟨⟨63, inCRDF, some 0⟩, rfl, Nat.and_two_pow_sub_one_of_lt_two_pow (n := 6) hflg, rfl, rfl⟩
  · exact ⟨⟨1, inCRDF, some 0⟩, rfl, Nat.and_two_pow_sub_one_of_lt_two_pow (n := 1) hflg, rfl, rfl⟩

/-- NOP, PEEK and FETCH come to the interpreter with a LEN other than 0. -/
theorem unassignedOpcode_len (hp : s.HasPacket p rest) (hs : sound p) (hload : s.chip.dev.load = none)
    (h : p.opc = 0x00 ∧ p.flg = 0 ∨ p.opc = 0x01 ∧ p.flg < 64 ∨ p.opc = 0x08 ∧ p.flg < 2) (hlen : p.len ≠ 0)
    (hlow : 1 ≤ s.chip.state) (hhigh : s.chip.state ≤ 4) :
    exec (.unassignedOpcode t) s = .next (s.refused (faulted (s.taken t rest) HPP.STAT.LENE HPP.CNTLEN.COUNT) p stBADLEN [0]) := by
  obtain ⟨o, ho, hflg, hstates, hfixed⟩ := opRow_portOpcode h
  have hopc : p.opc ≠ 0xE0 ∧ opHandled p = false := by
    rcases h with ⟨hopc, -⟩ | ⟨hopc, -⟩ | ⟨hopc, -⟩ <;> simp [hopc, opHandled]
  have hstate : s.chip.state ∈ o.states := by
    rw [hstates]
    simp only [inCRDF, stConfig, stRun, stDiag, stFatal, List.mem_cons, List.not_mem_nil]
    omega
  rw [exec_badFixedLen hp hs hload ho hflg (fun e => hopc.1 e.1) (by simp [serves, hopc.2]) hstate hfixed hlen,
    ended_of_not_finish (by simp [Packet.isFinish, hopc.1])]
  have hwq : (faulted (s.taken t rest) HPP.STAT.LENE HPP.CNTLEN.COUNT).pgm.wq = [] := by rw [faulted_pgm, taken_wq hp]
  exact congrArg _ (flush_of_wq_nil hwq)

/-- Without a packet to start, the interpreter only lets time pass. -/
theorem interpret_idle {c : Chip} (h : c.front = none ∨ c.ready = false) (mine : Packet → Bool) (body : Chip → Packet → Chip) :
    c.interpret t mine body = c.at_ t := by
  have hfront : (c.at_ t).front = c.front := rfl
  have hready : (c.at_ t).ready = c.ready := rfl
  unfold Chip.interpret
  simp only [hfront, hready]
  rcases h with h | h
  · simp only [h]
  · cases c.front <;> simp [h]

theorem unassignedOpcode_waits (hinv : s.Inv) (h : s.chip.front = none ∨ s.chip.ready = false) :
    exec (.unassignedOpcode t) s = .next (s.waits t) := by
  obtain ⟨-, hwq⟩ := hinv
  exact (exec_unassignedOpcode t s).trans (run_of_chip_eq (interpret_idle h _ _) hwq)

end

/-- Settles O10: a sound packet is judged by its row alone; UNASSIGNED_OPCODE serves exactly the packets that this judgement refuses. -/
theorem disallowedPacketsRefused : Obligations.DisallowedPacketsRefused := by
  unfold Obligations.DisallowedPacketsRefused
  refine ⟨fun i s p rest hi hp hs hload h => ?_, fun i s p rest o hi hp hs hload ho hflg hphase h => ?_,
    fun i s p rest o n hi hp hs hload ho hflg hphase h hlen hn => ?_, fun s t p rest hp hs hload => ⟨fun h => ?_, fun h hlen hlow hhigh => ?_⟩,
    fun s t hinv h => unassignedOpcode_waits hinv h⟩
  · exact exec_unknown hp hs hload hi (fun o ho => .inl (h o ho))
  · exact exec_badState hp hs hload ho hflg hphase hi h
  · exact exec_badFixedLen hp hs hload ho hflg hphase hi h hlen hn
  · exact unassignedOpcode_unknown hp hs hload h
  · exact unassignedOpcode_len hp hs hload h hlen hlow hhigh

end Sys2Proof.Scope
end

section
/-! CLAIM. The time commands (R17, R108, R109, R312, R313). -/

namespace Sys2Proof.Scope

open Sys2Proof.Machine Sys2Proof.Machine.Reg Sys2Proof.Laws

/-! A step of the offset, and a new rate -/

section

variable (c : Chip)

theorem stepOfs_moves (x : Int) : Moves [(TIM.OFS.OFS, 0)] [.hpp, .tim, .pmu] c (c.stepOfs x) := by
  have hkeep : Moves [(TIM.OFS.OFS, 0)] [.hpp, .tim, .pmu] c c.keepSet := moves_refl.parts rfl rfl
  exact (hkeep.set (f := TIM.OFS.OFS) (n := 0) (ofSigned TIM.OFS.OFS.width (c.timeSet.ofs + x)) (by simp)).parts rfl rfl

theorem get_stepOfs (x : Int) : (c.stepOfs x).get TIM.OFS.OFS =
    ofSigned TIM.OFS.OFS.width (c.getI TIM.OFS.OFS + x) % 2 ^ TIM.OFS.OFS.width := get_set_self c.keepSet _ _ _

theorem newRate_moves (r : Int) : Moves [(TIM.OFS.OFS, 0), (TIM.RATE.RATE, 0)] [.hpp, .tim] c (c.newRate r) := by
  have hkeep : Moves [(TIM.OFS.OFS, 0), (TIM.RATE.RATE, 0)] [.hpp, .tim] c c.keepSet := moves_refl.parts rfl rfl
  have hofs := hkeep.set (f := TIM.OFS.OFS) (n := 0)
    (ofSigned TIM.OFS.OFS.width (c.timeSet.ofs + (((c.tbEdge : Int) - c.timeSet.x0) * c.timeSet.rate) / 2 ^ 40)) (by simp)
  exact (hofs.parts (c := { c.keepSet.setI TIM.OFS.OFS 0 _ with tim := { c.keepSet.tim with x0 := c.tbEdge } }) rfl rfl).set _ (by simp)

theorem get_newRate_rate (r : Int) : (c.newRate r).get TIM.RATE.RATE = ofSigned TIM.RATE.RATE.width r % 2 ^ TIM.RATE.RATE.width :=
  get_set_self _ _ _ _

/-- The anchor moves to a TB edge at least two cycles later (R17, R313). -/
theorem newRate_x0 (r : Int) : (c.newRate r).tim.x0 % 64 = 0 ∧ c.raw c.now + 2 * 64 ≤ (c.newRate r).tim.x0 := by
  have hx : (c.newRate r).tim.x0 = c.tbEdge := rfl
  rw [hx, Chip.tbEdge, ceilDiv]
  omega

/-- The new offset keeps the corrected time of the anchor (R313). -/
theorem get_newRate_ofs (r : Int) : (c.newRate r).get TIM.OFS.OFS =
    ofSigned TIM.OFS.OFS.width (c.timeSet.time (c.newRate r).tim.x0 - (c.newRate r).tim.x0) % 2 ^ TIM.OFS.OFS.width := by
  have hx : (c.newRate r).tim.x0 = c.tbEdge := rfl
  have hofs : (c.newRate r).get TIM.OFS.OFS = _ :=
    (get_set_other _ _ _ _ _ _ (by decide)).trans (get_set_self c.keepSet TIM.OFS.OFS 0 _)
  rw [hofs, hx, TimeSet.time, add_assoc, add_sub_cancel_left]

end

/-! The commands -/

/-- What the time commands read of the chip, they read of the state's at their instant. -/
theorem taken_time (s : State) (t : Nat) (rest : List BasinWord) :
    (s.taken t rest).ptpDisciplines = s.chip.ptpDisciplines ∧ (s.taken t rest).timeSet = s.chip.timeSet ∧
      (s.taken t rest).raw (s.taken t rest).now = (s.chip.at_ t).raw (s.at_ t) ∧
      (s.taken t rest).getI TIM.OFS.OFS = s.chip.getI TIM.OFS.OFS := by
  obtain ⟨h, e, -⟩ := taken_eq s t rest
  rw [e]
  exact ⟨rfl, rfl, rfl, rfl⟩

section

variable {t : Nat} {s : State} {p : Packet} {rest : List BasinWord} (hp : s.HasPacket p rest) (ha : s.Accepts p)
  (hload : s.chip.dev.load = none)

include hp ha hload

theorem timeGet_answers (ho : p.opc = 0x40) : exec (.timeGet t) s = .next (s.answered (s.taken t rest) p
    (let x := (s.chip.at_ t).stamp ((s.chip.at_ t).raw (s.at_ t))
     [x.1 % 2 ^ 32, x.1 / 2 ^ 32, x.2 + 256 * bit (s.chip.on TIM.STAT.TVALID) + 512 * bit (s.chip.on TIM.STAT.HOLD)])) := by
  refine run_interpret_accepts hp ha (by simp [opIs, ho]) hload ?_ (taken_wq hp t)
  obtain ⟨h, e, -⟩ := taken_eq s t rest
  rw [e]
  rfl

theorem timeStep_steps (ho : p.opc = 0x41) (hptp : s.chip.ptpDisciplines = false) :
    ∃ u, exec (.timeStep t) s = .next u ∧ u.chip.hpp.replies = replyTo s p stOK [] ∧
      u.chip.get TIM.OFS.OFS = ofSigned TIM.OFS.OFS.width
        (s.chip.getI TIM.OFS.OFS + toSigned 64 (p.word 0 + 2 ^ 32 * p.word 1)) % 2 ^ TIM.OFS.OFS.width ∧
      Only s u [(TIM.OFS.OFS, 0)] (fun a b => { a with hpp := b.hpp, tim := b.tim, pmu := b.pmu }) := by
  obtain ⟨htaken, -, -, hofs⟩ := taken_time s t rest
  let x := toSigned 64 (p.word 0 + 2 ^ 32 * p.word 1)
  have hmoves := ((taken_moves _ (by simp) s t rest).trans (stepOfs_moves (s.taken t rest) x)).parts
    (c := ((s.taken t rest).stepOfs x).okay p []) rfl rfl
  have hexec : exec (.timeStep t) s = .next { s with chip := ((s.taken t rest).stepOfs x).okay p [] } := by
    refine run_interpret_accepts hp ha (by simp [opIs, ho]) hload ?_ (taken_wq hp t)
    rw [htaken, hptp]
    rfl
  exact ⟨_, hexec, answer_replies _ (taken_replies s t rest), (get_stepOfs _ x).trans (by rw [hofs]), rfl, rfl, hmoves.rest,
    hmoves.fields⟩

theorem timeRate_sets {r : Int} (ho : p.opc = 0x42) (hptp : s.chip.ptpDisciplines = false) (hr : r = toSigned 32 (p.word 0))
    (hlo : -219902325 ≤ r) (hhi : r ≤ 219902325) :
    ∃ u, exec (.timeRate t) s = .next u ∧ u.chip.hpp.replies = replyTo s p stOK [] ∧
      u.chip.get TIM.RATE.RATE = ofSigned TIM.RATE.RATE.width r % 2 ^ TIM.RATE.RATE.width ∧
      u.chip.tim.x0 % 64 = 0 ∧ (s.chip.at_ t).raw (s.at_ t) + 2 * 64 ≤ u.chip.tim.x0 ∧
      u.chip.get TIM.OFS.OFS = ofSigned TIM.OFS.OFS.width
        (s.chip.timeSet.time u.chip.tim.x0 - u.chip.tim.x0) % 2 ^ TIM.OFS.OFS.width ∧
      Only s u [(TIM.OFS.OFS, 0), (TIM.RATE.RATE, 0)] (fun a b => { a with hpp := b.hpp, tim := b.tim }) := by
  obtain ⟨htaken, hset, hraw, -⟩ := taken_time s t rest
  have hrange : ¬(r < -rateMax ∨ rateMax < r) := by
    simp only [rateMax]
    omega
  have hmoves := ((taken_moves _ (by simp) s t rest).trans (newRate_moves (s.taken t rest) r)).parts
    (c := ((s.taken t rest).newRate r).okay p []) rfl rfl
  obtain ⟨hedge, hlate⟩ := newRate_x0 (s.taken t rest) r
  have hexec : exec (.timeRate t) s = .next { s with chip := ((s.taken t rest).newRate r).okay p [] } := by
    refine run_interpret_accepts hp ha (by simp [opIs, ho]) hload ?_ (taken_wq hp t)
    rw [← hr, htaken, hptp]
    exact if_neg hrange
  exact ⟨_, hexec, answer_replies _ (taken_replies s t rest), get_newRate_rate _ r, hedge, hraw ▸ hlate,
    (get_newRate_ofs _ r).trans (by rw [hset]; rfl), rfl, rfl, hmoves.rest, hmoves.fields⟩

theorem timeStep_disciplined (ho : p.opc = 0x41) (hptp : s.chip.ptpDisciplines = true) :
    exec (.timeStep t) s = .next (s.refused (s.taken t rest) p stSTATE [0]) := by
  obtain ⟨htaken, -⟩ := taken_time s t rest
  refine run_interpret_accepts hp ha (by simp [opIs, ho]) hload ?_ (taken_wq hp t)
  rw [htaken, hptp]
  rfl

theorem timeRate_range (ho : p.opc = 0x42) (h : toSigned 32 (p.word 0) < -219902325 ∨ 219902325 < toSigned 32 (p.word 0)) :
    exec (.timeRate t) s = .next (s.refused (s.taken t rest) p stRANGE [0]) :=
  run_interpret_accepts hp ha (by simp [opIs, ho]) hload (if_pos h) (taken_wq hp t)

theorem timeRate_disciplined (ho : p.opc = 0x42) (h : ¬(toSigned 32 (p.word 0) < -219902325 ∨ 219902325 < toSigned 32 (p.word 0)))
    (hptp : s.chip.ptpDisciplines = true) : exec (.timeRate t) s = .next (s.refused (s.taken t rest) p stSTATE [0]) := by
  obtain ⟨htaken, -⟩ := taken_time s t rest
  refine run_interpret_accepts hp ha (by simp [opIs, ho]) hload ((if_neg h).trans ?_) (taken_wq hp t)
  rw [htaken, hptp]
  rfl

end

/-- Settles O21: each command is the interpreter's, and the chip it leaves is that of one change of the parameter set. -/
theorem timeCommands : Obligations.TimeCommands := by
  unfold Obligations.TimeCommands
  refine ⟨fun t s p rest hp ha ho hload => timeGet_answers hp ha hload ho,
    fun t s p rest hp ha ho hload hptp => timeStep_steps hp ha hload ho hptp,
    fun t s p rest r hp ha ho hload hptp hr hlo hhi => timeRate_sets hp ha hload ho hptp hr hlo hhi,
    fun t s p rest hp ha hload => ⟨fun ho hptp => timeStep_disciplined hp ha hload ho hptp,
      fun ho h => timeRate_range hp ha hload ho h, fun ho h hptp => timeRate_disciplined hp ha hload ho h hptp⟩⟩

end Sys2Proof.Scope
end

section
/-! CLAIM. The access opcodes on lists of rows (R79 to R81, R84, R85, R91, R92, R95 to R97). -/

namespace Sys2Proof.Scope

open Sys2Proof.Machine Sys2Proof.Machine.Reg Sys2Proof.Laws

/-! The rows that a block packet names (R97) -/

theorem blockParse_rows {p : Packet} {rows : Nat → AttrRow} (n k : Nat)
    (h : ∀ j ∈ List.range' k n, blockAttr p j = some (rows j)) :
    blockParse (p.word 0) (p.flg.testBit 1) n k = ((List.range' k n).map (fun j => (rows j, blockInst p j)), none) := by
  induction n generalizing k with
  | zero => rfl
  | succ n ih =>
    rw [List.range'_succ] at h ⊢
    have hrow : blockAttr p k = some (rows k) := h k List.mem_cons_self
    have hrest := ih (k + 1) (fun j hj => h j (List.mem_cons_of_mem _ hj))
    unfold blockParse
    unfold blockAttr at hrow
    simp only [hrow, hrest]
    rfl

/-- Every row that an accepted block packet names is defined (R97). -/
theorem blockParse_all {p : Packet} {rows : Nat → AttrRow} (h : ∀ k, k < arwCount (p.word 0) → blockAttr p k = some (rows k)) :
    blockParse (p.word 0) (p.flg.testBit 1) (arwCount (p.word 0)) 0 =
      ((List.range (arwCount (p.word 0))).map (fun j => (rows j, blockInst p j)), none) := by
  rw [List.range_eq_range']
  exact blockParse_rows _ 0 fun j hj => h j (by simpa using hj)

/-! Reading (R95, R97) -/

/-- ARWs that name defined instances are entries without a finding while the reply's words are at most 1,023. -/
theorem getParse_named (l : List (Nat × AttrRow)) (n total : Nat) (hn : ∀ e ∈ l, Names e.1 e.2 (arwInst e.1))
    (hsum : total + (l.map (fun e => e.2.words)).sum ≤ 1023) :
    getParse n total (l.map (fun e => e.1)) = ([], l.map (fun e => (e.2, arwInst e.1))) := by
  induction l generalizing n total with
  | nil => rfl
  | cons e l ih =>
    obtain ⟨hrow, -, hcount⟩ := hn e List.mem_cons_self
    rw [List.map_cons, List.sum_cons] at hsum
    have hfits : ¬1023 < total + e.2.words := by omega
    have hrest := ih (n + 1) (total + e.2.words) (fun x hx => hn x (List.mem_cons_of_mem _ hx)) (by omega)
    simp [getParse, hrow, hcount, hfits, hrest]

theorem tooLong_none (l : List (AttrRow × Nat)) (n total : Nat) (h : total + (l.map (fun a => a.1.words)).sum ≤ 1023) :
    tooLong n total l = none := by
  induction l generalizing n total with
  | nil => rfl
  | cons a l ih =>
    rw [List.map_cons, List.sum_cons] at h
    rw [tooLong, if_neg (by omega)]
    exact ih _ _ (by omega)

section

variable {t : Nat} {s : State} {p : Packet} {rest : List BasinWord} (hp : s.HasPacket p rest) (ha : s.Accepts p)
  (hload : s.chip.dev.load = none)

include hp ha hload

theorem getAttr_answers {l : List (Nat × AttrRow)} (ho : p.opc = 0x02) (hne : l ≠ []) (hpar : p.params = l.map (fun e => e.1))
    (hn : ∀ e ∈ l, Names e.1 e.2 (arwInst e.1)) (hsum : (l.map (fun e => e.2.words)).sum ≤ 1023) :
    exec (.getAttr t) s =
      .next (s.answered (s.taken t rest) p (l.flatMap (fun e => (s.taken t rest).readWords e.2 (arwInst e.1)))) := by
  have hlen : p.len ≠ 0 := by
    rw [← params_length_of_accepts ha, hpar, List.length_map]
    exact fun e => hne (List.length_eq_zero_iff.1 e)
  refine run_interpret_accepts hp ha (by simp [opIs, ho]) hload ?_ (taken_wq hp t)
  simp only [hlen, if_false, hpar, getParse_named l 0 0 hn (by omega), refusal, worst, List.flatMap_map]
  rfl

theorem getBlock_answers {rows : Nat → AttrRow} (ho : p.opc = 0x04) (hcount : arwCount (p.word 0) ≠ 0)
    (hrows : ∀ k, k < arwCount (p.word 0) → blockAttr p k = some (rows k))
    (hsum : ((List.range (arwCount (p.word 0))).map (fun k => (rows k).words)).sum ≤ 1023) :
    exec (.getBlock t) s = .next (s.answered (s.taken t rest) p
      ((List.range (arwCount (p.word 0))).flatMap (fun k => (s.taken t rest).readWords (rows k) (blockInst p k)))) := by
  have hparse := blockParse_all hrows
  have hword : p.params.getD 0 0 = p.word 0 := rfl
  have hfits := tooLong_none ((List.range (arwCount (p.word 0))).map (fun j => (rows j, blockInst p j))) 0 0
    (by simpa [List.map_map, Function.comp_def] using hsum)
  refine run_interpret_accepts hp ha (by simp [opIs, ho]) hload ?_ (taken_wq hp t)
  simp only [hword, hparse, hcount, if_false, hfits, List.flatMap_map]
  rfl

end

/-- Settles O12: the parse of an accepted read finds nothing to refuse and lists the rows named, in order. -/
theorem readsAnswerValues : Obligations.ReadsAnswerValues := by
  unfold Obligations.ReadsAnswerValues
  exact ⟨fun t s p rest l hp ha ho hload hne hpar hn hsum => getAttr_answers hp ha hload ho hne hpar hn hsum,
    fun t s p rest rows hp ha ho hload hcount hrows hsum => getBlock_answers hp ha hload ho hcount hrows hsum⟩

/-! Writing (R84, R85, R96, R97) -/

/-- Entry e of a SET: an ARW, its value words, the row it names; no check refuses it. -/
def SetEntry (c : Chip) (e : Nat × List Nat × AttrRow) : Prop :=
  attrRow (arwId e.1) (arwInst e.1) = some e.2.2 ∧ arwCount e.1 = 0 ∧ e.2.1.length = e.2.2.words ∧
    Writable c e.2.2 (arwInst e.1) (wordsValue e.2.1)

theorem writeFindings_writable {c : Chip} {r : AttrRow} {i v : Nat} (h : Writable c r i v) (n first : Nat) :
    c.writeFindings n first r i v (fullMask r) = [] := by
  obtain ⟨hro, hv⟩ := h
  simp [Chip.writeFindings, hro, hv]

theorem setParse_entries {c : Chip} (l : List (Nat × List Nat × AttrRow)) (hl : ∀ e ∈ l, SetEntry c e) (fuel n k : Nat)
    (hfuel : l.length ≤ fuel) :
    c.setParse fuel n k (l.flatMap (fun e => e.1 :: e.2.1)) =
      ([], l.map (fun e => ⟨arwId e.1, arwInst e.1, wordsValue e.2.1⟩), none) := by
  induction l generalizing fuel n k with
  | nil => cases fuel <;> rfl
  | cons e l ih =>
    obtain ⟨hrow, hcount, hwords, hw⟩ := hl e List.mem_cons_self
    obtain ⟨fuel, rfl⟩ : ∃ f, fuel = f + 1 := ⟨fuel - 1, by simp at hfuel; omega⟩
    have hrest := ih (fun x hx => hl x (List.mem_cons_of_mem _ hx)) fuel (n + 1) (k + 1 + e.2.2.words) (by simpa using hfuel)
    have hlong : ¬(e.2.1 ++ l.flatMap (fun e => e.1 :: e.2.1)).length < e.2.2.words := by simp [hwords]
    simp only [List.flatMap_cons, List.cons_append, Chip.setParse, hrow, hcount, hlong, List.take_left' hwords, List.drop_left' hwords,
      writeFindings_writable hw, hrest, if_true, if_false, List.append_nil, List.map_cons]

theorem blockWrites_rows {c : Chip} {p : Packet} {rows : Nat → AttrRow} {vals : Nat → List Nat} (m j n k : Nat)
    (h : ∀ i ∈ List.range' j m, (vals i).length = (rows i).words ∧ Writable c (rows i) (blockInst p i) (wordsValue (vals i))) :
    c.blockWrites n k ((List.range' j m).flatMap vals) ((List.range' j m).map (fun i => (rows i, blockInst p i))) =
      ([], (List.range' j m).map (fun i => ⟨(rows i).id, blockInst p i, wordsValue (vals i)⟩)) := by
  induction m generalizing j n k with
  | zero => rfl
  | succ m ih =>
    rw [List.range'_succ] at h ⊢
    obtain ⟨hwords, hw⟩ := h j List.mem_cons_self
    have hrest := ih (j + 1) (n + 1) (k + (rows j).words) (fun i hi => h i (List.mem_cons_of_mem _ hi))
    simp only [List.flatMap_cons, List.map_cons, Chip.blockWrites, List.take_left' hwords, List.drop_left' hwords, hrest,
      writeFindings_writable hw, List.append_nil]

/-- The value words of a block fill it exactly. -/
theorem blockValues_length {p : Packet} {rows : Nat → AttrRow} {vals : Nat → List Nat} (l : List Nat) (n : Nat)
    (h : ∀ i ∈ l, (vals i).length = (rows i).words) :
    (l.map (fun i => (rows i, blockInst p i))).foldl (fun n a => n + a.1.words) n = n + (l.flatMap vals).length := by
  induction l generalizing n with
  | nil => rfl
  | cons i l ih =>
    rw [List.map_cons, List.foldl_cons, ih _ (fun x hx => h x (List.mem_cons_of_mem _ hx)), List.flatMap_cons, List.length_append,
      h i List.mem_cons_self, Nat.add_assoc]

section

variable {t : Nat} {s : State} {p : Packet} {rest : List BasinWord}

/-- A command of the interpreter whose packet is accepted as a list of writes. -/
theorem run_accept {mine : Packet → Bool} {body : Chip → Packet → Chip} {l : List Write} (hp : s.HasPacket p rest) (ha : s.Accepts p)
    (hm : mine p = true) (hload : s.chip.dev.load = none) (hb : body (s.taken t rest) p = (s.taken t rest).accept_ p l) :
    run (fun _ c => c.interpret t mine body) s = .next (s.wrote (s.taken t rest) p l) := by
  rw [run, interpret_accepts t mine body hp ha hm (.inr hload), hb]
  rfl

theorem setAttr_accepts {l : List (Nat × List Nat × AttrRow)} (hp : s.HasPacket p rest) (ha : s.Accepts p) (ho : p.opc = 0x03)
    (hload : s.chip.dev.load = none) (hne : l ≠ []) (hpar : p.params = l.flatMap (fun e => e.1 :: e.2.1))
    (hl : ∀ e ∈ l, SetEntry (s.taken t rest) e) :
    exec (.setAttr t) s =
      .next (s.wrote (s.taken t rest) p (l.map (fun e => ⟨arwId e.1, arwInst e.1, wordsValue e.2.1⟩))) := by
  have hfuel : l.length ≤ p.params.length := by simp [hpar, List.length_flatMap]
  have hlen : p.len ≠ 0 := by
    have := List.length_pos_iff.2 hne
    rw [← params_length_of_accepts ha]
    omega
  have hparse := setParse_entries l hl p.params.length 0 0 hfuel
  rw [← hpar] at hparse
  refine run_accept hp ha (by simp [opIs, ho]) hload ?_
  simp only [hlen, if_false, hparse, refusal, worst]

theorem setBlock_accepts {rows : Nat → AttrRow} {vals : Nat → List Nat} (hp : s.HasPacket p rest) (ha : s.Accepts p) (ho : p.opc = 0x05)
    (hload : s.chip.dev.load = none) (hcount : arwCount (p.word 0) ≠ 0)
    (hrows : ∀ k, k < arwCount (p.word 0) → blockAttr p k = some (rows k) ∧ (vals k).length = (rows k).words ∧
      Writable (s.taken t rest) (rows k) (blockInst p k) (wordsValue (vals k)))
    (hpar : p.params = p.word 0 :: (List.range (arwCount (p.word 0))).flatMap vals) :
    exec (.setBlock t) s = .next (s.wrote (s.taken t rest) p ((List.range (arwCount (p.word 0))).map
      (fun k => ⟨(rows k).id, blockInst p k, wordsValue (vals k)⟩))) := by
  have hparse := blockParse_all (fun k hk => (hrows k hk).1)
  have hlen := blockValues_length (p := p) (rows := rows) (vals := vals) (List.range (arwCount (p.word 0))) 0
    (fun i hi => (hrows i (List.mem_range.1 hi)).2.1)
  have hwrites := blockWrites_rows (c := s.taken t rest) (p := p) (rows := rows) (vals := vals) (arwCount (p.word 0)) 0 0 1
    (fun i hi => (hrows i (by simpa using hi)).2)
  rw [← List.range_eq_range'] at hwrites
  refine run_accept hp ha (by simp [opIs, ho]) hload ?_
  rw [hpar]
  simp only [hparse, hlen, hcount, hwrites, refusal, worst, Nat.zero_add, ne_eq, not_true_eq_false, if_false]

/-- In RUN the writes join the staged packets, and the reply follows at once or waits with the packet (R84, R85). -/
theorem wrote_staged (hp : s.HasPacket p rest) (hrun : s.chip.inRun = true) (l : List Write) :
    s.wrote (s.taken t rest) p l =
      (let r : Reply := { status := stOK, tag := p.tag, flg := p.flg, words := [], quad := quadOf l, reset := s.chip.kpr.sleepDue.isSome }
       let c := s.taken t rest
       let staged := fun (x : Staged) (q : Option Wait) =>
         ({ c with dev := { c.dev with staged := c.dev.staged ++ [x], wait := q } } : Chip)
       if p.flg.testBit 0 then { s with chip := staged ⟨l, some r, none⟩ (some .applied) }
       else { s with chip := (staged ⟨l, none, none⟩ none).answer r }) := by
  obtain ⟨h, e, -⟩ := taken_eq s t rest
  have hwq := taken_wq hp t
  rw [State.wrote, Chip.accept_, taken_inRun, hrun]
  cases p.flg.testBit 0
  · refine (flush_of_wq_nil hwq).trans ?_
    rw [e]
    rfl
  · refine (flush_of_wq_nil hwq).trans ?_
    rw [e]
    rfl

/-- Outside RUN every write is in effect before the reply is queued (R84). -/
theorem wrote_atOnce (hrun : s.chip.inRun = false) (l : List Write) :
    s.wrote (s.taken t rest) p l =
      (let c := (s.taken t rest).applyWrites l
       flush { s with chip := c.answer (c.wroteReply p.tag p.flg l []) }) := by
  rw [State.wrote, Chip.accept_, taken_inRun, hrun]
  rfl

end

/-- Settles O13: the parse of an accepted write finds nothing to refuse and lists the writes, which `accept_` takes in its two ways. -/
theorem setsAreAccepted : Obligations.SetsAreAccepted := by
  unfold Obligations.SetsAreAccepted
  exact ⟨fun t s p rest l hp ha ho hload hne hpar hl => setAttr_accepts hp ha ho hload hne hpar hl,
    fun t s p rest rows vals hp ha ho hload hcount hrows hpar => setBlock_accepts hp ha ho hload hcount hrows hpar,
    fun t s p rest l hp hrun => wrote_staged hp hrun l, fun t s p rest l hp hrun => wrote_atOnce hrun l⟩

end Sys2Proof.Scope
end

section
/-! SUPPORT. Consecutive words of the SRAM (R293): what a command that enters them leaves to be read. -/

namespace Sys2Proof.Scope

open Sys2Proof.Machine Sys2Proof.Machine.Reg Sys2Proof.Laws

/-- The writes of n words from word w of the SRAM on. -/
def wordsFrom (w n : Nat) (g : Nat → Word) : List (Nat × Word) := (upTo n).map (fun k => (4 * (w + k), g k))

/-- The SRAM with writes entered, in order. -/
def entered (m : Memory) (l : List (Nat × Word)) : Memory := l.foldl (fun m aw => Memory.writeWord m aw.1 aw.2) m

theorem entered_succ (m : Memory) (w n : Nat) (g : Nat → Word) :
    entered m (wordsFrom w (n + 1) g) = (entered m (wordsFrom w n g)).writeWord (4 * (w + n)) (g n) := by
  simp [entered, wordsFrom, upTo, List.range_succ]

/-- A word outside the four bytes written reads as before. -/
theorem readWord_writeWord_other (m : Memory) (a x : Nat) (v : Word) (h : x + 4 ≤ a ∨ a + 4 ≤ x) :
    (m.writeWord a v).readWord x = m.readWord x := by
  have hbyte : ∀ y, x ≤ y → y < x + 4 → (m.writeWord a v).readByte y = m.readByte y :=
    fun y _ _ => readByte_writeWord_other m a y v (by omega)
  simp only [Memory.readWord, hbyte x (by omega) (by omega), hbyte (x + 1) (by omega) (by omega), hbyte (x + 2) (by omega) (by omega),
    hbyte (x + 3) (by omega) (by omega)]

theorem readWord_entered (m : Memory) (w : Nat) (g : Nat → Word) {n k : Nat} (hk : k < n) :
    (entered m (wordsFrom w n g)).readWord (4 * (w + k)) = g k := by
  induction n with
  | zero => omega
  | succ n ih =>
    rw [entered_succ]
    rcases Nat.lt_succ_iff_lt_or_eq.1 hk with h | rfl
    · rw [readWord_writeWord_other _ _ _ _ (by omega), ih h]
    · exact readWord_writeWord_self _ _ _

theorem readByte_entered (m : Memory) (w n : Nat) (g : Nat → Word) {a : Nat} (h : a < 4 * w ∨ 4 * (w + n) ≤ a) :
    (entered m (wordsFrom w n g)).readByte a = m.readByte a := by
  induction n with
  | zero => rfl
  | succ n ih => rw [entered_succ, readByte_writeWord_other _ _ _ _ (by omega), ih (by omega)]

/-! A command's writes -/

theorem flush_sram {s : State} {c : Chip} {l : List (Nat × Word)} (h : c.pgm.wq = l) : (flush { s with chip := c }).sram = entered s.sram l := by
  rw [← h]
  rfl

theorem sramWrites_eq (c : Chip) (p w : Nat) (l : List Nat) :
    c.sramWrites p w l = { c with pgm := { c.pgm with wq := (c.sramWrites p w l).pgm.wq } } := by
  induction l generalizing c w with
  | nil => rfl
  | cons v l ih =>
    rw [Chip.sramWrites, ih]
    rfl

/-- Words written from word w of page 0 on. -/
theorem sramWrites_wq (c : Chip) (w : Nat) (l : List Nat) :
    (c.sramWrites 0 w l).pgm.wq = c.pgm.wq ++ wordsFrom w l.length (fun k => toWord (l.getD k 0)) := by
  induction l generalizing c w with
  | nil => simp [Chip.sramWrites, wordsFrom, upTo]
  | cons v l ih =>
    rw [Chip.sramWrites, ih]
    simp [Chip.sramWrite, wordsFrom, upTo, List.range_succ_eq_map, Function.comp_def, Nat.add_assoc, Nat.add_comm 1]

/-! The patch area cleared (R121, R122) -/

@[simp] theorem clearPatch_dev (c : Chip) : c.clearPatch.dev = { c.dev with load := none } := rfl

@[simp] theorem clearPatch_hpp (c : Chip) : c.clearPatch.hpp = c.hpp := rfl

theorem clearPatch_wq (c : Chip) : c.clearPatch.pgm.wq = c.pgm.wq ++ wordsFrom 0 16384 (fun _ => 0) := by
  simp only [wordsFrom, Nat.zero_add]
  rfl

theorem clearPatch_regs (c : Chip) : c.clearPatch.regs = (c.set DEV.STATE.LOADOPEN 0 0).regs := rfl

theorem get_clearPatch_loadopen (c : Chip) : c.clearPatch.get DEV.STATE.LOADOPEN = 0 :=
  (get_congr (clearPatch_regs c) _ _).trans (get_set_self c _ _ _)

theorem get_clearPatch_other (c : Chip) {f : Fld} {n : Nat} (h : f.lo ≠ DEV.STATE.LOADOPEN.lo) : c.clearPatch.get f n = c.get f n :=
  (get_congr (clearPatch_regs c) f n).trans (get_set_other c _ _ _ _ _ (fun e => h e.2.1))

/-- Every word of the area reads 0 and nothing beyond it changes. -/
theorem area_cleared {s : State} {c : Chip} (h : c.pgm.wq = wordsFrom 0 16384 (fun _ => 0)) :
    (∀ k, k < 16384 → Memory.readWord (flush { s with chip := c }).sram (4 * k) = 0) ∧
      ∀ a, 65536 ≤ a → Memory.readByte (flush { s with chip := c }).sram a = Memory.readByte s.sram a := by
  rw [flush_sram h]
  refine ⟨fun k hk => ?_, fun a ha => readByte_entered s.sram 0 16384 _ (.inr (by omega))⟩
  have := readWord_entered s.sram 0 (fun _ => 0) hk
  rwa [Nat.zero_add] at this

end Sys2Proof.Scope
end

section
/-! CLAIM. Packets of another opcode while a load is open (R121, R122). -/

namespace Sys2Proof.Scope

open Sys2Proof.Machine Sys2Proof.Machine.Reg Sys2Proof.Laws

theorem closeLoad_open {c : Chip} (h : c.dev.load.isSome = true) : c.closeLoad = c.clearPatch := if_pos h

section

variable {s : State} {p : Packet} {rest : List BasinWord}

/-- Whatever queues a reply from the chip with its load closed ends the load. -/
theorem load_closed (hp : s.HasPacket p rest) (t : Nat) {u : State} {words : List Nat} {st : Nat}
    (hu : u = flush (s.refused (s.taken t rest).clearPatch p st words)) :
    u.chip.hpp.replies = replyTo s p st words ∧ u.chip.dev = { s.chip.dev with load := none } ∧
      u.chip.get DEV.STATE.LOADOPEN = 0 ∧ (∀ k, k < 16384 → Memory.readWord u.sram (4 * k) = 0) ∧
      ∀ a, 65536 ≤ a → Memory.readByte u.sram a = Memory.readByte s.sram a := by
  subst hu
  have hwq : (s.taken t rest).clearPatch.pgm.wq = wordsFrom 0 16384 (fun _ => 0) := by
    rw [clearPatch_wq, taken_wq hp, List.nil_append]
  refine ⟨answer_replies _ (taken_replies s t rest), ?_, get_clearPatch_loadopen _, area_cleared hwq⟩
  exact congrArg (fun d : Dev => { d with load := none }) (taken_dev s t rest)

/-- An opcode that the table does not hold closes the load and is refused. -/
theorem exec_unknown_closes {i : Instr} (hi : serves i p = true) (hp : s.HasPacket p rest) (hs : sound p)
    (hload : s.chip.dev.load.isSome = true) (ho : opRow p.opc = none) :
    exec i s = .next (flush (s.refused (s.taken (startAt i) rest).clearPatch p stBADOPC [0])) := by
  have hopc : p.opc ≠ 0xE0 := fun e => absurd ho (by rw [e]; decide)
  refine exec_of_judge1 hi hp (fun body => ?_)
  rw [judge1_row hs, ho, if_neg hopc, if_neg hopc, closeLoad_open (by simpa using hload)]
  exact refuse_eq (by decide) (by decide)

/-- An accepted packet of another opcode closes the load and is executed. -/
theorem interpret_closes (hp : s.HasPacket p rest) (ha : s.Accepts p) (hopc : p.opc ≠ 0xE0) (hload : s.chip.dev.load.isSome = true)
    (t : Nat) (mine : Packet → Bool) (hm : mine p = true) (body : Chip → Packet → Chip) :
    s.chip.interpret t mine body = body (s.taken t rest).clearPatch p := by
  obtain ⟨hlost, hlen, hcrc, o, ho, hflg, hphase, hstate, hfixed⟩ := ha
  have hstate : (s.taken t rest).clearPatch.state ∈ o.states := by
    rw [Chip.state, get_clearPatch_other _ (by decide), taken_get]
    exact hstate
  rw [interpret_judges hp hm, judge1_row ⟨hlost, hlen, hcrc⟩, ho, if_neg hopc, if_neg hopc, closeLoad_open (by simpa using hload)]
  simp only [rowVerdict, hflg, hphase, hstate, ne_eq, not_true_eq_false, or_self, if_false]
  cases hn : o.len with
  | none => rfl
  | some n => exact if_neg (fun hne => hne (hfixed n hn))

end

/-- Settles O11: the load closes before the opcode is judged, so that the refusal and TIME_GET both find it closed. -/
theorem openLoadClosesOnOtherOpcode : Obligations.OpenLoadClosesOnOtherOpcode := by
  unfold Obligations.OpenLoadClosesOnOtherOpcode
  refine ⟨fun i s p rest hi hp hs hload ho => ⟨_, exec_unknown_closes hi hp hs hload ho, load_closed hp _ rfl⟩,
    fun t s p rest ho hp ha hload => ?_⟩
  obtain ⟨hreplies, hrest⟩ := load_closed hp t rfl
  exact ⟨_, (exec_timeGet t s).trans (run_flush (interpret_closes hp ha (by simp [ho]) hload t _ (by simp [opIs, ho]) _)),
    ⟨_, hreplies⟩, hrest⟩

end Sys2Proof.Scope
end

section
/-! CLAIM. Patch loads (R119 to R121). -/

namespace Sys2Proof.Scope

open Sys2Proof.Machine Sys2Proof.Machine.Reg Sys2Proof.Laws

/-! What a refusal leaves -/

/-- Attributes in which the port notes a refused length or CRC (R50, R51). -/
def refusalIds : List Nat := [HPP.STAT.LENE.id, HPP.CNTLEN.COUNT.id, HPP.CNTCRC.COUNT.id]

theorem faulted_dev (c : Chip) (f k : Fld) : (faulted c f k).dev = c.dev := raise_dev _ _ _ _

/-- A refusal answers from a chip that differs in the port's flags, its counters and the events in flight alone. -/
theorem refuseWith_eq (c : Chip) (p : Packet) (st : Nat) (words : List Nat) :
    ∃ d : Chip, c.refuseWith p st words = d.answer { status := st, tag := p.tag, flg := p.flg, words := words } ∧ d.dev = c.dev ∧
      d.hpp = c.hpp ∧ d.pgm = c.pgm ∧ ∀ (f : Fld) (n : Nat), f.id ∉ refusalIds → d.get f n = c.get f n := by
  have hids : ∀ {f k : Fld}, f.id ∈ refusalIds → k.id ∈ refusalIds → ∀ (g : Fld) (n : Nat), g.id ∉ refusalIds →
      (faulted c f k).get g n = c.get g n :=
    fun hf hk g n hg => get_faulted_other c (fun e => hg (e ▸ hf)) (fun e => hg (e ▸ hk))
  unfold Chip.refuseWith
  split
  · exact ⟨faulted c HPP.STAT.LENE HPP.CNTLEN.COUNT, rfl, faulted_dev _ _ _, faulted_hpp _, faulted_pgm _, hids (by decide) (by decide)⟩
  · split
    · exact ⟨faulted c HPP.STAT.CRCE HPP.CNTCRC.COUNT, rfl, faulted_dev _ _ _, faulted_hpp _, faulted_pgm _, hids (by decide) (by decide)⟩
    · exact ⟨c, rfl, rfl, rfl, rfl, fun _ _ _ => rfl⟩

/-! BEGIN (R120) -/

/-- The chip after a BEGIN: no patch is active, load l is open. -/
def loadBegun (c : Chip) (l : PatchLoad) : Chip :=
  let d := ((c.set DEV.STATE.PATCHED 0 0).set DEV.ROM.PATCHVER 0 0).set DEV.STATE.LOADOPEN 0 1
  { d with dev := { d.dev with load := some l } }

/-- The chip after a FINISH that verifies: the patch is active under its version. -/
def patchActive (c : Chip) (version : Nat) : Chip :=
  let d := ((c.set DEV.STATE.PATCHED 0 1).set DEV.ROM.PATCHVER 0 version).set DEV.STATE.LOADOPEN 0 0
  { d with dev := { d.dev with load := none } }

/-- The chip after a DATA of load l: its words are entered behind those that arrived before. -/
def dataEntered (c : Chip) (l : PatchLoad) (p : Packet) : Chip :=
  let d := c.sramWrites 0 l.arrived p.params
  { d with dev := { d.dev with load := some { l with arrived := l.arrived + p.len } } }

theorem dataEntered_eq (c : Chip) (l : PatchLoad) (p : Packet) :
    (dataEntered c l p).dev = { c.dev with load := some { l with arrived := l.arrived + p.len } } ∧
      (dataEntered c l p).regs = c.regs ∧ (dataEntered c l p).hpp = c.hpp := by
  rw [dataEntered, sramWrites_eq]
  exact ⟨rfl, rfl, rfl⟩

theorem loadBegun_dev (c : Chip) (l : PatchLoad) : (loadBegun c l).dev = { c.dev with load := some l } := rfl

theorem patchActive_dev (c : Chip) (version : Nat) : (patchActive c version).dev = { c.dev with load := none } := rfl

/-- The fields of a patch and of its load. -/
def patchFields : List (Fld × Nat) := [(DEV.STATE.PATCHED, 0), (DEV.ROM.PATCHVER, 0), (DEV.STATE.LOADOPEN, 0)]

/-- What the three fields of a patch read once they are set, one after the other. -/
theorem get_patchFields (c : Chip) (a v o : Nat) :
    (((c.set DEV.STATE.PATCHED 0 a).set DEV.ROM.PATCHVER 0 v).set DEV.STATE.LOADOPEN 0 o).get DEV.STATE.PATCHED = a % 2 ∧
      (((c.set DEV.STATE.PATCHED 0 a).set DEV.ROM.PATCHVER 0 v).set DEV.STATE.LOADOPEN 0 o).get DEV.ROM.PATCHVER = v % 65536 ∧
      (((c.set DEV.STATE.PATCHED 0 a).set DEV.ROM.PATCHVER 0 v).set DEV.STATE.LOADOPEN 0 o).get DEV.STATE.LOADOPEN = o % 2 := by
  refine ⟨?_, ?_, get_set_self _ _ _ _⟩
  · rw [get_set_other _ _ _ _ _ _ (by decide), get_set_other _ _ _ _ _ _ (by decide), get_set_self]
    rfl
  · rw [get_set_other _ _ _ _ _ _ (by decide), get_set_self]
    rfl

theorem setPatchFields_moves {c d : Chip} (h : Moves patchFields [.hpp, .dev] c d) (a v o : Nat) :
    Moves patchFields [.hpp, .dev] c (((d.set DEV.STATE.PATCHED 0 a).set DEV.ROM.PATCHVER 0 v).set DEV.STATE.LOADOPEN 0 o) :=
  ((h.set _ (by simp [patchFields])).set _ (by simp [patchFields])).set _ (by simp [patchFields])

section

variable {t : Nat} {s : State} {p : Packet} {rest : List BasinWord} (hp : s.HasPacket p rest) (ha : s.Accepts p) (ho : p.opc = 0xE0)

include hp ha ho

/-- A command of PATCH_LOAD executes its phase's packet, whether a load is open or not. -/
theorem run_phase {k : Nat} (hk : p.flg % 4 = k) {body : Memory → Chip → Packet → Chip} {c : Chip}
    (hb : body s.sram (s.taken t rest) p = c) :
    run (fun m c => c.interpret t (patchPhase k) (body m)) s = .next (flush { s with chip := c }) :=
  run_flush ((interpret_accepts t (patchPhase k) (body s.sram) hp ha (by simp [patchPhase, ho, hk]) (.inl ho)).trans hb)

/-- One that writes no SRAM changes the chip alone. -/
theorem run_phase_settled {k : Nat} (hk : p.flg % 4 = k) {body : Memory → Chip → Packet → Chip} {c : Chip}
    (hb : body s.sram (s.taken t rest) p = c) (hq : c.pgm.wq = []) :
    run (fun m c => c.interpret t (patchPhase k) (body m)) s = .next { s with chip := c } :=
  (run_phase hp ha ho hk hb).trans (congrArg _ (flush_of_wq_nil hq))

theorem patchBegin_opens (hflg : p.flg = 0) (hlen : p.len = 3) (hlow : p.word 1 ≠ 0) (hhigh : p.word 1 ≤ 16384)
    (hmin : s.chip.get RST.FSEC.PATCHMIN ≤ p.word 0 % 65536) (hkey : s.chip.bitOn RST.FSEC.KEYREV 0 (p.word 2 % 4) = false)
    (hlock : ¬(s.chip.on RST.FSEC.PLOCK = true ∧ s.chip.on RST.FSEC.DBGLOCK = false)) :
    ∃ u, exec (.patchBegin t) s = .next u ∧ u.chip.get DEV.STATE.PATCHED = 0 ∧ u.chip.get DEV.ROM.PATCHVER = 0 ∧
      u.chip.get DEV.STATE.LOADOPEN = 1 ∧ u.chip.dev = { s.chip.dev with load := some ⟨p.word 0, p.word 1, p.word 2, 0⟩ } ∧
      u.chip.hpp.replies = replyTo s p stOK [] ∧
      Only s u [(DEV.STATE.PATCHED, 0), (DEV.ROM.PATCHVER, 0), (DEV.STATE.LOADOPEN, 0)] (fun a b => { a with hpp := b.hpp, dev := b.dev }) := by
  have hrange : ¬(p.word 1 = 0 ∨ 16384 < p.word 1 ∨ p.word 0 % 65536 < (s.taken t rest).get RST.FSEC.PATCHMIN) := by
    rw [taken_get]
    omega
  have hauth : ((s.taken t rest).bitOn RST.FSEC.KEYREV 0 (p.word 2 % 4) ||
      ((s.taken t rest).on RST.FSEC.PLOCK && !(s.taken t rest).on RST.FSEC.DBGLOCK)) = false := by
    rw [Chip.bitOn, taken_get, taken_on, taken_on]
    simpa using ⟨hkey, by simpa using hlock⟩
  have hexec : exec (.patchBegin t) s =
      .next { s with chip := (loadBegun (s.taken t rest) ⟨p.word 0, p.word 1, p.word 2, 0⟩).okay p [] } := by
    refine (exec_patchBegin t s).trans (run_phase_settled hp ha ho (c := (loadBegun (s.taken t rest) _).okay p []) (by simp [hflg]) ?_ (taken_wq hp t))
    simp only [hlen, hrange, hauth, ne_eq, not_true_eq_false, if_false, Bool.false_eq_true]
    rfl
  obtain ⟨hpatched, hver, hopen⟩ := get_patchFields (s.taken t rest) 0 0 1
  have hmoves := (setPatchFields_moves (taken_moves _ (by simp) s t rest) 0 0 1).parts
    (c := (loadBegun (s.taken t rest) ⟨p.word 0, p.word 1, p.word 2, 0⟩).okay p []) rfl rfl
  exact ⟨_, hexec, hpatched, hver, hopen, (loadBegun_dev _ _).trans (by rw [taken_dev]),
    answer_replies _ (taken_replies s t rest), rfl, rfl, hmoves.rest, hmoves.fields⟩

/-! DATA (R119, R120) -/

theorem patchData_beyond {l : PatchLoad} (hflg : p.flg = 1) (hlen : p.len ≠ 0) (hload : s.chip.dev.load = some l)
    (h : l.length < l.arrived + p.len) : exec (.patchData t) s = .next (s.refused (s.taken t rest) p stRANGE [0]) := by
  refine (exec_patchData t s).trans (run_phase_settled hp ha ho (c := (s.taken t rest).refuse p stRANGE) (by simp [hflg]) ?_ (taken_wq hp t))
  simp only [hlen, if_false, taken_dev, hload, h, if_true]

theorem patchData_unopened (hflg : p.flg = 1) (hlen : p.len ≠ 0) (hload : s.chip.dev.load = none) :
    exec (.patchData t) s = .next (s.refused (s.taken t rest) p stSTATE [0]) := by
  refine (exec_patchData t s).trans (run_phase_settled hp ha ho (c := (s.taken t rest).refuse p stSTATE) (by simp [hflg]) ?_ (taken_wq hp t))
  simp only [hlen, if_false, taken_dev, hload]

theorem patchData_enters {l : PatchLoad} (hflg : p.flg = 1) (hlen : p.len ≠ 0) (hload : s.chip.dev.load = some l)
    (h : l.arrived + p.len ≤ l.length) :
    ∃ u, exec (.patchData t) s = .next u ∧ u.chip.dev = { s.chip.dev with load := some { l with arrived := l.arrived + p.len } } ∧
      (∀ k, k < p.params.length → Memory.readWord u.sram (4 * (l.arrived + k)) = toWord (p.word k)) ∧
      (∀ a, a < 4 * l.arrived ∨ 4 * (l.arrived + p.params.length) ≤ a → Memory.readByte u.sram a = Memory.readByte s.sram a) ∧
      u.chip.hpp.replies = replyTo s p stOK [] ∧ u.chip.regs = s.chip.regs := by
  have hfits : ¬l.length < l.arrived + p.len := by omega
  have hexec : exec (.patchData t) s =
      .next (flush { s with chip := (dataEntered (s.taken t rest) l p).okay p [] }) := by
    refine (exec_patchData t s).trans (run_phase hp ha ho (by simp [hflg]) ?_)
    simp only [hlen, if_false, taken_dev, hload, hfits]
    rfl
  have hsram := flush_sram (s := s) (c := (dataEntered (s.taken t rest) l p).okay p [])
    ((sramWrites_wq _ _ _).trans (congrArg (· ++ _) (taken_wq hp t)))
  rw [List.nil_append] at hsram
  obtain ⟨hdev, hregs, hhpp⟩ := dataEntered_eq (s.taken t rest) l p
  refine ⟨_, hexec, ?_, fun k hk => ?_, fun a h => ?_, answer_replies _ ?_, ?_⟩
  · exact hdev.trans (by rw [taken_dev])
  · exact (congrArg (Memory.readWord · _) hsram).trans (readWord_entered _ _ _ hk)
  · exact (congrArg (Memory.readByte · _) hsram).trans (readByte_entered _ _ _ _ h)
  · rw [hhpp]
    exact taken_replies s t rest
  · exact hregs.trans (taken_regs s t rest)

/-! FINISH (R121) -/

theorem patchFinish_activates {l : PatchLoad} {r g : Nat} (hflg : p.flg = 2) (hlen : p.len = 16) (hload : s.chip.dev.load = some l)
    (hr : r = bigWord (p.params.take 8)) (hg : g = bigWord ((p.params.drop 8).take 8)) (hwhole : l.length ≤ l.arrived) (hr0 : r ≠ 0)
    (hg0 : g ≠ 0) (hgood : patchGood s.sram l r g = true) :
    ∃ u, exec (.patchFinish t) s = .next u ∧ u.chip.get DEV.STATE.PATCHED = 1 ∧ u.chip.get DEV.ROM.PATCHVER = l.begin0 % 65536 ∧
      u.chip.get DEV.STATE.LOADOPEN = 0 ∧ u.chip.dev = { s.chip.dev with load := none } ∧ u.chip.hpp.replies = replyTo s p stOK [] ∧
      Only s u [(DEV.STATE.PATCHED, 0), (DEV.ROM.PATCHVER, 0), (DEV.STATE.LOADOPEN, 0)]
        (fun a b => { a with hpp := b.hpp, dev := b.dev }) := by
  have hrange : ¬(l.arrived < l.length ∨ r = 0 ∨ g = 0) := by omega
  have hexec : exec (.patchFinish t) s = .next { s with chip := (patchActive (s.taken t rest) (l.begin0 % 65536)).okay p [] } := by
    refine (exec_patchFinish t s).trans (run_phase_settled hp ha ho (c := (patchActive (s.taken t rest) (l.begin0 % 65536)).okay p []) (by simp [hflg]) ?_ (taken_wq hp t))
    simp only [hlen, taken_dev, hload, ← hr, ← hg, hrange, hgood, ne_eq, not_true_eq_false, if_false, Bool.not_true, Bool.false_eq_true]
    rfl
  obtain ⟨hpatched, hver, hopen⟩ := get_patchFields (s.taken t rest) 1 (l.begin0 % 65536) 0
  have hmoves := (setPatchFields_moves (taken_moves _ (by simp) s t rest) 1 (l.begin0 % 65536) 0).parts
    (c := (patchActive (s.taken t rest) (l.begin0 % 65536)).okay p []) rfl rfl
  exact ⟨_, hexec, hpatched, hver.trans (Nat.mod_mod _ _), hopen, (patchActive_dev _ _).trans (by rw [taken_dev]),
    answer_replies _ (taken_replies s t rest), rfl, rfl, hmoves.rest, hmoves.fields⟩

end

/-- A FINISH refused with any status ends the load, clears the area and leaves no patch active. -/
theorem refuseFinish_ends {s u : State} {p : Packet} {rest : List BasinWord} (hp : s.HasPacket p rest) (t st : Nat)
    (hu : u = flush { s with chip := (s.taken t rest).refuseFinish p st }) :
    u.chip.dev = { s.chip.dev with load := none } ∧ u.chip.get DEV.STATE.LOADOPEN = 0 ∧
      u.chip.get DEV.STATE.PATCHED = 0 ∧ u.chip.get DEV.ROM.PATCHVER = 0 ∧ (∀ k, k < 16384 → Memory.readWord u.sram (4 * k) = 0) ∧
      u.chip.hpp.replies = replyTo s p st [0] := by
  obtain ⟨d, hd, hdev, hhpp, hpgm, hget⟩ := refuseWith_eq (s.taken t rest).endPatch p st [0]
  have hwq : (d.answer { status := st, tag := p.tag, flg := p.flg, words := [0] }).pgm.wq = wordsFrom 0 16384 (fun _ => 0) := by
    rw [answer_pgm, hpgm, Chip.endPatch, set_pgm, set_pgm, clearPatch_wq, taken_wq hp, List.nil_append]
  rw [Chip.refuseFinish, Chip.refuse, hd] at hu
  subst hu
  have hfield : ∀ f n, f.id ∉ refusalIds → (flush { s with chip := d.answer { status := st, tag := p.tag, flg := p.flg, words := [0] } }).chip.get f n =
      (s.taken t rest).endPatch.get f n := hget
  refine ⟨?_, ?_, ?_, ?_, (area_cleared hwq).1, answer_replies _ ?_⟩
  · rw [flush_dev, answer_dev, hdev, Chip.endPatch, set_dev, set_dev, clearPatch_dev, taken_dev]
  · rw [hfield _ _ (by decide), Chip.endPatch, get_set_other _ _ _ _ _ _ (by decide), get_set_other _ _ _ _ _ _ (by decide),
      get_clearPatch_loadopen]
  · rw [hfield _ _ (by decide), Chip.endPatch, get_set_other _ _ _ _ _ _ (by decide), get_set_self]
    rfl
  · rw [hfield _ _ (by decide), Chip.endPatch, get_set_self]
    rfl
  · rw [hhpp]
    exact taken_replies s t rest

/-- The status with which a FINISH that does not activate its patch is refused: LEN first, then the load, its words with r and s, the
signature (R90, R121). -/
def finishStatus (load : Option PatchLoad) (len r g : Nat) : Nat :=
  if len ≠ 16 then stBADLEN
  else match load with
    | none => stSTATE
    | some l => if l.arrived < l.length ∨ r = 0 ∨ g = 0 then stRANGE else stAUTH

theorem patchFinish_refuses {t : Nat} {s : State} {p : Packet} {rest : List BasinWord} {r g : Nat} (hp : s.HasPacket p rest)
    (ha : s.Accepts p) (ho : p.opc = 0xE0) (hflg : p.flg = 2) (hr : r = bigWord (p.params.take 8))
    (hg : g = bigWord ((p.params.drop 8).take 8))
    (h : p.len ≠ 16 ∨ s.chip.dev.load = none ∨ (∃ l, s.chip.dev.load = some l ∧
      (l.arrived < l.length ∨ r = 0 ∨ g = 0 ∨ patchGood s.sram l r g = false))) :
    exec (.patchFinish t) s =
      .next (flush { s with chip := (s.taken t rest).refuseFinish p (finishStatus s.chip.dev.load p.len r g) }) := by
  refine (exec_patchFinish t s).trans (run_phase hp ha ho (by simp [hflg]) ?_)
  by_cases hlen : p.len = 16
  · cases hload : s.chip.dev.load with
    | none => simp only [finishStatus, hlen, taken_dev, hload, ne_eq, not_true_eq_false, if_false]
    | some l =>
      obtain hbad : l.arrived < l.length ∨ r = 0 ∨ g = 0 ∨ patchGood s.sram l r g = false := by
        simpa [hlen, hload] using h
      by_cases hrange : l.arrived < l.length ∨ r = 0 ∨ g = 0
      · simp only [finishStatus, hlen, taken_dev, hload, ← hr, ← hg, hrange, ne_eq, not_true_eq_false, if_false, if_true]
      · have hgood : patchGood s.sram l r g = false := by
          by_contra hne
          exact hrange (by simpa [hne] using hbad)
        simp only [finishStatus, hlen, taken_dev, hload, ← hr, ← hg, hrange, hgood, ne_eq, not_true_eq_false, if_false, if_true,
          Bool.not_false]
  · simp only [finishStatus, hlen, ne_eq, not_false_eq_true, if_true]

/-- Settles O24: an accepted packet of PATCH_LOAD meets its phase's own rule, and each rule leaves the load, the area and the patch as
its words say. -/
theorem patchLoads : Obligations.PatchLoads := by
  unfold Obligations.PatchLoads
  refine ⟨fun t s p rest hp ha ho hflg hlen hlow hhigh hmin hkey hlock => patchBegin_opens hp ha ho hflg hlen hlow hhigh hmin hkey hlock,
    fun t s p rest l hp ha ho hflg hlen hload => ⟨patchData_beyond hp ha ho hflg hlen hload, patchData_enters hp ha ho hflg hlen hload⟩,
    fun t s p rest l r g hp ha ho hflg hlen hload hr hg => patchFinish_activates hp ha ho hflg hlen hload hr hg,
    fun t s p rest r g hp ha ho hflg hr hg h => ?_,
    fun t s p rest hp ha ho hload hflg hlen => patchData_unopened hp ha ho hflg hlen hload⟩
  obtain ⟨hdev, hopen, hpatched, hver, harea, hreplies⟩ := refuseFinish_ends hp t (finishStatus s.chip.dev.load p.len r g) rfl
  refine ⟨_, patchFinish_refuses hp ha ho hflg hr hg h, hdev, hopen, hpatched, hver, harea, hreplies.trans ?_⟩
  unfold finishStatus
  cases s.chip.dev.load <;> rfl

end Sys2Proof.Scope
end

section
/-! CLAIM. CONFIG_CHECK (R25, R101 to R103, R367). -/

namespace Sys2Proof.Scope

open Sys2Proof.Machine Sys2Proof.Machine.Reg Sys2Proof.Laws

/-! The count F of R367 depends on the engine's, the arms' and the lanes' fields alone -/

section

variable {c d : Chip} (h : ∀ (f : Fld) (n : Nat), f.id ≠ DEV.CFGRES.RESULT.id → f.id ≠ DEV.FOPS.F.id → d.get f n = c.get f n)

include h

theorem on_congr {f : Fld} (n : Nat) (hr : f.id ≠ DEV.CFGRES.RESULT.id) (hf : f.id ≠ DEV.FOPS.F.id) : d.on f n = c.on f n :=
  congrArg (· != 0) (h f n hr hf)

theorem slotOn_congr (s : Nat) : d.slotOn s = c.slotOn s := on_congr h s (by decide) (by decide)

theorem slotReads_congr (s : Nat) : d.slotReads s = c.slotReads s := by
  simp (disch := decide) only [Chip.slotReads, Chip.slotSources, Chip.members, slotOn_congr h, h]

theorem slotsOn_congr : d.slotsOn = c.slotsOn := by
  simp only [Chip.slotsOn, slotOn_congr h]

theorem slotDests_congr (s : Nat) : d.slotDests s = c.slotDests s := by
  simp (disch := decide) only [Chip.slotDests, on_congr h, h]

theorem drives_congr (s : Nat) : d.drives s = c.drives s := by
  simp only [Chip.drives, slotDests_congr h]

theorem growReaders_congr (cand : List Nat) (n : Nat) (l : List Nat) : d.growReaders cand n l = c.growReaders cand n l := by
  induction n generalizing l with
  | zero => rfl
  | succ n ih => simp only [Chip.growReaders, slotReads_congr h, ih]

theorem lrpSlots_congr : d.lrpSlots = c.lrpSlots := by
  simp (disch := decide) only [Chip.lrpSlots, growReaders_congr h, slotsOn_congr h, drives_congr h, h]

theorem slotOps_congr (s : Nat) : d.slotOps s = c.slotOps s := by
  simp (disch := decide) only [Chip.slotOps, Chip.secType, h]

theorem slotCount_congr (s : Nat) : d.slotCount s = c.slotCount s := by
  simp (disch := decide) only [Chip.slotCount, slotOps_congr h, on_congr h, h]

theorem slotWork_congr (s : Nat) : d.slotWork s = c.slotWork s := by
  simp (disch := decide) only [Chip.slotWork, slotCount_congr h, Chip.probeOps, on_congr h, h]

theorem pscLanes_congr : d.pscLanes = c.pscLanes := by
  simp (disch := decide) only [Chip.pscLanes, Chip.armLanes, Chip.laneArm, h]

theorem opsF_congr : d.opsF = c.opsF := by
  simp only [Chip.opsF, lrpSlots_congr h, slotWork_congr h, pscLanes_congr h, slotsOn_congr h]

end

/-! The result (R25) -/

theorem fst_ite_eq {q : Prop} [Decidable q] {a b k : Nat} {r : Nat × Nat} :
    (if q then (a, b) else r).1 = k ↔ q ∧ a = k ∨ ¬q ∧ r.1 = k := by
  by_cases h : q <;> simp [h]

theorem configResult_one (c : Chip) : c.configResult.1 = 1 ↔ c.get DEV.LAUNCH.LAUNCH < c.leastLaunch := by
  simp only [Chip.configResult, fst_ite_eq]
  cases c.blockFails.find? (fun x => x.2) <;> simp

theorem configResult_two (c : Chip) : c.configResult.1 = 2 ↔
    ¬c.get DEV.LAUNCH.LAUNCH < c.leastLaunch ∧ c.get DEV.TICK.PERIOD < c.get DEV.LAUNCH.LAUNCH + 12 := by
  simp only [Chip.configResult, fst_ite_eq]
  cases c.blockFails.find? (fun x => x.2) <;> simp

/-- The first condition of R25, in nanoseconds. -/
theorem leastLaunch_le (c : Chip) (n : Nat) : c.leastLaunch ≤ n ↔ 1050 + c.opsF ≤ 8 * n := by
  rw [Chip.leastLaunch, ceilDiv]
  omega

/-! The record (R103) -/

/-- The fields in which CONFIG_CHECK records its result. -/
def recordFields : List (Fld × Nat) := [(DEV.CFGRES.RESULT, 0), (DEV.CFGRES.BLOCK, 0), (DEV.FOPS.F, 0)]

theorem checkConfig_moves {c d : Chip} (h : Moves recordFields [.hpp] c d) : Moves recordFields [.hpp] c d.checkConfig.2 :=
  ((h.set _ (by simp [recordFields])).set _ (by simp [recordFields])).set _ (by simp [recordFields])

theorem get_checkConfig (c : Chip) : c.checkConfig.2.get DEV.CFGRES.RESULT = c.configResult.1 % 256 ∧
    c.checkConfig.2.get DEV.CFGRES.BLOCK = c.configResult.2 % 64 ∧ c.checkConfig.2.get DEV.FOPS.F = c.opsF % 2 ^ 24 := by
  unfold Chip.checkConfig
  refine ⟨?_, ?_, get_set_self _ _ _ _⟩
  · rw [get_set_other _ _ _ _ _ _ (by decide), get_set_other _ _ _ _ _ _ (by decide), get_set_self]
    rfl
  · rw [get_set_other _ _ _ _ _ _ (by decide), get_set_self]
    rfl

theorem checkConfig_opsF (c : Chip) : c.checkConfig.2.opsF = c.opsF :=
  opsF_congr fun f n hr hf => (checkConfig_moves moves_refl).fields f n fun ⟨e, he, hid, _⟩ => by
    simp only [recordFields, List.mem_cons, List.not_mem_nil, or_false] at he
    rcases he with rfl | rfl | rfl
    · exact hr hid
    · exact hr hid
    · exact hf hid

theorem checkConfig_words (c : Chip) : c.checkConfig.2.configWords =
    [2 ^ 24 * (c.configResult.1 % 256) + 2 ^ 16 * (c.configResult.2 % 64), c.opsF % 2 ^ 24, (1050 + c.opsF + 7) / 8 % 2 ^ 14] := by
  obtain ⟨hresult, hblock, -⟩ := get_checkConfig c
  rw [Chip.configWords, hresult, hblock, checkConfig_opsF, Chip.leastLaunch, checkConfig_opsF, ceilDiv]
  rfl

/-- Settles O15: the record is three writes of fields on which neither the checks nor the count F depend. -/
theorem configIsChecked : Obligations.ConfigIsChecked := by
  unfold Obligations.ConfigIsChecked
  intro t s p rest hp ha ho hload
  let c := s.taken t rest
  let d := c.checkConfig.2.answer
    { status := if c.configResult.1 = 0 then stOK else stRANGE, tag := p.tag, flg := p.flg, words := c.checkConfig.2.configWords }
  have hexec : exec (.configCheck t) s = .next { s with chip := d } := by
    refine run_interpret_accepts hp ha (by simp [opIs, ho]) hload ?_ (taken_wq hp t)
    by_cases h : c.configResult.1 = 0
    · refine (if_pos h).trans ?_
      simp only [d, h, if_true]
      rfl
    · refine (if_neg h).trans ?_
      simp only [d, h, if_false]
      exact refuseWith_plain (by decide) (by decide)
  obtain ⟨hresult, hblock, hf⟩ := get_checkConfig c
  have hmoves := (checkConfig_moves (taken_moves recordFields (ps := [.hpp]) (by simp) s t rest)).parts (c := d) rfl rfl
  have hlaunch : c.get DEV.LAUNCH.LAUNCH = s.chip.get DEV.LAUNCH.LAUNCH := taken_get _ _ _ _ _
  have hperiod : c.get DEV.TICK.PERIOD = s.chip.get DEV.TICK.PERIOD := taken_get _ _ _ _ _
  refine ⟨_, hexec, ⟨hresult, hblock, hf, ?_, ?_, ?_⟩, rfl, rfl, hmoves.rest, hmoves.fields⟩
  · exact (answer_replies _ (taken_replies s t rest)).trans (by rw [checkConfig_words])
  · rw [configResult_one, ← not_le, leastLaunch_le, not_le, hlaunch]
  · rw [configResult_two, not_lt, leastLaunch_le, hlaunch, hperiod]

end Sys2Proof.Scope
end

section
/-! CLAIM. ARM_MAP (R101, R164). -/

namespace Sys2Proof.Scope

open Sys2Proof.Machine Sys2Proof.Machine.Reg Sys2Proof.Laws

/-! A lane takes its place -/

/-- Lane n is in arm a, at position k of it. -/
def placeLane (c : Chip) (n a k : Nat) : Chip := (c.set LNK.STATE.ARM n a).set ARM.LST.POS n k

theorem get_placeLane_arm (c : Chip) (n a k : Nat) : (placeLane c n a k).get LNK.STATE.ARM n = a % 2 ^ 8 :=
  (get_set_other _ _ _ _ _ _ (fun e => absurd e.1 (by decide))).trans (get_set_self _ _ _ _)

theorem get_placeLane_pos (c : Chip) (n a k : Nat) : (placeLane c n a k).get ARM.LST.POS n = k % 2 ^ 7 := get_set_self _ _ _ _

theorem get_placeLane_other (c : Chip) {n m : Nat} (a k : Nat) (h : m ≠ n) (f : Fld) : (placeLane c n a k).get f m = c.get f m :=
  (get_set_other _ _ _ _ _ _ (fun e => h e.2.2)).trans (get_set_other _ _ _ _ _ _ (fun e => h e.2.2))

/-- The fields in which a lane's place shows. -/
def placeFields : List (Fld × Nat) := (List.range 192).flatMap (fun n => [(LNK.STATE.ARM, n), (ARM.LST.POS, n)])

theorem mem_placeFields {n : Nat} (h : n < 192) : (LNK.STATE.ARM, n) ∈ placeFields ∧ (ARM.LST.POS, n) ∈ placeFields :=
  ⟨List.mem_flatMap.2 ⟨n, List.mem_range.2 h, by simp⟩, List.mem_flatMap.2 ⟨n, List.mem_range.2 h, by simp⟩⟩

/-! Lanes placed one after the other -/

section

variable {α : Type} (lane arm pos : α → Nat)

/-- Each element of a list names a lane, its arm and its position. -/
def placeLanes (c : Chip) (l : List α) : Chip := c.each l (fun c x => placeLane c (lane x) (arm x) (pos x))

theorem get_placeLanes_other (c : Chip) {l : List α} {n : Nat} (h : n ∉ l.map lane) (f : Fld) :
    (placeLanes lane arm pos c l).get f n = c.get f n := by
  unfold placeLanes Chip.each
  induction l generalizing c with
  | nil => rfl
  | cons x l ih =>
    rw [List.map_cons, List.mem_cons, not_or] at h
    exact (ih _ h.2).trans (get_placeLane_other _ _ _ h.1 f)

theorem get_placeLanes_self (c : Chip) {l : List α} (hl : (l.map lane).Nodup) {x : α} (hx : x ∈ l) :
    (placeLanes lane arm pos c l).get LNK.STATE.ARM (lane x) = arm x % 2 ^ 8 ∧
      (placeLanes lane arm pos c l).get ARM.LST.POS (lane x) = pos x % 2 ^ 7 := by
  induction l generalizing c with
  | nil => simp at hx
  | cons y l ih =>
    rw [List.map_cons, List.nodup_cons] at hl
    rcases List.mem_cons.1 hx with rfl | hx
    · have hrest := get_placeLanes_other lane arm pos (placeLane c (lane x) (arm x) (pos x)) hl.1
      exact ⟨(hrest _).trans (get_placeLane_arm _ _ _ _), (hrest _).trans (get_placeLane_pos _ _ _ _)⟩
    · exact ih (placeLane c (lane y) (arm y) (pos y)) hl.2 hx

theorem placeLanes_moves {ps : List Part} {c d : Chip} {l : List α} (hl : ∀ x ∈ l, lane x < 192) (h : Moves placeFields ps c d) :
    Moves placeFields ps c (placeLanes lane arm pos d l) :=
  h.each fun x hx _ => (moves_refl.set _ (mem_placeFields (hl x hx)).1).set _ (mem_placeFields (hl x hx)).2

end

/-! The map -/

theorem mapArm_eq (c : Chip) (a : Nat) (l : List Nat) : c.mapArm a l =
    placeLanes Prod.fst (fun _ => a) Prod.snd (placeLanes id (fun _ => 0xFF) (fun _ => 0x7F) c (c.armLanes a)) l.zipIdx := rfl

theorem setBits_nodup (n v : Nat) : (setBits n v).Nodup := List.nodup_range.filter _

theorem mem_setBits {n v i : Nat} : i ∈ setBits n v ↔ i < n ∧ v.testBit i = true := by simp [setBits]

theorem mem_armLanes {c : Chip} {a n : Nat} : n ∈ c.armLanes a ↔ n < 192 ∧ c.laneArm n = a := by simp [Chip.armLanes, upTo]

section

variable {c : Chip} {a : Nat} {l : List Nat}

theorem mapArm_in (hnodup : l.Nodup) (ha : a ≤ 5) (hlen : l.length ≤ 96) {n : Nat} (hn : n ∈ l) :
    (c.mapArm a l).get LNK.STATE.ARM n = a ∧ (c.mapArm a l).get ARM.LST.POS n = l.idxOf n := by
  have hpos := List.idxOf_lt_length_iff.2 hn
  have hx : (n, l.idxOf n) ∈ l.zipIdx := List.mem_zipIdx_iff_getElem?.2 (by simp [hpos])
  obtain ⟨harm, hpos'⟩ := get_placeLanes_self Prod.fst (fun _ => a) Prod.snd
    (placeLanes id (fun _ => 0xFF) (fun _ => 0x7F) c (c.armLanes a)) (l := l.zipIdx) (by simpa using hnodup) hx
  rw [mapArm_eq]
  exact ⟨harm.trans (Nat.mod_eq_of_lt (by omega)), hpos'.trans (Nat.mod_eq_of_lt (by simp only; omega))⟩

theorem mapArm_out {n : Nat} (h192 : n < 192) (hn : n ∉ l) :
    (c.mapArm a l).get LNK.STATE.ARM n = (if c.laneArm n = a then 0xFF else c.laneArm n) ∧
      (c.mapArm a l).get ARM.LST.POS n = (if c.laneArm n = a then 0x7F else c.get ARM.LST.POS n) := by
  have hother := get_placeLanes_other Prod.fst (fun _ => a) Prod.snd
    (placeLanes id (fun _ => 0xFF) (fun _ => 0x7F) c (c.armLanes a)) (l := l.zipIdx) (n := n) (by simpa using hn)
  rw [mapArm_eq, hother, hother]
  by_cases h : c.laneArm n = a
  · simpa [h] using get_placeLanes_self id (fun _ => 0xFF) (fun _ => 0x7F) c (by rw [List.map_id]; exact (upTo_nodup 192).filter _)
      (mem_armLanes.2 ⟨h192, h⟩)
  · have hout := get_placeLanes_other id (fun _ => 0xFF) (fun _ => 0x7F) c (l := c.armLanes a) (n := n) (by simp [mem_armLanes, h])
    rw [if_neg h, if_neg h, hout, hout]
    exact ⟨rfl, rfl⟩

end

theorem mapArm_moves {ps : List Part} {c d : Chip} (a : Nat) {l : List Nat} (hl : ∀ n ∈ l, n < 192) (h : Moves placeFields ps c d) :
    Moves placeFields ps c (d.mapArm a l) := by
  rw [mapArm_eq]
  exact placeLanes_moves _ _ _ (fun x hx => hl _ (List.fst_mem_of_mem_zipIdx hx))
    (placeLanes_moves _ _ _ (fun x hx => (mem_armLanes.1 hx).1) h)

theorem mapRefused_iff {c : Chip} {p : Packet} {a : Nat} {l : List Nat} (ha : a = p.word 0 % 8) (hl : l = setBits 192 (mapMask p)) :
    c.mapRefused p = true ↔ 5 < a ∨ 96 < l.length ∨ ∃ n ∈ l, c.laneArm n < 6 ∧ c.laneArm n ≠ a := by
  subst ha hl
  simp [Chip.mapRefused, or_assoc]

/-- Settles O17: the arm gives up its lanes and then takes those of the mask, each once, in ascending order. -/
theorem armMapAssignsLanes : Obligations.ArmMapAssignsLanes := by
  unfold Obligations.ArmMapAssignsLanes
  intro t s p rest a l hp ha ho hload hword hmask
  have hlane : ∀ n, (s.taken t rest).laneArm n = s.chip.laneArm n := taken_get s t rest _
  have hrefused := mapRefused_iff (c := s.taken t rest) hword hmask
  simp only [hlane] at hrefused
  refine ⟨fun ⟨harm, hlen, hfree⟩ => ?_, fun h => ?_⟩
  · have haccept : (s.taken t rest).mapRefused p = false := by
      rw [Bool.eq_false_iff, Ne, hrefused]
      push Not
      exact ⟨harm, hlen, hfree⟩
    have hnodup : l.Nodup := hmask ▸ setBits_nodup _ _
    have hbelow : ∀ n ∈ l, n < 192 := fun n hn => (mem_setBits.1 (hmask ▸ hn)).1
    have hkept : Moves placeFields [] (s.taken t rest) ((s.taken t rest).mapArm a l) := mapArm_moves a hbelow moves_refl
    have hexec : exec (.armMap t) s = .next { s with chip := ((s.taken t rest).mapArm a l).okay p [] } := by
      refine run_interpret_accepts hp ha (by simp [opIs, ho]) hload ?_ ((congrArg Pgm.wq (hkept.pgm (by simp))).trans (taken_wq hp t))
      rw [haccept, hword, hmask]
      rfl
    have hmoves := (mapArm_moves a hbelow (taken_moves placeFields (ps := [.hpp]) (by simp) s t rest)).parts
      (c := ((s.taken t rest).mapArm a l).okay p []) rfl rfl
    have hreplies : ((s.taken t rest).mapArm a l).hpp.replies = s.chip.hpp.replies :=
      (congrArg Hpp.replies (hkept.hpp (by simp))).trans (taken_replies s t rest)
    refine ⟨_, hexec, answer_replies _ hreplies, fun n hn => ?_, fun n hn => ?_, rfl, rfl, hmoves.rest, hmoves.fields⟩ <;>
      by_cases hin : n ∈ l
    · rw [if_pos hin]
      exact (mapArm_in hnodup harm hlen hin).1
    · rw [if_neg hin, ← hlane]
      exact (mapArm_out hn hin).1
    · rw [if_pos hin]
      exact (mapArm_in hnodup harm hlen hin).2
    · rw [if_neg hin, ← hlane, ← taken_get s t rest]
      exact (mapArm_out hn hin).2
  · refine run_interpret_accepts hp ha (by simp [opIs, ho]) hload ?_ (taken_wq hp t)
    exact if_pos (hrefused.2 h)

end Sys2Proof.Scope
end

section
/-! CLAIM. LANE_ADMIT and LANE_RETIRE (R104, R105, R149 to R151, R154). -/

namespace Sys2Proof.Scope

open Sys2Proof.Machine Sys2Proof.Machine.Reg Sys2Proof.Laws

/-! A lane in use passes from one state to another -/

/-- The fields that show the passage of lane n to state st: an off-state check that runs ends outside STANDBY and BLOCKED, and STEP
ends with an admission. -/
def stateShown (c : Chip) (n st : Nat) : Chip :=
  let d := c.set LNK.STATE.STATE n st
  let d := if (c.lane n).odAt.isSome && !(st == lsStandby || st == lsBlocked) then d.set GPR.LDIAG.ODRES n 5 else d
  if c.lstate n = lsAdmit then d.set LNK.STATE.STEP n 0 else d

theorem setLaneState_eq {c : Chip} {n st : Nat} (hst : st ≠ c.lstate n) (hold : c.lstate n ≠ lsOff) (hoff : st ≠ lsOff) :
    ∃ v, c.setLaneState n st = (stateShown c n st).setLane n v := by
  unfold Chip.setLaneState
  simp only [hst, hold, hoff, if_false]
  exact ⟨_, rfl⟩

section

variable {c : Chip} {n st : Nat}

theorem stateShown_lnk : (stateShown c n st).lnk = c.lnk := by
  unfold stateShown
  split <;> split <;> rfl

theorem stateShown_now : (stateShown c n st).now = c.now := by
  unfold stateShown
  split <;> split <;> rfl

theorem stateShown_moves {ps : List Part} {l : List (Fld × Nat)} (hstate : (LNK.STATE.STATE, n) ∈ l)
    (hodres : ¬(st = lsStandby ∨ st = lsBlocked) → (GPR.LDIAG.ODRES, n) ∈ l) (hstep : c.lstate n = lsAdmit → (LNK.STATE.STEP, n) ∈ l) :
    Moves l ps c (stateShown c n st) := by
  have hset : Moves l ps c (c.set LNK.STATE.STATE n st) := moves_refl.set _ hstate
  have hcheck : Moves l ps c (if (c.lane n).odAt.isSome && !(st == lsStandby || st == lsBlocked)
      then (c.set LNK.STATE.STATE n st).set GPR.LDIAG.ODRES n 5 else c.set LNK.STATE.STATE n st) := by
    refine Moves.ite (fun h => hset.set _ (hodres ?_)) (fun _ => hset)
    simp only [Bool.and_eq_true, Bool.not_eq_true', Bool.or_eq_false_iff, beq_eq_false_iff_ne] at h
    rintro (e | e)
    · exact h.2.1 e
    · exact h.2.2 e
  exact Moves.ite (fun h => hcheck.set _ (hstep h)) (fun _ => hcheck)

theorem get_stateShown (hlt : st < 16) : (stateShown c n st).lstate n = st := by
  have hset : (c.set LNK.STATE.STATE n st).lstate n = st := (get_set_self _ _ _ _).trans (Nat.mod_eq_of_lt hlt)
  have hodres : ∀ d : Chip, (d.set GPR.LDIAG.ODRES n 5).lstate n = d.lstate n := fun d =>
    get_set_other _ _ _ _ _ _ (fun e => absurd e.1 (by decide))
  have hstep : ∀ d : Chip, (d.set LNK.STATE.STEP n 0).lstate n = d.lstate n := fun d =>
    get_set_other _ _ _ _ _ _ (fun e => absurd e.2.1 (by decide))
  unfold stateShown
  split <;> split <;> simp only [hstep, hodres, hset]

end

/-! Admission at the tick reference (R149, R154) -/

theorem admissible_old {c : Chip} {n : Nat} (h : c.admissible n = true) : c.lstate n = lsStandby ∨ c.lstate n = lsBlocked := by
  simp only [Chip.admissible, Bool.and_eq_true, Bool.or_eq_true, beq_iff_eq] at h
  exact h.1.imp_right (fun e => e.1)

/-- A lane that may be admitted enters ADMIT with its admission to start; the others are left alone. -/
theorem startAdmission_admits {c : Chip} {n : Nat} (h : c.admissible n = true) :
    (c.startAdmission n).lstate n = lsAdmit ∧ ((c.startAdmission n).lane n).adm = some {} ∧
      (∀ m, m ≠ n → (c.startAdmission n).lane m = c.lane m) ∧ (c.startAdmission n).now = c.now ∧
      Moves [(LNK.STATE.STATE, n), (GPR.LDIAG.ODRES, n)] [.lnk] c (c.startAdmission n) := by
  have hold : c.lstate n ≠ lsOff ∧ c.lstate n ≠ lsAdmit := by
    rcases admissible_old h with e | e <;> rw [e] <;> decide
  obtain ⟨v, hv⟩ := setLaneState_eq (fun e => hold.2 e.symm) hold.1 (by decide : lsAdmit ≠ lsOff)
  have hstart : c.startAdmission n =
      ((stateShown c n lsAdmit).setLane n v).setLane n { ((stateShown c n lsAdmit).setLane n v).lane n with adm := some {} } := by
    rw [Chip.startAdmission, hv]
  rw [hstart]
  refine ⟨get_stateShown (c := c) (n := n) (by decide), ?_, fun m hm => ?_, stateShown_now, ?_⟩
  · rw [lane_setLane_self]
  · rw [lane_setLane_other _ _ hm, lane_setLane_other _ _ hm, lane_congr stateShown_lnk]
  · have hshown : Moves [(LNK.STATE.STATE, n), (GPR.LDIAG.ODRES, n)] [.lnk] c (stateShown c n lsAdmit) :=
      stateShown_moves (by simp) (fun _ => by simp) (fun e => absurd e hold.2)
    exact (hshown.parts rfl rfl).parts rfl rfl

theorem admitWaiting_admission {c : Chip} {tag flg n : Nat} (h : c.dev.wait = some (.admission tag flg n)) :
    c.admitWaiting =
      if c.admissible n then
        ((waitsFor c none).startAdmission n).reply { status := stOK, tag := tag, flg := flg, words := [c.lstate n] }
      else (waitsFor c none).reply { status := stSTATE, tag := tag, flg := flg, words := [0] } := by
  unfold Chip.admitWaiting
  rw [h]
  rfl

theorem reply_ready {c : Chip} (h : c.hpp.rdy = true) (r : Reply) : c.reply r = c.answer r := by
  rw [Chip.reply, h]
  rfl

section

variable {s : State} {tag flg n : Nat} (hinv : s.Inv) (hrun : s.chip.inRun = true) (htick : s.chip.dev.ticking = true)
  (hrdy : s.chip.hpp.rdy = true) (hwait : s.chip.dev.wait = some (.admission tag flg n))

include hinv hrun htick hrdy hwait

theorem laneAdmitStart_admits (h : s.chip.admissible n = true) :
    ∃ u, exec .laneAdmitStart s = .next u ∧ u.chip.dev = { s.chip.dev with wait := none } ∧ u.chip.now = s.at_ s.chip.dev.nextT0 ∧
      u.chip.lstate n = lsAdmit ∧ (u.chip.lane n).adm = some {} ∧ (∀ m, m ≠ n → u.chip.lane m = s.chip.lane m) ∧
      u.chip.hpp = { s.chip.hpp with replies := s.chip.hpp.replies ++ [{ status := stOK, tag := tag, flg := flg, words := [s.chip.lstate n] }] } ∧
      Only s u [(LNK.STATE.STATE, n), (GPR.LDIAG.ODRES, n)] (fun a b => { a with hpp := b.hpp, dev := b.dev, lnk := b.lnk }) := by
  obtain ⟨-, hwq⟩ := hinv
  let c := waitsFor (s.chip.at_ s.chip.dev.nextT0) none
  let r : Reply := { status := stOK, tag := tag, flg := flg, words := [s.chip.lstate n] }
  obtain ⟨hstate, hadm, hother, hnow, hmoves⟩ := startAdmission_admits (c := c) h
  have hhpp : (c.startAdmission n).hpp = s.chip.hpp := hmoves.hpp (by simp)
  have hchip : (s.chip.at_ s.chip.dev.nextT0).admitWaiting = (c.startAdmission n).answer r := by
    rw [admitWaiting_admission (c := s.chip.at_ s.chip.dev.nextT0) hwait]
    refine (if_pos h).trans (reply_ready ?_ r)
    rw [hhpp]
    exact hrdy
  have hexec : exec .laneAdmitStart s = .next { s with chip := (c.startAdmission n).answer r } := by
    refine (exec_laneAdmitStart s).trans (run_of_chip_eq ((atReference_running hrun htick _).trans hchip) ?_)
    exact (congrArg Pgm.wq (hmoves.pgm (by simp))).trans hwq
  have hwaits : Moves [(LNK.STATE.STATE, n), (GPR.LDIAG.ODRES, n)] [.hpp, .dev, .lnk] s.chip c := moves_refl.parts rfl rfl
  have hall := (hwaits.trans (hmoves.mono (fun _ h => h) (by simp))).parts (c := (c.startAdmission n).answer r) rfl rfl
  have hdev : (c.startAdmission n).dev = { s.chip.dev with wait := none } := hmoves.dev (by simp)
  refine ⟨_, hexec, hdev, hnow, hstate, hadm, hother, ?_, rfl, rfl, hall.rest, hall.fields⟩
  exact congrArg (fun x : Hpp => { x with replies := x.replies ++ [r] }) hhpp

theorem laneAdmitStart_refuses (h : s.chip.admissible n = false) :
    ∃ u, exec .laneAdmitStart s = .next u ∧ u.chip.dev = { s.chip.dev with wait := none } ∧ u.chip.now = s.at_ s.chip.dev.nextT0 ∧
      u.chip.hpp = { s.chip.hpp with replies := s.chip.hpp.replies ++ [{ status := stSTATE, tag := tag, flg := flg, words := [0] }] } ∧
      Only s u [] (fun a b => { a with hpp := b.hpp, dev := b.dev }) := by
  obtain ⟨-, hwq⟩ := hinv
  let c := waitsFor (s.chip.at_ s.chip.dev.nextT0) none
  let r : Reply := { status := stSTATE, tag := tag, flg := flg, words := [0] }
  have hchip : (s.chip.at_ s.chip.dev.nextT0).admitWaiting = c.answer r := by
    rw [admitWaiting_admission (c := s.chip.at_ s.chip.dev.nextT0) hwait]
    refine (if_neg ?_).trans (reply_ready (c := c) hrdy r)
    exact fun e => absurd (h.symm.trans e) (by decide)
  have hexec : exec .laneAdmitStart s = .next { s with chip := c.answer r } :=
    (exec_laneAdmitStart s).trans (run_of_chip_eq ((atReference_running hrun htick _).trans hchip) hwq)
  exact ⟨_, hexec, rfl, rfl, rfl, rfl, rfl, rfl, fun _ _ _ => rfl⟩

end

/-! Acceptance of LANE_ADMIT, and LANE_RETIRE (R104, R105, R151) -/

/-- A lane in use that the host retires is BLOCKED with cause 1, bypassed as the packet says; the others are left alone. -/
theorem toBlocked_host {c : Chip} {n : Nat} (hoff : c.lstate n ≠ lsOff) (hblocked : c.lstate n ≠ lsBlocked) (byp : Bool) :
    (c.toBlocked n 1 byp).lstate n = lsBlocked ∧ (c.toBlocked n 1 byp).get LNK.STATE.CAUSE n = 1 ∧
      (c.toBlocked n 1 byp).get LNK.STAT.RETIRED n = 1 ∧ ((c.toBlocked n 1 byp).lane n).byp = byp ∧
      (∀ m, m ≠ n → (c.toBlocked n 1 byp).lane m = c.lane m) ∧
      Moves [(LNK.STATE.STATE, n), (LNK.STATE.CAUSE, n), (LNK.STAT.RETIRED, n), (LNK.STATE.STEP, n)] [.lnk] c (c.toBlocked n 1 byp) := by
  obtain ⟨v, hv⟩ := setLaneState_eq (fun e => hblocked e.symm) hoff (by decide : lsBlocked ≠ lsOff)
  let d := (stateShown c n lsBlocked).setLane n v
  let e := d.setLane n { d.lane n with byp := byp, measure := false }
  have hblock : c.toBlocked n 1 byp = (e.set LNK.STATE.CAUSE n 1).flag LNK.STAT.RETIRED n := by
    unfold Chip.toBlocked
    rw [hv]
    rfl
  have hstate : e.lstate n = lsBlocked := get_stateShown (c := c) (n := n) (by decide)
  rw [hblock]
  refine ⟨?_, ?_, get_set_self (e.set LNK.STATE.CAUSE n 1) LNK.STAT.RETIRED n 1, ?_, fun m hm => ?_, ?_⟩
  · refine ((get_flag_other _ _ _ (fun h => absurd h.1 (by decide))).trans ?_).trans hstate
    exact get_set_other _ _ _ _ _ _ (fun h => absurd h.2.1 (by decide))
  · exact (get_flag_other _ _ _ (fun h => absurd h.1 (by decide))).trans (get_set_self _ _ _ _)
  · exact congrArg LaneRec.byp (lane_setLane_self d n _)
  · exact (lane_setLane_other d _ hm).trans ((lane_setLane_other _ _ hm).trans (lane_congr stateShown_lnk m))
  · have hshown : Moves [(LNK.STATE.STATE, n), (LNK.STATE.CAUSE, n), (LNK.STAT.RETIRED, n), (LNK.STATE.STEP, n)] [.lnk] c
        (stateShown c n lsBlocked) := stateShown_moves (by simp) (fun h => absurd (.inr rfl) h) (fun _ => by simp)
    have hlanes := (hshown.parts (c := d) rfl rfl).parts (c := e) rfl rfl
    exact (hlanes.set (f := LNK.STATE.CAUSE) (n := n) 1 (by simp)).flag (by simp)

section

variable {t : Nat} {s : State} {p : Packet} {rest : List BasinWord} {n : Nat} (hp : s.HasPacket p rest) (ha : s.Accepts p)
  (hload : s.chip.dev.load = none)

/-- What the lane commands read of the chip, they read of the state's. -/
theorem taken_lanes (s : State) (t : Nat) (rest : List BasinWord) (n : Nat) :
    (s.taken t rest).laneRange n = s.chip.laneRange n ∧ (s.taken t rest).admissible n = s.chip.admissible n ∧
      (s.taken t rest).lstate n = s.chip.lstate n ∧ ∀ m, (s.taken t rest).lane m = s.chip.lane m := by
  obtain ⟨h, e, -⟩ := taken_eq s t rest
  rw [e]
  exact ⟨rfl, rfl, rfl, fun _ => rfl⟩

theorem laneRange_iff {c : Chip} : c.laneRange n = true ↔ 191 < n ∨ 5 < c.laneArm n := by simp [Chip.laneRange]

include hp ha hload

theorem laneAdmit_waits (ho : p.opc = 0x20) :
    exec (.laneAdmit t) s = .next (
      if 191 < p.word 0 % 256 ∨ 5 < s.chip.laneArm (p.word 0 % 256) then s.refused (s.taken t rest) p stRANGE [0]
      else if s.chip.admissible (p.word 0 % 256) then { s with chip := { s.taken t rest with dev := { s.chip.dev with
        wait := some (.admission p.tag p.flg (p.word 0 % 256)) } } }
      else s.refused (s.taken t rest) p stSTATE [0]) := by
  obtain ⟨hrange, hadm, -⟩ := taken_lanes s t rest (p.word 0 % 256)
  have hdev := taken_dev s t rest
  by_cases hr : s.chip.laneRange (p.word 0 % 256) = true
  · rw [if_pos (laneRange_iff.1 hr)]
    exact run_interpret_accepts hp ha (by simp [opIs, ho]) hload (if_pos (hrange.trans hr)) (taken_wq hp t)
  · rw [if_neg (fun e => hr (laneRange_iff.2 e))]
    have hin : ¬(s.taken t rest).laneRange (p.word 0 % 256) = true := fun e => hr (hrange.symm.trans e)
    cases hadmit : s.chip.admissible (p.word 0 % 256) with
    | true =>
      refine run_interpret_accepts hp ha (by simp [opIs, ho]) hload ((if_neg hin).trans ?_) (taken_wq hp t)
      rw [hadm, hadmit, hdev]
      rfl
    | false =>
      refine run_interpret_accepts hp ha (by simp [opIs, ho]) hload ((if_neg hin).trans ?_) (taken_wq hp t)
      rw [hadm, hadmit]
      rfl

theorem laneRetire_blocks (ho : p.opc = 0x21) (hn : n = p.word 0 % 256) (hlane : n ≤ 191) (harm : s.chip.laneArm n ≤ 5)
    (hblocked : s.chip.lstate n ≠ lsBlocked) (hoff : s.chip.lstate n ≠ lsOff) :
    ∃ u, exec (.laneRetire t) s = .next u ∧ u.chip.lstate n = lsBlocked ∧ u.chip.get LNK.STATE.CAUSE n = 1 ∧
      u.chip.get LNK.STAT.RETIRED n = 1 ∧ (u.chip.lane n).byp = (p.word 0).testBit 8 ∧
      (∀ m, m ≠ n → u.chip.lane m = s.chip.lane m) ∧ u.chip.hpp.replies = replyTo s p stOK [s.chip.lstate n] ∧
      Only s u [(LNK.STATE.STATE, n), (LNK.STATE.CAUSE, n), (LNK.STAT.RETIRED, n), (LNK.STATE.STEP, n)]
        (fun a b => { a with hpp := b.hpp, lnk := b.lnk }) := by
  subst hn
  obtain ⟨hrange, -, hold, hlanes⟩ := taken_lanes s t rest (p.word 0 % 256)
  obtain ⟨hstate, hcause, hretired, hbyp, hother, hmoves⟩ := toBlocked_host (c := s.taken t rest) (n := p.word 0 % 256)
    (by rwa [hold]) (by rwa [hold]) ((p.word 0).testBit 8)
  let d := ((s.taken t rest).toBlocked (p.word 0 % 256) 1 ((p.word 0).testBit 8)).okay p [s.chip.lstate (p.word 0 % 256)]
  have hexec : exec (.laneRetire t) s = .next { s with chip := d } := by
    refine run_interpret_accepts hp ha (by simp [opIs, ho]) hload ?_ ((congrArg Pgm.wq (hmoves.pgm (by simp))).trans (taken_wq hp t))
    have hin : ¬s.chip.laneRange (p.word 0 % 256) = true := fun e => by
      have := laneRange_iff.1 e
      omega
    simp only [hrange, hold]
    rw [if_neg hin]
    exact if_neg (fun e => e.elim hblocked hoff)
  have hall := ((taken_moves _ (by simp) s t rest).trans (hmoves.mono (qs := [.hpp, .lnk]) (fun _ h => h) (by simp))).parts (c := d) rfl rfl
  refine ⟨_, hexec, hstate, hcause, hretired, hbyp, fun m hm => (hother m hm).trans (hlanes m), answer_replies _ ?_, rfl, rfl,
    hall.rest, hall.fields⟩
  exact (congrArg Hpp.replies (hmoves.hpp (by simp))).trans (taken_replies s t rest)

theorem laneRetire_range (ho : p.opc = 0x21) (hn : n = p.word 0 % 256) (h : 191 < n ∨ 5 < s.chip.laneArm n) :
    exec (.laneRetire t) s = .next (s.refused (s.taken t rest) p stRANGE [0]) := by
  subst hn
  obtain ⟨hrange, -⟩ := taken_lanes s t rest (p.word 0 % 256)
  exact run_interpret_accepts hp ha (by simp [opIs, ho]) hload (if_pos (hrange.trans (laneRange_iff.2 h))) (taken_wq hp t)

theorem laneRetire_state (ho : p.opc = 0x21) (hn : n = p.word 0 % 256) (hlane : n ≤ 191) (harm : s.chip.laneArm n ≤ 5)
    (h : s.chip.lstate n = lsBlocked ∨ s.chip.lstate n = lsOff) :
    exec (.laneRetire t) s = .next (s.refused (s.taken t rest) p stSTATE [0]) := by
  subst hn
  obtain ⟨hrange, -, hold, -⟩ := taken_lanes s t rest (p.word 0 % 256)
  have hin : ¬s.chip.laneRange (p.word 0 % 256) = true := fun e => by
    have := laneRange_iff.1 e
    omega
  refine run_interpret_accepts hp ha (by simp [opIs, ho]) hload ?_ (taken_wq hp t)
  simp only [hrange, hold]
  rw [if_neg hin]
  exact if_pos h

end

/-- Settles O18: the lane commands are two transitions of one lane's state, whose fields and record are all that they change. -/
theorem laneCommands : Obligations.LaneCommands := by
  unfold Obligations.LaneCommands
  refine ⟨fun t s p rest hp ha ho hload => laneAdmit_waits hp ha hload ho, fun s tag flg n hinv hrun htick hrdy hwait hn => ?_,
    fun t s p rest n hp ha ho hload hn hlane harm hblocked hoff => laneRetire_blocks hp ha hload ho hn hlane harm hblocked hoff,
    fun t s p rest n hp ha ho hload hn => ⟨laneRetire_range hp ha hload ho hn, laneRetire_state hp ha hload ho hn⟩⟩
  cases hadm : s.chip.admissible n with
  | true =>
    obtain ⟨u, hexec, hdev, hnow, hstate, hrec, hother, hhpp, honly⟩ := laneAdmitStart_admits hinv hrun htick hrdy hwait hadm
    exact ⟨u, hexec, hdev, hnow, fun _ => ⟨hstate, hrec, hother, hhpp, honly⟩, fun h => absurd h (by decide)⟩
  | false =>
    obtain ⟨u, hexec, hdev, hnow, hhpp, honly⟩ := laneAdmitStart_refuses hinv hrun htick hrdy hwait hadm
    exact ⟨u, hexec, hdev, hnow, fun h => absurd h (by decide), fun _ => ⟨hhpp, honly⟩⟩

end Sys2Proof.Scope
end

section
/-! SUPPORT. Masks (R8, R110): the bits of a number built from a list of bit numbers. -/

namespace Sys2Proof.Scope

open Sys2Proof.Machine Sys2Proof.Machine.Reg Sys2Proof.Laws

theorem testBit_foldl_or (l : List Nat) (a i : Nat) :
    (l.foldl (fun a i => a ||| 2 ^ i) a).testBit i = (a.testBit i || decide (i ∈ l)) := by
  induction l generalizing a with
  | nil => simp
  | cons j l ih =>
    rw [List.foldl_cons, ih, Nat.testBit_or, Nat.testBit_two_pow, Bool.or_assoc]
    simp [eq_comm, List.mem_cons]

theorem testBit_ofBits (l : List Nat) (i : Nat) : (ofBits l).testBit i = decide (i ∈ l) := by
  rw [ofBits, testBit_foldl_or, Nat.zero_testBit, Bool.false_or]

end Sys2Proof.Scope
end

section
/-! CLAIM. CAPTURE_ARM, CAPTURE_RELEASE and PGM_HOST_TRIGGER (R106, R301 to R306). -/

namespace Sys2Proof.Scope

open Sys2Proof.Machine Sys2Proof.Machine.Reg Sys2Proof.Laws

/-! Rings and page descriptors -/

theorem ring_setRing_self (c : Chip) (r : Nat) (v : Ring) : (c.setRing r v).ring r = v := nget_nset_self _ _ _ _

theorem ring_setRing_other (c : Chip) {r k : Nat} (v : Ring) (h : k ≠ r) : (c.setRing r v).ring k = c.ring k := nget_nset_other _ _ _ _ _ _ h

/-- A descriptor field written reads back; another field of the page, and every field of another page, reads as before (R310). -/
theorem pd_setPd_self (c : Chip) (f : Fld) (p v : Nat) : (c.setPd f p v).pd f p = v % 2 ^ f.width := get_set_self _ _ _ _

theorem pd_setPd_lo (c : Chip) {f g : Fld} (p q v : Nat) (h : g.lo ≠ f.lo) : (c.setPd f p v).pd g q = c.pd g q :=
  get_set_other _ _ _ _ _ _ (fun e => h e.2.1)

theorem pd_setPd_page (c : Chip) (f : Fld) {p q : Nat} (v : Nat) (h : q ≠ p) : (c.setPd f p v).pd f q = c.pd f q := by
  refine get_set_other _ _ _ _ _ _ (fun e => h ?_)
  have hid : f.id + q / 256 = f.id + p / 256 := e.1
  have hinst : q % 256 = p % 256 := e.2.2
  omega

/-- A field whose id lies below the descriptors is no descriptor's. -/
theorem get_setPd (c : Chip) {f g : Fld} (p v n : Nat) (h : g.id < f.id) : (c.setPd f p v).get g n = c.get g n := by
  refine get_set_other _ _ _ _ _ _ (fun e => ?_)
  have hid : g.id = f.id + p / 256 := e.1
  omega

/-! A page goes to the free list -/

/-- The ring gives up page p, which goes to the free list (R306). -/
def giveUp (r : Nat) (c : Chip) (p : Nat) : Chip := (c.dropPage r p).freePage p

/-- The fields that show it: the page's state and trigger mark, and the link of a page of the ring. -/
def giveUpFields (pages : List Nat) (p : Nat) : List (Fld × Nat) :=
  [(pdsc PGM.PDSC.PST p, p % 256), (pdsc PGM.PDSC.TRG p, p % 256)] ++ pages.map (fun q => (pdsc PGM.PDSC.NEXT q, q % 256))

section

variable (r : Nat) (c : Chip) (p : Nat)

/-- The page before p in the ring names the one after it, when it named p. -/
def linkedPast : Chip :=
  match ((c.ring r).pages.takeWhile (fun q => q != p)).getLast? with
  | some q =>
    if c.pd PGM.PDSC.NEXT q = p then
      c.setPd PGM.PDSC.NEXT q ((((c.ring r).pages.dropWhile (fun q => q != p)).drop 1).headD noPage)
    else c
  | none => c

theorem linkedPast_cases : linkedPast r c p = c ∨ ∃ q ∈ (c.ring r).pages, ∃ v, linkedPast r c p = c.setPd PGM.PDSC.NEXT q v := by
  unfold linkedPast
  split
  · rename_i q hlast
    split
    · exact .inr ⟨q, List.takeWhile_subset _ (List.mem_of_getLast? hlast), _, rfl⟩
    · exact .inl rfl
  · exact .inl rfl

/-- The link past page p is the only field that dropping it may change, and it belongs to a page of the ring. -/
theorem dropPage_eq : ∃ d : Chip, (d = c ∨ ∃ q ∈ (c.ring r).pages, ∃ v, d = c.setPd PGM.PDSC.NEXT q v) ∧
    c.dropPage r p = d.setRing r { c.ring r with
      pages := (c.ring r).pages.filter (fun q => q != p), frozen := (c.ring r).frozen.filter (fun q => q != p) } := by
  have hdrop : c.dropPage r p = (linkedPast r c p).setRing r { (linkedPast r c p).ring r with
      pages := ((linkedPast r c p).ring r).pages.filter (fun q => q != p)
      frozen := ((linkedPast r c p).ring r).frozen.filter (fun q => q != p) } := rfl
  have hring : (linkedPast r c p).ring r = c.ring r := by
    rcases linkedPast_cases r c p with h | ⟨q, -, v, h⟩
    · rw [h]
    · rw [h]
      rfl
  rw [hring] at hdrop
  exact ⟨_, linkedPast_cases r c p, hdrop⟩

theorem giveUp_ring : (giveUp r c p).ring r = { c.ring r with
    pages := (c.ring r).pages.filter (fun q => q != p), frozen := (c.ring r).frozen.filter (fun q => q != p) } := by
  obtain ⟨d, -, h⟩ := dropPage_eq r c p
  rw [giveUp, h]
  exact ring_setRing_self _ _ _

theorem giveUp_ring_other {k : Nat} (hk : k ≠ r) : (giveUp r c p).ring k = c.ring k := by
  obtain ⟨d, hd, h⟩ := dropPage_eq r c p
  rw [giveUp, h]
  refine (ring_setRing_other d _ hk).trans ?_
  rcases hd with rfl | ⟨q, -, v, rfl⟩ <;> rfl

theorem giveUp_wq : (giveUp r c p).pgm.wq = c.pgm.wq := by
  obtain ⟨d, hd, h⟩ := dropPage_eq r c p
  rw [giveUp, h]
  rcases hd with rfl | ⟨q, -, v, rfl⟩ <;> rfl

theorem giveUp_moves {l : List (Fld × Nat)} (hl : ∀ e ∈ giveUpFields (c.ring r).pages p, e ∈ l) : Moves l [.pgm] c (giveUp r c p) := by
  have hpst : (pdsc PGM.PDSC.PST p, p % 256) ∈ l := hl _ (by simp [giveUpFields])
  have htrg : (pdsc PGM.PDSC.TRG p, p % 256) ∈ l := hl _ (by simp [giveUpFields])
  obtain ⟨d, hd, h⟩ := dropPage_eq r c p
  have hlink : Moves l [.pgm] c d := by
    rcases hd with rfl | ⟨q, hq, v, rfl⟩
    · exact moves_refl
    · exact moves_refl.set v (hl _ (List.mem_append_right _ (List.mem_map_of_mem hq)))
  have hdrop : Moves l [.pgm] c (c.dropPage r p) := by
    rw [h]
    exact hlink.parts rfl rfl
  exact (hdrop.set _ hpst).set _ htrg

theorem pd_giveUp_self : (giveUp r c p).pd PGM.PDSC.PST p = pstFree :=
  (pd_setPd_lo _ _ _ _ (by decide)).trans (pd_setPd_self _ _ _ _)

theorem pd_giveUp_other {q : Nat} (h : q ≠ p) : (giveUp r c p).pd PGM.PDSC.PST q = c.pd PGM.PDSC.PST q := by
  obtain ⟨d, hd, he⟩ := dropPage_eq r c p
  rw [giveUp, he]
  refine ((pd_setPd_lo _ _ _ _ (by decide)).trans (pd_setPd_page _ _ _ h)).trans ?_
  rcases hd with rfl | ⟨k, -, v, rfl⟩
  · rfl
  · exact pd_setPd_lo _ _ _ _ (by decide)

theorem giveUp_rstate (k : Nat) : (giveUp r c p).rstate k = c.rstate k := by
  obtain ⟨d, hd, he⟩ := dropPage_eq r c p
  rw [giveUp, he]
  refine ((get_setPd _ _ _ _ (by decide)).trans (get_setPd _ _ _ _ (by decide))).trans ?_
  rcases hd with rfl | ⟨q, -, v, rfl⟩
  · rfl
  · exact get_setPd _ _ _ _ (by decide)

end

/-! Pages given up one after the other -/

theorem filter_filter_ne (l k : List Nat) (p : Nat) :
    (l.filter (fun q => q != p)).filter (fun q => !k.contains q) = l.filter (fun q => !(p :: k).contains q) := by
  rw [List.filter_filter]
  congr 1
  funext q
  rw [List.contains_cons, Bool.not_or, Bool.and_comm]
  rfl

theorem giveUpAll_ring (r : Nat) (c : Chip) (fz : List Nat) : (c.each fz (giveUp r)).ring r = { c.ring r with
    pages := (c.ring r).pages.filter (fun q => !fz.contains q), frozen := (c.ring r).frozen.filter (fun q => !fz.contains q) } := by
  unfold Chip.each
  induction fz generalizing c with
  | nil => simp
  | cons p fz ih => rw [List.foldl_cons, ih, giveUp_ring, filter_filter_ne, filter_filter_ne]

theorem giveUpAll_ring_other (r : Nat) (c : Chip) (fz : List Nat) {k : Nat} (hk : k ≠ r) : (c.each fz (giveUp r)).ring k = c.ring k :=
  each_same (π := fun c : Chip => c.ring k) (fun c p => giveUp_ring_other r c p hk) c fz

theorem giveUpAll_wq (r : Nat) (c : Chip) (fz : List Nat) : (c.each fz (giveUp r)).pgm.wq = c.pgm.wq :=
  each_same (π := fun c : Chip => c.pgm.wq) (giveUp_wq r) c fz

theorem pd_giveUpAll (r : Nat) (c : Chip) (fz : List Nat) {q : Nat} (h : q ∈ fz ∨ c.pd PGM.PDSC.PST q = pstFree) :
    (c.each fz (giveUp r)).pd PGM.PDSC.PST q = pstFree := by
  unfold Chip.each
  induction fz generalizing c with
  | nil => exact h.resolve_left (by simp)
  | cons p fz ih =>
    refine ih _ ?_
    by_cases hq : q = p
    · exact .inr (hq ▸ pd_giveUp_self r c p)
    · rw [pd_giveUp_other r c p hq]
      exact h.imp_left (fun e => (List.mem_cons.1 e).resolve_left hq)

theorem giveUpAll_moves {l : List (Fld × Nat)} (r : Nat) (c : Chip) (fz : List Nat)
    (hl : ∀ p ∈ fz, ∀ e ∈ giveUpFields (c.ring r).pages p, e ∈ l) : Moves l [.pgm] c (c.each fz (giveUp r)) := by
  unfold Chip.each
  induction fz generalizing c with
  | nil => exact moves_refl
  | cons p fz ih =>
    refine (giveUp_moves r c p (hl p List.mem_cons_self)).trans (ih _ fun q hq e he => hl q (List.mem_cons_of_mem _ hq) e ?_)
    rw [giveUp_ring] at he
    simp only [giveUpFields, List.mem_append] at he ⊢
    exact he.imp_right (fun h => List.map_subset _ (List.filter_subset_self _) h)

/-! CAPTURE_RELEASE (R306) -/

theorem release_frozen {c : Chip} {r : Nat} (h : c.rstate r = rsFrozen) : c.release r =
    (((c.each (c.ring r).frozen (giveUp r)).set PGM.CAP.STATE r rsRun).set PGM.CAP.TPAGE r noPage).set PGM.CAP.FIRST r noPage := by
  unfold Chip.release
  rw [if_pos h]
  rfl

theorem release_queue {c : Chip} {r q : Nat} (h : c.rstate r = rsQueue) (hq : c.oldestClosed r = some q) : c.release r = giveUp r c q := by
  unfold Chip.release
  rw [if_neg (by rw [h]; decide), hq]
  rfl

section

variable {t : Nat} {s : State} {p : Packet} {rest : List BasinWord} {r : Nat} (hp : s.HasPacket p rest) (ha : s.Accepts p)
  (hload : s.chip.dev.load = none)

/-- What the capture commands read of the chip, they read of the state's. -/
theorem taken_capture (s : State) (t : Nat) (rest : List BasinWord) (r : Nat) :
    (s.taken t rest).rstate r = s.chip.rstate r ∧ (s.taken t rest).ring r = s.chip.ring r ∧
      (s.taken t rest).oldestClosed r = s.chip.oldestClosed r ∧ (s.taken t rest).ringInternal r = s.chip.ringInternal r := by
  obtain ⟨h, e, -⟩ := taken_eq s t rest
  rw [e]
  exact ⟨rfl, rfl, rfl, rfl⟩

/-- The fields that show the release of a frozen set: of the ring, of the pages freed, and of the links of its pages. -/
def releaseFields (r : Nat) (frozen pages : List Nat) : List (Fld × Nat) :=
  [(PGM.CAP.STATE, r), (PGM.CAP.TPAGE, r), (PGM.CAP.FIRST, r)] ++
    frozen.flatMap (fun q => [(pdsc PGM.PDSC.PST q, q % 256), (pdsc PGM.PDSC.TRG q, q % 256)]) ++
    pages.map (fun q => (pdsc PGM.PDSC.NEXT q, q % 256))

theorem giveUpFields_released {r q : Nat} {frozen pages : List Nat} (h : q ∈ frozen) :
    ∀ e ∈ giveUpFields pages q, e ∈ releaseFields r frozen pages := by
  intro e he
  rcases List.mem_append.1 he with he | he
  · exact List.mem_append_left _ (List.mem_append_right _ (List.mem_flatMap.2 ⟨q, h, he⟩))
  · exact List.mem_append_right _ he

theorem release_frozen_moves {c : Chip} (h : c.rstate r = rsFrozen) :
    Moves (releaseFields r (c.ring r).frozen (c.ring r).pages) [.pgm] c (c.release r) := by
  rw [release_frozen h]
  have hpages : Moves (releaseFields r (c.ring r).frozen (c.ring r).pages) [.pgm] c (c.each (c.ring r).frozen (giveUp r)) :=
    giveUpAll_moves r c _ (fun q hq => giveUpFields_released hq)
  exact ((hpages.set _ (by simp [releaseFields])).set _ (by simp [releaseFields])).set _ (by simp [releaseFields])

/-- The ring's own fields are no descriptors'. -/
theorem release_frozen_state {c : Chip} (h : c.rstate r = rsFrozen) : (c.release r).rstate r = rsRun := by
  rw [release_frozen h]
  refine ((get_set_other _ _ _ _ _ _ (fun e => absurd e.2.1 (by decide))).trans
    (get_set_other _ _ _ _ _ _ (fun e => absurd e.2.1 (by decide)))).trans (get_set_self _ _ _ _)

theorem release_frozen_pages {c : Chip} (h : c.rstate r = rsFrozen) {q : Nat} (hq : q ∈ (c.ring r).frozen) :
    (c.release r).pd PGM.PDSC.PST q = pstFree := by
  have hcap : ∀ (d : Chip) (f : Fld) (v : Nat), f.id < PGM.PDSC.PST.id → (d.set f r v).pd PGM.PDSC.PST q = d.pd PGM.PDSC.PST q :=
    fun d f v hf => get_set_other _ _ _ _ _ _ (fun e => by
      have hid : PGM.PDSC.PST.id + q / 256 = f.id := e.1
      omega)
  rw [release_frozen h, hcap _ _ _ (by decide), hcap _ _ _ (by decide), hcap _ _ _ (by decide)]
  exact pd_giveUpAll r c _ (.inl hq)

include hp ha hload

theorem captureRelease_frozen (ho : p.opc = 0x31) (hr : r = bitsOf (p.word 0) 28 24) (hst : s.chip.rstate r = rsFrozen) :
    ∃ u, exec (.captureRelease t) s = .next u ∧ u.chip.rstate r = rsRun ∧
      (∀ q ∈ (s.chip.ring r).frozen, u.chip.pd PGM.PDSC.PST q = pstFree) ∧ (u.chip.ring r).frozen = [] ∧
      (u.chip.ring r).pages = (s.chip.ring r).pages.filter (fun q => !(s.chip.ring r).frozen.contains q) ∧
      (∀ k, k ≠ r → u.chip.ring k = s.chip.ring k) ∧ u.chip.hpp.replies = replyTo s p stOK [rsRun] ∧
      Only s u (releaseFields r (s.chip.ring r).frozen (s.chip.ring r).pages) (fun a b => { a with hpp := b.hpp, pgm := b.pgm }) := by
  let c := s.taken t rest
  obtain ⟨hstate, hring, -, -⟩ := taken_capture s t rest r
  have hst' : c.rstate r = rsFrozen := hstate.trans hst
  have hrun := release_frozen_state hst'
  have hall := giveUpAll_ring r c (c.ring r).frozen
  have hrel : ∀ k, (c.release r).ring k = (c.each (c.ring r).frozen (giveUp r)).ring k := fun k => by
    rw [release_frozen hst']
    rfl
  have hwq : (c.release r).pgm.wq = [] := by
    rw [release_frozen hst']
    exact (giveUpAll_wq r c _).trans (taken_wq hp t)
  have hexec : exec (.captureRelease t) s = .next { s with chip := (c.release r).okay p [rsRun] } := by
    refine run_interpret_accepts hp ha (by simp [opIs, ho]) hload ?_ hwq
    simp only [← hr]
    rw [if_pos (by simp [hst', c]), hrun]
  have hmoves := release_frozen_moves hst'
  have hreplies : (c.release r).hpp.replies = s.chip.hpp.replies :=
    (congrArg Hpp.replies (hmoves.hpp (by simp))).trans (taken_replies s t rest)
  rw [hring] at hmoves hall
  have hframe := ((taken_moves _ (by simp) s t rest).trans (hmoves.mono (qs := [.hpp, .pgm]) (fun _ h => h) (by simp))).parts
    (c := (c.release r).okay p [rsRun]) rfl rfl
  have hring' := (hring ▸ hrel r).trans hall
  refine ⟨_, hexec, hrun, fun q hq => release_frozen_pages hst' (hring ▸ hq), ?_, ?_, fun k hk => ?_, answer_replies _ hreplies,
    rfl, rfl, hframe.rest, hframe.fields⟩
  · refine (congrArg Ring.frozen hring').trans ?_
    simp
  · exact congrArg Ring.pages hring'
  · exact (hrel k).trans ((giveUpAll_ring_other r c _ hk).trans (taken_capture s t rest k).2.1)

theorem captureRelease_queue {q : Nat} (ho : p.opc = 0x31) (hr : r = bitsOf (p.word 0) 28 24) (hst : s.chip.rstate r = rsQueue)
    (hhost : s.chip.ringInternal r = false) (hq : s.chip.oldestClosed r = some q) :
    ∃ u, exec (.captureRelease t) s = .next u ∧ u.chip.pd PGM.PDSC.PST q = pstFree ∧
      (u.chip.ring r).pages = (s.chip.ring r).pages.filter (fun x => x != q) ∧ u.chip.hpp.replies = replyTo s p stOK [rsQueue] ∧
      Only s u (giveUpFields (s.chip.ring r).pages q) (fun a b => { a with hpp := b.hpp, pgm := b.pgm }) := by
  let c := s.taken t rest
  obtain ⟨hstate, hring, hold, hint⟩ := taken_capture s t rest r
  have hst' : c.rstate r = rsQueue := hstate.trans hst
  have hrel := release_queue hst' (hold.trans hq)
  have hexec : exec (.captureRelease t) s = .next { s with chip := (giveUp r c q).okay p [rsQueue] } := by
    refine run_interpret_accepts hp ha (by simp [opIs, ho]) hload ?_ ((giveUp_wq r c q).trans (taken_wq hp t))
    simp only [← hr]
    rw [if_pos (by simp [hstate, hst, hold, hq, hint, hhost]), hrel, giveUp_rstate, hst']
  have hmoves : Moves (giveUpFields (s.chip.ring r).pages q) [.pgm] c (giveUp r c q) := giveUp_moves r c q (by rw [hring]; exact fun _ h => h)
  have hreplies : (giveUp r c q).hpp.replies = s.chip.hpp.replies :=
    (congrArg Hpp.replies (hmoves.hpp (by simp))).trans (taken_replies s t rest)
  have hframe := ((taken_moves _ (by simp) s t rest).trans (hmoves.mono (qs := [.hpp, .pgm]) (fun _ h => h) (by simp))).parts
    (c := (giveUp r c q).okay p [rsQueue]) rfl rfl
  refine ⟨_, hexec, pd_giveUp_self r c q, ?_, answer_replies _ hreplies, rfl, rfl, hframe.rest, hframe.fields⟩
  exact (congrArg Ring.pages (giveUp_ring r c q)).trans (by rw [hring])

end

/-! CAPTURE_ARM (R302) -/

section

variable {c : Chip} {r pre post trig : Nat}

/-- The ring's four fields are set. -/
def armed (c : Chip) (r pre post trig : Nat) : Chip :=
  (((c.set PGM.CAP.PRE r pre).set PGM.CAP.POST r post).set PGM.CAP.TRIG r trig).set PGM.CAP.STATE r rsArmed

/-- The fields of an arming. -/
def armFields (r : Nat) : List (Fld × Nat) := [(PGM.CAP.STATE, r), (PGM.CAP.PRE, r), (PGM.CAP.POST, r), (PGM.CAP.TRIG, r)]

theorem armed_moves {ps : List Part} {d : Chip} (h : Moves (armFields r) ps d c) : Moves (armFields r) ps d (armed c r pre post trig) :=
  (((h.set _ (by simp [armFields])).set _ (by simp [armFields])).set _ (by simp [armFields])).set _ (by simp [armFields])

/-- Outside RUN no trigger recognised at this instant counts. -/
theorem armRing_outside (hst : c.rstate r = rsRun ∨ c.rstate r = rsArmed) (hrun : c.inRun = false) :
    c.armRing r pre post trig = armed c r pre post trig := by
  have hstate : (armed c r pre post trig).state = c.state :=
    (armed_moves (ps := []) moves_refl).fields _ _ (fun ⟨e, he, hid, _⟩ => by
      simp only [armFields, List.mem_cons, List.not_mem_nil, or_false] at he
      rcases he with rfl | rfl | rfl | rfl <;> exact absurd (show DEV.STATE.STATE.id = PGM.CAP.STATE.id from hid) (by decide))
  have hrun' : (armed c r pre post trig).inRun = false := by
    rw [Chip.inRun, hstate]
    exact hrun
  unfold armed at hrun' ⊢
  unfold Chip.armRing
  simp only [if_pos hst, hrun', Bool.false_and, List.filter_false, List.getLast?_nil]

theorem get_armed (hpre : pre < 256) (hpost : post < 256) (htrig : trig < 128) :
    (armed c r pre post trig).rstate r = rsArmed ∧ (armed c r pre post trig).get PGM.CAP.PRE r = pre ∧
      (armed c r pre post trig).get PGM.CAP.POST r = post ∧ (armed c r pre post trig).get PGM.CAP.TRIG r = trig := by
  have hother : ∀ (d : Chip) (f g : Fld) (v : Nat), g.lo ≠ f.lo → (d.set f r v).get g r = d.get g r :=
    fun d f g v h => get_set_other _ _ _ _ _ _ (fun e => h e.2.1)
  refine ⟨get_set_self _ _ _ _, ?_, ?_, ?_⟩ <;> unfold armed
  · rw [hother _ _ _ _ (by decide), hother _ _ _ _ (by decide), hother _ _ _ _ (by decide), get_set_self]
    exact Nat.mod_eq_of_lt hpre
  · rw [hother _ _ _ _ (by decide), hother _ _ _ _ (by decide), get_set_self]
    exact Nat.mod_eq_of_lt hpost
  · rw [hother _ _ _ _ (by decide), get_set_self]
    exact Nat.mod_eq_of_lt htrig

end

section

variable {t : Nat} {s : State} {p : Packet} {rest : List BasinWord} {r pre post trig : Nat} (hp : s.HasPacket p rest) (ha : s.Accepts p)
  (ho : p.opc = 0x30) (hload : s.chip.dev.load = none) (hr : r = bitsOf (p.word 0) 28 24) (hpre : pre = bitsOf (p.word 0) 15 8)
  (hpost : post = bitsOf (p.word 0) 7 0) (htrig : trig = bitsOf (p.word 1) 6 0) (hcode : trig < 72 ∨ trig = 127)
  (hfits : pre + 1 + post ≤ s.chip.get PGM.RCFG.MINP r) (hst : s.chip.rstate r = rsRun ∨ s.chip.rstate r = rsArmed)

include hp ha ho hload hr hpre hpost htrig hcode hfits hst

/-- A packet that no check refuses arms the ring or, in RUN, stages the arming. -/
theorem captureArm_accepts {c : Chip} (hc : (if s.chip.inRun then
      { s.taken t rest with dev := { s.chip.dev with staged := s.chip.dev.staged ++ [⟨[], none, some (r, pre, post, trig)⟩] } }
      else (s.taken t rest).armRing r pre post trig) = c) (hwq : c.pgm.wq = []) :
    exec (.captureArm t) s = .next (s.answered c p [rsArmed]) := by
  have hrefused : (!trigCode trig || decide (s.chip.get PGM.RCFG.MINP r < pre + 1 + post)) = false := by
    have hdefined : trigCode trig = true := by
      rcases hcode with h | h <;> simp [trigCode, h]
    simp [hdefined, hfits]
  have hstate := (taken_capture s t rest r).1
  have hoff : ¬(s.chip.rstate r = rsOff ∨ s.chip.rstate r = rsQueue) := by
    rcases hst with h | h <;> rw [h] <;> decide
  have hbusy : ¬(s.chip.rstate r = rsPost ∨ s.chip.rstate r = rsFrozen) := by
    rcases hst with h | h <;> rw [h] <;> decide
  refine run_interpret_accepts hp ha (by simp [opIs, ho]) hload ?_ hwq
  simp only [← hr, ← hpre, ← hpost, ← htrig, taken_get, hrefused, hstate, hoff, hbusy, taken_inRun, taken_dev, hc, if_false,
    Bool.false_eq_true]
  rfl

theorem captureArm_outside (hrun : s.chip.inRun = false) :
    ∃ u, exec (.captureArm t) s = .next u ∧ u.chip.rstate r = rsArmed ∧ u.chip.get PGM.CAP.PRE r = pre ∧
      u.chip.get PGM.CAP.POST r = post ∧ u.chip.get PGM.CAP.TRIG r = trig ∧ u.chip.hpp.replies = replyTo s p stOK [rsArmed] ∧
      Only s u [(PGM.CAP.STATE, r), (PGM.CAP.PRE, r), (PGM.CAP.POST, r), (PGM.CAP.TRIG, r)] (fun a b => { a with hpp := b.hpp }) := by
  have harm : (s.taken t rest).armRing r pre post trig = armed (s.taken t rest) r pre post trig :=
    armRing_outside (by rwa [(taken_capture s t rest r).1]) ((taken_inRun s t rest).trans hrun)
  have hexec := captureArm_accepts (t := t) hp ha ho hload hr hpre hpost htrig hcode hfits hst
    (c := armed (s.taken t rest) r pre post trig) (by rw [hrun]; exact harm) (taken_wq hp t)
  obtain ⟨hstate, hp1, hp2, hp3⟩ := get_armed (c := s.taken t rest) (r := r) (pre := pre) (post := post) (trig := trig)
    (hpre ▸ Nat.mod_lt _ (by decide)) (hpost ▸ Nat.mod_lt _ (by decide)) (by omega)
  have hframe := (armed_moves (pre := pre) (post := post) (trig := trig) (taken_moves (armFields r) (ps := [.hpp]) (by simp) s t rest)).parts
    (c := (armed (s.taken t rest) r pre post trig).okay p [rsArmed]) rfl rfl
  exact ⟨_, hexec, hstate, hp1, hp2, hp3, answer_replies _ (taken_replies s t rest), rfl, rfl, hframe.rest, hframe.fields⟩

end

/-! PGM_HOST_TRIGGER (R303) -/

/-- The rings for which a host trigger of mask go is meant: all of the mask in RUN, elsewhere those armed, in POST or frozen. -/
def triggered (c : Chip) (go : Nat) : Nat :=
  if c.inRun then go % 2 ^ 32
  else ofBits ((setBits 32 (go % 2 ^ 32)).filter (fun r => decide (rsArmed ≤ c.rstate r ∧ c.rstate r ≤ rsFrozen)))

theorem testBit_triggered (c : Chip) (go r : Nat) : (triggered c go).testBit r = (decide (r < 32) && go.testBit r && (c.inRun ||
    c.rstate r == rsArmed || c.rstate r == rsPost || c.rstate r == rsFrozen)) := by
  unfold triggered
  cases hrun : c.inRun with
  | true =>
    rw [if_pos rfl, Nat.testBit_mod_two_pow]
    simp
  | false =>
    have hmid : (rsArmed ≤ c.rstate r ∧ c.rstate r ≤ rsFrozen) ↔ c.rstate r = rsArmed ∨ c.rstate r = rsPost ∨ c.rstate r = rsFrozen := by
      simp only [rsArmed, rsPost, rsFrozen]
      omega
    rw [if_neg (by simp), testBit_ofBits, Bool.eq_iff_iff]
    simp only [List.mem_filter, mem_setBits, Nat.testBit_mod_two_pow, decide_eq_true_eq, Bool.and_eq_true, Bool.or_eq_true, beq_iff_eq, hmid,
      Bool.false_eq_true, false_or, or_assoc]
    tauto

theorem pgmHostTrigger_flies {s : State} (hinv : s.Inv) (hfabric : s.chip.fabric = true) (t go : Nat) :
    ∃ u, exec (.pgmHostTrigger t go) s = .next u ∧ Only s u [] (fun a b => { a with pgm := b.pgm }) ∧
      u.chip.pgm = { s.chip.pgm with trig := s.chip.pgm.trig ++ (if triggered s.chip go = 0 then [] else
        [(.host (triggered s.chip go), (s.chip.at_ t).raw (if s.chip.inRun && s.chip.dev.ticking then s.chip.dev.nextT0 else s.at_ t))]) } := by
  obtain ⟨-, hwq⟩ := hinv
  let x := (s.chip.at_ t).raw (if s.chip.inRun && s.chip.dev.ticking then s.chip.dev.nextT0 else s.at_ t)
  have hexec : ∀ c, (s.chip.at_ t).hostTrigger (go % 2 ^ 32) x = c → c.pgm.wq = [] →
      exec (.pgmHostTrigger t go) s = .next { s with chip := c } := fun c hc hq => by
    refine (exec_pgmHostTrigger t go s).trans (run_of_chip_eq ((if_neg ?_).trans hc) hq)
    have hat : (s.chip.at_ t).fabric = s.chip.fabric := rfl
    rw [hat, hfabric]
    decide
  by_cases h : triggered s.chip go = 0
  · refine ⟨_, hexec (s.chip.at_ t) (if_pos h) hwq, ⟨rfl, rfl, rfl, fun _ _ _ => rfl⟩, ?_⟩
    rw [if_pos h, List.append_nil]
    rfl
  · refine ⟨_, hexec ((s.chip.at_ t).flyTrigger (.host (triggered s.chip go)) x) (if_neg h) hwq, ⟨rfl, rfl, rfl, fun _ _ _ => rfl⟩, ?_⟩
    rw [if_neg h]
    rfl

/-- Settles O19: an arming sets the ring's four fields, a release gives its pages up one after the other, a host trigger joins those in
flight for the rings that it is meant for. -/
theorem captureCommands : Obligations.CaptureCommands := by
  unfold Obligations.CaptureCommands
  refine ⟨fun t s p rest r pre post trig hp ha ho hload hr hpre hpost htrig hcode hfits hst => ⟨fun hrun => ?_, fun hrun =>
      captureArm_outside hp ha ho hload hr hpre hpost htrig hcode hfits hst hrun⟩,
    fun t s p rest r hp ha ho hload hr hst _ => captureRelease_frozen hp ha hload ho hr hst,
    fun t s p rest r q hp ha ho hload hr hst hhost hq => captureRelease_queue hp ha hload ho hr hst hhost hq,
    fun t go s hinv hfabric => ?_⟩
  · exact captureArm_accepts hp ha ho hload hr hpre hpost htrig hcode hfits hst (if_pos hrun) (taken_wq hp t)
  · obtain ⟨u, hexec, honly, hpgm⟩ := pgmHostTrigger_flies hinv hfabric t go
    exact ⟨u, hexec, honly, _, triggered s.chip go, hpgm, rfl, testBit_triggered s.chip go⟩

end Sys2Proof.Scope
end

section
/-! SUPPORT. Bits of a field cleared one after the other, and a change for each element of a list as it shows in one value of the chip. -/

namespace Sys2Proof.Scope

open Sys2Proof.Machine Sys2Proof.Machine.Reg Sys2Proof.Laws

theorem testBit_putBit_false (v j i : Nat) : (putBit v j false).testBit i = (v.testBit i && decide (i ≠ j)) := by
  have hput : putBit v j false = v - (v.testBit j).toNat * 2 ^ j := by
    rw [← Nat.and_two_pow]
    rfl
  rw [hput]
  cases hj : v.testBit j with
  | false =>
    by_cases h : i = j
    · simp [h, hj]
    · simp [h]
  | true =>
    have hodd : v / 2 ^ j % 2 = 1 := by simpa [Nat.testBit_eq_decide_div_mod_eq] using hj
    obtain ⟨q, hq⟩ : ∃ q, v / 2 ^ j = 2 * q + 1 := ⟨v / 2 ^ j / 2, by omega⟩
    have hv : v = 2 ^ j * (2 * q + 1) + v % 2 ^ j := by rw [← hq, Nat.div_add_mod]
    have hsub : v - true.toNat * 2 ^ j = 2 ^ j * (2 * q) + v % 2 ^ j := by
      rw [Bool.toNat_true, one_mul]
      rw [Nat.mul_add, Nat.mul_one] at hv
      omega
    have hlow : v % 2 ^ j < 2 ^ j := Nat.mod_lt _ (Nat.two_pow_pos j)
    have hbit : v.testBit i = (2 ^ j * (2 * q + 1) + v % 2 ^ j).testBit i := congrArg (·.testBit i) hv
    rw [hsub, hbit, Nat.testBit_two_pow_mul_add _ hlow, Nat.testBit_two_pow_mul_add _ hlow]
    rcases Nat.lt_trichotomy i j with h | h | h
    · simp [h, h.ne]
    · simp [h]
    · obtain ⟨k, rfl⟩ := Nat.exists_eq_add_of_lt h
      have hk : j + k + 1 - j = k + 1 := by omega
      rw [if_neg (by omega), if_neg (by omega), hk, Nat.testBit_add_one, Nat.testBit_add_one, show (2 * q + 1) / 2 = 2 * q / 2 by omega]
      simp [h.ne']

/-- A field of w bits whose bits listed are cleared one after the other. -/
theorem testBit_foldl_putBit {w j : Nat} (hj : j < w) (l : List Nat) (v : Nat) :
    (l.foldl (fun v j => putBit v j false % 2 ^ w) v).testBit j = (v.testBit j && !l.contains j) := by
  induction l generalizing v with
  | nil => simp
  | cons k l ih =>
    have hne : (!j == k) = decide (j ≠ k) := by simp [beq_eq_decide]
    rw [List.foldl_cons, ih, Nat.testBit_mod_two_pow, testBit_putBit_false, List.contains_cons, Bool.not_or, hne]
    simp [hj, Bool.and_assoc]

/-- What each single change does to one value of the chip, all of them together do in turn. -/
theorem each_foldl {α β : Type} {π : Chip → β} {g : β → α → β} {P : Chip → Prop} {f : Chip → α → Chip}
    (hf : ∀ c x, P c → P (f c x) ∧ π (f c x) = g (π c) x) {c : Chip} (hc : P c) (l : List α) :
    P (c.each l f) ∧ π (c.each l f) = l.foldl g (π c) := by
  unfold Chip.each
  induction l generalizing c with
  | nil => exact ⟨hc, rfl⟩
  | cons x l ih =>
    obtain ⟨hP, hπ⟩ := hf c x hc
    rw [List.foldl_cons, List.foldl_cons, ← hπ]
    exact ih hP

/-- A value that only the change for i alters is altered once, or not at all. -/
theorem each_once {β : Type} {π : Chip → β} {g : β → β} {f : Chip → Nat → Chip} {i : Nat} (hself : ∀ c, π (f c i) = g (π c))
    (hother : ∀ c k, k ≠ i → π (f c k) = π c) {l : List Nat} (hl : l.Nodup) (c : Chip) :
    π (c.each l f) = if i ∈ l then g (π c) else π c := by
  unfold Chip.each
  induction l generalizing c with
  | nil => simp
  | cons k l ih =>
    obtain ⟨hk, hl⟩ := List.nodup_cons.1 hl
    rw [List.foldl_cons, ih hl]
    by_cases hi : k = i
    · subst hi
      simp [hk, hself]
    · simp [hother c k hi, Ne.symm hi]

end Sys2Proof.Scope
end

section
/-! CLAIM. TRIP_CLEAR and FAULT_ACK (R110 to R113, R258, R483, R484). -/

namespace Sys2Proof.Scope

open Sys2Proof.Machine Sys2Proof.Machine.Reg Sys2Proof.Laws

/-! The latches named are cleared (R110); without ticks the holds follow (R258) -/

section

variable (c : Chip) (m : Nat)

/-- The latches that stay. -/
def unlatched : Chip := c.set MON.LATCH.LATCH 0 (ofBits ((setBits 104 (c.get MON.LATCH.LATCH)).filter (fun j => !m.testBit j)))

theorem testBit_unlatched {j : Nat} (hj : j < 104) :
    ((unlatched c m).get MON.LATCH.LATCH).testBit j = ((c.get MON.LATCH.LATCH).testBit j && !m.testBit j) := by
  have hget : (unlatched c m).get MON.LATCH.LATCH = _ := get_set_self c MON.LATCH.LATCH 0 _
  rw [hget, Nat.testBit_mod_two_pow, testBit_ofBits, Bool.eq_iff_iff]
  have hw : j < MON.LATCH.LATCH.width := hj
  simp [mem_setBits, hw, hj]

theorem latchedTargets_congr {c d : Chip} (h : ∀ (f : Fld) (n : Nat), f.id = MON.LATCH.LATCH.id ∨ f.id = MON.ROUTE.ARM.id → d.get f n = c.get f n) :
    d.latchedTargets = c.latchedTargets := by
  simp (disch := decide) only [Chip.latchedTargets, Chip.route, h]

theorem keeps_endHolds : Keeps (MON.HOLD.HELD.id :: heldIds) heldParts c c.endHolds :=
  keeps_holdsChanged (fun _ h => List.mem_cons_of_mem _ h) (fun _ h => h) (keeps_set keeps_refl List.mem_cons_self)

theorem latchedTargets_endHolds : c.endHolds.latchedTargets = c.latchedTargets :=
  latchedTargets_congr fun f n hf => (keeps_endHolds c).fields f n (by rcases hf with h | h <;> rw [h] <;> decide)

/-- The targets held are those that the latches route to. -/
theorem held_endHolds : c.endHolds.get MON.HOLD.HELD = c.endHolds.latchedTargets % 2 ^ MON.HOLD.HELD.width := by
  have hheld : Keeps heldIds heldParts (c.set MON.HOLD.HELD 0 c.latchedTargets) c.endHolds :=
    keeps_holdsChanged (fun _ h => h) (fun _ h => h) keeps_refl
  rw [latchedTargets_endHolds]
  exact (hheld.fields MON.HOLD.HELD 0 (by decide)).trans (get_set_self _ _ _ _)

theorem tripClear_ticking (h : c.dev.ticking = true) : c.tripClear m = unlatched c m := if_pos h

theorem tripClear_still (h : c.dev.ticking = false) : c.tripClear m = (unlatched c m).endHolds := if_neg (by simp [Chip.set, h])

/-- With ticks or without, the latches, the port and the SRAM writes to come are those after the clearing. -/
theorem tripClear_shows : (c.tripClear m).get MON.LATCH.LATCH = (unlatched c m).get MON.LATCH.LATCH ∧
    (c.tripClear m).hpp = c.hpp ∧ (c.tripClear m).pgm = c.pgm := by
  cases h : c.dev.ticking with
  | true =>
    rw [tripClear_ticking c m h]
    exact ⟨rfl, rfl, rfl⟩
  | false =>
    rw [tripClear_still c m h]
    have hkeeps := keeps_endHolds (unlatched c m)
    exact ⟨hkeeps.fields _ _ (by decide), hkeeps.parts .hpp (by decide), hkeeps.parts .pgm (by decide)⟩

end

section

variable {t : Nat} {s : State} {p : Packet} {rest : List BasinWord} (hp : s.HasPacket p rest) (ha : s.Accepts p)
  (ho : p.opc = 0x50) (hload : s.chip.dev.load = none)

theorem taken_tripActive (s : State) (t : Nat) (rest : List BasinWord) (m : Nat) :
    (s.taken t rest).tripActive m = s.chip.tripActive m := by
  obtain ⟨h, e, -⟩ := taken_eq s t rest
  rw [e]
  rfl

include hp ha ho hload

theorem tripClear_range (hw : 256 ≤ p.word 3) : exec (.tripClear t) s = .next (s.refused (s.taken t rest) p stRANGE [0]) :=
  run_interpret_accepts hp ha (by simp [opIs, ho]) hload (if_pos hw) (taken_wq hp t)

theorem tripClear_active (hw : p.word 3 < 256) (hact : s.chip.tripActive (wordsValue p.params) ≠ 0) :
    exec (.tripClear t) s = .next (s.refused ((s.taken t rest).flag MON.EVT.CLRREF) p stTRIP
      (valueWords 4 (s.chip.tripActive (wordsValue p.params)))) := by
  refine run_interpret_accepts hp ha (by simp [opIs, ho]) hload ?_ (taken_wq hp t)
  rw [if_neg (by omega), taken_tripActive]
  exact (if_pos hact).trans (refuseWith_plain (by decide) (by decide))

theorem tripClear_clears (hw : p.word 3 < 256) (hact : s.chip.tripActive (wordsValue p.params) = 0) :
    ∃ u, exec (.tripClear t) s = .next u ∧
      (∀ j, j < 104 → (u.chip.get MON.LATCH.LATCH).testBit j =
        ((s.chip.get MON.LATCH.LATCH).testBit j && !(wordsValue p.params).testBit j)) ∧
      u.chip.hpp.replies = replyTo s p stOK (valueWords 4 (s.chip.get MON.LATCH.LATCH &&& wordsValue p.params)) ∧
      (s.chip.dev.ticking = true → Only s u [(MON.LATCH.LATCH, 0)] (fun a b => { a with hpp := b.hpp })) ∧
      (s.chip.dev.ticking = false → u.chip.get MON.HOLD.HELD = u.chip.latchedTargets % 2 ^ MON.HOLD.HELD.width) := by
  let c := s.taken t rest
  let m := wordsValue p.params
  obtain ⟨hlatch, hhpp, hpgm⟩ := tripClear_shows c m
  have hexec : exec (.tripClear t) s =
      .next { s with chip := (c.tripClear m).okay p (valueWords 4 (s.chip.get MON.LATCH.LATCH &&& m)) } := by
    refine run_interpret_accepts hp ha (by simp [opIs, ho]) hload ?_ ((congrArg Pgm.wq hpgm).trans (taken_wq hp t))
    rw [if_neg (by omega), taken_tripActive]
    refine (if_neg (not_not.2 hact)).trans ?_
    rw [taken_get]
    rfl
  refine ⟨_, hexec, fun j hj => ?_, answer_replies _ ((congrArg Hpp.replies hhpp).trans (taken_replies s t rest)), fun htick => ?_,
    fun htick => ?_⟩
  · refine (congrArg (·.testBit j) hlatch).trans ((testBit_unlatched c m hj).trans ?_)
    rw [taken_get]
  · have hclear : c.tripClear m = unlatched c m := tripClear_ticking c m (by rwa [taken_dev])
    have hmoves : Moves [(MON.LATCH.LATCH, 0)] [.hpp] s.chip (c.tripClear m) := by
      rw [hclear]
      exact (taken_moves _ (by simp) s t rest).set _ (by simp)
    have hframe := hmoves.parts (c := (c.tripClear m).okay p (valueWords 4 (s.chip.get MON.LATCH.LATCH &&& m))) rfl rfl
    exact ⟨rfl, rfl, hframe.rest, hframe.fields⟩
  · have hclear : c.tripClear m = (unlatched c m).endHolds := tripClear_still c m (by rwa [taken_dev])
    show (c.tripClear m).get MON.HOLD.HELD = (c.tripClear m).latchedTargets % _
    rw [hclear]
    exact held_endHolds _

end

/-! One record lets a source go (R483): its bits of PEND and its ACKD -/

/-- Record i lets source j go; when it asks for no other source it is acknowledged. -/
def letGo (j : Nat) (c : Chip) (i : Nat) : Chip :=
  if (c.setBit FLT.REC.PEND i j false).get FLT.REC.PEND i = 0 then (c.setBit FLT.REC.PEND i j false).set FLT.REC.ACKD i 1
  else c.setBit FLT.REC.PEND i j false

/-- PEND and ACKD of record i. -/
def slotOf (c : Chip) (i : Nat) : Nat × Nat := (c.get FLT.REC.PEND i, c.get FLT.REC.ACKD i)

/-- What letting source j go makes of PEND and ACKD. -/
def letGoOf (j : Nat) (q : Nat × Nat) : Nat × Nat := (putBit q.1 j false % 2 ^ 64, if putBit q.1 j false % 2 ^ 64 = 0 then 1 else q.2)

theorem get_letGo_lo (j : Nat) (c : Chip) (i : Nat) {g : Fld} (n : Nat) (hp : g.lo ≠ FLT.REC.PEND.lo) (ha : g.lo ≠ FLT.REC.ACKD.lo) :
    (letGo j c i).get g n = c.get g n := by
  have hpend : (c.setBit FLT.REC.PEND i j false).get g n = c.get g n := get_set_other _ _ _ _ _ _ (fun e => hp e.2.1)
  rw [letGo]
  split
  · exact (get_set_other _ _ _ _ _ _ (fun e => ha e.2.1)).trans hpend
  · exact hpend

theorem slotOf_letGo_self (j : Nat) (c : Chip) (i : Nat) : slotOf (letGo j c i) i = letGoOf j (slotOf c i) := by
  have hpend : (c.setBit FLT.REC.PEND i j false).get FLT.REC.PEND i = putBit (c.get FLT.REC.PEND i) j false % 2 ^ 64 := get_set_self _ _ _ _
  have hackd : (c.setBit FLT.REC.PEND i j false).get FLT.REC.ACKD i = c.get FLT.REC.ACKD i :=
    get_set_other _ _ _ _ _ _ (fun e => absurd e.2.1 (by decide))
  rw [letGo, hpend]
  show _ = (putBit (c.get FLT.REC.PEND i) j false % 2 ^ 64, if putBit (c.get FLT.REC.PEND i) j false % 2 ^ 64 = 0 then 1 else c.get FLT.REC.ACKD i)
  by_cases h : putBit (c.get FLT.REC.PEND i) j false % 2 ^ 64 = 0
  · rw [if_pos h, if_pos h]
    exact Prod.ext ((get_set_other _ _ _ _ _ _ (fun e => absurd e.2.1 (by decide))).trans hpend) (get_set_self _ _ _ _)
  · rw [if_neg h, if_neg h]
    exact Prod.ext hpend hackd

theorem slotOf_letGo_other (j : Nat) (c : Chip) {i k : Nat} (h : k ≠ i) : slotOf (letGo j c k) i = slotOf c i := by
  have hother : ∀ (d : Chip) (f g : Fld) (v : Nat), (d.set f k v).get g i = d.get g i :=
    fun d f g v => get_set_other _ _ _ _ _ _ (fun e => h e.2.2.symm)
  unfold letGo Chip.setBit slotOf
  split <;> simp only [hother]

theorem letGo_moves {l : List (Fld × Nat)} {ps : List Part} {a c : Chip} {i : Nat} (j : Nat) (hp : (FLT.REC.PEND, i) ∈ l)
    (ha : (FLT.REC.ACKD, i) ∈ l) (h : Moves l ps a c) : Moves l ps a (letGo j c i) :=
  Moves.ite (fun _ => (h.set _ hp).set _ ha) (fun _ => h.set _ hp)

/-! One source is acknowledged (R483, R484) -/

/-- The unacknowledged records that ask for source j. -/
def holders (c : Chip) (j : Nat) : List Nat := recSlots.filter (fun i => c.unacked i && c.bitOn FLT.REC.PEND i j)

/-- The fields of an acknowledgment. -/
def ackFields : List (Fld × Nat) := (FLT.STATUS.STATUS, 0) :: (List.range 32).flatMap (fun i => [(FLT.REC.PEND, i), (FLT.REC.ACKD, i)])

theorem record_mem_ackFields {i : Nat} (h : i < 32) : (FLT.REC.PEND, i) ∈ ackFields ∧ (FLT.REC.ACKD, i) ∈ ackFields := by
  have hmem : ∀ e ∈ [(FLT.REC.PEND, i), (FLT.REC.ACKD, i)], e ∈ ackFields :=
    fun e he => List.mem_cons_of_mem _ (List.mem_flatMap.2 ⟨i, List.mem_range.2 h, he⟩)
  exact ⟨hmem _ (by simp), hmem _ (by simp)⟩

/-- The record that keeps its bit because of an event of this instant (R484). -/
def keptBy (c : Chip) (j : Nat) : Option Nat := if nget none c.flt.lastEv j == some c.now then c.newestRec (holders c j) else none

/-- The aggregate of the events that found no slot asks for source j no more. -/
def aggWithout (f : Flt) (j : Nat) : Flt :=
  { f with
    aggPend := putBit f.aggPend j false
    aggProfs := if putBit f.aggPend j false = 0 then 0 else f.aggProfs
    aggCls := if putBit f.aggPend j false = 0 then 0 else f.aggCls }

/-- Chip d whose aggregate asks for source j no more. -/
def aggLets (d : Chip) (j : Nat) : Chip := { d with flt := aggWithout d.flt j }

/-- The records and the aggregate let source j go. -/
def allLet (c : Chip) (j : Nat) : Chip := aggLets (c.each ((holders c j).filter (fun i => keptBy c j != some i)) (letGo j)) j

theorem ackSource_eq (c : Chip) (j : Nat) : c.ackSource j =
    if nget none c.flt.lastEv j == some c.now then allLet c j else (allLet c j).setBit FLT.STATUS.STATUS 0 j false := rfl

theorem ackSource_moves (d : Chip) (j : Nat) : Moves ackFields [.flt] d (d.ackSource j) := by
  have hrecords : Moves ackFields [.flt] d (d.each ((holders d j).filter (fun i => keptBy d j != some i)) (letGo j)) :=
    Moves.each (fun i hi e => by
      have hslot : i < 32 := List.mem_range.1 (List.mem_filter.1 (List.mem_filter.1 hi).1).1
      exact letGo_moves j (record_mem_ackFields hslot).1 (record_mem_ackFields hslot).2 moves_refl) moves_refl
  have hall : Moves ackFields [.flt] d (allLet d j) := hrecords.parts rfl rfl
  rw [ackSource_eq]
  exact Moves.ite (fun _ => hall) (fun _ => hall.set _ List.mem_cons_self)

/-- Source j has no event at this very instant (R484). -/
def Untied (c : Chip) : Prop := ∀ j, nget none c.flt.lastEv j ≠ some c.now

/-- Without an event at this instant every holder lets the source go, and its status bit is cleared. -/
theorem ackSource_untied {c : Chip} (h : Untied c) (j : Nat) :
    c.ackSource j = (aggLets (c.each (holders c j) (letGo j)) j).setBit FLT.STATUS.STATUS 0 j false := by
  have htie : ¬(nget none c.flt.lastEv j == some c.now) = true := by simpa using h j
  have hkept : keptBy c j = none := if_neg htie
  have hall : (holders c j).filter (fun i => keptBy c j != some i) = holders c j := by
    rw [hkept]
    exact List.filter_eq_self.2 (fun _ _ => rfl)
  rw [ackSource_eq, if_neg htie, allLet, hall]

section

variable {c : Chip} (h : Untied c) (j : Nat)

include h

theorem untied_ackSource : Untied (c.ackSource j) := by
  have hsame : ((c.ackSource j).flt.lastEv, (c.ackSource j).now) = (c.flt.lastEv, c.now) := by
    rw [ackSource_untied h j]
    exact each_same (π := fun c : Chip => (c.flt.lastEv, c.now)) (fun c i => by rw [letGo]; split <;> rfl) c (holders c j)
  obtain ⟨hlast, hnow⟩ := Prod.mk.inj hsame
  intro k
  rw [hlast, hnow]
  exact h k

theorem status_ackSource : (c.ackSource j).get FLT.STATUS.STATUS = putBit (c.get FLT.STATUS.STATUS) j false % 2 ^ 64 := by
  have hstatus : (c.each (holders c j) (letGo j)).get FLT.STATUS.STATUS = c.get FLT.STATUS.STATUS :=
    each_same (π := fun c : Chip => c.get FLT.STATUS.STATUS) (fun c i => get_letGo_lo j c i 0 (by decide) (by decide)) c _
  rw [ackSource_untied h j]
  exact (get_set_self _ _ _ _).trans (congrArg (fun v => putBit v j false % 2 ^ 64) hstatus)

/-- A field of a record after source j is acknowledged is what the holders leave of it. -/
theorem get_ackSource {g : Fld} (n : Nat) (hg : g.id ≠ FLT.STATUS.STATUS.id) :
    (c.ackSource j).get g n = (c.each (holders c j) (letGo j)).get g n := by
  rw [ackSource_untied h j]
  exact get_set_other _ _ _ _ _ _ (fun e => hg e.1)

theorem valid_ackSource (i : Nat) : (c.ackSource j).on FLT.REC.VALID i = c.on FLT.REC.VALID i := by
  refine congrArg (· != 0) ((get_ackSource h j i (by decide)).trans ?_)
  exact each_same (π := fun c : Chip => c.get FLT.REC.VALID i) (fun c k => get_letGo_lo j c k i (by decide) (by decide)) c _

end

/-- What the acknowledgment of source j makes of PEND and ACKD of a filled record. -/
def ackOf (q : Nat × Nat) (j : Nat) : Nat × Nat := if q.2 = 0 ∧ q.1.testBit j = true then letGoOf j q else q

theorem slotOf_ackSource {c : Chip} {i : Nat} (h : Untied c) (hvalid : c.on FLT.REC.VALID i = true) (hi : i < 32) (j : Nat) :
    slotOf (c.ackSource j) i = ackOf (slotOf c i) j := by
  have hmem : i ∈ holders c j ↔ (slotOf c i).2 = 0 ∧ (slotOf c i).1.testBit j = true := by
    have hackd : (!c.on FLT.REC.ACKD i) = true ↔ c.get FLT.REC.ACKD i = 0 := by simp [Chip.on]
    simp only [holders, recSlots, upTo, List.mem_filter, List.mem_range, hi, Chip.unacked, hvalid, Chip.bitOn, slotOf, Bool.and_eq_true,
      hackd, true_and]
  have hslot : slotOf (c.ackSource j) i = slotOf (c.each (holders c j) (letGo j)) i :=
    Prod.ext (get_ackSource h j i (by decide)) (get_ackSource h j i (by decide))
  have honce := each_once (π := fun c => slotOf c i) (fun c => slotOf_letGo_self j c i) (fun c k hk => slotOf_letGo_other j c hk)
    (l := holders c j) (List.nodup_range.filter _) c
  rw [ackOf, hslot]
  simpa only [hmem] using honce

/-! All sources of a mask are acknowledged -/

/-- PEND and ACKD q of a record that asked for the sources of x when those of k are acknowledged. -/
def Acked (x : Nat) (k : List Nat) (q : Nat × Nat) : Prop :=
  (∀ j, j < 64 → q.1.testBit j = (x.testBit j && !k.contains j)) ∧ q.2 = if x ≠ 0 ∧ q.1 = 0 then 1 else 0

theorem Acked.step {x j : Nat} {k : List Nat} {q : Nat × Nat} (h : Acked x k q) (hj : j < 64) : Acked x (k ++ [j]) (ackOf q j) := by
  obtain ⟨hbits, hackd⟩ := h
  rw [ackOf]
  split
  · rename_i hgo
    obtain ⟨hnot, hbit⟩ := hgo
    have hx : x ≠ 0 := by
      rintro rfl
      simp [hbits j hj] at hbit
    refine ⟨fun i hi => ?_, ?_⟩
    · rw [letGoOf, Nat.testBit_mod_two_pow, testBit_putBit_false, hbits i hi]
      simp [hi, Bool.and_assoc]
    · simp [letGoOf, hnot, hx]
  · rename_i hstay
    refine ⟨fun i hi => ?_, hackd⟩
    rw [hbits i hi]
    by_cases hij : i = j
    · subst hij
      have hoff : q.1.testBit i = false := by
        by_cases hz : q.1 = 0
        · simp [hz]
        · have hnot : q.2 = 0 := by rw [hackd, if_neg (fun e => hz e.2)]
          simpa [hnot] using hstay
      rw [← hbits i hi, hoff]
      simp
    · simp [hij]

theorem acked_foldl {x : Nat} {l k : List Nat} {q : Nat × Nat} (h : Acked x k q) (hl : ∀ j ∈ l, j < 64) : Acked x (k ++ l) (l.foldl ackOf q) := by
  induction l generalizing k q with
  | nil => simpa using h
  | cons j l ih =>
    have hrest := ih (h.step (hl j List.mem_cons_self)) (fun i hi => hl i (List.mem_cons_of_mem _ hi))
    rwa [List.append_assoc, List.singleton_append] at hrest

section

variable {c : Chip} (h : Untied c) (l : List Nat)

include h

theorem status_acked {j : Nat} (hj : j < 64) : ((c.each l Chip.ackSource).get FLT.STATUS.STATUS).testBit j =
    ((c.get FLT.STATUS.STATUS).testBit j && !l.contains j) := by
  have hfold := (each_foldl (π := fun c : Chip => c.get FLT.STATUS.STATUS) (P := Untied) (g := fun v j => putBit v j false % 2 ^ 64)
    (fun c j h => ⟨untied_ackSource h j, status_ackSource h j⟩) h l).2
  exact (congrArg (·.testBit j) hfold).trans (testBit_foldl_putBit hj l _)

theorem record_acked {i : Nat} (hl : ∀ j ∈ l, j < 64) (hi : i < 32) (hun : c.unacked i = true) :
    Acked (c.get FLT.REC.PEND i) l (slotOf (c.each l Chip.ackSource) i) := by
  obtain ⟨hvalid, hackd⟩ : c.on FLT.REC.VALID i = true ∧ c.get FLT.REC.ACKD i = 0 := by simpa [Chip.unacked, Chip.on] using hun
  have hfold := (each_foldl (π := fun c => slotOf c i) (g := ackOf)
    (P := fun c => Untied c ∧ c.on FLT.REC.VALID i = true)
    (fun c j h => ⟨⟨untied_ackSource h.1 j, (valid_ackSource h.1 j i).trans h.2⟩, slotOf_ackSource h.1 h.2 hi j⟩) ⟨h, hvalid⟩ l).2
  rw [hfold]
  refine acked_foldl (k := []) ⟨fun j _ => by simp [slotOf], ?_⟩ hl
  simp [slotOf, hackd]

end

theorem faultAck_acknowledges {t : Nat} {s : State} {p : Packet} {rest : List BasinWord} {l : List Nat} (hp : s.HasPacket p rest)
    (ha : s.Accepts p) (ho : p.opc = 0x51) (hload : s.chip.dev.load = none) (htick : s.chip.dev.ticking = true)
    (htie : ∀ j, nget none s.chip.flt.lastEv j ≠ some (s.at_ t))
    (hl : l = (setBits 64 (wordsValue p.params)).filter (s.chip.at_ t).ackable) :
    ∃ u, exec (.faultAck t) s = .next u ∧ u.chip.hpp.replies = replyTo s p stOK (valueWords 2 (ofBits l)) ∧
      (∀ j, j < 64 → (u.chip.get FLT.STATUS.STATUS).testBit j = ((s.chip.get FLT.STATUS.STATUS).testBit j && !l.contains j)) ∧
      (∀ i, i < 32 → s.chip.unacked i = true → Acked (s.chip.get FLT.REC.PEND i) l (slotOf u.chip i)) ∧
      Only s u ackFields (fun a b => { a with hpp := b.hpp, flt := b.flt }) := by
  let c := s.taken t rest
  obtain ⟨hable, huntied, hunacked⟩ : c.ackable = (s.chip.at_ t).ackable ∧ Untied c ∧ c.unacked = s.chip.unacked := by
    obtain ⟨h, e, -⟩ := taken_eq s t rest
    rw [show c = _ from e]
    exact ⟨rfl, htie, rfl⟩
  have hmoves : Moves ackFields [.flt] c (c.each l Chip.ackSource) := Moves.each (fun j _ d => ackSource_moves d j) moves_refl
  have hticks : (c.each l Chip.ackSource).dev.ticking = true := by
    rw [hmoves.dev (by simp), taken_dev]
    exact htick
  have hack : c.faultAck (wordsValue p.params) = (ofBits l, c.each l Chip.ackSource) := by
    unfold Chip.faultAck
    rw [hable, ← hl]
    exact congrArg (Prod.mk _) (if_pos hticks)
  have hexec : exec (.faultAck t) s = .next { s with chip := (c.each l Chip.ackSource).okay p (valueWords 2 (ofBits l)) } := by
    refine run_interpret_accepts hp ha (by simp [opIs, ho]) hload ?_ ((congrArg Pgm.wq (hmoves.pgm (by simp))).trans (taken_wq hp t))
    show (c.faultAck (wordsValue p.params)).2.okay p (valueWords 2 (c.faultAck (wordsValue p.params)).1) = _
    rw [hack]
  have hframe := ((taken_moves _ (by simp) s t rest).trans (hmoves.mono (qs := [.hpp, .flt]) (fun _ h => h) (by simp))).parts
    (c := (c.each l Chip.ackSource).okay p (valueWords 2 (ofBits l))) rfl rfl
  have hbelow : ∀ j ∈ l, j < 64 := fun j hj => by
    rw [hl] at hj
    exact (mem_setBits.1 (List.mem_filter.1 hj).1).1
  refine ⟨_, hexec, answer_replies _ ((congrArg Hpp.replies (hmoves.hpp (by simp))).trans (taken_replies s t rest)), fun j hj => ?_,
    fun i hi hun => ?_, rfl, rfl, hframe.rest, hframe.fields⟩
  · refine (status_acked huntied l hj).trans ?_
    rw [taken_get]
  · have hrecord := record_acked huntied l hbelow hi (by rwa [hunacked])
    rwa [taken_get] at hrecord

/-- Settles O22: a clearing takes the named latches' bits away and lets the holds follow; an acknowledgment lets every holder of a source go,
source by source, so that a record is acknowledged when its last one goes. -/
theorem tripClearAndFaultAck : Obligations.TripClearAndFaultAck := by
  unfold Obligations.TripClearAndFaultAck
  refine ⟨fun t s p rest hp ha ho hload => ⟨tripClear_range hp ha ho hload, tripClear_active hp ha ho hload,
    tripClear_clears hp ha ho hload⟩, fun t s p rest l hp ha ho hload htick htie hl => ?_⟩
  obtain ⟨u, hexec, hreplies, hstatus, hrecords, honly⟩ := faultAck_acknowledges hp ha ho hload htick htie hl
  exact ⟨u, hexec, hreplies, hstatus, fun i hi hun => (hrecords i hi hun).1, fun i hi hun => (hrecords i hi hun).2, honly⟩

end Sys2Proof.Scope
end

section
/-! SUPPORT. Laws of one lane: reading a field behind other updates, what an operation on lane n leaves alone, and how a lane passes
from one state to another (R148, R150, R151). -/

namespace Sys2Proof.Scope

open Sys2Proof.Machine Sys2Proof.Machine.Reg Sys2Proof.Laws

/-! Fields read behind an update -/

section

variable (c : Chip) (n k : Nat) {f g : Fld}

theorem get_set_fld (v : Nat) (h : (g.id, g.lo) ≠ (f.id, f.lo)) : (c.set f n v).get g k = c.get g k :=
  regGet_set_fld c.regs f g n k v h

theorem get_flag_fld (h : (g.id, g.lo) ≠ (f.id, f.lo)) : (c.flag f n).get g k = c.get g k := get_set_fld c n k 1 h

theorem get_inc_fld (h : (g.id, g.lo) ≠ (f.id, f.lo)) : (c.inc f n).get g k = c.get g k := get_set_fld c n k _ h

theorem get_incBy_fld (j : Nat) (h : (g.id, g.lo) ≠ (f.id, f.lo)) : (c.incBy f n j).get g k = c.get g k := get_set_fld c n k _ h

/-- A flag of one bit reads 1. -/
theorem get_flag_self (h : f.hi = f.lo) : (c.flag f n).get f n = 1 := (get_set_self _ _ _ _).trans (by simp [Fld.width, h])

theorem get_incBy_self (j : Nat) : (c.incBy f n j).get f n = satN f.width (c.get f n + j) :=
  (get_set_self _ _ _ _).trans (satN_mod_width _)

@[simp] theorem setLane_get (v : LaneRec) : (c.setLane n v).get g k = c.get g k := rfl

theorem raise_lnk (src : Nat) : (c.raise src).lnk = c.lnk := by rw [raise_eq]

end

/-! What an operation on one lane leaves alone -/

/-- d differs from c in nothing but lane n's own record, those of its fields that are listed, the parts listed and the note of flags set
at this instant. -/
structure LaneMoves (n : Nat) (fs : List Fld) (ps : List Part) (c d : Chip) : Prop where
  now : d.now = c.now
  other : ∀ m, m ≠ n → d.lane m = c.lane m
  moves : Moves (fs.map (fun f => (f, n))) ps c d

/-- What tells the fields of the register map apart. -/
def fieldKeys (fs : List Fld) : List (Nat × Nat) := fs.map (fun f => (f.id, f.lo))

section

variable {n : Nat} {fs : List Fld} {ps : List Part} {a b c : Chip}

theorem laneMoves_refl : LaneMoves n fs ps a a := ⟨rfl, fun _ _ => rfl, moves_refl⟩

theorem LaneMoves.trans (h : LaneMoves n fs ps a b) (g : LaneMoves n fs ps b c) : LaneMoves n fs ps a c :=
  ⟨g.now.trans h.now, fun m hm => (g.other m hm).trans (h.other m hm), h.moves.trans g.moves⟩

theorem LaneMoves.mono {gs : List Fld} {qs : List Part} (h : LaneMoves n fs ps a b) (hfs : ∀ f ∈ fs, f ∈ gs)
    (hps : ∀ p ∈ ps, p ∈ qs) : LaneMoves n gs qs a b :=
  ⟨h.now, h.other, h.moves.mono (fun e he => by
    obtain ⟨f, hf, rfl⟩ := List.mem_map.1 he
    exact List.mem_map_of_mem (hfs f hf)) hps⟩

theorem LaneMoves.set {f : Fld} (h : LaneMoves n fs ps a b) (v : Nat) (hf : f ∈ fs) : LaneMoves n fs ps a (b.set f n v) :=
  ⟨h.now, h.other, h.moves.set v (List.mem_map_of_mem hf)⟩

theorem LaneMoves.flag {f : Fld} (h : LaneMoves n fs ps a b) (hf : f ∈ fs) : LaneMoves n fs ps a (b.flag f n) :=
  ⟨h.now, h.other, h.moves.flag (List.mem_map_of_mem hf)⟩

theorem LaneMoves.inc {f : Fld} (h : LaneMoves n fs ps a b) (hf : f ∈ fs) : LaneMoves n fs ps a (b.inc f n) := h.set _ hf

theorem LaneMoves.setLane (h : LaneMoves n fs ps a b) (v : LaneRec) (hp : Part.lnk ∈ ps) : LaneMoves n fs ps a (b.setLane n v) :=
  ⟨h.now, fun m hm => (lane_setLane_other b v hm).trans (h.other m hm),
    h.moves.parts (by simp [takes, Chip.setLane, hp]) rfl⟩

theorem LaneMoves.raise (h : LaneMoves n fs ps a b) (src : Nat) (hp : Part.flt ∈ ps) : LaneMoves n fs ps a (b.raise src) := by
  rw [raise_eq]
  exact ⟨h.now, h.other, h.moves.parts (by simp [takes, hp]) rfl⟩

theorem LaneMoves.ite {q : Prop} [Decidable q] (h : q → LaneMoves n fs ps a b) (g : ¬q → LaneMoves n fs ps a c) :
    LaneMoves n fs ps a (if q then b else c) := by
  split
  · exact h ‹_›
  · exact g ‹_›

theorem LaneMoves.each {α : Type} {k : List α} {f : Chip → α → Chip} (hf : ∀ x ∈ k, ∀ d, LaneMoves n fs ps d (f d x))
    (h : LaneMoves n fs ps a b) : LaneMoves n fs ps a (b.each k f) := by
  unfold Chip.each
  induction k generalizing b with
  | nil => exact h
  | cons x k ih => exact ih (fun y hy => hf y (List.mem_cons_of_mem _ hy)) (h.trans (hf x List.mem_cons_self b))

/-- A field that is not listed reads as before, for every lane. -/
theorem LaneMoves.get (h : LaneMoves n fs ps a b) {f : Fld} (hf : (f.id, f.lo) ∉ fieldKeys fs) (k : Nat) :
    b.get f k = a.get f k :=
  h.moves.fields f k (by
    rintro ⟨e, he, hid, hlo, -⟩
    obtain ⟨g, hg, rfl⟩ := List.mem_map.1 he
    exact hf (List.mem_map.2 ⟨g, hg, by rw [hid, hlo]⟩))

/-- So does every field of another lane. -/
theorem LaneMoves.get_other (h : LaneMoves n fs ps a b) (f : Fld) {k : Nat} (hk : k ≠ n) : b.get f k = a.get f k :=
  h.moves.fields f k (by
    rintro ⟨e, he, -, -, hn⟩
    obtain ⟨g, -, rfl⟩ := List.mem_map.1 he
    exact hk hn)

theorem LaneMoves.fabric (h : LaneMoves n fs ps a b)
    (hf : (RST.DOM.REL.id, RST.DOM.REL.lo) ∉ fieldKeys fs) : b.fabric = a.fabric :=
  congrArg (·.testBit 0) (h.get hf 0)

/-- Whether the arm of a lane is held shows in three fields (R256). -/
theorem LaneMoves.laneHeld (h : LaneMoves n fs ps a b) (hf : ∀ f ∈ [LNK.STATE.ARM, MON.HOLD.HELD, FLT.HOLD.HELD],
    (f.id, f.lo) ∉ fieldKeys fs) (k : Nat) : b.laneHeld k = a.laneHeld k := by
  have harm : b.laneArm k = a.laneArm k := h.get (hf LNK.STATE.ARM (by decide)) k
  unfold Chip.laneHeld Chip.held Chip.tripHeld Chip.faultHeld Chip.bitOn
  rw [harm, h.get (hf MON.HOLD.HELD (by decide)), h.get (hf FLT.HOLD.HELD (by decide))]

theorem LaneMoves.flt (h : LaneMoves n fs ps a b) (hp : Part.flt ∉ ps) : b.flt = a.flt :=
  (congrArg Chip.flt h.moves.rest).trans (if_neg hp)

theorem LaneMoves.pgm (h : LaneMoves n fs ps a b) (hp : Part.pgm ∉ ps) : b.pgm = a.pgm := h.moves.pgm hp

end

/-! Events -/

/-- The events in flight when source src is raised from c (R472). -/
def inFlight (c : Chip) (src : Nat) : List Raised := if c.fabric then c.flt.raised ++ [⟨src, 0, c.now, false⟩] else c.flt.raised

theorem raise_flt (c : Chip) (src : Nat) : (c.raise src).flt = { c.flt with raised := inFlight c src } := by rw [raise_eq]; rfl

theorem inFlight_congr {c d : Chip} (hfabric : d.fabric = c.fabric) (hflt : d.flt = c.flt) (hnow : d.now = c.now) (src : Nat) :
    inFlight d src = inFlight c src := by
  rw [inFlight, hfabric, hflt, hnow, ← inFlight]

/-! A lane in use passes to another state that is in use -/

/-- The record of lane n as it enters state st: an off-state check ends outside STANDBY and BLOCKED, an admission when ADMIT is left. -/
def passed (c : Chip) (n st : Nat) : LaneRec :=
  let l := c.lane n
  let l := if l.odAt.isSome && !(st == lsStandby || st == lsBlocked) then { l with odAt := none, odSeen := false } else l
  if c.lstate n = lsAdmit then { l with adm := none } else l

theorem stateShown_laneMoves {c : Chip} {n st : Nat} {fs : List Fld} {ps : List Part} (hstate : LNK.STATE.STATE ∈ fs)
    (hodres : ¬(st = lsStandby ∨ st = lsBlocked) → GPR.LDIAG.ODRES ∈ fs) (hstep : c.lstate n = lsAdmit → LNK.STATE.STEP ∈ fs) :
    LaneMoves n fs ps c (stateShown c n st) := by
  have hmem : ∀ f ∈ fs, (f, n) ∈ fs.map (fun f => (f, n)) := fun _ hf => List.mem_map_of_mem hf
  exact ⟨stateShown_now, fun m _ => lane_congr stateShown_lnk m,
    stateShown_moves (hmem _ hstate) (fun h => hmem _ (hodres h)) (fun h => hmem _ (hstep h))⟩

section

variable {c : Chip} {n st : Nat} (hst : st ≠ c.lstate n) (hold : c.lstate n ≠ lsOff) (hoff : st ≠ lsOff)

include hst hold hoff

theorem setLaneState_shown : c.setLaneState n st = (stateShown c n st).setLane n (passed c n st) := by
  unfold Chip.setLaneState
  simp only [hst, hold, hoff, if_false]
  rfl

theorem lstate_setLaneState (hlt : st < 16) : (c.setLaneState n st).lstate n = st := by
  rw [setLaneState_shown hst hold hoff]
  exact get_stateShown hlt

theorem lane_setLaneState : (c.setLaneState n st).lane n = passed c n st := by
  rw [setLaneState_shown hst hold hoff, lane_setLane_self]

theorem setLaneState_moves {fs : List Fld} {ps : List Part} (hstate : LNK.STATE.STATE ∈ fs)
    (hodres : ¬(st = lsStandby ∨ st = lsBlocked) → GPR.LDIAG.ODRES ∈ fs) (hstep : c.lstate n = lsAdmit → LNK.STATE.STEP ∈ fs)
    (hp : Part.lnk ∈ ps) : LaneMoves n fs ps c (c.setLaneState n st) := by
  rw [setLaneState_shown hst hold hoff]
  exact (stateShown_laneMoves hstate hodres hstep).setLane _ hp

end

/-! A lane in use retires (R150, R151) -/

/-- Lane n is in ADMIT or ACTIVE. -/
def InUse (c : Chip) (n : Nat) : Prop := c.lstate n = lsAdmit ∨ c.lstate n = lsActive

theorem InUse.not_off {c : Chip} {n : Nat} (h : InUse c n) : c.lstate n ≠ lsOff := by
  rcases h with h | h <;> rw [h] <;> decide

theorem InUse.not_blocked {c : Chip} {n : Nat} (h : InUse c n) : lsBlocked ≠ c.lstate n := by
  rcases h with h | h <;> rw [h] <;> decide

/-- Lane n in BLOCKED with a cause, its event not yet raised. -/
def blockedChip (c : Chip) (n cause : Nat) : Chip :=
  let d := c.setLaneState n lsBlocked
  ((d.setLane n { d.lane n with byp := c.autonomous n, measure := false }).set LNK.STATE.CAUSE n cause).flag LNK.STAT.RETIRED n

theorem toBlocked_eq {cause : Nat} (h : cause ≠ 1) (c : Chip) (n : Nat) : c.toBlocked n cause false =
    if causeEvent cause = 0 then blockedChip c n cause else (blockedChip c n cause).raise (causeEvent cause) := by
  unfold Chip.toBlocked
  simp only [h, if_false]
  rfl

/-- The fields of a lane that retires, beside STEP. -/
def retireFields : List Fld := [LNK.STATE.STATE, LNK.STATE.CAUSE, LNK.STAT.RETIRED]

/-- The record of a lane that retires. -/
def retiredRec (c : Chip) (n : Nat) : LaneRec :=
  { c.lane n with adm := if c.lstate n = lsAdmit then none else (c.lane n).adm, byp := c.autonomous n, measure := false }

/-- e shows lane n of c retired with cause k. -/
structure Retires (c : Chip) (n k : Nat) (e : Chip) : Prop where
  state : e.lstate n = lsBlocked
  cause : e.get LNK.STATE.CAUSE n = k
  retired : e.get LNK.STAT.RETIRED n = 1
  step : c.lstate n = lsAdmit → e.get LNK.STATE.STEP n = 0
  lane : e.lane n = retiredRec c n

section

variable {c : Chip} {n k : Nat} (huse : InUse c n) {fs : List Fld} {ps : List Part} (hfs : ∀ f ∈ retireFields, f ∈ fs)
  (hstep : c.lstate n = lsAdmit → LNK.STATE.STEP ∈ fs) (hp : Part.lnk ∈ ps)

theorem passed_blocked : passed c n lsBlocked =
    { c.lane n with adm := if c.lstate n = lsAdmit then none else (c.lane n).adm } := by
  simp only [passed, beq_self_eq_true, Bool.or_true, Bool.not_true, Bool.and_false, Bool.false_eq_true, if_false]
  split <;> rfl

theorem step_stateShown (h : c.lstate n = lsAdmit) (st : Nat) : (stateShown c n st).get LNK.STATE.STEP n = 0 := by
  unfold stateShown
  simp only [h, if_true]
  exact get_set_self _ _ _ _

include huse

theorem blockedChip_retires (hk : k < 256) : Retires c n k (blockedChip c n k) where
  state := by
    refine Eq.trans ?_ (lstate_setLaneState huse.not_blocked huse.not_off (by decide) (by decide))
    unfold blockedChip Chip.lstate
    simp (disch := decide) only [get_flag_fld, get_set_fld, setLane_get]
  cause := by
    unfold blockedChip
    rw [get_flag_fld _ _ _ (by decide), get_set_self]
    exact Nat.mod_eq_of_lt hk
  retired := get_flag_self _ _ rfl
  step h := by
    unfold blockedChip
    simp (disch := decide) only [get_flag_fld, get_set_fld, setLane_get]
    rw [setLaneState_shown huse.not_blocked huse.not_off (by decide), setLane_get, step_stateShown h]
  lane := by
    have hlane := lane_setLaneState huse.not_blocked huse.not_off (by decide)
    refine (lane_setLane_self (c.setLaneState n lsBlocked) n _).trans ?_
    rw [hlane, passed_blocked]
    rfl

include hfs hstep hp

theorem blockedChip_moves : LaneMoves n fs ps c (blockedChip c n k) :=
  (((setLaneState_moves huse.not_blocked huse.not_off (by decide) (hfs _ (by decide)) (fun h => absurd (.inr rfl) h) hstep hp).setLane
    _ hp).set _ (hfs _ (by decide))).flag (hfs _ (by decide))

theorem toBlocked_moves (h1 : k ≠ 1) (hflt : causeEvent k ≠ 0 → Part.flt ∈ ps) : LaneMoves n fs ps c (c.toBlocked n k false) := by
  rw [toBlocked_eq h1]
  have hb := blockedChip_moves (k := k) huse hfs hstep hp
  exact LaneMoves.ite (fun _ => hb) (fun h => hb.raise _ (hflt h))

end

section

variable {c : Chip} {n k : Nat} (huse : InUse c n)

include huse

theorem toBlocked_retires (hk : k < 256) (h1 : k ≠ 1) : Retires c n k (c.toBlocked n k false) := by
  have hb := blockedChip_retires huse hk
  rw [toBlocked_eq h1]
  split
  · exact hb
  · exact ⟨(raise_get ..).trans hb.state, (raise_get ..).trans hb.cause, (raise_get ..).trans hb.retired,
      fun h => (raise_get ..).trans (hb.step h), (lane_congr (raise_lnk _ _) n).trans hb.lane⟩

theorem toBlocked_get (h1 : k ≠ 1) {f : Fld} (hf : (f.id, f.lo) ∉ fieldKeys (LNK.STATE.STEP :: retireFields)) (m : Nat) :
    (c.toBlocked n k false).get f m = c.get f m := by
  have hmoves : LaneMoves n (LNK.STATE.STEP :: retireFields) [.lnk, .flt] c (c.toBlocked n k false) :=
    toBlocked_moves huse (fun _ h => List.mem_cons_of_mem _ h) (fun _ => List.mem_cons_self) (by simp) h1 (by simp)
  exact hmoves.get hf m

/-- The event of a cause is in flight, and nothing else (R150, R472). -/
theorem toBlocked_flt (h1 : k ≠ 1) : (c.toBlocked n k false).flt =
    { c.flt with raised := if causeEvent k = 0 then c.flt.raised else inFlight c (causeEvent k) } := by
  have hb : LaneMoves n (LNK.STATE.STEP :: retireFields) [.lnk] c (blockedChip c n k) :=
    blockedChip_moves huse (fun _ h => List.mem_cons_of_mem _ h) (fun _ => List.mem_cons_self) (by simp)
  have hflt : (blockedChip c n k).flt = c.flt := hb.flt (by simp)
  rw [toBlocked_eq h1]
  split
  · exact hflt
  · rw [raise_flt, hflt, inFlight_congr (hb.fabric (by decide)) hflt hb.now]

theorem retireInUse_eq (k : Nat) : c.retireInUse n k = c.toBlocked n k false := if_pos huse

end

/-! Meanings of commands of one lane -/

section

variable {s : State} (hinv : s.Inv) {f : Memory → Chip → Chip}

include hinv

/-- A command that finds nothing to do lets time pass. -/
theorem run_waits {t : Nat} (hf : f s.sram s.chip = s.chip.at_ t) : run f s = .next (s.waits t) := by
  obtain ⟨-, hwq⟩ := hinv
  exact run_of_chip_eq hf hwq

/-- One that changes a lane writes no SRAM. -/
theorem run_laneMoves {n t : Nat} {fs : List Fld} {ps : List Part} {c : Chip} (hf : f s.sram s.chip = c)
    (hc : LaneMoves n fs ps (s.chip.at_ t) c) (hps : Part.pgm ∉ ps) : run f s = .next { s with chip := c } := by
  obtain ⟨-, hwq⟩ := hinv
  exact run_of_chip_eq hf ((congrArg Pgm.wq (hc.pgm hps)).trans hwq)

end

end Sys2Proof.Scope
end

section
/-! CLAIM. The timers of an admission (R154, R157). -/

namespace Sys2Proof.Scope

open Sys2Proof.Machine Sys2Proof.Machine.Reg Sys2Proof.Laws

/-! A failed admission (R157) -/

/-- The flag and the counts of a failed admission. -/
def failCounts : List Fld := [LNK.STAT.ADMFAIL, LNK.CNT.ADMFAIL, LNK.STATE.AUTOFAIL]

/-- The fields of a failed admission. -/
def failFields : List Fld :=
  [LNK.STATE.STATE, LNK.STATE.CAUSE, LNK.STATE.STEP, LNK.STAT.RETIRED, LNK.STAT.ADMFAIL, LNK.CNT.ADMFAIL, LNK.STATE.AUTOFAIL]

/-- A lane that has entered BLOCKED, its failure flagged, counted and dated. -/
def failureNoted (d : Chip) (n : Nat) : Chip :=
  let e := ((d.flag LNK.STAT.ADMFAIL n).inc LNK.CNT.ADMFAIL n).inc LNK.STATE.AUTOFAIL n
  e.setLane n { e.lane n with failAt := some e.now }

theorem failAdmission_eq (c : Chip) (n k : Nat) : c.failAdmission n k = (failureNoted (c.toBlocked n k false) n).raise 14 := rfl

theorem failureNoted_moves {n : Nat} {fs : List Fld} {ps : List Part} {c d : Chip} (h : LaneMoves n fs ps c d)
    (hfs : ∀ f ∈ failCounts, f ∈ fs) (hp : Part.lnk ∈ ps) : LaneMoves n fs ps c (failureNoted d n) :=
  (((h.flag (hfs _ (by decide))).inc (hfs _ (by decide))).inc (hfs _ (by decide))).setLane _ hp

/-- e shows the admission of lane n of c failed with cause k at the instant of c. -/
structure Fails (c : Chip) (n k : Nat) (e : Chip) : Prop where
  state : e.lstate n = lsBlocked
  cause : e.get LNK.STATE.CAUSE n = k
  step : e.get LNK.STATE.STEP n = 0
  retired : e.get LNK.STAT.RETIRED n = 1
  admfail : e.get LNK.STAT.ADMFAIL n = 1
  count : e.get LNK.CNT.ADMFAIL n = satN LNK.CNT.ADMFAIL.width (c.get LNK.CNT.ADMFAIL n + 1)
  autofail : e.get LNK.STATE.AUTOFAIL n = satN LNK.STATE.AUTOFAIL.width (c.get LNK.STATE.AUTOFAIL n + 1)
  lane : e.lane n = { c.lane n with adm := none, byp := c.autonomous n, measure := false, failAt := some c.now }
  flt : e.flt = { c.flt with raised := inFlight c 14 }
  moves : LaneMoves n failFields [.lnk, .flt] c e

theorem failAdmission_fails {c : Chip} {n k : Nat} (hadmit : c.lstate n = lsAdmit) (hk : k < 256) (h1 : k ≠ 1)
    (hevent : causeEvent k = 0) : Fails c n k (c.failAdmission n k) := by
  have hret := toBlocked_retires (.inl hadmit) hk h1
  have hblock : ∀ {ps : List Part}, Part.lnk ∈ ps → LaneMoves n failFields ps c (c.toBlocked n k false) := fun hp =>
    toBlocked_moves (.inl hadmit) (by decide) (fun _ => by decide) hp h1 (fun h => absurd hevent h)
  have hnote : LaneMoves n failCounts [.lnk] (c.toBlocked n k false) (failureNoted (c.toBlocked n k false) n) :=
    failureNoted_moves laneMoves_refl (fun _ h => h) (by decide)
  have hquiet := failureNoted_moves (hblock (ps := [.lnk]) (by decide)) (by decide) (by decide)
  have hsame : ∀ f : Fld, (f.id, f.lo) ∉ fieldKeys failCounts →
      (c.failAdmission n k).get f n = (c.toBlocked n k false).get f n := fun f hf => (raise_get ..).trans (hnote.get hf n)
  constructor
  case state => exact (hsame _ (by decide)).trans hret.state
  case cause => exact (hsame _ (by decide)).trans hret.cause
  case step => exact (hsame _ (by decide)).trans (hret.step hadmit)
  case retired => exact (hsame _ (by decide)).trans hret.retired
  case admfail =>
    simp (disch := decide) only [failAdmission_eq, failureNoted, raise_get, setLane_get, get_inc_fld, get_flag_self]
  case count =>
    simp (disch := decide) only [failAdmission_eq, failureNoted, raise_get, setLane_get, get_inc_fld, get_inc_self, get_flag_fld]
    rw [toBlocked_get (.inl hadmit) h1 (by decide)]
  case autofail =>
    simp (disch := decide) only [failAdmission_eq, failureNoted, raise_get, setLane_get, get_inc_fld, get_inc_self, get_flag_fld]
    rw [toBlocked_get (.inl hadmit) h1 (by decide)]
  case lane =>
    refine (lane_congr (raise_lnk _ _) n).trans ((lane_setLane_self _ _ _).trans ?_)
    have hnow : (c.toBlocked n k false).now = c.now := (hblock (ps := [.lnk]) (by decide)).now
    have hlane := hret.lane
    rw [retiredRec, if_pos hadmit] at hlane
    show { (c.toBlocked n k false).lane n with failAt := some (c.toBlocked n k false).now } = _
    rw [hlane, hnow]
  case flt =>
    rw [failAdmission_eq, raise_flt, hquiet.flt (by decide), inFlight_congr (hquiet.fabric (by decide)) (hquiet.flt (by decide)) hquiet.now]
  case moves => exact (failureNoted_moves (hblock (by decide)) (by decide) (by decide)).raise 14 (by decide)

/-! The timers -/

/-- The timer of the whole admission, or of the self-test, has run out: the admission fails with cause k. -/
def TimedOut (s : State) (t n : Nat) (a : Adm) (i : Instr) (k : Nat) : Prop :=
  (i = .admissionTimeout t n ∧ k = 11 ∧ a.phase ≠ 0 ∧ a.start + s.chip.get LNK.CFG.ADMTO * msTaps ≤ s.at_ t) ∨
    (i = .selfTestTimeout t n ∧ k = 8 ∧ a.phase = 3 ∧ a.req = 9 ∧ a.ackAt + msTaps ≤ s.at_ t)

section

variable {s : State} (hinv : s.Inv) {t n : Nat}

include hinv

theorem exec_timedOut {k : Nat} {a : Adm} {i : Instr} (hadmit : s.chip.lstate n = lsAdmit) (hadm : (s.chip.lane n).adm = some a)
    (h : TimedOut s t n a i k) : exec i s = .next { s with chip := (s.chip.at_ t).failAdmission n k } := by
  have hadm : ((s.chip.at_ t).lane n).adm = some a := hadm
  rcases h with ⟨rfl, rfl, hphase, hdue⟩ | ⟨rfl, rfl, hphase, hreq, hdue⟩
  · have hfail := failAdmission_fails (c := s.chip.at_ t) (n := n) (k := 11) hadmit (by decide) (by decide) rfl
    rw [exec_admissionTimeout, execAdmissionTimeout]
    refine run_laneMoves hinv ?_ hfail.moves (by decide)
    simp only [hadm]
    exact if_pos ⟨hadmit, hphase, hdue⟩
  · have hfail := failAdmission_fails (c := s.chip.at_ t) (n := n) (k := 8) hadmit (by decide) (by decide) rfl
    rw [exec_selfTestTimeout, execSelfTestTimeout]
    refine run_laneMoves hinv ?_ hfail.moves (by decide)
    simp only [hadm]
    exact if_pos ⟨hadmit, hphase, hreq, hdue⟩

theorem admissionTimeout_waits (h : s.chip.lstate n ≠ lsAdmit ∨ (s.chip.lane n).adm = none ∨
    ∃ a, (s.chip.lane n).adm = some a ∧ (a.phase = 0 ∨ s.at_ t < a.start + s.chip.get LNK.CFG.ADMTO * msTaps)) :
    exec (.admissionTimeout t n) s = .next (s.waits t) := by
  rw [exec_admissionTimeout, execAdmissionTimeout]
  refine run_waits hinv ?_
  dsimp only
  split
  case h_1 a ha =>
    refine if_neg ?_
    rintro ⟨hadmit, hphase, hdue⟩
    rcases h with h | h | ⟨b, hb, h⟩
    · exact h hadmit
    · exact absurd (h.symm.trans ha) (by simp)
    · obtain rfl : b = a := Option.some.inj (hb.symm.trans ha)
      exact h.elim hphase (Nat.not_lt.2 hdue)
  case h_2 => rfl

theorem selfTestTimeout_waits (h : s.chip.lstate n ≠ lsAdmit ∨ (s.chip.lane n).adm = none ∨
    ∃ a, (s.chip.lane n).adm = some a ∧ (a.phase ≠ 3 ∨ a.req ≠ 9 ∨ s.at_ t < a.ackAt + msTaps)) :
    exec (.selfTestTimeout t n) s = .next (s.waits t) := by
  rw [exec_selfTestTimeout, execSelfTestTimeout]
  refine run_waits hinv ?_
  dsimp only
  split
  case h_1 a ha =>
    refine if_neg ?_
    rintro ⟨hadmit, hphase, hreq, hdue⟩
    rcases h with h | h | ⟨b, hb, h⟩
    · exact h hadmit
    · exact absurd (h.symm.trans ha) (by simp)
    · obtain rfl : b = a := Option.some.inj (hb.symm.trans ha)
      exact h.elim (fun e => e hphase) (fun e => e.elim (fun e => e hreq) (Nat.not_lt.2 hdue))
  case h_2 => rfl

end

/-- Settles O25: a timer that has run out is a failed admission, a retirement that is flagged, counted and dated besides; one that has not
finds nothing to do. -/
theorem admissionTimersFail : Obligations.AdmissionTimersFail := by
  unfold Obligations.AdmissionTimersFail
  refine ⟨fun s t n k a i hinv hadmit hadm h => ?_, fun s t n hinv => ⟨admissionTimeout_waits hinv, selfTestTimeout_waits hinv⟩⟩
  obtain ⟨hk, h1, hevent⟩ : k < 256 ∧ k ≠ 1 ∧ causeEvent k = 0 := by
    rcases h with ⟨-, rfl, -⟩ | ⟨-, rfl, -⟩ <;> decide
  have hfail := failAdmission_fails (c := s.chip.at_ t) (n := n) hadmit hk h1 hevent
  exact ⟨_, exec_timedOut hinv hadmit hadm h, hfail.moves.now, hfail.state, hfail.cause, hfail.step, hfail.retired, hfail.admfail,
    hfail.count, hfail.autofail, hfail.lane, hfail.moves.other, hfail.flt, rfl, rfl, hfail.moves.moves.rest, hfail.moves.moves.fields⟩

end Sys2Proof.Scope
end

section
/-! CLAIM. The loss of an uplink (R139, R148). -/

namespace Sys2Proof.Scope

open Sys2Proof.Machine Sys2Proof.Machine.Reg Sys2Proof.Laws

/-! The lock -/

/-- Lane n without lock: its run of frames starts over, a lock that stood is flagged and counted as lost. -/
def lockLost (c : Chip) (n : Nat) : Chip :=
  let d := (c.set LNK.STAT.LOCK n 0).setLane n { c.lane n with run := 0 }
  if c.on LNK.STAT.LOCK n then (d.flag LNK.STAT.LOL n).inc LNK.CNT.LOL n else d

/-- Lane n leaves the state that needs a lock: STANDBY for DOWN, ADMIT and ACTIVE for BLOCKED with cause k (R148). -/
def lockLeft (c : Chip) (n k : Nat) : Chip := if c.lstate n = lsStandby then c.setLaneState n lsDown else c.retireInUse n k

theorem uplinkLost_eq (c : Chip) (n k : Nat) : c.uplinkLost n k = lockLeft (lockLost c n) n k := rfl

/-- The fields of a lock that is lost. -/
def lockFields : List Fld := [LNK.STAT.LOCK, LNK.STAT.LOL, LNK.CNT.LOL]

/-- The fields of the passage that follows. -/
def lossFields : List Fld := [LNK.STATE.STATE, LNK.STATE.CAUSE, LNK.STAT.RETIRED, LNK.STATE.STEP, GPR.LDIAG.ODRES]

section

variable {c : Chip} {n k : Nat}

theorem lockLost_moves {fs : List Fld} {ps : List Part} (hfs : ∀ f ∈ lockFields, f ∈ fs) (hp : Part.lnk ∈ ps) :
    LaneMoves n fs ps c (lockLost c n) := by
  have hrun := ((laneMoves_refl (n := n) (ps := ps) (a := c)).set 0 (hfs LNK.STAT.LOCK (by decide))).setLane { c.lane n with run := 0 } hp
  exact LaneMoves.ite (fun _ => (hrun.flag (hfs _ (by decide))).inc (hfs _ (by decide))) (fun _ => hrun)

theorem get_lockLost_lock : (lockLost c n).get LNK.STAT.LOCK n = 0 := by
  have hlock : (c.set LNK.STAT.LOCK n 0).get LNK.STAT.LOCK n = 0 := get_set_self _ _ _ _
  unfold lockLost
  split <;> simp (disch := decide) only [get_inc_fld, get_flag_fld, setLane_get, hlock]

theorem get_lockLost_flag : (lockLost c n).get LNK.STAT.LOL n = if c.on LNK.STAT.LOCK n then 1 else c.get LNK.STAT.LOL n := by
  unfold lockLost
  split <;> simp (disch := decide) only [get_inc_fld, get_flag_self, get_set_fld, setLane_get]

theorem get_lockLost_count : (lockLost c n).get LNK.CNT.LOL n =
    if c.on LNK.STAT.LOCK n then satN LNK.CNT.LOL.width (c.get LNK.CNT.LOL n + 1) else c.get LNK.CNT.LOL n := by
  unfold lockLost
  split <;> simp (disch := decide) only [get_inc_self, get_flag_fld, get_set_fld, setLane_get]

end

/-! What becomes of the lane -/

section

variable {c : Chip} {n k : Nat}

theorem lockLeft_standby (h : c.lstate n = lsStandby) : lockLeft c n k = c.setLaneState n lsDown := if_pos h

theorem lockLeft_used (h : InUse c n) : lockLeft c n k = c.toBlocked n k false := by
  have hstandby : c.lstate n ≠ lsStandby := by
    rcases h with h | h <;> rw [h] <;> decide
  exact (if_neg hstandby).trans (retireInUse_eq h k)

theorem lockLeft_other (hstandby : c.lstate n ≠ lsStandby) (hused : ¬InUse c n) : lockLeft c n k = c :=
  (if_neg hstandby).trans (if_neg hused)

theorem down_of_standby_moves (h : c.lstate n = lsStandby) {fs : List Fld} {ps : List Part} (hstate : LNK.STATE.STATE ∈ fs)
    (hodres : GPR.LDIAG.ODRES ∈ fs) (hp : Part.lnk ∈ ps) : LaneMoves n fs ps c (c.setLaneState n lsDown) :=
  setLaneState_moves (by rw [h]; decide) (by rw [h]; decide) (by decide) hstate (fun _ => hodres)
    (fun e => absurd (h.symm.trans e) (by decide)) hp

theorem lockLeft_moves (h1 : k ≠ 1) {fs : List Fld} {ps : List Part} (hfs : ∀ f ∈ lossFields, f ∈ fs) (hlnk : Part.lnk ∈ ps)
    (hflt : Part.flt ∈ ps) : LaneMoves n fs ps c (lockLeft c n k) := by
  by_cases hstandby : c.lstate n = lsStandby
  · rw [lockLeft_standby hstandby]
    exact down_of_standby_moves hstandby (hfs _ (by decide)) (hfs _ (by decide)) hlnk
  by_cases hused : InUse c n
  · rw [lockLeft_used hused]
    exact toBlocked_moves hused (fun f hf => hfs f (by revert f; decide)) (fun _ => hfs _ (by decide)) hlnk h1 (fun _ => hflt)
  · rw [lockLeft_other hstandby hused]
    exact laneMoves_refl

/-- A lane that is not in use keeps its cause and raises nothing. -/
theorem lockLeft_unused (h : ¬InUse c n) : (lockLeft c n k).lstate n = (if c.lstate n = lsStandby then lsDown else c.lstate n) ∧
    (lockLeft c n k).get LNK.STATE.CAUSE n = c.get LNK.STATE.CAUSE n ∧ (lockLeft c n k).flt = c.flt := by
  by_cases hstandby : c.lstate n = lsStandby
  · have hdown : LaneMoves n [LNK.STATE.STATE, GPR.LDIAG.ODRES] [.lnk] c (c.setLaneState n lsDown) :=
      down_of_standby_moves hstandby (by decide) (by decide) (by decide)
    rw [lockLeft_standby hstandby, if_pos hstandby]
    exact ⟨lstate_setLaneState (by rw [hstandby]; decide) (by rw [hstandby]; decide) (by decide) (by decide),
      hdown.get (by decide) n, hdown.flt (by decide)⟩
  · rw [lockLeft_other hstandby h, if_neg hstandby]
    exact ⟨rfl, rfl, rfl⟩

theorem uplinkLost_moves (h1 : k ≠ 1) : LaneMoves n (lockFields ++ lossFields) [.lnk, .flt] c (c.uplinkLost n k) := by
  rw [uplinkLost_eq]
  exact (lockLost_moves (by decide) (by decide)).trans (lockLeft_moves h1 (by decide) (by decide) (by decide))

end

/-! SYNC_LOSS and LOSS_OF_LIGHT -/

/-- What SYNC_LOSS and LOSS_OF_LIGHT wait for: the instant they are due, the cause they retire with and its source (R139, R150). -/
def LossOf (s : State) (t n k src due : Nat) (i : Instr) : Prop :=
  (i = .syncLoss t n ∧ k = 3 ∧ src = 9 ∧ due = (s.chip.lane n).arrived + 6144) ∨
    (i = .lossOfLight t n ∧ k = 2 ∧ src = 8 ∧ due = (s.chip.lane n).litAt + 64 * s.chip.get LNK.CFG.LOLT)

section

variable {s : State} {t n k src due : Nat} {i : Instr} (hinv : s.Inv) (h : LossOf s t n k src due i)

include h in
theorem LossOf.cause_src : k < 256 ∧ k ≠ 1 ∧ causeEvent k = src ∧ src ≠ 0 := by
  rcases h with ⟨-, rfl, rfl, -⟩ | ⟨-, rfl, rfl, -⟩ <;> decide

include hinv h

theorem exec_loss_early (hearly : s.at_ t < due) : exec i s = .next (s.waits t) := by
  have hgate : ¬(s.chip.released 3 && decide (n < 192 ∧ due ≤ s.at_ t)) = true := by simp [Nat.not_le.2 hearly]
  rcases h with ⟨rfl, rfl, rfl, rfl⟩ | ⟨rfl, rfl, rfl, rfl⟩
  · rw [exec_syncLoss, execSyncLoss]
    exact run_waits hinv (if_neg hgate)
  · rw [exec_lossOfLight, execLossOfLight]
    exact run_waits hinv (if_neg hgate)

theorem exec_loss_due (hrel : s.chip.released 3 = true) (hn : n < 192) (hdue : due ≤ s.at_ t) :
    exec i s = .next { s with chip := (s.chip.at_ t).uplinkLost n k } := by
  have hgate : (s.chip.released 3 && decide (n < 192 ∧ due ≤ s.at_ t)) = true := by simp [hrel, hn, hdue]
  obtain ⟨-, h1, -⟩ := h.cause_src
  have hmoves := uplinkLost_moves (c := s.chip.at_ t) (n := n) h1
  rcases h with ⟨rfl, rfl, rfl, rfl⟩ | ⟨rfl, rfl, rfl, rfl⟩
  · rw [exec_syncLoss, execSyncLoss]
    exact run_laneMoves hinv (if_pos hgate) hmoves (by decide)
  · rw [exec_lossOfLight, execLossOfLight]
    exact run_laneMoves hinv (if_pos hgate) hmoves (by decide)

end

/-- Settles O26: the lock goes, and is flagged and counted when it stood; then the lane leaves the state that needs it, which touches
neither flag nor count. -/
theorem uplinkLossRetires : Obligations.UplinkLossRetires := by
  unfold Obligations.UplinkLossRetires
  intro s t n k src due i hinv hrel hn h
  refine ⟨fun hearly => exec_loss_early hinv h hearly, fun hdue => ?_⟩
  obtain ⟨hk, h1, hsrc, hevent⟩ := LossOf.cause_src h
  let c := s.chip.at_ t
  have hlost : LaneMoves n lockFields [.lnk] c (lockLost c n) := lockLost_moves (fun _ h => h) (by decide)
  have hleft : LaneMoves n lossFields [.lnk, .flt] (lockLost c n) (c.uplinkLost n k) :=
    lockLeft_moves h1 (fun _ h => h) (by decide) (by decide)
  have hmoves := uplinkLost_moves (c := c) (n := n) h1
  have hstate : (lockLost c n).lstate n = c.lstate n := hlost.get (by decide) n
  have hused : InUse (lockLost c n) n ↔ InUse c n := by rw [InUse, InUse, hstate]
  refine ⟨_, exec_loss_due hinv h hrel hn hdue, hmoves.now, (hleft.get (by decide) n).trans get_lockLost_lock,
    (hleft.get (by decide) n).trans get_lockLost_flag, (hleft.get (by decide) n).trans get_lockLost_count,
    ⟨fun huse => ?_, fun hnot => ?_⟩, hmoves.other, rfl, rfl, hmoves.moves.rest, hmoves.moves.fields⟩
  · have hret := toBlocked_retires (hused.2 huse) hk h1
    have hchip : c.uplinkLost n k = (lockLost c n).toBlocked n k false := lockLeft_used (hused.2 huse)
    have hflt := toBlocked_flt (hused.2 huse) h1
    rw [hsrc, if_neg hevent, inFlight_congr (hlost.fabric (by decide)) (hlost.flt (by decide)) hlost.now, hlost.flt (by decide)] at hflt
    rw [← hchip] at hret hflt
    exact ⟨hret.state, hret.cause, hret.retired, hflt⟩
  · obtain ⟨hst, hcause, hflt⟩ := lockLeft_unused (k := k) (mt hused.1 hnot)
    rw [hstate] at hst
    exact ⟨hst, hcause.trans (hlost.get (by decide) n), hflt.trans (hlost.flt (by decide))⟩

end Sys2Proof.Scope
end

section
/-! CLAIM. Lanes that return to work: automatic admission (R158) and DOWN after a reset of the block (R148, R163). -/

namespace Sys2Proof.Scope

open Sys2Proof.Machine Sys2Proof.Machine.Reg Sys2Proof.Laws

/-! AUTO_ADMISSION_START (R158) -/

section

variable {s : State} {n : Nat} (hinv : s.Inv)

include hinv

theorem autoAdmissionStart_admits (htick : s.chip.dev.ticking = true) (hauto : s.chip.autoAdmits n s.chip.dev.nextT0 = true)
    (hadm : s.chip.admissible n = true) :
    ∃ u, exec (.autoAdmissionStart n) s = .next u ∧ u.chip.now = s.at_ s.chip.dev.nextT0 ∧ u.chip.lstate n = lsAdmit ∧
      (u.chip.lane n).adm = some {} ∧ (∀ m, m ≠ n → u.chip.lane m = s.chip.lane m) ∧
      Only s u [(LNK.STATE.STATE, n), (GPR.LDIAG.ODRES, n)] (fun a b => { a with lnk := b.lnk }) := by
  obtain ⟨-, hwq⟩ := hinv
  obtain ⟨hstate, hrec, hother, hnow, hmoves⟩ := startAdmission_admits (c := s.chip.at_ s.chip.dev.nextT0) hadm
  have hexec : exec (.autoAdmissionStart n) s = .next { s with chip := (s.chip.at_ s.chip.dev.nextT0).startAdmission n } := by
    rw [exec_autoAdmissionStart, execAutoAdmissionStart]
    exact run_of_chip_eq (if_pos (by rw [htick, hauto]; rfl)) ((congrArg Pgm.wq (hmoves.pgm (by simp))).trans hwq)
  exact ⟨_, hexec, hnow, hstate, hrec, hother, rfl, rfl, hmoves.rest, hmoves.fields⟩

theorem autoAdmissionStart_idle (h : (s.chip.dev.ticking && s.chip.autoAdmits n s.chip.dev.nextT0) = false) :
    exec (.autoAdmissionStart n) s = .next s := by
  obtain ⟨-, hwq⟩ := hinv
  rw [exec_autoAdmissionStart, execAutoAdmissionStart]
  exact run_of_chip_eq (c := s.chip) (if_neg (by simp [h])) hwq

end

/-- The causes after which a lane is admitted again (R158). -/
def retryCauses : List Nat := [0, 2, 3, 4, 5, 7, 8, 9, 10, 11]

theorem autoAdmits_iff {c : Chip} {n t : Nat} : c.autoAdmits n t = true ↔ c.inRun = true ∧ c.on LNK.LCFG.AUTO n = true ∧
    (c.lstate n = lsStandby ∨ (c.lstate n = lsBlocked ∧ c.on LNK.STAT.LOCK n = true)) ∧ c.get LNK.STATE.AUTOFAIL n < 3 ∧
    c.get LNK.STATE.CAUSE n ∈ retryCauses ∧ (∀ f, (c.lane n).failAt = some f → f + 100 * msTaps ≤ t) ∧ c.laneHeld n = false ∧
    n < 192 := by
  have hcause : ∀ k, (k == 0 || (decide (2 ≤ k) && decide (k ≤ 5)) || (decide (7 ≤ k) && decide (k ≤ 11))) = true ↔
      k ∈ retryCauses := by
    intro k
    simp only [retryCauses, Bool.or_eq_true, Bool.and_eq_true, beq_iff_eq, decide_eq_true_eq, List.mem_cons, List.mem_nil_iff, or_false]
    omega
  unfold Chip.autoAdmits
  simp only [Bool.and_eq_true, hcause, Bool.or_eq_true, beq_iff_eq, decide_eq_true_eq, Bool.not_eq_true', and_assoc]
  cases (c.lane n).failAt <;> simp

/-! LANE_RESUME_DOWN (R163) -/

/-- The fields of a lane that leaves OFF. -/
def downFields : List Fld := [LNK.STATE.STATE, GPR.LDIAG.ODRES, LNK.STAT.TRIPHOLD]

/-- d shows lane n of c in DOWN, its downlink numbers from 0, held when its arm is (R128, R256). -/
structure WentDown (c : Chip) (n : Nat) (d : Chip) : Prop where
  state : d.lstate n = lsDown
  dlSeq : (d.lane n).dlSeq = 0
  held : d.get LNK.STAT.TRIPHOLD n = bit (c.laneHeld n)

theorem down_of_off {c : Chip} {n : Nat} (h : c.lstate n = lsOff) : WentDown c n (c.setLaneState n lsDown) ∧
    (c.setLaneState n lsDown).lnk.redown = c.lnk.redown ∧ LaneMoves n downFields [.lnk] c (c.setLaneState n lsDown) := by
  let d := stateShown c n lsDown
  have hshown : ∀ fs : List Fld, LNK.STATE.STATE ∈ fs → GPR.LDIAG.ODRES ∈ fs → LaneMoves n fs [.lnk] c d := fun fs hs ho =>
    stateShown_laneMoves hs (fun _ => ho) (fun e => absurd (h.symm.trans e) (by decide))
  have hchip : c.setLaneState n lsDown =
      (d.setLane n { passed c n lsDown with dlSeq := 0, staleRun := 0, byp := false }).setB LNK.STAT.TRIPHOLD n (d.laneHeld n) := by
    have hpass : ¬lsDown = c.lstate n := by rw [h]; decide
    unfold Chip.setLaneState
    simp only [hpass, eq_true h, if_true, if_false]
    rfl
  have hheld : d.laneHeld n = c.laneHeld n :=
    (hshown [LNK.STATE.STATE, GPR.LDIAG.ODRES] (by decide) (by decide)).laneHeld (by decide) n
  rw [hchip]
  refine ⟨⟨?_, ?_, ?_⟩, ?_, ?_⟩
  · exact (get_set_fld _ _ _ _ (by decide)).trans (get_stateShown (c := c) (by decide))
  · exact congrArg LaneRec.dlSeq (lane_setLane_self d n _)
  · rw [hheld]
    exact (get_set_self _ _ _ _).trans (by cases c.laneHeld n <;> rfl)
  · show d.lnk.redown = c.lnk.redown
    rw [stateShown_lnk]
  · exact ((hshown downFields (by decide) (by decide)).setLane _ (by decide)).set _ (by decide)

/-- Lanes l, all of them OFF, go down one after the other. -/
def downAll (c : Chip) (l : List Nat) : Chip := c.each l (fun c n => c.setLaneState n lsDown)

/-- The fields of lanes l that leave OFF. -/
def downFieldsOf (l : List Nat) : List (Fld × Nat) := l.flatMap (fun n => downFields.map (fun f => (f, n)))

/-- d is c after each of the lanes l has gone down, once. -/
structure AllDown (c : Chip) (l : List Nat) (d : Chip) : Prop where
  now : d.now = c.now
  redown : d.lnk.redown = c.lnk.redown
  inside : ∀ n ∈ l, WentDown c n d
  outside : ∀ n, n ∉ l → d.lane n = c.lane n
  moves : Moves (downFieldsOf l) [.lnk] c d

theorem not_listed_downFields {l : List Nat} {n : Nat} (h : n ∉ l) (f : Fld) : ¬Listed (downFieldsOf l) f n := by
  rintro ⟨e, he, -, -, rfl⟩
  obtain ⟨m, hm, he⟩ := List.mem_flatMap.1 he
  obtain ⟨g, -, rfl⟩ := List.mem_map.1 he
  exact h hm

/-- A lane outside l reads as before, in every field. -/
theorem AllDown.get {c d : Chip} {l : List Nat} (h : AllDown c l d) {n : Nat} (hn : n ∉ l) (f : Fld) : d.get f n = c.get f n :=
  h.moves.fields f n (not_listed_downFields hn f)

theorem downAll_down {l : List Nat} (hl : l.Nodup) {c : Chip} (hoff : ∀ n ∈ l, c.lstate n = lsOff) : AllDown c l (downAll c l) := by
  induction l generalizing c with
  | nil => exact ⟨rfl, rfl, fun _ h => absurd h List.not_mem_nil, fun _ _ => rfl, moves_refl⟩
  | cons x l ih =>
    obtain ⟨hx, hl⟩ := List.nodup_cons.1 hl
    obtain ⟨hdown, hredown, hmoves⟩ := down_of_off (hoff x List.mem_cons_self)
    have hne : ∀ n ∈ l, n ≠ x := fun n hn e => hx (e ▸ hn)
    have hrest := ih hl (c := c.setLaneState x lsDown)
      (fun n hn => (hmoves.get_other _ (hne n hn)).trans (hoff n (List.mem_cons_of_mem x hn)))
    have hall : downAll c (x :: l) = downAll (c.setLaneState x lsDown) l := rfl
    rw [hall]
    constructor
    case now => exact hrest.now.trans hmoves.now
    case redown => exact hrest.redown.trans hredown
    case inside =>
      intro n hn
      rcases List.mem_cons.1 hn with rfl | hn
      · exact ⟨(hrest.get hx _).trans hdown.state, (congrArg LaneRec.dlSeq (hrest.outside n hx)).trans hdown.dlSeq,
          (hrest.get hx _).trans hdown.held⟩
      · obtain ⟨hstate, hseq, hheld⟩ := hrest.inside n hn
        exact ⟨hstate, hseq, hheld.trans (congrArg bit (hmoves.laneHeld (by decide) n))⟩
    case outside =>
      intro n hn
      obtain ⟨hnx, hn⟩ := not_or.1 (mt List.mem_cons.2 hn)
      exact (hrest.outside n hn).trans (hmoves.other n hnx)
    case moves =>
      exact (hmoves.moves.mono (fun _ he => List.mem_append_left _ he) (fun _ h => h)).trans
        (hrest.moves.mono (fun _ he => List.mem_append_right _ he) (fun _ h => h))

/-- The lanes of the map that are OFF. -/
def offLanes (c : Chip) : List Nat := c.mapped.filter (fun n => c.lstate n == lsOff)

theorem mem_offLanes {c : Chip} {n : Nat} : n ∈ offLanes c ↔ n < 192 ∧ c.laneArm n < 6 ∧ c.lstate n = lsOff := by
  simp only [offLanes, Chip.mapped, List.mem_filter, mem_upTo, decide_eq_true_eq, beq_iff_eq, and_assoc]

theorem offLanes_nodup (c : Chip) : (offLanes c).Nodup := ((upTo_nodup 192).filter _).filter _

theorem lanesDown_down (c : Chip) : AllDown c (offLanes c) c.lanesDown :=
  downAll_down (offLanes_nodup c) (fun _ hn => (mem_offLanes.1 hn).2.2)

/-- The chip at the coming reference, its lanes no more to go down. -/
def resumed (c : Chip) : Chip := { c.at_ c.dev.nextT0 with lnk := { c.lnk with redown := false } }

theorem laneResumeDown_resumes {s : State} (hinv : s.Inv) (h : s.chip.lnk.redown = true) (hrun : s.chip.inRun = true)
    (htick : s.chip.dev.ticking = true) (hrel : s.chip.released 3 = true) :
    exec .laneResumeDown s = .next { s with chip := (resumed s.chip).lanesDown } := by
  obtain ⟨-, hwq⟩ := hinv
  have hpgm := (lanesDown_down (resumed s.chip)).moves.pgm (by simp)
  rw [exec_laneResumeDown, execLaneResumeDown]
  exact run_of_chip_eq (if_pos (by rw [h, hrun, htick, hrel]; rfl)) ((congrArg Pgm.wq hpgm).trans hwq)

theorem laneResumeDown_idle {s : State} (hinv : s.Inv) (h : s.chip.lnk.redown = false) : exec .laneResumeDown s = .next s := by
  obtain ⟨-, hwq⟩ := hinv
  rw [exec_laneResumeDown, execLaneResumeDown]
  exact run_of_chip_eq (c := s.chip) (if_neg (by simp [h])) hwq

theorem id_mem_of_listed_downFields {l : List Nat} {f : Fld} {n : Nat} (h : Listed (downFieldsOf l) f n) :
    f.id ∈ [LNK.STATE.STATE.id, LNK.STAT.TRIPHOLD.id, GPR.LDIAG.ODRES.id] := by
  obtain ⟨e, he, hid, -⟩ := h
  obtain ⟨m, -, he⟩ := List.mem_flatMap.1 he
  obtain ⟨g, hg, rfl⟩ := List.mem_map.1 he
  have hids : ∀ g ∈ downFields, g.id ∈ [LNK.STATE.STATE.id, LNK.STAT.TRIPHOLD.id, GPR.LDIAG.ODRES.id] := by decide
  exact hid ▸ hids g hg

/-- Settles O28: an admission starts as one that the host asked for; the lanes that go down do so one after the other, each changing
itself alone. -/
theorem lanesReturnToWork : Obligations.LanesReturnToWork := by
  unfold Obligations.LanesReturnToWork
  refine ⟨fun s n k hinv htick hrun hn hauto hstate hfails hcause hk hlast hheld => ?_, fun s n hinv h => ?_,
    fun s hinv hredown hrun htick hrel => ?_, fun s hinv h => laneResumeDown_idle hinv h⟩
  · refine autoAdmissionStart_admits hinv htick (autoAdmits_iff.2 ⟨hrun, hauto, hstate, hfails, hcause ▸ hk, hlast, hheld, hn⟩) ?_
    simpa [Chip.admissible, hheld] using hstate
  · refine autoAdmissionStart_idle hinv (Bool.eq_false_iff.2 fun hstarts => ?_)
    obtain ⟨htick, hadmits⟩ := Bool.and_eq_true_iff.1 hstarts
    obtain ⟨-, hauto, -, hfails, hcause, -, hheld, -⟩ := autoAdmits_iff.1 hadmits
    rcases h with h | h | h | h | h
    · exact absurd (h.symm.trans htick) (by decide)
    · exact absurd (h.symm.trans hauto) (by decide)
    · omega
    · rw [h] at hcause
      exact absurd hcause (by decide)
    · exact absurd (h.symm.trans hheld) (by decide)
  · have hdown := lanesDown_down (resumed s.chip)
    have hres : Moves (downFieldsOf (offLanes (resumed s.chip))) [.lnk] s.chip (resumed s.chip) := moves_refl.parts rfl rfl
    have hmoves := hres.trans hdown.moves
    have hin : ∀ {n}, n < 192 → s.chip.laneArm n < 6 → s.chip.lstate n = lsOff → n ∈ offLanes (resumed s.chip) :=
      fun hn harm hoff => mem_offLanes.2 ⟨hn, harm, hoff⟩
    have hout : ∀ {n}, ¬(s.chip.laneArm n < 6 ∧ s.chip.lstate n = lsOff) → n ∉ offLanes (resumed s.chip) :=
      fun h hn => h (mem_offLanes.1 hn).2
    refine ⟨_, laneResumeDown_resumes hinv hredown hrun htick hrel, hdown.now, hdown.redown, fun n hn => ?_, fun n hn harm hoff => ?_,
      fun n h => hdown.outside n (hout h), rfl, rfl, hmoves.rest, fun f n hf => hmoves.fields f n (mt id_mem_of_listed_downFields hf)⟩
    · split
      case isTrue h => exact (hdown.inside n (hin hn h.1 h.2)).state
      case isFalse h => exact hdown.get (hout h) _
    · obtain ⟨-, hseq, hheld⟩ := hdown.inside n (hin hn harm hoff)
      refine ⟨hseq, hheld.trans (congrArg bit ?_)⟩
      show (decide (s.chip.laneArm n < 6) && s.chip.held (s.chip.laneArm n)) = _
      simp [harm]

end Sys2Proof.Scope
end

section
/-! SUPPORT. The code groups of a frame as a receiver reads them (R125, R126, R134): the bytes, the CRC, no code error. -/

namespace Sys2Proof.Scope

open Sys2Proof.Machine

/-! The CRC of R49 has 16 bits -/

theorem crcFeed_lt {w poly crc : Nat} (hpoly : poly < 2 ^ w) (hcrc : crc < 2 ^ w) (bits : List Bool) :
    crcFeed w poly crc bits < 2 ^ w := by
  unfold crcFeed
  induction bits generalizing crc with
  | nil => exact hcrc
  | cons b l ih =>
    refine ih ?_
    have hshift : crc * 2 % 2 ^ w < 2 ^ w := Nat.mod_lt _ (Nat.two_pow_pos w)
    dsimp only
    split
    · exact Nat.xor_lt_two_pow hshift hpoly
    · exact hshift

theorem crc16_lt (b : List Nat) : crc16 b < 65536 := crcFeed_lt (w := 16) (by decide) (by decide) _

/-! Code groups -/

/-- The tables of R125, read back: a data group stands for its byte alone. -/
theorem readGroup_dataGroup : ∀ rd, ∀ b < 256, readGroup rd (dataGroup rd b) = some (.data b) := by decide +kernel

theorem readGroup_comma : ∀ rd, readGroup rd (specialGroup rd 5) = some (.special 5) := by decide

/-- The comma gives a receiver that has read nothing yet its running disparity (R126). -/
theorem readRd_comma {rx : Option Bool} {rd : Bool} (h : rx.getD rd = rd) : readRd rx (specialGroup rd 5) = rd := by
  cases rx with
  | none => revert rd; decide
  | some d => exact h

/-- Groups of bytes are read as those bytes, and leave the disparity that they were sent with. -/
theorem readGroups_dataGroups {l : List Nat} (hl : ∀ b ∈ l, b < 256) (rd : Bool) :
    readGroups (some rd) (dataGroups rd l).1 = (l.map (fun b => some (.data b)), some (dataGroups rd l).2) := by
  induction l generalizing rd with
  | nil => rfl
  | cons b l ih =>
    have hb := readGroup_dataGroup rd b (hl b List.mem_cons_self)
    have hread : readRd (some rd) (dataGroup rd b) = rd := rfl
    simp only [dataGroups, readGroups, hread, hb, ih (fun x hx => hl x (List.mem_cons_of_mem b hx)), List.map_cons]

theorem readGroups_frameGroups {l : List Nat} (hl : ∀ b ∈ l, b < 256) {rx : Option Bool} {rd : Bool} (h : rx.getD rd = rd) :
    readGroups rx (frameGroups rd l).1 = (some (.special 5) :: l.map (fun b => some (.data b)), some (frameGroups rd l).2) := by
  simp only [frameGroups, readGroups, readRd_comma h, readGroup_comma, readGroups_dataGroups hl]

/-! A frame -/

/-- The bytes of a frame and the two of its CRC, most significant first (R134). -/
def withCrc (b : List Nat) : List Nat := b ++ [crc16 b / 256, crc16 b % 256]

theorem withCrc_lt {b : List Nat} (hb : ∀ x ∈ b, x < 256) : ∀ x ∈ withCrc b, x < 256 := by
  have := crc16_lt b
  intro x hx
  rcases List.mem_append.1 hx with hx | hx
  · exact hb x hx
  · simp only [List.mem_cons, List.mem_nil_iff, or_false] at hx
    omega

/-- A receiver reads the groups of a frame as that frame, whole, its CRC as sent, without a code error, the last group valid. -/
theorem receive_frameOnLine {l : LaneRec} {rd : Bool} {b : List Nat} (hrd : l.rxRd.getD rd = rd) (hlen : b.length = 8)
    (hb : ∀ x ∈ b, x < 256) :
    l.receive (frameOnLine rd b) = ⟨some (b, crc16 b, true), 0, some 0, some (frameGroups rd (withCrc b)).2⟩ := by
  have hread := readGroups_frameGroups (withCrc_lt hb) hrd
  obtain ⟨b0, b1, b2, b3, b4, b5, b6, b7, rfl⟩ : ∃ b0 b1 b2 b3 b4 b5 b6 b7, b = [b0, b1, b2, b3, b4, b5, b6, b7] := by
    match b, hlen with
    | [b0, b1, b2, b3, b4, b5, b6, b7], _ => exact ⟨b0, b1, b2, b3, b4, b5, b6, b7, rfl⟩
  have hcrc : 256 * (crc16 [b0, b1, b2, b3, b4, b5, b6, b7] / 256) + crc16 [b0, b1, b2, b3, b4, b5, b6, b7] % 256 =
    crc16 [b0, b1, b2, b3, b4, b5, b6, b7] := Nat.div_add_mod _ _
  rw [frameOnLine, ← withCrc, LaneRec.receive, hread]
  simp [withCrc, symByte, hcrc, List.findIdx?_cons]

end Sys2Proof.Scope
end

section
/-! SUPPORT. What a lane makes of code groups received (R126, R134) and of a frame whose CRC holds (R139, R140, R148, R235). -/

namespace Sys2Proof.Scope

open Sys2Proof.Machine Sys2Proof.Machine.Reg Sys2Proof.Laws

/-! Code groups -/

/-- Lane n has heard code groups g; those that do not exist are counted (R126). -/
def uplinkHeard (c : Chip) (n : Nat) (g : List Nat) : Chip :=
  let d := c.setLane n ((c.lane n).heard g c.now)
  if ((c.lane n).receive g).errs = 0 then d
  else (d.flag LNK.STAT.CODE n).incBy LNK.CNT.CODE n ((c.lane n).receive g).errs

/-- A frame of lane n that cannot be read, or whose CRC does not match (R134, R139). -/
def crcNoted (c : Chip) (n : Nat) : Chip :=
  ((if c.on LNK.STAT.LOCK n then c else c.setLane n { c.lane n with run := 0 }).flag LNK.STAT.CRC n).inc LNK.CNT.CRC n

section

variable {c : Chip} {n : Nat} {g : List Nat}

theorem uplinkHeard_moves {fs : List Fld} {ps : List Part} (hflag : LNK.STAT.CODE ∈ fs) (hcount : LNK.CNT.CODE ∈ fs) (hp : Part.lnk ∈ ps) :
    LaneMoves n fs ps c (uplinkHeard c n g) := by
  have hheard : LaneMoves n fs ps c (c.setLane n ((c.lane n).heard g c.now)) := laneMoves_refl.setLane _ hp
  exact LaneMoves.ite (fun _ => hheard) (fun _ => (hheard.flag hflag).set _ hcount)

theorem lane_uplinkHeard : (uplinkHeard c n g).lane n = (c.lane n).heard g c.now := by
  unfold uplinkHeard
  split <;> exact lane_setLane_self _ _ _

theorem get_uplinkHeard_flag : (uplinkHeard c n g).get LNK.STAT.CODE n =
    if ((c.lane n).receive g).errs = 0 then c.get LNK.STAT.CODE n else 1 := by
  unfold uplinkHeard
  split <;> simp (disch := decide) only [get_incBy_fld, get_flag_self, setLane_get]

theorem get_uplinkHeard_count : (uplinkHeard c n g).get LNK.CNT.CODE n =
    if ((c.lane n).receive g).errs = 0 then c.get LNK.CNT.CODE n
    else satN LNK.CNT.CODE.width (c.get LNK.CNT.CODE n + ((c.lane n).receive g).errs) := by
  unfold uplinkHeard
  split <;> simp (disch := decide) only [get_incBy_self, get_flag_fld, setLane_get]

theorem crcNoted_moves {fs : List Fld} {ps : List Part} (hflag : LNK.STAT.CRC ∈ fs) (hcount : LNK.CNT.CRC ∈ fs) (hp : Part.lnk ∈ ps) :
    LaneMoves n fs ps c (crcNoted c n) := by
  have hrun := LaneMoves.ite (q := c.on LNK.STAT.LOCK n = true) (fun _ => laneMoves_refl)
    (fun _ => (laneMoves_refl (n := n) (fs := fs) (a := c)).setLane { c.lane n with run := 0 } hp)
  exact (hrun.flag hflag).inc hcount

theorem lane_crcNoted : (crcNoted c n).lane n =
    { c.lane n with run := if c.on LNK.STAT.LOCK n = false then 0 else (c.lane n).run } := by
  unfold crcNoted
  cases c.on LNK.STAT.LOCK n
  · exact lane_setLane_self _ _ _
  · rfl

theorem get_crcNoted_flag : (crcNoted c n).get LNK.STAT.CRC n = 1 := by
  unfold crcNoted
  simp (disch := decide) only [get_inc_fld, get_flag_self]

theorem get_crcNoted_count : (crcNoted c n).get LNK.CNT.CRC n = satN LNK.CNT.CRC.width (c.get LNK.CNT.CRC n + 1) := by
  unfold crcNoted
  split <;> simp (disch := decide) only [get_inc_self, get_flag_fld, setLane_get]

end

/-! Driver reports outside ACTIVE (R237) -/

theorem frameReports_cases {stat r : Nat} (h : r ∈ frameReports stat) : reportBit r ∈ [GPR.LDIAG.RDS, GPR.LDIAG.RSB] := by
  have hsingle : ∀ {q : Prop} [Decidable q] {k : Nat}, r ∈ (if q then [k] else []) → r = k := fun h => by
    split at h
    · exact List.mem_singleton.1 h
    · exact absurd h List.not_mem_nil
  rcases List.mem_append.1 h with h | h <;> rw [hsingle h] <;> decide

/-- Outside ACTIVE the reports of a frame are shown, no more. -/
theorem reports_moves {c : Chip} {n : Nat} {fs : List Fld} (h : c.lstate n ≠ lsActive) (hfs : ∀ f ∈ [GPR.LDIAG.RDS, GPR.LDIAG.RSB], f ∈ fs)
    (mode stat : Nat) (ps : List Part) : LaneMoves n fs ps c (c.reports n mode (frameReports stat)) := by
  unfold Chip.reports
  refine LaneMoves.ite (fun _ => laneMoves_refl) (fun _ => ?_)
  rw [if_neg h]
  refine LaneMoves.ite (fun _ => ?_) (fun _ => laneMoves_refl)
  exact LaneMoves.each (fun r hr d => laneMoves_refl.flag (hfs _ (frameReports_cases hr))) laneMoves_refl

/-! A frame whose CRC holds -/

/-- The frame of lane n has been tracked and is kept for the next snapshot (R138, R139). -/
def framed (c : Chip) (n arr : Nat) (f : List Nat) : Chip :=
  (c.trackFrame n arr f).setLane n { (c.trackFrame n arr f).lane n with frame := f, fresh := true }

theorem measureFrame_none {c : Chip} {n : Nat} (h : c.lstate n = lsAdmit ∨ c.lstate n = lsActive → (c.lane n).measure = false) (arr : Nat)
    (f : List Nat) : c.measureFrame n arr f = c := by
  refine if_neg (fun hall => ?_)
  simp only [Bool.and_eq_true, Bool.or_eq_true, beq_iff_eq] at hall
  obtain ⟨⟨⟨⟨hmeasure, huse⟩, -⟩, -⟩, -⟩ := hall
  exact absurd ((h huse).symm.trans hmeasure) (by decide)

section

variable {c : Chip} {n arr : Nat} {f : List Nat}

theorem lane_framed : (framed c n arr f).lane n = { (c.trackFrame n arr f).lane n with frame := f, fresh := true } :=
  lane_setLane_self _ _ _

/-- A frame that leaves its lane outside ACTIVE, with no round trip to measure, is tracked and kept, and its reports are shown. -/
theorem goodFrame_framed (hstate : (c.trackFrame n arr f).lstate n ≠ lsActive)
    (hmeasure : (c.trackFrame n arr f).lstate n = lsAdmit → ((c.trackFrame n arr f).lane n).measure = false) :
    c.goodFrame n arr f = (framed c n arr f).reports n (bitsOf (frameStat f) 6 5) (frameReports (frameStat f)) := by
  have hnone : (framed c n arr f).measureFrame n arr f = framed c n arr f := by
    refine measureFrame_none (fun h => ?_) arr f
    rw [lane_framed]
    exact hmeasure (h.resolve_right hstate)
  have hlight : ¬((framed c n arr f).lstate n = lsActive ∧ linkBlocked (frameStat f) = true) := fun e => hstate e.1
  unfold Chip.goodFrame
  dsimp only
  rw [← framed, if_neg hlight, hnone]

/-- So its effect is that of tracking, up to the reports. -/
theorem goodFrame_tracked {fs : List Fld} {ps : List Part} (hmoves : LaneMoves n fs ps c (c.trackFrame n arr f)) (hp : Part.lnk ∈ ps)
    (hfs : ∀ f ∈ [GPR.LDIAG.RDS, GPR.LDIAG.RSB], f ∈ fs) (hstate : (c.trackFrame n arr f).lstate n ≠ lsActive)
    (hmeasure : (c.trackFrame n arr f).lstate n = lsAdmit → ((c.trackFrame n arr f).lane n).measure = false) :
    LaneMoves n fs ps c (c.goodFrame n arr f) ∧
      LaneMoves n [GPR.LDIAG.RDS, GPR.LDIAG.RSB] [.lnk] (c.trackFrame n arr f) (c.goodFrame n arr f) ∧
      (c.goodFrame n arr f).lane n = { (c.trackFrame n arr f).lane n with frame := f, fresh := true } := by
  rw [goodFrame_framed hstate hmeasure]
  have hshown := fun fs hfs ps => reports_moves (c := framed c n arr f) (fs := fs) hstate hfs (bitsOf (frameStat f) 6 5) (frameStat f) ps
  have hlnk := congrArg Chip.lnk (hshown _ (fun _ h => h) []).moves.rest
  exact ⟨(hmoves.setLane _ hp).trans (hshown fs hfs ps), (laneMoves_refl.setLane _ (by decide)).trans (hshown _ (fun _ h => h) _),
    (lane_congr hlnk n).trans lane_framed⟩

end

/-! Tracking (R139, R140, R148) -/

/-- The record of a lane after a frame with comma arrival `arr`: its session and number, and the run of continuous frames. -/
def trackedRec (l : LaneRec) (arr : Nat) (f : List Nat) (run : Nat) : LaneRec :=
  { l with sess := frameStat f % 32, seq := frameSeq f, arrived := arr, run := run }

section

variable {c : Chip} {n arr : Nat} {f : List Nat}

theorem passed_standby (h : c.lstate n ≠ lsAdmit) : passed c n lsStandby = c.lane n := by
  simp [passed, h]

/-- Without lock a lane in DOWN counts continuous frames; at four it has lock and enters STANDBY. -/
theorem trackFrame_unlocked {r : Nat} (hlock : c.on LNK.STAT.LOCK n = false) (hdown : c.lstate n = lsDown)
    (hr : r = if 0 < (c.lane n).run ∧ frameStat f % 32 = (c.lane n).sess ∧ frameSeq f = ((c.lane n).seq + 1) % 256
      then (c.lane n).run + 1 else 1) :
    c.trackFrame n arr f = if 4 ≤ r
      then ((c.setLane n (trackedRec (c.lane n) arr f r)).set LNK.STAT.LOCK n 1).setLaneState n lsStandby
      else c.setLane n (trackedRec (c.lane n) arr f r) := by
  subst hr
  have hstate : ∀ v, ((c.setLane n v).set LNK.STAT.LOCK n 1).lstate n = lsDown := fun v => (get_set_fld _ _ _ _ (by decide)).trans hdown
  unfold Chip.trackFrame
  simp only [hlock, Bool.false_and, Bool.false_eq_true, if_false, hstate, if_true]
  rfl

theorem trackFrame_discontinuous (hlock : c.on LNK.STAT.LOCK n = true) (hrun : (c.lane n).run ≠ 0) (h : frameStat f % 32 ≠ (c.lane n).sess ∨
    frameSeq f ≠ ((c.lane n).seq + (arr - (c.lane n).arrived + 384) / 768) % 256) :
    c.trackFrame n arr f =
      (((c.setLane n (trackedRec (c.lane n) arr f (c.lane n).run)).flag LNK.STAT.DISC n).inc LNK.CNT.DISC n).retireInUse n 4 := by
  unfold Chip.trackFrame
  simp only [hlock, beq_eq_false_iff_ne.2 hrun, Bool.and_false, Bool.false_eq_true, if_false, if_true, if_pos h]
  rfl

/-- The first frame after an admission has cleared the lane is taken as it comes (R152). -/
theorem trackFrame_first (hlock : c.on LNK.STAT.LOCK n = true) (hrun : (c.lane n).run = 0) :
    c.trackFrame n arr f = c.setLane n (trackedRec (c.lane n) arr f 4) := by
  unfold Chip.trackFrame
  simp only [hlock, hrun, beq_self_eq_true, Bool.and_self, if_true]
  rfl

end

end Sys2Proof.Scope
end

section
/-! CLAIM. UPLINK_FRAME (R126, R134, R138 to R141, R148, R152). -/

namespace Sys2Proof.Scope

open Sys2Proof.Machine Sys2Proof.Machine.Reg Sys2Proof.Laws

section

variable {s : State} (hinv : s.Inv) {t n x : Nat} {w g : List Nat}

include hinv in
/-- A lane in OFF hears nothing. -/
theorem uplinkFrame_off (h : s.chip.lstate n = lsOff) : exec (.uplinkFrame t n w x g) s = .next (s.waits t) := by
  have hgate : ¬(s.chip.released 3 && decide (n < 192) && s.chip.lstate n != lsOff) = true := by simp [h]
  rw [exec_uplinkFrame, execUplinkFrame]
  exact run_waits hinv (if_neg hgate)

/-! Code groups that carry no frame, or one that fails (R126, R134) -/

/-- The chip after code groups that carry no frame, or one that fails. -/
def unframed (c : Chip) (n : Nat) (g : List Nat) : Chip :=
  if ((c.lane n).receive g).frame.isSome then crcNoted (uplinkHeard c n g) n else uplinkHeard c n g

/-- The fields of code groups received. -/
def heardFields : List Fld := [LNK.STAT.CRC, LNK.CNT.CRC, LNK.STAT.CODE, LNK.CNT.CODE]

theorem unframed_moves (c : Chip) (n : Nat) (g : List Nat) : LaneMoves n heardFields [.lnk] c (unframed c n g) := by
  have hheard : LaneMoves n heardFields [.lnk] c (uplinkHeard c n g) := uplinkHeard_moves (by decide) (by decide) (by decide)
  exact LaneMoves.ite (fun _ => hheard.trans (crcNoted_moves (by decide) (by decide) (by decide))) (fun _ => hheard)

/-- What they show: a frame that fails is flagged and counted and, without lock, starts the run over; code errors are counted. -/
theorem unframed_shows (c : Chip) (n : Nat) (g : List Nat) (r : Received) (hr : r = (c.lane n).receive g) :
    (unframed c n g).get LNK.STAT.CRC n = (if r.frame.isSome then 1 else c.get LNK.STAT.CRC n) ∧
      (unframed c n g).get LNK.CNT.CRC n = (if r.frame.isSome then satN LNK.CNT.CRC.width (c.get LNK.CNT.CRC n + 1)
        else c.get LNK.CNT.CRC n) ∧
      (unframed c n g).get LNK.STAT.CODE n = (if r.errs = 0 then c.get LNK.STAT.CODE n else 1) ∧
      (unframed c n g).get LNK.CNT.CODE n = (if r.errs = 0 then c.get LNK.CNT.CODE n
        else satN LNK.CNT.CODE.width (c.get LNK.CNT.CODE n + r.errs)) ∧
      (unframed c n g).lane n = { (c.lane n).heard g c.now with
        run := if r.frame.isSome ∧ c.on LNK.STAT.LOCK n = false then 0 else (c.lane n).run } := by
  subst hr
  have hheard : LaneMoves n [LNK.STAT.CODE, LNK.CNT.CODE] [.lnk] c (uplinkHeard c n g) :=
    uplinkHeard_moves (by decide) (by decide) (by decide)
  have hcrc : LaneMoves n [LNK.STAT.CRC, LNK.CNT.CRC] [.lnk] (uplinkHeard c n g) (crcNoted (uplinkHeard c n g) n) :=
    crcNoted_moves (by decide) (by decide) (by decide)
  have hlock : (uplinkHeard c n g).on LNK.STAT.LOCK n = c.on LNK.STAT.LOCK n := congrArg (· != 0) (hheard.get (by decide) n)
  unfold unframed
  cases ((c.lane n).receive g).frame.isSome
  · refine ⟨hheard.get (by decide) n, hheard.get (by decide) n, get_uplinkHeard_flag, get_uplinkHeard_count, lane_uplinkHeard.trans ?_⟩
    rw [if_neg (fun e => absurd e.1 (by decide))]
    rfl
  · refine ⟨get_crcNoted_flag, ?_, (hcrc.get (by decide) n).trans get_uplinkHeard_flag,
      (hcrc.get (by decide) n).trans get_uplinkHeard_count, ?_⟩
    · exact get_crcNoted_count.trans (by rw [hheard.get (by decide) n]; rfl)
    · refine lane_crcNoted.trans ?_
      rw [hlock, lane_uplinkHeard]
      simp only [true_and]
      rfl

variable (hrel : s.chip.released 3 = true) (hn : n < 192) (hon : s.chip.lstate n ≠ lsOff)

include hinv hrel hn hon

theorem uplinkFrame_unframed
    (h : ∀ f crc v, ((s.chip.lane n).receive (w ++ x :: g)).frame = some (f, crc, v) → v = false ∨ crc ≠ crc16 f) :
    exec (.uplinkFrame t n w x g) s = .next { s with chip := unframed (s.chip.at_ t) n (w ++ x :: g) } := by
  have hgate : (s.chip.released 3 && decide (n < 192) && s.chip.lstate n != lsOff) = true := by simp [hrel, hn, hon]
  rw [exec_uplinkFrame, execUplinkFrame]
  refine run_laneMoves hinv ((if_pos hgate).trans ?_) (unframed_moves _ n _) (by decide)
  have hlane : (s.chip.at_ t).lane n = s.chip.lane n := rfl
  dsimp only
  unfold unframed
  cases hframe : ((s.chip.lane n).receive (w ++ x :: g)).frame with
  | none =>
    simp only [hlane, hframe]
    rfl
  | some r =>
    obtain ⟨f, crc, v⟩ := r
    have hbad : ¬(v && crc == crc16 f) = true := by
      rcases h f crc v hframe with h | h <;> simp [h]
    simp only [hlane, hframe, if_neg hbad]
    rfl

/-- A frame with its CRC, sent for the receiver's disparity, is taken as that frame (R134). -/
theorem uplinkFrame_good {rd : Bool} {b : List Nat} (hrd : (s.chip.lane n).rxRd.getD rd = rd) (hlen : b.length = 8) (hb : ∀ y ∈ b, y < 256)
    (hline : w ++ x :: g = frameOnLine rd b) {fs : List Fld} {ps : List Part} {c d : Chip}
    (hc : c = (s.chip.at_ t).setLane n ((s.chip.lane n).heard (frameOnLine rd b) (s.at_ t)))
    (hd : c.goodFrame n (s.at_ t - 704) b = d) (hmoves : LaneMoves n fs ps c d) (hp : Part.lnk ∈ ps) (hps : Part.pgm ∉ ps) :
    exec (.uplinkFrame t n w x g) s = .next { s with chip := d } := by
  have hgate : (s.chip.released 3 && decide (n < 192) && s.chip.lstate n != lsOff) = true := by simp [hrel, hn, hon]
  have hrecv := receive_frameOnLine hrd hlen hb
  subst hc
  have hall : LaneMoves n fs ps (s.chip.at_ t) d := (laneMoves_refl.setLane _ hp).trans hmoves
  rw [exec_uplinkFrame, execUplinkFrame, hline]
  refine run_laneMoves hinv ((if_pos hgate).trans (Eq.trans ?_ hd)) hall hps
  have hlane : (s.chip.at_ t).lane n = s.chip.lane n := rfl
  simp only [hlane, LaneRec.heard, hrecv, if_true, Bool.true_and, beq_self_eq_true]
  rfl

end

/-! A frame of a lane (R139, R140, R148, R152) -/

/-- The last group of a frame is valid: the lane's light dates from now. -/
theorem litAt_heard_frame {l : LaneRec} {rd : Bool} {b : List Nat} (hrd : l.rxRd.getD rd = rd) (hlen : b.length = 8)
    (hb : ∀ y ∈ b, y < 256) (now : Nat) : (l.heard (frameOnLine rd b) now).litAt = now := by
  simp [LaneRec.heard, receive_frameOnLine hrd hlen hb]

section

variable {c : Chip} {n arr r : Nat} {f : List Nat}

theorem track_down (hlock : c.on LNK.STAT.LOCK n = false) (hdown : c.lstate n = lsDown)
    (hr : r = if 0 < (c.lane n).run ∧ frameStat f % 32 = (c.lane n).sess ∧ frameSeq f = ((c.lane n).seq + 1) % 256
      then (c.lane n).run + 1 else 1) :
    LaneMoves n [LNK.STAT.LOCK, LNK.STATE.STATE] [.lnk] c (c.trackFrame n arr f) ∧
      (c.trackFrame n arr f).get LNK.STAT.LOCK n = (if 4 ≤ r then 1 else 0) ∧
      (c.trackFrame n arr f).lstate n = (if 4 ≤ r then lsStandby else lsDown) ∧
      (c.trackFrame n arr f).lane n = trackedRec (c.lane n) arr f r := by
  let d := c.setLane n (trackedRec (c.lane n) arr f r)
  let e := d.set LNK.STAT.LOCK n 1
  have hd : LaneMoves n [LNK.STAT.LOCK, LNK.STATE.STATE] [.lnk] c d := laneMoves_refl.setLane _ (by decide)
  have hlane : d.lane n = trackedRec (c.lane n) arr f r := lane_setLane_self _ _ _
  have hstate : e.lstate n = lsDown := (get_set_fld _ _ _ _ (by decide)).trans hdown
  rw [trackFrame_unlocked hlock hdown hr]
  split
  case isTrue =>
    have hnew : lsStandby ≠ e.lstate n := by rw [hstate]; decide
    have hold : e.lstate n ≠ lsOff := by rw [hstate]; decide
    have hadmit : e.lstate n ≠ lsAdmit := by rw [hstate]; decide
    have hpass : ∀ fs : List Fld, LNK.STATE.STATE ∈ fs → LaneMoves n fs [.lnk] e (e.setLaneState n lsStandby) := fun _ hfs =>
      setLaneState_moves hnew hold (by decide) hfs (fun h => absurd (.inl rfl) h) (fun h => absurd h hadmit) (by decide)
    exact ⟨(hd.set 1 (by decide)).trans (hpass _ (by decide)),
      ((hpass [LNK.STATE.STATE] (by decide)).get (by decide) n).trans (get_set_self _ _ _ _),
      lstate_setLaneState hnew hold (by decide) (by decide),
      (lane_setLaneState hnew hold (by decide)).trans ((passed_standby hadmit).trans hlane)⟩
  case isFalse =>
    exact ⟨hd, by simpa [Chip.on] using hlock, hdown, hlane⟩

theorem track_discontinuous (hlock : c.on LNK.STAT.LOCK n = true) (hactive : c.lstate n = lsActive) (hrun : (c.lane n).run ≠ 0)
    (h : frameStat f % 32 ≠ (c.lane n).sess ∨ frameSeq f ≠ ((c.lane n).seq + (arr - (c.lane n).arrived + 384) / 768) % 256) :
    LaneMoves n [LNK.STATE.STATE, LNK.STATE.CAUSE, LNK.STAT.DISC, LNK.STAT.RETIRED, LNK.CNT.DISC] [.lnk, .flt] c (c.trackFrame n arr f) ∧
      (c.trackFrame n arr f).lstate n = lsBlocked ∧ (c.trackFrame n arr f).get LNK.STATE.CAUSE n = 4 ∧
      (c.trackFrame n arr f).get LNK.STAT.DISC n = 1 ∧ (c.trackFrame n arr f).get LNK.STAT.RETIRED n = 1 ∧
      (c.trackFrame n arr f).get LNK.CNT.DISC n = satN LNK.CNT.DISC.width (c.get LNK.CNT.DISC n + 1) ∧
      (c.trackFrame n arr f).flt = { c.flt with raised := inFlight c 10 } := by
  let d := ((c.setLane n (trackedRec (c.lane n) arr f (c.lane n).run)).flag LNK.STAT.DISC n).inc LNK.CNT.DISC n
  have hd : ∀ {fs : List Fld} {ps : List Part}, LNK.STAT.DISC ∈ fs → LNK.CNT.DISC ∈ fs → Part.lnk ∈ ps → LaneMoves n fs ps c d :=
    fun h1 h2 hp => ((laneMoves_refl.setLane _ hp).flag h1).inc h2
  have hcount : LaneMoves n [LNK.STAT.DISC, LNK.CNT.DISC] [.lnk] c d := hd (by decide) (by decide) (by decide)
  have hstate : d.lstate n = lsActive := (hcount.get (by decide) n).trans hactive
  have huse : InUse d n := .inr hstate
  have hret := toBlocked_retires huse (k := 4) (by decide) (by decide)
  rw [trackFrame_discontinuous hlock hrun h, retireInUse_eq huse]
  refine ⟨(hd (by decide) (by decide) (by decide)).trans (toBlocked_moves huse (by decide)
      (fun e => absurd (hstate.symm.trans e) (by decide)) (by decide) (by decide) (fun _ => by decide)),
    hret.state, hret.cause, ?_, hret.retired, ?_, ?_⟩
  · rw [toBlocked_get huse (by decide) (by decide)]
    simp (disch := decide) only [d, get_inc_fld, get_flag_self]
  · rw [toBlocked_get huse (by decide) (by decide)]
    simp (disch := decide) only [d, get_inc_self, get_flag_fld, setLane_get]
  · rw [toBlocked_flt huse (by decide)]
    exact congrArg (fun l => { c.flt with raised := l }) (inFlight_congr (hcount.fabric (by decide)) (hcount.flt (by decide)) hcount.now 10)

theorem track_first (hlock : c.on LNK.STAT.LOCK n = true) (hrun : (c.lane n).run = 0) :
    LaneMoves n [] [.lnk] c (c.trackFrame n arr f) ∧ (c.trackFrame n arr f).lstate n = c.lstate n ∧
      (c.trackFrame n arr f).lane n = trackedRec (c.lane n) arr f 4 := by
  rw [trackFrame_first hlock hrun]
  exact ⟨laneMoves_refl.setLane _ (by decide), rfl, lane_setLane_self _ _ _⟩

end

/-! UPLINK_FRAME with a frame -/

/-- Lane n at instant t, the groups of frame b heard. -/
def frameHeard (s : State) (t n : Nat) (rd : Bool) (b : List Nat) : Chip :=
  (s.chip.at_ t).setLane n ((s.chip.lane n).heard (frameOnLine rd b) (s.at_ t))

theorem lane_frameHeard (s : State) (t n : Nat) (rd : Bool) (b : List Nat) :
    (frameHeard s t n rd b).lane n = (s.chip.lane n).heard (frameOnLine rd b) (s.at_ t) := lane_setLane_self _ _ _

theorem trackedRec_lit {l : LaneRec} {now : Nat} (h : l.litAt = now) (arr : Nat) (b : List Nat) (run : Nat) :
    { trackedRec l arr b run with frame := b, fresh := true } =
      { l with litAt := now, sess := frameStat b % 32, seq := frameSeq b, arrived := arr, run := run, frame := b, fresh := true } := by
  subst h
  rfl

/-- The record of a lane that has taken frame b. -/
def takenRec (s : State) (t n : Nat) (rd : Bool) (b : List Nat) (run : Nat) : LaneRec :=
  { (s.chip.lane n).heard (frameOnLine rd b) (s.at_ t) with
    litAt := s.at_ t, sess := frameStat b % 32, seq := frameSeq b, arrived := s.at_ t - 704, run := run, frame := b, fresh := true }

section

variable {s : State} (hinv : s.Inv) {t n x : Nat} {w g : List Nat} (hrel : s.chip.released 3 = true) (hn : n < 192)
  {rd : Bool} {b : List Nat} (hrd : (s.chip.lane n).rxRd.getD rd = rd) (hlen : b.length = 8) (hb : ∀ y ∈ b, y < 256)
  (hline : w ++ x :: g = frameOnLine rd b)

include hrd hlen hb in
theorem takenRec_eq (run : Nat) :
    { trackedRec ((frameHeard s t n rd b).lane n) (s.at_ t - 704) b run with frame := b, fresh := true } = takenRec s t n rd b run := by
  rw [lane_frameHeard]
  exact trackedRec_lit (litAt_heard_frame hrd hlen hb _) _ _ _

include hinv hrel hn hrd hlen hb hline

/-- A frame that leaves its lane outside ACTIVE, with no round trip to measure: what tracking does, the frame kept, the reports shown. -/
theorem uplinkFrame_tracked {fs : List Fld} {ps : List Part} {d : Chip} (hon : s.chip.lstate n ≠ lsOff)
    (hd : d = (frameHeard s t n rd b).trackFrame n (s.at_ t - 704) b) (hmoves : LaneMoves n fs ps (frameHeard s t n rd b) d)
    (hlnk : Part.lnk ∈ ps) (hpgm : Part.pgm ∉ ps) (hstate : d.lstate n ≠ lsActive)
    (hmeasure : d.lstate n = lsAdmit → (d.lane n).measure = false) :
    ∃ u, exec (.uplinkFrame t n w x g) s = .next u ∧ u.chip.now = s.at_ t ∧
      LaneMoves n [GPR.LDIAG.RDS, GPR.LDIAG.RSB] [.lnk] d u.chip ∧ u.chip.lane n = { d.lane n with frame := b, fresh := true } ∧
      (∀ m, m ≠ n → u.chip.lane m = s.chip.lane m) ∧ u.sram = s.sram ∧ u.pending = s.pending ∧
      Moves ((fs ++ [GPR.LDIAG.RDS, GPR.LDIAG.RSB]).map (fun f => (f, n))) ps (s.chip.at_ t) u.chip := by
  subst hd
  have hmore := hmoves.mono (gs := fs ++ [GPR.LDIAG.RDS, GPR.LDIAG.RSB]) (fun _ h => List.mem_append_left _ h) (fun _ h => h)
  obtain ⟨hall, hshown, hlane⟩ := goodFrame_tracked hmore hlnk (fun _ h => List.mem_append_right _ h) hstate hmeasure
  have hframe := (laneMoves_refl.setLane _ hlnk).trans hall
  exact ⟨_, uplinkFrame_good hinv hrel hn hon hrd hlen hb hline rfl rfl hall hlnk hpgm, hframe.now, hshown, hlane, hframe.other, rfl, rfl,
    hframe.moves⟩

/-- In DOWN, without lock (R139, R148). -/
theorem uplinkFrame_down {r : Nat} (hdown : s.chip.lstate n = lsDown) (hlock : s.chip.on LNK.STAT.LOCK n = false)
    (hr : r = if 0 < (s.chip.lane n).run ∧ frameStat b % 32 = (s.chip.lane n).sess ∧ frameSeq b = ((s.chip.lane n).seq + 1) % 256
      then (s.chip.lane n).run + 1 else 1) :
    ∃ u, exec (.uplinkFrame t n w x g) s = .next u ∧ u.chip.now = s.at_ t ∧ u.chip.get LNK.STAT.LOCK n = (if 4 ≤ r then 1 else 0) ∧
      u.chip.lstate n = (if 4 ≤ r then lsStandby else lsDown) ∧ u.chip.lane n = takenRec s t n rd b r ∧
      (∀ m, m ≠ n → u.chip.lane m = s.chip.lane m) ∧
      Only s u [(LNK.STAT.LOCK, n), (LNK.STATE.STATE, n), (GPR.LDIAG.RDS, n), (GPR.LDIAG.RSB, n)] (fun a b => { a with lnk := b.lnk }) := by
  have hrec := lane_frameHeard s t n rd b
  obtain ⟨hmoves, hlk, hst, htracked⟩ := track_down (c := frameHeard s t n rd b) (arr := s.at_ t - 704) (r := r) (f := b) hlock
    hdown (by rw [hrec]; exact hr)
  obtain ⟨u, hexec, hnow, hshown, hlane, hother, hsram, hpend, hall⟩ := uplinkFrame_tracked hinv hrel hn hrd hlen hb hline
    (by rw [hdown]; decide) rfl hmoves (by decide) (by decide) (by rw [hst]; split <;> decide)
    (fun e => absurd (hst.symm.trans e) (by split <;> decide))
  rw [htracked, takenRec_eq hrd hlen hb] at hlane
  exact ⟨u, hexec, hnow, (hshown.get (by decide) n).trans hlk, (hshown.get (by decide) n).trans hst, hlane, hother, hsram, hpend,
    hall.rest, hall.fields⟩

/-- In ACTIVE, with lock, and not the frame expected (R140). -/
theorem uplinkFrame_discontinuous (hactive : s.chip.lstate n = lsActive) (hlock : s.chip.on LNK.STAT.LOCK n = true)
    (hrun : (s.chip.lane n).run ≠ 0) (hgap : frameStat b % 32 ≠ (s.chip.lane n).sess ∨
      frameSeq b ≠ ((s.chip.lane n).seq + (s.at_ t - 704 - (s.chip.lane n).arrived + 384) / 768) % 256) :
    ∃ u, exec (.uplinkFrame t n w x g) s = .next u ∧ u.chip.now = s.at_ t ∧ u.chip.lstate n = lsBlocked ∧
      u.chip.get LNK.STATE.CAUSE n = 4 ∧ u.chip.get LNK.STAT.DISC n = 1 ∧ u.chip.get LNK.STAT.RETIRED n = 1 ∧
      u.chip.get LNK.CNT.DISC n = satN LNK.CNT.DISC.width (s.chip.get LNK.CNT.DISC n + 1) ∧
      u.chip.flt = { s.chip.flt with raised := s.raised t 10 } ∧ (∀ m, m ≠ n → u.chip.lane m = s.chip.lane m) ∧
      Only s u [(LNK.STATE.STATE, n), (LNK.STATE.CAUSE, n), (LNK.STAT.DISC, n), (LNK.STAT.RETIRED, n), (LNK.CNT.DISC, n),
        (GPR.LDIAG.RDS, n), (GPR.LDIAG.RSB, n)] (fun a b => { a with lnk := b.lnk, flt := b.flt }) := by
  have hrec := lane_frameHeard s t n rd b
  obtain ⟨hmoves, hst, hcause, hdisc, hretired, hcount, hflt⟩ := track_discontinuous (c := frameHeard s t n rd b) (arr := s.at_ t - 704)
    (f := b) hlock hactive (hrec ▸ hrun) (hrec ▸ hgap)
  obtain ⟨u, hexec, hnow, hshown, -, hother, hsram, hpend, hall⟩ := uplinkFrame_tracked hinv hrel hn hrd hlen hb hline
    (by rw [hactive]; decide) rfl hmoves (by decide) (by decide) (by rw [hst]; decide) (fun e => absurd (hst.symm.trans e) (by decide))
  exact ⟨u, hexec, hnow, (hshown.get (by decide) n).trans hst, (hshown.get (by decide) n).trans hcause,
    (hshown.get (by decide) n).trans hdisc, (hshown.get (by decide) n).trans hretired, (hshown.get (by decide) n).trans hcount,
    (hshown.flt (by decide)).trans hflt, hother, hsram, hpend, hall.rest, hall.fields⟩

/-- In ADMIT, the first frame after the lane has been cleared (R152). -/
theorem uplinkFrame_first (hadmit : s.chip.lstate n = lsAdmit) (hlock : s.chip.on LNK.STAT.LOCK n = true)
    (hrun : (s.chip.lane n).run = 0) (hmeasure : (s.chip.lane n).measure = false) :
    ∃ u, exec (.uplinkFrame t n w x g) s = .next u ∧ u.chip.now = s.at_ t ∧ u.chip.lstate n = lsAdmit ∧
      u.chip.lane n = takenRec s t n rd b 4 ∧ (∀ m, m ≠ n → u.chip.lane m = s.chip.lane m) ∧
      Only s u [(GPR.LDIAG.RDS, n), (GPR.LDIAG.RSB, n)] (fun a b => { a with lnk := b.lnk }) := by
  have hrec := lane_frameHeard s t n rd b
  obtain ⟨hmoves, hkept, htracked⟩ := track_first (c := frameHeard s t n rd b) (arr := s.at_ t - 704) (f := b) hlock (hrec ▸ hrun)
  have hst := hkept.trans hadmit
  obtain ⟨u, hexec, hnow, hshown, hlane, hother, hsram, hpend, hall⟩ := uplinkFrame_tracked hinv hrel hn hrd hlen hb hline
    (by rw [hadmit]; decide) rfl hmoves (by decide) (by decide) (by rw [hst]; decide)
    (fun _ => by rw [htracked, hrec]; exact hmeasure)
  rw [htracked, takenRec_eq hrd hlen hb] at hlane
  exact ⟨u, hexec, hnow, (hshown.get (by decide) n).trans hst, hlane, hother, hsram, hpend, hall.rest, hall.fields⟩

end

/-- Settles O27: the groups of a frame are read as that frame; what becomes of the lane is what tracking makes of it, for its state outside
ACTIVE lets no more follow than the reports. -/
theorem uplinkFramesAreTracked : Obligations.UplinkFramesAreTracked := by
  unfold Obligations.UplinkFramesAreTracked
  have hbytes : ∀ {f : List Byte}, f.length = 8 → (f.map (·.toNat)).length = 8 ∧ ∀ y ∈ f.map (·.toNat), y < 256 := fun hlen =>
    ⟨by rw [List.length_map, hlen], fun y hy => by
      obtain ⟨v, -, rfl⟩ := List.mem_map.1 hy
      exact v.isLt⟩
  refine ⟨fun s t n x w y g r hinv hrel hn hon hg hr hbad => ?_, ?_, ?_, ?_, fun s t n x w g hinv hoff => uplinkFrame_off hinv hoff⟩
  · subst hg hr
    have hmoves := unframed_moves (s.chip.at_ t) n (w ++ x :: y)
    obtain ⟨hflag, hcount, hcode, herrs, hlane⟩ := unframed_shows (s.chip.at_ t) n (w ++ x :: y) _ rfl
    exact ⟨_, uplinkFrame_unframed hinv hrel hn hon hbad, hmoves.now, hflag, hcount, hcode, herrs, hlane, hmoves.other, rfl, rfl,
      hmoves.moves.rest, hmoves.moves.fields⟩
  · intro s t n r x rd f l b w g hinv hrel hn hlen hdown hlock hl hrd hb hline hr
    subst hl hb
    exact uplinkFrame_down hinv hrel hn hrd (hbytes hlen).1 (hbytes hlen).2 hline hdown hlock hr
  · intro s t n x rd f l b w g hinv hrel hn hlen hactive hlock hl hrun hrd hb hline hgap
    subst hl hb
    exact uplinkFrame_discontinuous hinv hrel hn hrd (hbytes hlen).1 (hbytes hlen).2 hline hactive hlock hrun hgap
  · intro s t n x rd f l b w g hinv hrel hn hlen hadmit hlock hl hrun hmeasure hrd hb hline
    subst hl hb
    exact uplinkFrame_first hinv hrel hn hrd (hbytes hlen).1 (hbytes hlen).2 hline hadmit hlock hrun hmeasure

end Sys2Proof.Scope
end

section
/-! SUPPORT. Laws of one direct port (R205 to R214): its record, what an operation on port p leaves alone, which source commands it, and
how its switches follow the commanded state. -/

namespace Sys2Proof.Scope

open Sys2Proof.Machine Sys2Proof.Machine.Reg Sys2Proof.Laws

/-! Records -/

section

variable (c : Chip) (v : Port) (p : Nat)

@[simp] theorem port_setPort_self : (c.setPort p v).port p = v := nget_nset_self _ _ _ _

theorem port_setPort_other {q : Nat} (h : q ≠ p) : (c.setPort p v).port q = c.port q := nget_nset_other _ _ _ _ _ _ h

@[simp] theorem setPort_get (f : Fld) (n : Nat) : (c.setPort p v).get f n = c.get f n := rfl

theorem port_congr {d : Chip} (h : d.dhb = c.dhb) : d.port p = c.port p := by rw [Chip.port, Chip.port, h]

theorem port_raise (src : Nat) : (c.raise src).port p = c.port p := port_congr c p (by rw [raise_eq])

variable (up : Bool) (x y : Switch)

@[simp] theorem sw_setSw_self : (v.setSw up x).sw up = x := by cases up <;> rfl

@[simp] theorem sw_setSw_not : (v.setSw up x).sw (!up) = v.sw (!up) := by cases up <;> rfl

@[simp] theorem setSw_setSw : (v.setSw up x).setSw up y = v.setSw up y := by cases up <;> rfl

@[simp] theorem setSw_sw : v.setSw up (v.sw up) = v := by cases up <;> rfl

@[simp] theorem setSw_fault : (v.setSw up x).fault = v.fault := by cases up <;> rfl

end

/-! What an operation on one port leaves alone -/

/-- d differs from c in nothing but port p's own record, those of its fields that are listed, the parts listed and the note of flags set
at this instant; the wait after a reset of the ports stays. -/
structure DhbMoves (p : Nat) (fs : List Fld) (ps : List Part) (c d : Chip) : Prop where
  now : d.now = c.now
  other : ∀ q, q ≠ p → d.port q = c.port q
  resume : d.dhb.resume = c.dhb.resume
  moves : Moves (fs.map (fun f => (f, p))) ps c d

section

variable {p : Nat} {fs : List Fld} {ps : List Part} {a b c : Chip}

theorem dhbMoves_refl : DhbMoves p fs ps a a := ⟨rfl, fun _ _ => rfl, rfl, moves_refl⟩

theorem DhbMoves.trans (h : DhbMoves p fs ps a b) (g : DhbMoves p fs ps b c) : DhbMoves p fs ps a c :=
  ⟨g.now.trans h.now, fun q hq => (g.other q hq).trans (h.other q hq), g.resume.trans h.resume, h.moves.trans g.moves⟩

theorem DhbMoves.mono {gs : List Fld} {qs : List Part} (h : DhbMoves p fs ps a b) (hfs : ∀ f ∈ fs, f ∈ gs)
    (hps : ∀ k ∈ ps, k ∈ qs) : DhbMoves p gs qs a b :=
  ⟨h.now, h.other, h.resume, h.moves.mono (fun e he => by
    obtain ⟨f, hf, rfl⟩ := List.mem_map.1 he
    exact List.mem_map_of_mem (hfs f hf)) hps⟩

/-- A step that leaves the ports and the time. -/
theorem DhbMoves.step (h : DhbMoves p fs ps a b) (hm : Moves (fs.map (fun f => (f, p))) ps b c) (hdhb : c.dhb = b.dhb)
    (hnow : c.now = b.now) : DhbMoves p fs ps a c :=
  h.trans ⟨hnow, fun q _ => port_congr b q hdhb, congrArg Dhb.resume hdhb, hm⟩

theorem DhbMoves.set {f : Fld} (h : DhbMoves p fs ps a b) (v : Nat) (hf : f ∈ fs) : DhbMoves p fs ps a (b.set f p v) :=
  h.step (moves_refl.set v (List.mem_map_of_mem hf)) rfl rfl

theorem DhbMoves.flag {f : Fld} (h : DhbMoves p fs ps a b) (hf : f ∈ fs) : DhbMoves p fs ps a (b.flag f p) :=
  h.step (moves_refl.flag (List.mem_map_of_mem hf)) rfl rfl

theorem DhbMoves.inc {f : Fld} (h : DhbMoves p fs ps a b) (hf : f ∈ fs) : DhbMoves p fs ps a (b.inc f p) := h.set _ hf

theorem DhbMoves.raise (h : DhbMoves p fs ps a b) (src : Nat) (hp : Part.flt ∈ ps) : DhbMoves p fs ps a (b.raise src) := by
  rw [raise_eq]
  exact h.step (moves_refl.parts (by simp [takes, hp]) rfl) rfl rfl

theorem DhbMoves.setPort (h : DhbMoves p fs ps a b) (v : Port) (hp : Part.dhb ∈ ps) : DhbMoves p fs ps a (b.setPort p v) :=
  h.trans ⟨rfl, fun _ hq => port_setPort_other b v p hq, rfl, moves_refl.parts (by simp [takes, Chip.setPort, hp]) rfl⟩

theorem DhbMoves.ite {q : Prop} [Decidable q] (h : q → DhbMoves p fs ps a b) (g : ¬q → DhbMoves p fs ps a c) :
    DhbMoves p fs ps a (if q then b else c) := by
  split
  · exact h ‹_›
  · exact g ‹_›

/-- A field that is not listed reads as before, for every port. -/
theorem DhbMoves.get (h : DhbMoves p fs ps a b) {f : Fld} (hf : (f.id, f.lo) ∉ fieldKeys fs) (n : Nat) : b.get f n = a.get f n :=
  h.moves.fields f n (by
    rintro ⟨e, he, hid, hlo, -⟩
    obtain ⟨g, hg, rfl⟩ := List.mem_map.1 he
    exact hf (List.mem_map.2 ⟨g, hg, by rw [hid, hlo]⟩))

/-- So does every field whose id is that of no listed field. -/
theorem DhbMoves.apart (h : DhbMoves p fs ps a b) {ids : List Nat} (hids : ∀ f ∈ fs, f.id ∈ ids) (f : Fld) (n : Nat)
    (hf : f.id ∉ ids) : b.get f n = a.get f n :=
  h.moves.fields f n (by
    rintro ⟨e, he, hid, -⟩
    obtain ⟨g, hg, rfl⟩ := List.mem_map.1 he
    exact hf (hid ▸ hids g hg))

theorem DhbMoves.ack (h : DhbMoves p fs ps a b) (hfs : ∀ f ∈ [DHB.STAT.UAK, DHB.STAT.LAK], (f.id, f.lo) ∉ fieldKeys fs) (q : Nat)
    (up : Bool) : b.ack q up = a.ack q up := by
  cases up
  · exact congrArg (· != 0) (h.get (hfs DHB.STAT.LAK (by decide)) q)
  · exact congrArg (· != 0) (h.get (hfs DHB.STAT.UAK (by decide)) q)

theorem DhbMoves.flt (h : DhbMoves p fs ps a b) (hp : Part.flt ∉ ps) : b.flt = a.flt :=
  (congrArg Chip.flt h.moves.rest).trans (if_neg hp)

theorem DhbMoves.fabric (h : DhbMoves p fs ps a b) (hf : (RST.DOM.REL.id, RST.DOM.REL.lo) ∉ fieldKeys fs) : b.fabric = a.fabric :=
  congrArg (·.testBit 0) (h.get hf 0)

/-- A command that changes one port writes no SRAM. -/
theorem run_dhbMoves {s : State} (hinv : s.Inv) {f : Memory → Chip → Chip} {t : Nat} (hf : f s.sram s.chip = c)
    (hc : DhbMoves p fs ps (s.chip.at_ t) c) (hps : Part.pgm ∉ ps) : run f s = .next { s with chip := c } := by
  obtain ⟨-, hwq⟩ := hinv
  exact run_of_chip_eq hf ((congrArg Pgm.wq (hc.moves.pgm hps)).trans hwq)

end

/-! The source that commands a port (R206) -/

/-- What decides over the sources above the host's force is for port p in d as it is in c. -/
structure SameSources (p : Nat) (c d : Chip) : Prop where
  idle : (!d.inRun || !d.released 4 || d.dhb.resume.isSome) = (!c.inRun || !c.released 4 || c.dhb.resume.isSome)
  fault : (d.port p).fault = (c.port p).fault
  held : d.held (6 + p) = c.held (6 + p)
  mask : d.maskEntry p = c.maskEntry p

/-- Attributes of a port that do not decide over those sources. -/
def sourceFree : List Nat := DHB.FORCE.EN.id :: portIds

section

variable {p : Nat} {c d : Chip}

theorem sameSources_of_fields (h : ∀ (f : Fld) (n : Nat), f.id ∉ sourceFree → d.get f n = c.get f n)
    (hresume : d.dhb.resume = c.dhb.resume) (hfault : (d.port p).fault = (c.port p).fault) : SameSources p c d := by
  refine ⟨?_, hfault, ?_, ?_⟩
  · simp (disch := decide) only [Chip.inRun, Chip.state, Chip.released, Chip.bitOn, h, hresume]
  · simp (disch := decide) only [Chip.held, Chip.tripHeld, Chip.faultHeld, Chip.bitOn, h]
  · simp (disch := decide) only [Chip.maskEntry, Chip.maskCode, Chip.on, Chip.bitOn, h]
    rfl

theorem SameSources.prio (h : SameSources p c d) (hforce : d.get DHB.FORCE.EN p = c.get DHB.FORCE.EN p) :
    d.portPrio p = c.portPrio p := by
  rw [Chip.portPrio, h.idle, h.fault, h.held, h.mask, Chip.on, hforce]
  rfl

/-- The host's force commands a port that no higher source commands. -/
theorem SameSources.forced (h : SameSources p c d) (hprio : 4 ≤ c.portPrio p) (hforce : d.on DHB.FORCE.EN p = true) :
    d.portPrio p = 4 := by
  have hfree : ∀ idle fault held mask force : Bool,
      4 ≤ (if idle then 0 else if fault then 1 else if held then 2 else if mask then 3 else if force then 4 else 5) →
      (if idle then 0 else if fault then 1 else if held then 2 else if mask then 3 else if true then 4 else 5) = 4 := by decide
  rw [Chip.portPrio, h.idle, h.fault, h.held, h.mask, hforce]
  exact hfree _ _ _ _ _ hprio

theorem portPrio_fault (h : (c.port p).fault = true) : c.portPrio p ≤ 1 := by
  unfold Chip.portPrio
  rw [h]
  split <;> simp

/-- What a source commands, but for the carrier's state. -/
theorem portBase_congr (h : ∀ (f : Fld) (n : Nat), f.id ∉ portIds → d.get f n = c.get f n)
    (htrk : d.get DHB.STAT.TRK p = c.get DHB.STAT.TRK p) (k : Nat) : d.portBase p k = c.portBase p k := by
  simp (disch := decide) only [Chip.portBase, Chip.maskEntry, Chip.maskCode, Chip.modeMap, Chip.on, Chip.bitOn, h, htrk]
  rfl

theorem portWant_free (h : (c.port p).refresh = none) (k : Nat) : c.portWant p k = c.portBase p k := by
  simp only [Chip.portWant, h]

/-- Priorities below 3 command both switches off (R206). -/
theorem portBase_off {k : Nat} (h : k < 3) : c.portBase p k = (false, false) := by
  obtain rfl | rfl | rfl : k = 0 ∨ k = 1 ∨ k = 2 := by omega
  all_goals rfl

end

/-! A switch follows the commanded state (R207, R208) -/

/-- A switch that turns off at instant `now`, its acknowledge at the level given. -/
def fallen (now : Nat) (ack : Bool) (x : Switch) : Switch :=
  if x.on then { x with
    on := false, fellAt := some now, ackSeen := ack, ackLost := false, ackOff := false, changedAt := now, await := !ack }
  else x

/-- A switch that follows the commanded state. -/
def followed (now : Nat) (ack : Bool) (x : Switch) (want : Bool) : Switch :=
  if want then { x with want := true, pend := if !x.want && !x.on then some now else x.pend }
  else { fallen now ack { x with pend := none } with want := false }

/-- The fields in which a port shows that its switches follow. -/
def followFields : List Fld := [DHB.EVT.CANCEL, DHB.CNT.SUPPR, DHB.STAT.UON, DHB.STAT.LON]

section

variable (now : Nat) (ack : Bool) (x : Switch) (want : Bool)

theorem followed_on : (followed now ack x false).on = false := by cases h : x.on <;> simp [followed, fallen, h]

theorem followed_pend : (followed now ack x false).pend = none := by cases h : x.on <;> simp [followed, fallen, h]

theorem followed_fell (h : x.on = true) : (followed now ack x false).fellAt = some now := by simp [followed, fallen, h]

theorem followed_waits (hwant : x.want = false) (hon : x.on = false) : (followed now ack x true).pend = some now := by
  simp [followed, hwant, hon]

theorem followed_want : (followed now ack x want).want = want := by cases want <;> rfl

end

section

variable (c : Chip) (p : Nat) (up want count : Bool)

theorem cancelTurnOn_moves : DhbMoves p followFields [.dhb] c (c.cancelTurnOn p up count) :=
  .ite (fun _ => .ite (fun _ => ((dhbMoves_refl.setPort _ (by decide)).flag (by decide)).inc (by decide))
    (fun _ => dhbMoves_refl.setPort _ (by decide))) (fun _ => dhbMoves_refl)

theorem turnOff_moves : DhbMoves p followFields [.dhb] c (c.turnOff p up) :=
  .ite (fun _ => (dhbMoves_refl.set _ (by cases up <;> decide)).setPort _ (by decide)) (fun _ => dhbMoves_refl)

theorem follow_moves : DhbMoves p followFields [.dhb] c (c.follow p up want count) :=
  .setPort (.ite (fun _ => dhbMoves_refl) (fun _ => (cancelTurnOn_moves c p up count).trans (turnOff_moves _ p up))) _ (by decide)

theorem port_cancelTurnOn :
    (c.cancelTurnOn p up count).port p = (c.port p).setSw up { (c.port p).sw up with pend := none } := by
  unfold Chip.cancelTurnOn
  dsimp only
  split
  case isTrue => cases count <;> exact port_setPort_self _ _ _
  case isFalse h =>
    have hpend : { (c.port p).sw up with pend := none } = (c.port p).sw up := by
      rw [← Option.not_isSome_iff_eq_none.1 h]
    rw [hpend, setSw_sw]

theorem port_turnOff :
    (c.turnOff p up).port p = (c.port p).setSw up (fallen c.now (c.ack p up) ((c.port p).sw up)) := by
  unfold Chip.turnOff fallen
  dsimp only
  split
  · exact port_setPort_self _ _ _
  · rw [setSw_sw]

theorem port_follow :
    (c.follow p up want count).port p = (c.port p).setSw up (followed c.now (c.ack p up) ((c.port p).sw up) want) := by
  refine (port_setPort_self _ _ _).trans ?_
  cases want
  case true => rfl
  case false =>
    have hcancel := cancelTurnOn_moves c p up count
    simp [followed, port_turnOff, port_cancelTurnOn, hcancel.now, hcancel.ack (by decide)]

/-- The pin of a switch that turns off is low. -/
theorem pin_follow_off (h : ((c.port p).sw up).on = true) :
    (c.follow p up false count).get (if up then DHB.STAT.UON else DHB.STAT.LON) p = 0 := by
  let d := c.cancelTurnOn p up count
  have hon : ((d.port p).sw up).on = true := by
    show (((c.cancelTurnOn p up count).port p).sw up).on = true
    rw [port_cancelTurnOn, sw_setSw_self]
    exact h
  have hoff : (d.turnOff p up).get (if up then DHB.STAT.UON else DHB.STAT.LON) p = 0 := by
    unfold Chip.turnOff
    simp only [hon, if_true, setPort_get]
    exact (get_set_self d _ p (bit false)).trans (Nat.zero_mod _)
  exact hoff

end

/-! The port under its sources (R206, R211, R212, R214) -/

/-- Carrier control does not return to port p (R212). -/
def Stays (c : Chip) (p : Nat) : Prop := c.portPrio p = 5 → (c.port p).prio = 5

/-- A trip that arrives while a turn-on waits is flagged (R211). -/
def tripNoted (c : Chip) (p : Nat) : Chip :=
  if c.portPrio p == 2 && (c.port p).prio != 2 && ((c.port p).u.pend.isSome || (c.port p).l.pend.isSome) then c.flag DHB.EVT.TRIPDT p else c

/-- The port with the source in force; carrier control that returns takes what the carrier commands (R206, R212). -/
def sourced (c : Chip) (p : Nat) : Chip :=
  let d := (tripNoted c p).setPort p { (tripNoted c p).port p with prio := c.portPrio p }
  if c.portPrio p == 5 && (c.port p).prio != 5 then d.toCarrier p else d

/-- The port as its switches are to follow: a refresh sequence whose base state is not UPPER has ended (R214). -/
def settled (c : Chip) (p : Nat) : Chip :=
  let d := sourced c p
  if (d.port p).refresh.isSome && !(decide (3 ≤ c.portPrio p) && (d.portBase p (c.portPrio p)).1)
    then d.setPort p { d.port p with refresh := none, waiting := [] } else d

/-- The fields in which a port under its sources shows itself, but for the carrier's state. -/
def stayFields : List Fld := DHB.EVT.TRIPDT :: followFields

/-- With the carrier's state. -/
def updateFields : List Fld := DHB.STAT.TRK :: stayFields

section

variable (c : Chip) (p : Nat)

theorem portUpdate_eq : ∃ count, c.portUpdate p =
    ((settled c p).follow p true ((settled c p).portWant p (c.portPrio p)).1 count).follow p false
      ((settled c p).portWant p (c.portPrio p)).2 count := ⟨_, rfl⟩

theorem tripNoted_moves : DhbMoves p stayFields [.dhb] c (tripNoted c p) :=
  .ite (fun _ => dhbMoves_refl.flag (by decide)) (fun _ => dhbMoves_refl)

theorem port_tripNoted : (tripNoted c p).port p = c.port p := by
  unfold tripNoted
  split <;> rfl

variable {c p}

theorem sourced_stays (h : Stays c p) : sourced c p = (tripNoted c p).setPort p { c.port p with prio := c.portPrio p } := by
  unfold sourced
  rw [port_tripNoted]
  exact if_neg (by simpa [Stays] using h)

theorem settled_moves {fs : List Fld} (hfs : ∀ f ∈ stayFields, f ∈ fs) (htrk : ¬Stays c p → DHB.STAT.TRK ∈ fs) :
    DhbMoves p fs [.dhb] c (settled c p) := by
  have hnoted := ((tripNoted_moves c p).mono hfs (fun _ h => h)).setPort { (tripNoted c p).port p with prio := c.portPrio p } (by decide)
  have hsourced : DhbMoves p fs [.dhb] c (sourced c p) := .ite
    (fun h => (hnoted.set _ (htrk (by simpa [Stays] using h))).setPort _ (by decide)) (fun _ => hnoted)
  exact .ite (fun _ => hsourced.setPort _ (by decide)) (fun _ => hsourced)

/-- The switches wait for the sources to be settled. -/
theorem port_settled : ((settled c p).port p).u = (c.port p).u ∧ ((settled c p).port p).l = (c.port p).l ∧
    ((settled c p).port p).fault = (c.port p).fault ∧ ((settled c p).port p).prio = c.portPrio p := by
  have hsourced : ((sourced c p).port p).u = (c.port p).u ∧ ((sourced c p).port p).l = (c.port p).l ∧
      ((sourced c p).port p).fault = (c.port p).fault ∧ ((sourced c p).port p).prio = c.portPrio p := by
    unfold sourced
    rw [port_tripNoted]
    dsimp only
    split
    · simp [Chip.toCarrier, Chip.setB, port_congr _ p (set_dhb ..)]
    · simp
  unfold settled
  dsimp only
  split
  · simpa using hsourced
  · exact hsourced

theorem refresh_sourced : ((sourced c p).port p).refresh = (c.port p).refresh := by
  unfold sourced
  rw [port_tripNoted]
  dsimp only
  split
  · simp [Chip.toCarrier, Chip.setB, port_congr _ p (set_dhb ..)]
  · simp

theorem refresh_settled_none (h : (c.port p).refresh = none ∨ c.portPrio p < 3) : ((settled c p).port p).refresh = none := by
  unfold settled
  dsimp only
  split
  case isTrue => simp
  case isFalse hkept =>
    rw [refresh_sourced] at hkept ⊢
    rcases h with h | h
    · exact h
    · simpa [Nat.not_le.2 h] using hkept

/-- A refresh sequence goes on while priorities 3 to 5 command UPPER (R214). -/
theorem settled_upper (hstay : Stays c p) (hprio : 3 ≤ c.portPrio p) (hupper : (c.portBase p (c.portPrio p)).1 = true) :
    settled c p = sourced c p := by
  have hmoves : DhbMoves p stayFields [.dhb] c (sourced c p) := by
    rw [sourced_stays hstay]
    exact (tripNoted_moves c p).setPort _ (by decide)
  have hbase := portBase_congr (hmoves.apart (by decide)) (hmoves.get (by decide) p) (c.portPrio p)
  exact if_neg (by simp [hbase, hupper, hprio])

theorem port_settled_stays (h : Stays c p) : ((settled c p).port p).last = (c.port p).last ∧
    ((settled c p).port p).moved = (c.port p).moved := by
  unfold settled
  rw [sourced_stays h]
  dsimp only
  split <;> simp

theorem portUpdate_moves {fs : List Fld} (hfs : ∀ f ∈ stayFields, f ∈ fs) (htrk : ¬Stays c p → DHB.STAT.TRK ∈ fs) :
    DhbMoves p fs [.dhb] c (c.portUpdate p) := by
  obtain ⟨count, hchip⟩ := portUpdate_eq c p
  have hfollow : ∀ f ∈ followFields, f ∈ fs := fun f hf => hfs f (List.mem_cons_of_mem _ hf)
  rw [hchip]
  exact ((settled_moves hfs htrk).trans ((follow_moves _ p true _ count).mono hfollow (fun _ h => h))).trans
    ((follow_moves _ p false _ count).mono hfollow (fun _ h => h))

theorem portUpdate_updates : DhbMoves p updateFields [.dhb] c (c.portUpdate p) := portUpdate_moves (by decide) (fun _ => by decide)

/-- A lower switch that turns off has its pin low. -/
theorem pin_portUpdate_off (hon : (c.port p).l.on = true) (hwant : ((settled c p).portWant p (c.portPrio p)).2 = false) :
    (c.portUpdate p).get DHB.STAT.LON p = 0 := by
  obtain ⟨count, hchip⟩ := portUpdate_eq c p
  obtain ⟨-, hl, -⟩ := port_settled (c := c) (p := p)
  rw [hchip, hwant]
  refine pin_follow_off _ p false count ?_
  rw [port_follow]
  exact (congrArg Switch.on hl).trans hon

/-- Both switches follow what is commanded once the sources are settled. -/
theorem port_portUpdate : (c.portUpdate p).port p = { (settled c p).port p with
    u := followed c.now (c.ack p true) (c.port p).u ((settled c p).portWant p (c.portPrio p)).1
    l := followed c.now (c.ack p false) (c.port p).l ((settled c p).portWant p (c.portPrio p)).2 } := by
  obtain ⟨count, hchip⟩ := portUpdate_eq c p
  obtain ⟨hu, hl, -⟩ := port_settled (c := c) (p := p)
  have hset : DhbMoves p updateFields [.dhb] c (settled c p) := settled_moves (by decide) (fun _ => by decide)
  have hfirst := follow_moves (settled c p) p true ((settled c p).portWant p (c.portPrio p)).1 count
  rw [hchip, port_follow, port_follow, hfirst.now, hset.now, hfirst.ack (by decide), hset.ack (by decide), hset.ack (by decide),
    ← hu, ← hl]
  rfl

/-- The source in force is noted. -/
theorem prio_portUpdate : ((c.portUpdate p).port p).prio = (c.portUpdate p).portPrio p := by
  have hmoves := portUpdate_updates (c := c) (p := p)
  obtain ⟨-, -, hfault, hprio⟩ := port_settled (c := c) (p := p)
  have hrec := port_portUpdate (c := c) (p := p)
  have hsame := sameSources_of_fields (p := p) (fun f n hf => hmoves.apart (ids := sourceFree) (by decide) f n hf) hmoves.resume
    ((congrArg Port.fault hrec).trans hfault)
  exact (congrArg Port.prio hrec).trans (hprio.trans (hsame.prio (hmoves.get (by decide) p)).symm)

end

end Sys2Proof.Scope
end

section
/-! CLAIM. Acknowledges and faults of a direct port (R205, R206, R209). -/

namespace Sys2Proof.Scope

open Sys2Proof.Machine Sys2Proof.Machine.Reg Sys2Proof.Laws

/-! Entry to FAULT (R209) -/

/-- Port p in FAULT, shown and counted. -/
def faultShown (c : Chip) (p cause : Nat) : Chip :=
  (((c.setPort p { c.port p with fault := true }).set DHB.STAT.FCAUSE p cause).flag DHB.EVT.FAULT p).inc DHB.CNT.FAULT p

/-- Its event in flight besides; its switches are yet to follow. -/
def faultNoted (c : Chip) (p cause : Nat) : Chip := (faultShown c p cause).raise 19

/-- The fields that a fault of a port writes itself. -/
def faultFields : List Fld := [DHB.STAT.FCAUSE, DHB.EVT.FAULT, DHB.CNT.FAULT]

section

variable {c : Chip} {p cause : Nat}

theorem port_faultNoted : (faultNoted c p cause).port p = { c.port p with fault := true } :=
  (port_raise _ p 19).trans (port_setPort_self c _ p)

theorem faultShown_moves : DhbMoves p faultFields [.dhb] c (faultShown c p cause) :=
  (((dhbMoves_refl.setPort _ (by decide)).set _ (by decide)).flag (by decide)).inc (by decide)

theorem faultNoted_moves : DhbMoves p faultFields [.dhb, .flt] c (faultNoted c p cause) :=
  (faultShown_moves.mono (by decide) (by decide)).raise 19 (by decide)

theorem flt_faultNoted : (faultNoted c p cause).flt = { c.flt with raised := inFlight c 19 } := by
  rw [faultNoted, raise_flt, inFlight_congr (faultShown_moves.fabric (by decide)) rfl rfl]
  rfl

theorem get_faultNoted : (faultNoted c p cause).get DHB.STAT.FCAUSE p = cause % 16 ∧
    (faultNoted c p cause).get DHB.EVT.FAULT p = 1 ∧
    (faultNoted c p cause).get DHB.CNT.FAULT p = satN DHB.CNT.FAULT.width (c.get DHB.CNT.FAULT p + 1) := by
  refine ⟨?_, ?_, ?_⟩
  · simp (disch := decide) only [faultNoted, faultShown, raise_get, get_inc_fld, get_flag_fld]
    exact get_set_self _ _ _ _
  · simp (disch := decide) only [faultNoted, faultShown, raise_get, get_inc_fld, get_flag_self]
  · simp (disch := decide) only [faultNoted, faultShown, raise_get, get_inc_self, get_flag_fld, get_set_fld, setPort_get]

/-- A port that no source of priority 3 to 5 commands has both switches off (R206). -/
theorem portUpdate_off (h : c.portPrio p < 3) (b : Bool) :
    (((c.portUpdate p).port p).sw b).on = false ∧ (((c.portUpdate p).port p).sw b).pend = none := by
  have hwant : (settled c p).portWant p (c.portPrio p) = (false, false) :=
    (portWant_free (refresh_settled_none (.inr h)) _).trans (portBase_off h)
  rw [port_portUpdate, hwant]
  cases b <;> exact ⟨followed_on _ _ _, followed_pend _ _ _⟩

/-- e shows port p of c in FAULT with a cause, both switches off. -/
structure PortFaults (c : Chip) (p cause : Nat) (e : Chip) : Prop where
  fault : (e.port p).fault = true
  cause : e.get DHB.STAT.FCAUSE p = cause
  flag : e.get DHB.EVT.FAULT p = 1
  count : e.get DHB.CNT.FAULT p = satN DHB.CNT.FAULT.width (c.get DHB.CNT.FAULT p + 1)
  off : ∀ b, ((e.port p).sw b).on = false ∧ ((e.port p).sw b).pend = none
  flt : e.flt = { c.flt with raised := inFlight c 19 }
  moves : DhbMoves p (faultFields ++ stayFields) [.dhb, .flt] c e

theorem portFault_faults (hfault : (c.port p).fault = false) (hcause : cause < 16) : PortFaults c p cause (c.portFault p cause) := by
  have hchip : c.portFault p cause = (faultNoted c p cause).portUpdate p := if_neg (by simp [hfault])
  have hport := port_faultNoted (c := c) (p := p) (cause := cause)
  have hprio : (faultNoted c p cause).portPrio p ≤ 1 := portPrio_fault (by rw [hport])
  have hupdate : DhbMoves p stayFields [.dhb] (faultNoted c p cause) ((faultNoted c p cause).portUpdate p) :=
    portUpdate_moves (fun _ h => h) (fun h => absurd (fun e => by omega) h)
  obtain ⟨hshown, hflag, hcount⟩ := get_faultNoted (c := c) (p := p) (cause := cause)
  rw [hchip]
  constructor
  case fault =>
    obtain ⟨-, -, hkept, -⟩ := port_settled (c := faultNoted c p cause) (p := p)
    exact (congrArg Port.fault port_portUpdate).trans (hkept.trans (by rw [hport]))
  case cause => exact ((hupdate.get (by decide) p).trans hshown).trans (Nat.mod_eq_of_lt hcause)
  case flag => exact (hupdate.get (by decide) p).trans hflag
  case count => exact (hupdate.get (by decide) p).trans hcount
  case off => exact portUpdate_off (by omega)
  case flt => exact (hupdate.flt (by decide)).trans flt_faultNoted
  case moves => exact (faultNoted_moves.mono (by decide) (by decide)).trans (hupdate.mono (by decide) (by decide))

end

/-! Acknowledges (R205, R209) -/

/-- The field of the recognised acknowledge of a switch. -/
def ackField (up : Bool) : Fld := if up then DHB.STAT.UAK else DHB.STAT.LAK

/-- A switch whose recognised acknowledge goes from `was` to `level`. -/
def ackHeard (was level : Bool) (x : Switch) : Switch :=
  { x with
    await := x.await && level == x.on
    ackSeen := x.ackSeen || (level && !x.on)
    ackLost := x.ackLost || (x.ackSeen && !level && !x.on)
    ackOff := x.ackOff || (x.on && was && !level) }

/-- The acknowledge of a switch of port p is taken over. -/
def ackTaken (c : Chip) (p : Nat) (up level : Bool) : Chip :=
  (c.setB (ackField up) p level).setPort p ((c.port p).setSw up (ackHeard (c.ack p up) level ((c.port p).sw up)))

section

variable (c : Chip) (p : Nat) (up level : Bool)

theorem port_ackTaken :
    (ackTaken c p up level).port p = (c.port p).setSw up (ackHeard (c.ack p up) level ((c.port p).sw up)) := port_setPort_self _ _ _

theorem sw_ackTaken : ((ackTaken c p up level).port p).sw up = ackHeard (c.ack p up) level ((c.port p).sw up) := by
  rw [port_ackTaken, sw_setSw_self]

theorem sw_not_ackTaken : ((ackTaken c p up level).port p).sw (!up) = (c.port p).sw (!up) := by rw [port_ackTaken, sw_setSw_not]

theorem ackTaken_moves : DhbMoves p [ackField up] [.dhb] c (ackTaken c p up level) :=
  (dhbMoves_refl.set _ List.mem_cons_self).setPort _ (by decide)

theorem ack_ackTaken : (ackTaken c p up level).ack p up = level := by
  have hget : (ackTaken c p up level).get (ackField up) p = bit level :=
    (get_set_self c (ackField up) p (bit level)).trans (by cases up <;> cases level <;> rfl)
  have hack : (ackTaken c p up level).ack p up = ((ackTaken c p up level).get (ackField up) p != 0) := by cases up <;> rfl
  rw [hack, hget]
  cases level <;> rfl

end

section

variable {s : State} (hinv : s.Inv) {t p : Nat} {up : Bool}

include hinv

/-- DHB_ACK_CHANGE takes the acknowledge over, and then finds whether it is a fault (R209). -/
theorem exec_dhbAckChange_eq (hp : p < 12) (hrel : s.chip.released 4 = true) (level held : Bool) {c : Chip}
    (hc : (if ((s.chip.port p).sw up).on && ((s.chip.port p).sw up).ackOff && level && held
      then (ackTaken (s.chip.at_ t) p up level).portFault p (if up then 5 else 6) else ackTaken (s.chip.at_ t) p up level) = c)
    {fs : List Fld} {ps : List Part} (hmoves : DhbMoves p fs ps (s.chip.at_ t) c) (hps : Part.pgm ∉ ps) :
    exec (.dhbAckChange t p up level held) s = .next { s with chip := c } := by
  have hgate : (decide (p < 12) && s.chip.released 4) = true := by simp [hp, hrel]
  rw [exec_dhbAckChange, execDhbAckChange]
  exact run_dhbMoves hinv ((if_pos hgate).trans hc) hmoves hps

theorem dhbAckChange_taken (hp : p < 12) (hrel : s.chip.released 4 = true) {level held : Bool}
    (h : ¬(((s.chip.port p).sw up).on = true ∧ ((s.chip.port p).sw up).ackOff = true ∧ level = true ∧ held = true)) :
    exec (.dhbAckChange t p up level held) s = .next { s with chip := ackTaken (s.chip.at_ t) p up level } :=
  exec_dhbAckChange_eq hinv hp hrel level held (if_neg (by simpa [and_assoc] using h)) (ackTaken_moves _ p up level) (by decide)

/-- An acknowledge is late or wrong in s: cause k of R209. -/
def FaultOf (s : State) (t p k : Nat) (up : Bool) (i : Instr) : Prop :=
  let x := (s.chip.port p).sw up
  (i = .dhbHandshakeTimeout t p up ∧ k = (if x.on then 3 else 1) + (if up then 0 else 1) ∧ x.await = true ∧
      s.chip.ack p up = x.on ∧ s.chip.released 4 = true ∧ x.changedAt + 2000 * s.chip.get DHB.CFG.HS p ≤ s.at_ t) ∨
    (i = .dhbAckChange t p up true true ∧ k = (if up then 5 else 6) ∧ s.chip.released 4 = true ∧ x.on = true ∧ x.ackOff = true)

/-- Both faults take the port into FAULT, one of them after the acknowledge has been taken over. -/
theorem exec_faultOf (hp : p < 12) (hfault : (s.chip.port p).fault = false) {k : Nat} {i : Instr} (h : FaultOf s t p k up i) :
    ∃ c, DhbMoves p [ackField up] [.dhb] (s.chip.at_ t) c ∧ PortFaults c p k (c.portFault p k) ∧
      exec i s = .next { s with chip := c.portFault p k } := by
  rcases h with ⟨rfl, rfl, hawait, hack, hrel, hdue⟩ | ⟨rfl, rfl, hrel, hon, hoff⟩
  · have hfaults := portFault_faults (c := s.chip.at_ t)
      (cause := (if ((s.chip.port p).sw up).on then 3 else 1) + (if up then 0 else 1)) hfault (by split <;> split <;> decide)
    refine ⟨s.chip.at_ t, dhbMoves_refl, hfaults, ?_⟩
    rw [exec_dhbHandshakeTimeout, execDhbHandshakeTimeout]
    refine run_dhbMoves hinv (if_pos ?_) hfaults.moves (by decide)
    simp only [Bool.and_eq_true, decide_eq_true_eq, beq_iff_eq]
    exact ⟨⟨⟨⟨hp, hawait⟩, hack⟩, hrel⟩, hdue⟩
  · have htaken := ackTaken_moves (s.chip.at_ t) p up true
    have hfaults := portFault_faults (c := ackTaken (s.chip.at_ t) p up true) (p := p) (cause := if up then 5 else 6)
      (by rw [port_ackTaken, setSw_fault]; exact hfault) (by split <;> decide)
    refine ⟨_, htaken, hfaults, ?_⟩
    exact exec_dhbAckChange_eq hinv hp hrel true true (if_pos (by simp [hon, hoff]))
      ((htaken.mono (gs := ackField up :: faultFields ++ stayFields) (by simp) (by decide)).trans
        (hfaults.moves.mono (fun _ hf => List.mem_cons_of_mem _ hf) (fun _ h => h))) (by decide)

theorem dhbHandshakeTimeout_waits
    (h : s.at_ t < ((s.chip.port p).sw up).changedAt + 2000 * s.chip.get DHB.CFG.HS p ∨ ((s.chip.port p).sw up).await = false ∨
      s.chip.released 4 = false) : exec (.dhbHandshakeTimeout t p up) s = .next (s.waits t) := by
  rw [exec_dhbHandshakeTimeout, execDhbHandshakeTimeout]
  refine run_waits hinv (if_neg ?_)
  simp only [Bool.and_eq_true, decide_eq_true_eq, beq_iff_eq]
  rintro ⟨⟨⟨⟨-, hawait⟩, -⟩, hrel⟩, hdue⟩
  rcases h with h | h | h
  · exact Nat.not_lt.2 hdue h
  · exact absurd (h.symm.trans hawait) (by decide)
  · exact absurd (h.symm.trans hrel) (by decide)

end

/-- Settles O31: in FAULT no source of priority 3 to 5 commands the port, so both switches follow to off; an acknowledge that is no fault
is noted in its switch alone. -/
theorem portFaultsTurnOff : Obligations.PortFaultsTurnOff := by
  unfold Obligations.PortFaultsTurnOff
  refine ⟨fun s t p k up x i hinv hp hx hfault h => ?_, fun s t p up level held x hinv hp hrel hx h => ?_,
    fun s t p up hinv h => dhbHandshakeTimeout_waits hinv h⟩
  · subst hx
    obtain ⟨c, hc, hfaults, hexec⟩ := exec_faultOf hinv hp hfault h
    have hack : ∀ f ∈ [DHB.STAT.FCAUSE, DHB.EVT.FAULT, DHB.CNT.FAULT, RST.DOM.REL], (f.id, f.lo) ∉ fieldKeys [ackField up] := by
      cases up <;> decide
    have hall : DhbMoves p (ackField up :: faultFields ++ stayFields) [.dhb, .flt] (s.chip.at_ t) (c.portFault p k) :=
      (hc.mono (by simp) (by decide)).trans (hfaults.moves.mono (fun _ hf => List.mem_cons_of_mem _ hf) (fun _ h => h))
    have hcount : c.get DHB.CNT.FAULT p = s.chip.get DHB.CNT.FAULT p := hc.get (hack _ (by decide)) p
    have hflt : (c.portFault p k).flt = { s.chip.flt with raised := inFlight (s.chip.at_ t) 19 } := by
      rw [hfaults.flt, inFlight_congr (hc.fabric (hack _ (by decide))) (hc.flt (by decide)) hc.now, hc.flt (by decide)]
      rfl
    refine ⟨_, hexec, hall.now, hfaults.fault, hfaults.cause, hfaults.flag, hcount ▸ hfaults.count, hfaults.off, hall.other, hflt, rfl, rfl,
      hall.moves.rest, hall.apart ?_⟩
    cases up <;> decide
  · subst hx
    have hmoves := ackTaken_moves (s.chip.at_ t) p up level
    have hsw := sw_ackTaken (s.chip.at_ t) p up level
    exact ⟨_, dhbAckChange_taken hinv hp hrel h, hmoves.now, ack_ackTaken _ p up level, sw_not_ackTaken _ p up level,
      (congrArg Switch.on hsw :), (congrArg Switch.await hsw :), (congrArg Switch.ackOff hsw :), hmoves.other, rfl, rfl, hmoves.moves.rest,
      hmoves.moves.fields⟩

end Sys2Proof.Scope
end

section
/-! CLAIM. A direct port's switch turns on, RESUME, FORCE, the end of a refresh (R206 to R208, R210, R213, R214). -/

namespace Sys2Proof.Scope

open Sys2Proof.Machine Sys2Proof.Machine.Reg Sys2Proof.Laws

/-- What a port under its sources may change lies in these attributes. -/
theorem updateFields_ids : ∀ f ∈ updateFields, f.id ∈ [DHB.STAT.TRK.id, DHB.EVT.FAULT.id, DHB.CNT.FAULT.id] := by decide

/-! DHB_TURN_ON (R207, R208) -/

theorem mayTurnOn_iff {c : Chip} {p : Nat} {up : Bool} : c.mayTurnOn p up = true ↔ ((c.port p).sw up).pend.isSome = true ∧
    ((c.port p).sw (!up)).on = false ∧
    (∀ f, ((c.port p).sw (!up)).fellAt = some f → f + c.get DHB.CFG.DEAD p ≤ c.now ∧ ((c.port p).sw (!up)).ackSeen = true ∧
      ((c.port p).sw (!up)).ackLost = false) ∧ c.ack p (!up) = true ∧ 3 ≤ c.portPrio p := by
  unfold Chip.mayTurnOn
  simp only [Bool.and_eq_true, Bool.not_eq_true', decide_eq_true_eq, and_assoc]
  cases ((c.port p).sw (!up)).fellAt <;> simp [and_assoc]

/-- The next change of the port's carrier is predicted less than MINPW away (R208). -/
def changeNear (c : Chip) (p : Nat) : Bool :=
  match c.predictChange p c.now with
  | some n => decide (n - c.now < c.get DHB.CFG.MINPW p)
  | none => false

theorem changeNear_iff {c : Chip} {p : Nat} :
    changeNear c p = true ↔ ∃ n, c.predictChange p c.now = some n ∧ n - c.now < c.get DHB.CFG.MINPW p := by
  unfold changeNear
  cases c.predictChange p c.now <;> simp

theorem execDhbTurnOn_eq (t p : Nat) (up : Bool) : execDhbTurnOn t p up = run (fun _ c =>
    if decide (p < 12) && (c.at_ t).mayTurnOn p up then
      if (c.port p).prio == 5 && (c.port p).refresh.isNone && changeNear (c.at_ t) p then (c.at_ t).cancelTurnOn p up true
      else (c.at_ t).turnOn p up
    else c.at_ t) := rfl

/-- The port as one of its switches turns on. -/
def turnedOn (c : Chip) (p : Nat) (up : Bool) : Port :=
  let v := c.port p
  let v := v.setSw up (c.stProfile p up { v.sw up with
    on := true, pend := none, changedAt := c.now, await := c.ack p up, ackOff := false })
  if up then v else { v with lowerDone := true }

section

variable {c : Chip} {p : Nat} {up : Bool}

theorem sw_turnedOn : ((turnedOn c p up).sw up).on = true ∧ ((turnedOn c p up).sw up).pend = none ∧
    ((turnedOn c p up).sw up).changedAt = c.now ∧ (turnedOn c p up).sw (!up) = (c.port p).sw (!up) := by
  cases up <;> exact ⟨rfl, rfl, rfl, rfl⟩

/-- Outside a refresh sequence nothing follows the turn-on. -/
theorem turnOn_free (h : (c.port p).refresh = none) : c.turnOn p up = (c.setOnPin p up true).setPort p (turnedOn c p up) := by
  have hrefresh : (turnedOn c p up).refresh = none := by cases up <;> exact h
  unfold Chip.turnOn
  dsimp only
  split
  case h_1 hopen => exact absurd (hopen.symm.trans hrefresh) (by simp)
  case h_2 hopen => exact absurd (hopen.symm.trans hrefresh) (by simp)
  case h_3 => rfl

/-- e shows a switch of port p turned on, its pin high. -/
structure TurnedOn (c : Chip) (p : Nat) (up : Bool) (e : Chip) : Prop where
  on : ((e.port p).sw up).on = true
  pend : ((e.port p).sw up).pend = none
  at_ : ((e.port p).sw up).changedAt = c.now
  other : (e.port p).sw (!up) = (c.port p).sw (!up)
  pin : e.get (if up then DHB.STAT.UON else DHB.STAT.LON) p = 1
  moves : DhbMoves p [if up then DHB.STAT.UON else DHB.STAT.LON] [.dhb] c e

theorem turnOn_turns (h : (c.port p).refresh = none) : TurnedOn c p up (c.turnOn p up) := by
  obtain ⟨hon, hpend, hat, hother⟩ := sw_turnedOn (c := c) (p := p) (up := up)
  have hport : ((c.setOnPin p up true).setPort p (turnedOn c p up)).port p = turnedOn c p up := port_setPort_self _ _ _
  rw [turnOn_free h]
  constructor
  case on => rw [hport, hon]
  case pend => rw [hport, hpend]
  case at_ => rw [hport, hat]
  case other => rw [hport, hother]
  case pin => exact (get_set_self c _ p (bit true)).trans (by cases up <;> rfl)
  case moves => exact (dhbMoves_refl.set _ List.mem_cons_self).setPort _ (by decide)

/-- e shows the waiting turn-on of a switch of port p cancelled and counted (R208). -/
structure TurnOnCancelled (c : Chip) (p : Nat) (up : Bool) (e : Chip) : Prop where
  self : (e.port p).sw up = { (c.port p).sw up with pend := none }
  other : (e.port p).sw (!up) = (c.port p).sw (!up)
  flag : e.get DHB.EVT.CANCEL p = 1
  count : e.get DHB.CNT.SUPPR p = satN DHB.CNT.SUPPR.width (c.get DHB.CNT.SUPPR p + 1)
  moves : DhbMoves p [DHB.EVT.CANCEL, DHB.CNT.SUPPR] [.dhb] c e

theorem cancelTurnOn_cancels (h : ((c.port p).sw up).pend.isSome = true) : TurnOnCancelled c p up (c.cancelTurnOn p up true) := by
  have hport := port_cancelTurnOn c p up true
  have hchip : c.cancelTurnOn p up true =
      ((c.setPort p ((c.port p).setSw up { (c.port p).sw up with pend := none })).flag DHB.EVT.CANCEL p).inc DHB.CNT.SUPPR p := if_pos h
  constructor
  case self => rw [hport, sw_setSw_self]
  case other => rw [hport, sw_setSw_not]
  case flag => rw [hchip, get_inc_fld _ _ _ (by decide), get_flag_self _ _ rfl]
  case count => rw [hchip, get_inc_self, get_flag_fld _ _ _ (by decide), setPort_get]
  case moves =>
    rw [hchip]
    exact ((dhbMoves_refl.setPort _ (by decide)).flag (by decide)).inc (by decide)

end

section

variable {s : State} (hinv : s.Inv) {t p : Nat} {up : Bool}

include hinv

theorem dhbTurnOn_turns (hp : p < 12) (hmay : (s.chip.at_ t).mayTurnOn p up = true) (hrefresh : (s.chip.port p).refresh = none)
    (h : ¬((s.chip.port p).prio = 5 ∧ changeNear (s.chip.at_ t) p = true)) :
    exec (.dhbTurnOn t p up) s = .next { s with chip := (s.chip.at_ t).turnOn p up } := by
  rw [exec_dhbTurnOn, execDhbTurnOn_eq]
  refine run_dhbMoves hinv ?_ (turnOn_turns (c := s.chip.at_ t) (up := up) hrefresh).moves (by decide)
  rw [if_pos (by simp [hp, hmay]), if_neg (by simpa [hrefresh] using h)]

theorem dhbTurnOn_cancels (hp : p < 12) (hmay : (s.chip.at_ t).mayTurnOn p up = true) (hrefresh : (s.chip.port p).refresh = none)
    (hprio : (s.chip.port p).prio = 5) (hnear : changeNear (s.chip.at_ t) p = true) :
    exec (.dhbTurnOn t p up) s = .next { s with chip := (s.chip.at_ t).cancelTurnOn p up true } := by
  rw [exec_dhbTurnOn, execDhbTurnOn_eq]
  refine run_dhbMoves hinv ?_ (cancelTurnOn_moves _ p up true) (by decide)
  rw [if_pos (by simp [hp, hmay]), if_pos (by simp [hrefresh, hprio, hnear])]

theorem dhbTurnOn_waits (h : (s.chip.at_ t).mayTurnOn p up = false) : exec (.dhbTurnOn t p up) s = .next (s.waits t) := by
  rw [exec_dhbTurnOn, execDhbTurnOn_eq]
  exact run_waits hinv (if_neg (by simp [h]))

end

/-! DHB_RESUME (R210) -/

section

variable {s : State} (hinv : s.Inv) {t p : Nat}

theorem resumeRefused_iff {c : Chip} : c.resumeRefused p = false ↔ (c.port p).fault = true ∧ c.on DHB.STAT.UAK p = true ∧
    c.on DHB.STAT.LAK p = true ∧ c.held (6 + p) = false := by
  simp [Chip.resumeRefused, and_assoc]

theorem resume_moves {c : Chip} : DhbMoves p updateFields [.dhb] c (c.resume p) :=
  (dhbMoves_refl.setPort _ (by decide)).trans portUpdate_updates

theorem prio_resume {c : Chip} : ((c.resume p).port p).prio = (c.resume p).portPrio p :=
  prio_portUpdate (c := c.setPort p { c.port p with fault := false })

theorem fault_resume {c : Chip} : ((c.resume p).port p).fault = false := by
  obtain ⟨-, -, hfault, -⟩ := port_settled (c := c.setPort p { c.port p with fault := false }) (p := p)
  exact (congrArg Port.fault port_portUpdate).trans (hfault.trans (by rw [port_setPort_self]))

include hinv

theorem dhbResume_resumes (hp : p < 12) (h : s.chip.resumeRefused p = false) :
    exec (.dhbResume t p) s = .next { s with chip := (s.chip.at_ t).resume p } := by
  have hgate : (decide (p < 12) && !s.chip.resumeRefused p) = true := by simp [hp, h]
  rw [exec_dhbResume, execDhbResume]
  exact run_dhbMoves hinv (if_pos hgate) resume_moves (by decide)

theorem dhbResume_waits (h : s.chip.resumeRefused p ≠ false) : exec (.dhbResume t p) s = .next (s.waits t) := by
  have hgate : ¬(decide (p < 12) && !s.chip.resumeRefused p) = true := by simp [h]
  rw [exec_dhbResume, execDhbResume]
  exact run_waits hinv (if_neg hgate)

end

/-! DHB_FORCE (R206, R213) -/

/-- The fields of the host's force. -/
def forceFields : List Fld := [DHB.FORCE.EN, DHB.FORCE.FU, DHB.FORCE.FL]

/-- EN, FU and FL as written; the port is yet to follow. -/
def forceWritten (c : Chip) (p v : Nat) : Chip :=
  ((c.set DHB.FORCE.EN p (v / 4)).set DHB.FORCE.FU p (v / 2)).set DHB.FORCE.FL p v

/-- A force that names both switches, or one that MODE m holds off (R213). -/
def BadForce (v m : Nat) : Prop :=
  (v.testBit 1 = true ∧ v.testBit 0 = true) ∨ (v.testBit 1 = true ∧ m ≠ 1 ∧ m ≠ 2) ∨ (v.testBit 0 = true ∧ m ≠ 1 ∧ m ≠ 3)

section

variable {c : Chip} {p v : Nat}

theorem force_eq : c.force p v = (forceWritten c p v).portUpdate p := rfl

theorem badForce_iff :
    BadForce v (c.get DHB.CFG.MODE p) ↔ (!(v.testBit 1 && v.testBit 0) && !c.forceRange p v) = false := by
  unfold BadForce Chip.forceRange
  cases v.testBit 1 <;> cases v.testBit 0 <;> simp

theorem forceWritten_moves : DhbMoves p forceFields [.dhb] c (forceWritten c p v) :=
  ((dhbMoves_refl.set _ (by decide)).set _ (by decide)).set _ (by decide)

theorem force_moves : DhbMoves p (forceFields ++ updateFields) [.dhb] c (c.force p v) :=
  (forceWritten_moves.mono (by decide) (by decide)).trans (portUpdate_updates.mono (by decide) (by decide))

theorem get_forceWritten : (forceWritten c p v).get DHB.FORCE.EN p = v / 4 % 2 ∧ (forceWritten c p v).get DHB.FORCE.FU p = v / 2 % 2 ∧
    (forceWritten c p v).get DHB.FORCE.FL p = v % 2 := by
  refine ⟨?_, ?_, get_set_self _ _ _ _⟩ <;> simp (disch := decide) only [forceWritten, get_set_fld]
  all_goals exact get_set_self _ _ _ _

theorem on_forceWritten : (forceWritten c p v).on DHB.FORCE.EN p = v.testBit 2 ∧ (forceWritten c p v).on DHB.FORCE.FU p = v.testBit 1 ∧
    (forceWritten c p v).on DHB.FORCE.FL p = v.testBit 0 := by
  have hbit : ∀ w i, (w / 2 ^ i % 2 != 0) = w.testBit i := fun w i => by
    rw [Nat.testBit_eq_decide_div_mod_eq]
    rcases Nat.mod_two_eq_zero_or_one (w / 2 ^ i) with h | h <;> rw [h] <;> rfl
  obtain ⟨hen, hfu, hfl⟩ := get_forceWritten (c := c) (p := p) (v := v)
  refine ⟨(congrArg (· != 0) hen).trans (hbit v 2), (congrArg (· != 0) hfu).trans (hbit v 1), (congrArg (· != 0) hfl).trans ?_⟩
  rw [← hbit v 0, pow_zero, Nat.div_one]

/-- Without a higher source the port's switches follow the forced states. -/
theorem force_commands (hprio : 4 ≤ c.portPrio p) (hrefresh : (c.port p).refresh = none) (hen : v.testBit 2 = true) :
    ((c.force p v).port p).prio = 4 ∧ ((c.force p v).port p).u.want = v.testBit 1 ∧ ((c.force p v).port p).l.want = v.testBit 0 := by
  let d := forceWritten c p v
  obtain ⟨hon, hfu, hfl⟩ := on_forceWritten (c := c) (p := p) (v := v)
  have hsame : SameSources p c d := sameSources_of_fields (fun f n hf => forceWritten_moves.apart (ids := sourceFree) (by decide) f n hf) rfl rfl
  have h4 : d.portPrio p = 4 := hsame.forced hprio (hon.trans hen)
  have hset : DhbMoves p updateFields [.dhb] d (settled d p) := settled_moves (by decide) (fun _ => by decide)
  have hwant : (settled d p).portWant p (d.portPrio p) = (v.testBit 1, v.testBit 0) := by
    rw [portWant_free (refresh_settled_none (c := d) (.inl hrefresh)), h4]
    show ((settled d p).on DHB.FORCE.FU p, (settled d p).on DHB.FORCE.FL p) = _
    rw [Chip.on, Chip.on, hset.get (by decide), hset.get (by decide), ← hfu, ← hfl]
    rfl
  obtain ⟨-, -, -, hsource⟩ := port_settled (c := d) (p := p)
  have hrec := port_portUpdate (c := d) (p := p)
  rw [hwant] at hrec
  rw [force_eq, hrec]
  exact ⟨hsource.trans h4, followed_want _ _ _ _, followed_want _ _ _ _⟩

/-- e shows port p with EN, FU and FL as written, under its sources (R206, R213). -/
structure Forced (c : Chip) (p v : Nat) (e : Chip) : Prop where
  en : e.get DHB.FORCE.EN p = v / 4 % 2
  fu : e.get DHB.FORCE.FU p = v / 2 % 2
  fl : e.get DHB.FORCE.FL p = v % 2
  prio : (e.port p).prio = e.portPrio p
  commands : 4 ≤ c.portPrio p → (c.port p).refresh = none → v.testBit 2 = true →
    (e.port p).prio = 4 ∧ (e.port p).u.want = v.testBit 1 ∧ (e.port p).l.want = v.testBit 0
  moves : DhbMoves p (forceFields ++ updateFields) [.dhb] c e

theorem force_forces : Forced c p v (c.force p v) := by
  have hupdate := portUpdate_updates (c := forceWritten c p v) (p := p)
  obtain ⟨hen, hfu, hfl⟩ := get_forceWritten (c := c) (p := p) (v := v)
  exact ⟨(hupdate.get (by decide) p).trans hen, (hupdate.get (by decide) p).trans hfu, (hupdate.get (by decide) p).trans hfl,
    prio_portUpdate (c := forceWritten c p v), force_commands, force_moves⟩

end

section

variable {s : State} (hinv : s.Inv) {t p v : Nat}

include hinv

theorem dhbForce_waits (h : BadForce v (s.chip.get DHB.CFG.MODE p)) : exec (.dhbForce t p v) s = .next (s.waits t) := by
  have hbad : (!(v.testBit 1 && v.testBit 0) && !s.chip.forceRange p v) = false := badForce_iff.1 h
  have hgate : ¬(decide (p < 12) && s.chip.fabric && !(v.testBit 1 && v.testBit 0) && !s.chip.forceRange p v) = true := by
    rw [Bool.and_assoc, hbad, Bool.and_false]
    exact Bool.false_ne_true
  rw [exec_dhbForce, execDhbForce]
  exact run_waits hinv (if_neg hgate)

theorem dhbForce_forces (hp : p < 12) (hfabric : s.chip.fabric = true) (h : ¬BadForce v (s.chip.get DHB.CFG.MODE p)) :
    exec (.dhbForce t p v) s = .next { s with chip := (s.chip.at_ t).force p v } := by
  have hgood : (!(v.testBit 1 && v.testBit 0) && !s.chip.forceRange p v) = true := by simpa using mt badForce_iff.2 h
  have hgate : (decide (p < 12) && s.chip.fabric && !(v.testBit 1 && v.testBit 0) && !s.chip.forceRange p v) = true := by
    rw [Bool.and_assoc, hgood, hfabric, decide_eq_true hp]
    rfl
  rw [exec_dhbForce, execDhbForce]
  exact run_dhbMoves hinv (if_pos hgate) force_moves (by decide)

end

/-! BOOTSTRAP_REFRESH_END (R214) -/

/-- A refresh sequence whose lower switch is to turn off, the upper one to follow. -/
def refreshUpper (c : Chip) (p : Nat) : Chip := c.setPort p { c.port p with refresh := some .upperPending }

section

variable {c : Chip} {p : Nat}

theorem refreshUpper_moves : DhbMoves p updateFields [.dhb] c ((refreshUpper c p).portUpdate p) :=
  (dhbMoves_refl.setPort _ (by decide)).trans portUpdate_updates

/-- While the same source commands UPPER, the port is to have its upper switch on alone. -/
theorem portWant_refreshUpper (hprio : 3 ≤ c.portPrio p) (hsame : (c.port p).prio = c.portPrio p)
    (hupper : (c.portBase p (c.portPrio p)).1 = true) :
    ((settled (refreshUpper c p) p).port p).refresh = some .upperPending ∧
      (settled (refreshUpper c p) p).portWant p ((refreshUpper c p).portPrio p) = (true, false) := by
  have hport : (refreshUpper c p).port p = { c.port p with refresh := some .upperPending } := port_setPort_self _ _ _
  have hsources : SameSources p c (refreshUpper c p) := sameSources_of_fields (fun _ _ _ => rfl) rfl (by rw [hport])
  have hk : (refreshUpper c p).portPrio p = c.portPrio p := hsources.prio rfl
  have hbase : (refreshUpper c p).portBase p (c.portPrio p) = c.portBase p (c.portPrio p) := portBase_congr (fun _ _ _ => rfl) rfl _
  have hstay : Stays (refreshUpper c p) p := fun h5 => by
    rw [hport]
    exact hsame.trans (hk.symm.trans h5)
  have hrefresh : ((settled (refreshUpper c p) p).port p).refresh = some .upperPending := by
    rw [settled_upper hstay (by rwa [hk]) (by rwa [hk, hbase]), refresh_sourced, hport]
  exact ⟨hrefresh, by simp only [Chip.portWant, hrefresh]⟩

/-- e shows port p, its lower switch turned off in a refresh sequence, the upper one to follow. -/
structure RefreshFollows (c : Chip) (p : Nat) (e : Chip) : Prop where
  refresh : (e.port p).refresh = some .upperPending
  off : (e.port p).l.on = false
  fell : (e.port p).l.fellAt = some c.now
  pend : (e.port p).u.pend = some c.now
  pin : e.get DHB.STAT.LON p = 0

theorem refreshUpper_follows (hprio : 3 ≤ c.portPrio p) (hsame : (c.port p).prio = c.portPrio p)
    (hupper : (c.portBase p (c.portPrio p)).1 = true) (hlon : (c.port p).l.on = true) (huon : (c.port p).u.on = false)
    (hwant : (c.port p).u.want = false) : RefreshFollows c p ((refreshUpper c p).portUpdate p) := by
  obtain ⟨hrefresh, hcommand⟩ := portWant_refreshUpper hprio hsame hupper
  have hl : ((refreshUpper c p).port p).l = (c.port p).l := by rw [refreshUpper, port_setPort_self]
  have hu : ((refreshUpper c p).port p).u = (c.port p).u := by rw [refreshUpper, port_setPort_self]
  have hrec := port_portUpdate (c := refreshUpper c p) (p := p)
  rw [hcommand, hl, hu] at hrec
  have hlower : (((refreshUpper c p).portUpdate p).port p).l = followed c.now ((refreshUpper c p).ack p false) (c.port p).l false :=
    congrArg Port.l hrec
  have hupper : (((refreshUpper c p).portUpdate p).port p).u = followed c.now ((refreshUpper c p).ack p true) (c.port p).u true :=
    congrArg Port.u hrec
  constructor
  case refresh => exact (congrArg Port.refresh hrec).trans hrefresh
  case off => rw [hlower, followed_on]
  case fell => rw [hlower, followed_fell _ _ _ hlon]
  case pend => rw [hupper, followed_waits _ _ _ hwant huon]
  case pin => exact pin_portUpdate_off ((congrArg Switch.on hl).trans hlon) (congrArg Prod.snd hcommand)

end

section

variable {s : State} (hinv : s.Inv) {t p x : Nat} (hrefresh : (s.chip.port p).refresh = some (.lowerOn x))

include hinv hrefresh

theorem bootstrapRefreshEnd_eq {c : Chip}
    (hc : (if x + s.chip.get DHB.CFG.BREF p ≤ s.at_ t then (refreshUpper (s.chip.at_ t) p).portUpdate p else s.chip.at_ t) = c)
    (hmoves : DhbMoves p updateFields [.dhb] (s.chip.at_ t) c) :
    exec (.bootstrapRefreshEnd t p) s = .next { s with chip := c } := by
  have hopen : ((s.chip.at_ t).port p).refresh = some (.lowerOn x) := hrefresh
  rw [exec_bootstrapRefreshEnd, execBootstrapRefreshEnd]
  refine run_dhbMoves hinv ?_ hmoves (by decide)
  simp only [hopen]
  exact hc

end

/-- Settles O32: the conditions of a turn-on are those of the model's gate; RESUME, FORCE and the end of a refresh each change one thing and
let the port follow its sources. -/
theorem portCommands : Obligations.PortCommands := by
  unfold Obligations.PortCommands
  refine ⟨fun s t p up x y hinv hp hx hy hpend hoff hfell hack hprio hrefresh => ?_, fun s t p up hinv h => ?_,
    fun s t p hinv hp => ⟨fun hok => ?_, fun hnot => ?_⟩, fun s t p v m hinv hp hfabric hm => ?_,
    fun s t p x hinv hrefresh => ⟨fun hearly => ?_, fun hdue hprio hsame hupper hlon huon hwant => ?_⟩⟩
  · subst hx hy
    have hmay : (s.chip.at_ t).mayTurnOn p up = true := mayTurnOn_iff.2 ⟨hpend, hoff, hfell, hack, hprio⟩
    refine ⟨fun hfar => ?_, fun ⟨h5, hnear⟩ => ?_⟩
    · have hturned := turnOn_turns (c := s.chip.at_ t) (up := up) hrefresh
      exact ⟨_, dhbTurnOn_turns hinv hp hmay hrefresh (fun ⟨h5, hnear⟩ => hfar ⟨h5, changeNear_iff.1 hnear⟩), hturned.moves.now, hturned.on,
        hturned.pend, hturned.at_, hturned.other, hturned.pin, hturned.moves.other, rfl, rfl, hturned.moves.moves.rest,
        hturned.moves.moves.fields⟩
    · have hcancelled := cancelTurnOn_cancels (c := s.chip.at_ t) hpend
      exact ⟨_, dhbTurnOn_cancels hinv hp hmay hrefresh h5 (changeNear_iff.2 hnear), hcancelled.moves.now, hcancelled.self, hcancelled.other,
        hcancelled.flag, hcancelled.count, rfl, rfl, hcancelled.moves.moves.rest, hcancelled.moves.moves.fields⟩
  · refine dhbTurnOn_waits hinv (Bool.eq_false_iff.2 fun hmay => ?_)
    obtain ⟨hpend, hoff, hfell, hack, hprio⟩ := mayTurnOn_iff.1 hmay
    rcases h with h | h | h | h | ⟨f, hf, hdead⟩
    · exact absurd (h ▸ hpend : (none : Option Nat).isSome = true) (by decide)
    · exact absurd (h.symm.trans hoff) (by decide)
    · exact absurd (h.symm.trans hack) (by decide)
    · exact Nat.not_lt.2 hprio h
    · exact Nat.not_lt.2 (hfell f hf).1 hdead
  · have hmoves := resume_moves (p := p) (c := s.chip.at_ t)
    exact ⟨_, dhbResume_resumes hinv hp (resumeRefused_iff.2 hok), hmoves.now, fault_resume, prio_resume, hmoves.other, rfl, rfl,
      hmoves.moves.rest, hmoves.apart updateFields_ids⟩
  · exact dhbResume_waits hinv (mt resumeRefused_iff.1 hnot)
  · subst hm
    refine ⟨dhbForce_waits hinv, fun hgood => ?_⟩
    have hforced := force_forces (c := s.chip.at_ t) (p := p) (v := v)
    have hexec := dhbForce_forces (t := t) hinv hp hfabric hgood
    generalize (s.chip.at_ t).force p v = e at hforced hexec
    exact ⟨_, hexec, hforced.moves.now, hforced.en, hforced.fu, hforced.fl, hforced.prio, hforced.commands, hforced.moves.other, rfl, rfl,
      hforced.moves.moves.rest, hforced.moves.apart (by decide)⟩
  · exact bootstrapRefreshEnd_eq hinv hrefresh (if_neg (Nat.not_le.2 hearly)) dhbMoves_refl
  · have hmoves := refreshUpper_moves (c := s.chip.at_ t) (p := p)
    have hshown := refreshUpper_follows (c := s.chip.at_ t) hprio hsame hupper hlon huon hwant
    have hexec := bootstrapRefreshEnd_eq hinv hrefresh (if_pos hdue) hmoves
    generalize (refreshUpper (s.chip.at_ t) p).portUpdate p = e at hmoves hshown hexec
    exact ⟨_, hexec, hmoves.now, hshown.refresh, hshown.off, hshown.fell, hshown.pend, hshown.pin, hmoves.other, rfl, rfl,
      hmoves.moves.rest, hmoves.apart updateFields_ids⟩

end Sys2Proof.Scope
end

section
/-! CLAIM. Carrier events of ports and lanes, and firings of the trigger generators (R196, R199, R203, R204, R217, R276, R358). -/

namespace Sys2Proof.Scope

open Sys2Proof.Machine Sys2Proof.Machine.Reg Sys2Proof.Laws

/-! Compares in force (R217) -/

/-- The compares in force at an instant are still in force when taken at it again. -/
theorem cmp_at_at (m : Cmp) (t : Nat) : (m.at_ t).at_ t = m.at_ t := by
  have hnone : ∀ k : Cmp, k.next.filter (fun x => decide (x.1 ≤ t)) = [] → k.at_ t = k := fun k hk => by
    unfold Cmp.at_
    rw [hk]
    rfl
  by_cases hdue : m.next.filter (fun x => decide (x.1 ≤ t)) = []
  · rw [hnone m hdue, hnone m hdue]
  · obtain ⟨x, hx⟩ := Option.isSome_iff_exists.1 (List.getLast?_isSome.2 hdue)
    have hnext : (m.at_ t).next = m.next.filter (fun x => decide (t < x.1)) := by
      unfold Cmp.at_
      simp only [hx]
    refine hnone _ ?_
    rw [hnext]
    simp

theorem mkCarrier_at (per : Nat) (m : Cmp) (t : Nat) : mkCarrier per (m.at_ t) t = mkCarrier per m t := by
  rw [mkCarrier, mkCarrier, cmp_at_at]

/-! Trigger generators (R203) -/

/-- d differs from c in the modulation record alone, and not in T_C. -/
def CarrierOnly (c d : Chip) : Prop := ∃ m : Mod, d = { c with mod := m } ∧ m.tc = c.mod.tc

theorem CarrierOnly.trans {b c d : Chip} (h : CarrierOnly b c) (g : CarrierOnly c d) : CarrierOnly b d := by
  obtain ⟨m, rfl, hm⟩ := h
  obtain ⟨k, rfl, hk⟩ := g
  exact ⟨k, rfl, hk.trans hm⟩

theorem carrierOnly_refl (c : Chip) : CarrierOnly c c := ⟨c.mod, rfl, rfl⟩

theorem carrierOnly_each {α : Type} {f : Chip → α → Chip} (hf : ∀ c x, CarrierOnly c (f c x)) (c : Chip) (l : List α) :
    CarrierOnly c (c.each l f) := by
  unfold Chip.each
  induction l generalizing c with
  | nil => exact carrierOnly_refl c
  | cons x l ih => exact (hf c x).trans (ih (f c x))

theorem mtrigEvent_carrierOnly (c : Chip) (kind src evt t : Nat) : CarrierOnly c (c.mtrigEvent kind src evt t) :=
  carrierOnly_each (fun c m => by dsimp only; split <;> exact ⟨_, rfl, rfl⟩) c _

/-- The events of a carrier reach the generators alone. -/
theorem mtrigCarrier_carrierOnly (c : Chip) (kind src : Nat) (k : Carrier) (u t : Nat) :
    CarrierOnly c (c.mtrigCarrier kind src k u t) :=
  carrierOnly_each (fun c e => by
    split
    · exact mtrigEvent_carrierOnly c _ _ _ _
    · exact carrierOnly_refl c) c _

/-! The edge pair rule on a change to UPPER (R199) -/

/-- The carrier that commands UPPER commands LOWER again less than THR after the present instant. -/
def shortUpper (c : Chip) (p : Nat) : Bool :=
  match (c.portCarrier p c.now).nextOther (c.portPos p c.now) c.now true with
  | some n => decide (n - c.now < c.portThr p)
  | none => false

theorem shortUpper_iff {c : Chip} {p : Nat} : shortUpper c p = true ↔
    ∃ n, (c.portCarrier p c.now).nextOther (c.portPos p c.now) c.now true = some n ∧ n - c.now < c.portThr p := by
  unfold shortUpper
  cases (c.portCarrier p c.now).nextOther (c.portPos p c.now) c.now true <;> simp

/-- The change to UPPER is moved to THR after the last change, flagged and counted. -/
def upperMoved (c : Chip) (p : Nat) : Chip :=
  ((c.setPort p { c.port p with moved := (c.port p).moved ++ [(true, (c.port p).last + c.portThr p)] }).flag DHB.EVT.CLAMP p).inc
    DHB.CNT.CLAMP p

/-- The change to UPPER is suppressed. -/
def upperSuppressed (c : Chip) (p : Nat) : Chip := (c.flag DHB.EVT.SUPPR p).inc DHB.CNT.SUPPR p

/-- The port is at UPPER. -/
def upperExecuted (c : Chip) (p : Nat) : Chip := (c.setB DHB.STAT.TRK p true).setPort p { c.port p with last := c.now }

/-- The fields in which a carrier event of a port shows itself. -/
def edgeFields : List Fld := [DHB.EVT.CLAMP, DHB.CNT.CLAMP, DHB.EVT.SUPPR, DHB.CNT.SUPPR, DHB.STAT.TRK]

section

variable {c : Chip} {p : Nat} (htrk : c.get DHB.STAT.TRK p = 0)

include htrk

theorem portEvent_upper : c.portEvent p true = if c.now < (c.port p).last + c.portThr p then upperMoved c p
    else if shortUpper c p then upperSuppressed c p else upperExecuted c p := by
  have hlower : ¬(true == c.on DHB.STAT.TRK p) = true := by simp [Chip.on, htrk]
  exact if_neg hlower

theorem portEvents_upper : c.portEvents p [true] = (c.portEvent p true).portUpdate p := by
  have hlower : c.on DHB.STAT.TRK p = false := by simp [Chip.on, htrk]
  unfold Chip.portEvents
  simp [hlower, Chip.each]

end

/-- e shows port p of c after its carrier has commanded UPPER (R199). -/
structure UpperCommanded (c : Chip) (p : Nat) (e : Chip) : Prop where
  moved : c.now < (c.port p).last + c.portThr p → e.get DHB.STAT.TRK p = 0 ∧ e.get DHB.EVT.CLAMP p = 1 ∧
    e.get DHB.CNT.CLAMP p = satN DHB.CNT.CLAMP.width (c.get DHB.CNT.CLAMP p + 1) ∧
    (e.port p).moved = (c.port p).moved ++ [(true, (c.port p).last + c.portThr p)] ∧ (e.port p).last = (c.port p).last
  suppressed : (c.port p).last + c.portThr p ≤ c.now → shortUpper c p = true → e.get DHB.STAT.TRK p = 0 ∧
    e.get DHB.EVT.SUPPR p = 1 ∧ (e.port p).moved = (c.port p).moved ∧ (e.port p).last = (c.port p).last
  executed : (c.port p).last + c.portThr p ≤ c.now → shortUpper c p = false → e.get DHB.STAT.TRK p = 1 ∧
    (e.port p).moved = (c.port p).moved ∧ (e.port p).last = c.now
  prio : (e.port p).prio = (c.port p).prio
  moves : DhbMoves p edgeFields [.dhb] c e

theorem portEvent_commands {c : Chip} {p : Nat} (htrk : c.get DHB.STAT.TRK p = 0) : UpperCommanded c p (c.portEvent p true) := by
  rw [portEvent_upper htrk]
  split
  case isTrue hearly =>
    have hport : (upperMoved c p).port p = { c.port p with moved := (c.port p).moved ++ [(true, (c.port p).last + c.portThr p)] } :=
      port_setPort_self c _ p
    refine ⟨fun _ => ⟨?_, ?_, ?_, (congrArg Port.moved hport :), (congrArg Port.last hport :)⟩, fun h => absurd hearly (Nat.not_lt.2 h),
      fun h => absurd hearly (Nat.not_lt.2 h), (congrArg Port.prio hport :),
      ((dhbMoves_refl.setPort _ (by decide)).flag (by decide)).inc (by decide)⟩
    · rw [upperMoved, get_inc_fld _ _ _ (by decide), get_flag_fld _ _ _ (by decide), setPort_get, htrk]
    · rw [upperMoved, get_inc_fld _ _ _ (by decide), get_flag_self _ _ rfl]
    · rw [upperMoved, get_inc_self, get_flag_fld _ _ _ (by decide), setPort_get]
  case isFalse hlate =>
    split
    case isTrue hshort =>
      refine ⟨fun h => absurd h hlate, fun _ _ => ⟨?_, ?_, rfl, rfl⟩, fun _ h => absurd (h.symm.trans hshort) (by decide), rfl,
        (dhbMoves_refl.flag (by decide)).inc (by decide)⟩
      · rw [upperSuppressed, get_inc_fld _ _ _ (by decide), get_flag_fld _ _ _ (by decide), htrk]
      · rw [upperSuppressed, get_inc_fld _ _ _ (by decide), get_flag_self _ _ rfl]
    case isFalse hlong =>
      have hport : (upperExecuted c p).port p = { c.port p with last := c.now } := port_setPort_self _ _ _
      exact ⟨fun h => absurd h hlate, fun _ h => absurd h hlong,
        fun _ _ => ⟨get_set_self c DHB.STAT.TRK p (bit true), (congrArg Port.moved hport :),
          (congrArg Port.last hport :)⟩, (congrArg Port.prio hport :),
        (dhbMoves_refl.set _ (by decide)).setPort _ (by decide)⟩

/-! A carrier event of a port -/

/-- The compares due come into force (R217). -/
def cmpTaken (c : Chip) (p : Nat) : Chip := c.setPort p { c.port p with cmp := (c.port p).cmp.at_ c.now }

/-- The carrier's events reach the trigger generators; the moved changes that are due are taken from the port (R199, R203). -/
def eventsOffered (c : Chip) (p : Nat) : Chip :=
  let d := (cmpTaken c p).mtrigCarrier 1 p ((cmpTaken c p).portCarrier p c.now) ((cmpTaken c p).portPos p c.now) c.now
  d.setPort p { d.port p with moved := (c.port p).moved.filter (fun e => decide (c.now < e.2)) }

/-- The changes of this instant: those moved to it, then the carrier's own. -/
def eventsDue (c : Chip) (p : Nat) : List Bool :=
  let k := (cmpTaken c p).portCarrier p c.now
  let u := (cmpTaken c p).portPos p c.now
  ((c.port p).moved.filter (fun e => decide (e.2 ≤ c.now))).map (·.1) ++ (if k.eventA u then [true] else []) ++
    (if k.eventB u then [false] else [])

/-- They are taken now, or wait for the end of a refresh sequence. -/
def eventsTaken (c : Chip) (p : Nat) : Chip :=
  let d := eventsOffered c p
  if (d.port p).refresh.isSome then d.setPort p { d.port p with waiting := (d.port p).waiting ++ eventsDue c p }
  else d.portEvents p (eventsDue c p)

theorem portCarrierEvent_eq (c : Chip) (p : Nat) : c.portCarrierEvent p =
    if ((cmpTaken c p).portCarrier p c.now).period ((cmpTaken c p).portPos p c.now) then (eventsTaken c p).refreshStart p
    else eventsTaken c p := rfl

theorem portCarrier_cmpTaken (c : Chip) (p : Nat) : (cmpTaken c p).portCarrier p c.now = c.portCarrier p c.now := by
  rw [Chip.portCarrier, cmpTaken, port_setPort_self]
  exact mkCarrier_at _ _ _

/-- d shows port p of c as its carrier's event finds it: its compares those in force, no change moved to this instant. -/
structure EventReady (c : Chip) (p : Nat) (d : Chip) : Prop where
  port : d.port p = { c.port p with cmp := (c.port p).cmp.at_ c.now, moved := [] }
  tc : d.mod.tc = c.mod.tc
  moves : DhbMoves p [] [.dhb, .mod] c d

section

variable {c d : Chip} {p : Nat} (h : EventReady c p d)

include h

theorem EventReady.get (f : Fld) (n : Nat) : d.get f n = c.get f n := h.moves.get List.not_mem_nil n

theorem EventReady.thr : d.portThr p = c.portThr p := by rw [Chip.portThr, h.get, h.get, ← Chip.portThr]

theorem EventReady.short : shortUpper d p = shortUpper c p := by
  have hcarrier : d.portCarrier p c.now = c.portCarrier p c.now := by
    rw [Chip.portCarrier, h.port, h.get, mkCarrier_at, ← Chip.portCarrier]
  have hpos : d.portPos p c.now = c.portPos p c.now := by
    rw [Chip.portPos, h.get, h.get, Chip.position, h.tc, ← Chip.position, ← Chip.portPos]
  unfold shortUpper
  rw [h.moves.now, hcarrier, hpos, h.thr]

end

/-- The carrier of port p commands UPPER at the instant of c, and nothing else (R196). -/
structure CommandsUpper (c : Chip) (p : Nat) : Prop where
  eventA : (c.portCarrier p c.now).eventA (c.portPos p c.now) = true
  eventB : (c.portCarrier p c.now).eventB (c.portPos p c.now) = false
  period : (c.portCarrier p c.now).period (c.portPos p c.now) = false

theorem eventsOffered_ready {c : Chip} {p : Nat} (hmoved : (c.port p).moved = []) : EventReady c p (eventsOffered c p) := by
  obtain ⟨m, hm, htc⟩ := mtrigCarrier_carrierOnly (cmpTaken c p) 1 p ((cmpTaken c p).portCarrier p c.now) ((cmpTaken c p).portPos p c.now) c.now
  have hport : ({ cmpTaken c p with mod := m } : Chip).port p = { c.port p with cmp := (c.port p).cmp.at_ c.now } :=
    port_setPort_self _ _ _
  unfold eventsOffered
  rw [hm, hmoved]
  refine ⟨?_, htc, ?_⟩
  · refine (port_setPort_self _ _ _).trans ?_
    rw [hport]
    rfl
  · have htaken : DhbMoves p [] [.dhb, .mod] c (cmpTaken c p) := dhbMoves_refl.setPort _ (by decide)
    exact (htaken.step (c := { cmpTaken c p with mod := m }) (moves_refl.parts rfl rfl) rfl rfl).setPort _ (by decide)

theorem portCarrierEvent_upper {c : Chip} {p : Nat} (hcarrier : CommandsUpper c p) (hrefresh : (c.port p).refresh = none)
    (hmoved : (c.port p).moved = []) (htrk : c.get DHB.STAT.TRK p = 0) :
    c.portCarrierEvent p = ((eventsOffered c p).portEvent p true).portUpdate p := by
  obtain ⟨hA, hB, hperiod⟩ := hcarrier
  have hready := eventsOffered_ready hmoved
  have hpos : (cmpTaken c p).portPos p c.now = c.portPos p c.now := rfl
  have hdue : eventsDue c p = [true] := by simp [eventsDue, portCarrier_cmpTaken, hpos, hA, hB, hmoved]
  have hopen : ((eventsOffered c p).port p).refresh = none := (congrArg Port.refresh hready.port).trans hrefresh
  rw [portCarrierEvent_eq, portCarrier_cmpTaken, hpos, if_neg (by simp [hperiod]), eventsTaken, if_neg (by simp [hopen]), hdue,
    portEvents_upper ((hready.get _ _).trans htrk)]

/-- e shows port p after its carrier has commanded UPPER and the port has followed (R199). -/
structure UpperTaken (c : Chip) (p : Nat) (e : Chip) : Prop where
  moved : c.now < (c.port p).last + c.portThr p → e.get DHB.STAT.TRK p = 0 ∧ e.get DHB.EVT.CLAMP p = 1 ∧
    e.get DHB.CNT.CLAMP p = satN DHB.CNT.CLAMP.width (c.get DHB.CNT.CLAMP p + 1) ∧
    (e.port p).moved = [(true, (c.port p).last + c.portThr p)] ∧ (e.port p).last = (c.port p).last
  suppressed : (c.port p).last + c.portThr p ≤ c.now → shortUpper c p = true → e.get DHB.STAT.TRK p = 0 ∧
    e.get DHB.EVT.SUPPR p = 1 ∧ (e.port p).moved = [] ∧ (e.port p).last = (c.port p).last
  executed : (c.port p).last + c.portThr p ≤ c.now → shortUpper c p = false → e.get DHB.STAT.TRK p = 1 ∧
    (e.port p).moved = [] ∧ (e.port p).last = c.now
  moves : DhbMoves p (edgeFields ++ stayFields) [.dhb, .mod] c e

theorem portCarrierEvent_taken {c : Chip} {p : Nat} (hcarrier : CommandsUpper c p) (hrefresh : (c.port p).refresh = none)
    (hmoved : (c.port p).moved = []) (hprio : (c.port p).prio = 5) (htrk : c.get DHB.STAT.TRK p = 0) :
    UpperTaken c p (c.portCarrierEvent p) := by
  let d := eventsOffered c p
  let e := d.portEvent p true
  have hready : EventReady c p d := eventsOffered_ready hmoved
  have hlast : (d.port p).last = (c.port p).last := (congrArg Port.last hready.port :)
  have hnone : (d.port p).moved = [] := (congrArg Port.moved hready.port :)
  have hcommand : UpperCommanded d p e := portEvent_commands ((hready.get _ _).trans htrk)
  have hstay : Stays e p := fun _ => hcommand.prio.trans ((congrArg Port.prio hready.port :).trans hprio)
  have hfollow : DhbMoves p stayFields [.dhb] e (e.portUpdate p) := portUpdate_moves (fun _ h => h) (fun h => absurd hstay h)
  have hrec := port_portUpdate (c := e) (p := p)
  obtain ⟨hlastKept, hmovedKept⟩ := port_settled_stays hstay
  have hlastEnd : ((e.portUpdate p).port p).last = (e.port p).last := (congrArg Port.last hrec :).trans hlastKept
  have hmovedEnd : ((e.portUpdate p).port p).moved = (e.port p).moved := (congrArg Port.moved hrec :).trans hmovedKept
  rw [portCarrierEvent_upper hcarrier hrefresh hmoved htrk]
  constructor
  case moved =>
    intro hearly
    obtain ⟨h0, hflag, hcount, hm, hl⟩ := hcommand.moved (by rwa [hready.moves.now, hlast, hready.thr])
    rw [hnone, hlast, hready.thr] at hm
    rw [hready.get] at hcount
    exact ⟨(hfollow.get (by decide) p).trans h0, (hfollow.get (by decide) p).trans hflag, (hfollow.get (by decide) p).trans hcount,
      hmovedEnd.trans hm, hlastEnd.trans (hl.trans hlast)⟩
  case suppressed =>
    intro hlate hshort
    obtain ⟨h0, hflag, hm, hl⟩ := hcommand.suppressed (by rwa [hready.moves.now, hlast, hready.thr]) (by rwa [hready.short])
    exact ⟨(hfollow.get (by decide) p).trans h0, (hfollow.get (by decide) p).trans hflag, hmovedEnd.trans (hm.trans hnone),
      hlastEnd.trans (hl.trans hlast)⟩
  case executed =>
    intro hlate hlong
    obtain ⟨h1, hm, hl⟩ := hcommand.executed (by rwa [hready.moves.now, hlast, hready.thr]) (by rwa [hready.short])
    exact ⟨(hfollow.get (by decide) p).trans h1, hmovedEnd.trans (hm.trans hnone), hlastEnd.trans (hl.trans hready.moves.now)⟩
  case moves =>
    exact ((hready.moves.mono (by decide) (fun _ h => h)).trans (hcommand.moves.mono (by decide) (by decide))).trans
      (hfollow.mono (by decide) (by decide))

/-! CARRIER_EVENT (R199, R203) -/

section

variable {s : State} (hinv : s.Inv) {t : Nat}

include hinv

theorem carrierEvent_waits (hrun : s.chip.inRun = false) (lane : Bool) (i : Nat) :
    exec (.carrierEvent t lane i) s = .next (s.waits t) := by
  have hidle : (!s.chip.inRun) = true := by rw [hrun]; rfl
  rw [exec_carrierEvent, execCarrierEvent]
  exact run_waits hinv (if_pos hidle)

theorem carrierEvent_port {p : Nat} (hrun : s.chip.inRun = true) (hp : p < 12) (hrel : s.chip.released 4 = true) {fs : List Fld}
    {ps : List Part} (hmoves : DhbMoves p fs ps (s.chip.at_ t) ((s.chip.at_ t).portCarrierEvent p)) (hps : Part.pgm ∉ ps) :
    exec (.carrierEvent t false p) s = .next { s with chip := (s.chip.at_ t).portCarrierEvent p } := by
  have hruns : ¬(!s.chip.inRun) = true := by rw [hrun]; decide
  rw [exec_carrierEvent, execCarrierEvent]
  have hgate : p < 12 ∧ s.chip.released 4 = true := ⟨hp, hrel⟩
  refine run_dhbMoves hinv ?_ hmoves hps
  exact (if_neg hruns).trans ((if_neg Bool.false_ne_true).trans (if_pos hgate))

/-- The carrier of a lane of a PSC arm reaches the trigger generators alone. -/
theorem carrierEvent_lane {n : Nat} (hrun : s.chip.inRun = true) (hn : n < 192) (harm : s.chip.laneArm n < 6)
    (hmode : s.chip.get ARM.CFG.MODE (s.chip.laneArm n) = 1) :
    ∃ u, exec (.carrierEvent t true n) s = .next u ∧ u.chip.now = s.at_ t ∧ Only s u [] (fun a b => { a with mod := b.mod }) := by
  have hruns : ¬(!s.chip.inRun) = true := by rw [hrun]; decide
  obtain ⟨-, hwq⟩ := hinv
  let c := s.chip.at_ t
  let l := c.laneMod n
  let per := c.get MOD.ACFG.PER (c.laneArm n)
  let d := c.setLaneMod n { l with cmp := l.cmp.at_ c.now }
  have htaken : CarrierOnly c d := ⟨d.mod, rfl, rfl⟩
  obtain ⟨m, hm, -⟩ := htaken.trans
    (mtrigCarrier_carrierOnly d 0 n (mkCarrier per l.cmp c.now) (d.position per (d.lanePhase n c.now) c.now) c.now)
  refine ⟨{ s with chip := { c with mod := m } }, ?_, rfl, rfl, rfl, rfl, fun _ _ _ => rfl⟩
  rw [exec_carrierEvent, execCarrierEvent]
  have hgate : s.chip.laneArm n < 6 ∧ s.chip.get ARM.CFG.MODE (s.chip.laneArm n) = 1 ∧ n < 192 := ⟨harm, hmode, hn⟩
  refine run_of_chip_eq ?_ hwq
  exact (if_neg hruns).trans ((if_pos rfl).trans ((if_pos hgate).trans hm))

end

/-! A firing at the TRIG slots (R358) -/

/-- A firing of instant x reaches TRIG slot k: a slot that waits already loses it. -/
def firingTaken (x : Nat) (c : Chip) (k : Nat) : Chip :=
  if (c.slot k).trig.isSome then (c.inc CTL.CNT.TRGLOST).flag CTL.EVT.TRGLOST else c.setSlot k { c.slot k with trig := some x }

/-- The fields of a firing that is lost. -/
def lostFields : List (Fld × Nat) := [(CTL.CNT.TRGLOST, 0), (CTL.EVT.TRGLOST, 0)]

/-- d is c after a firing of instant x has reached the TRIG slots l. -/
structure FiringTaken (c : Chip) (l : List Nat) (x : Nat) (d : Chip) : Prop where
  slots : ∀ k, (d.slot k).trig = if k ∈ l ∧ (c.slot k).trig = none then some x else (c.slot k).trig
  lost : (∃ k ∈ l, (c.slot k).trig ≠ none) → d.get CTL.EVT.TRGLOST = 1
  kept : c.get CTL.EVT.TRGLOST = 1 → d.get CTL.EVT.TRGLOST = 1
  now : d.now = c.now
  moves : Moves lostFields [.ctl] c d

theorem firingTaken_one (x : Nat) (c : Chip) (k : Nat) : FiringTaken c [k] x (firingTaken x c k) := by
  unfold firingTaken
  split
  case isTrue hwaits =>
    have hflag : ((c.inc CTL.CNT.TRGLOST).flag CTL.EVT.TRGLOST).get CTL.EVT.TRGLOST = 1 := get_flag_self _ _ rfl
    refine ⟨fun j => ?_, fun _ => hflag, fun _ => hflag, rfl, (moves_refl.set _ (by decide)).flag (by decide)⟩
    refine (if_neg ?_).symm
    rintro ⟨hj, hnone⟩
    rw [List.mem_singleton.1 hj] at hnone
    simp [hnone] at hwaits
  case isFalse hfree =>
    have hnone : (c.slot k).trig = none := Option.not_isSome_iff_eq_none.1 hfree
    refine ⟨fun j => ?_, ?_, fun h => h, rfl, moves_refl.parts rfl rfl⟩
    · by_cases hj : j = k
      · subst hj
        rw [if_pos ⟨List.mem_singleton_self _, hnone⟩]
        exact congrArg SlotRec.trig (nget_nset_self _ _ _ _)
      · rw [if_neg (fun h => hj (List.mem_singleton.1 h.1))]
        exact congrArg SlotRec.trig (nget_nset_other _ _ _ _ _ _ hj)
    · rintro ⟨j, hj, hwaits⟩
      exact absurd (List.mem_singleton.1 hj ▸ hnone) hwaits

theorem FiringTaken.append {b c d : Chip} {k l : List Nat} {x : Nat} (h : FiringTaken b k x c) (g : FiringTaken c l x d) :
    FiringTaken b (k ++ l) x d where
  slots j := by
    rw [g.slots, h.slots]
    by_cases hnone : (b.slot j).trig = none <;> by_cases hk : j ∈ k <;> simp [hnone, hk]
  lost := by
    rintro ⟨j, hj, hwaits⟩
    rcases List.mem_append.1 hj with hj | hj
    · exact g.kept (h.lost ⟨j, hj, hwaits⟩)
    · refine g.lost ⟨j, hj, ?_⟩
      rw [h.slots, if_neg (fun e => hwaits e.2)]
      exact hwaits
  kept e := g.kept (h.kept e)
  now := g.now.trans h.now
  moves := h.moves.trans g.moves

theorem firingTaken_each (x : Nat) (l : List Nat) (c : Chip) : FiringTaken c l x (c.each l (firingTaken x)) := by
  unfold Chip.each
  induction l generalizing c with
  | nil =>
    exact ⟨fun _ => (if_neg (fun h => List.not_mem_nil h.1)).symm, fun ⟨_, h, _⟩ => absurd h List.not_mem_nil, fun h => h, rfl, moves_refl⟩
  | cons k l ih => exact (firingTaken_one x c k).append (ih (firingTaken x c k))

/-! MTRIG_DELIVERY (R204) -/

theorem mem_of_nextFiring {l : List (Nat × Nat)} {e : Nat × Nat} (h : nextFiring l = some e) : e ∈ l := by
  induction l generalizing e with
  | nil => exact absurd h (by simp [nextFiring])
  | cons a l ih =>
    unfold nextFiring at h
    cases hl : nextFiring l with
    | none =>
      rw [hl] at h
      exact Option.some.inj h ▸ List.mem_cons_self
    | some b =>
      simp only [hl] at h
      split at h
      · exact Option.some.inj h ▸ List.mem_cons_of_mem _ (ih hl)
      · exact Option.some.inj h ▸ List.mem_cons_self

/-- A firing has left the generators and joined the triggers of the sequencers. -/
def firingSent (c : Chip) (m d : Nat) : Chip :=
  ({ c with mod := { c.mod with fired := c.mod.fired.erase (m, d) } } : Chip).mtrigSequences m d

/-- The TRIG slots bound to generator m. -/
def boundSlots (c : Chip) (m : Nat) : List Nat := c.ctl.trig.filter (fun k => c.get CTL.SCFG.TSRC k == m)

section

variable {s : State} (hinv : s.Inv) {t m d : Nat}

theorem mem_boundSlots {c : Chip} {k : Nat} : k ∈ boundSlots c m ↔ k ∈ c.ctl.trig ∧ c.get CTL.SCFG.TSRC k = m := by
  simp [boundSlots]

include hinv

theorem mtrigDelivery_waits (h : ∀ e ∈ s.chip.mod.fired, s.at_ t < e.2) : exec (.mtrigDelivery t) s = .next (s.waits t) := by
  rw [exec_mtrigDelivery, execMtrigDelivery]
  refine run_waits hinv ?_
  dsimp only
  split
  case h_1 m d hnext =>
    refine if_neg ?_
    rw [Bool.and_eq_true, decide_eq_true_eq]
    exact fun hdue => Nat.not_le.2 (h _ (mem_of_nextFiring hnext)) hdue.2
  case h_2 => rfl

theorem mtrigDelivery_delivers (hrun : s.chip.inRun = true) (hnext : nextFiring s.chip.mod.fired = some (m, d)) (hdue : d ≤ s.at_ t) :
    ∃ u, exec (.mtrigDelivery t) s = .next { s with chip := u } ∧
      FiringTaken (firingSent (s.chip.at_ t) m d) (boundSlots s.chip m) (d - 64 * s.chip.get MOD.TRG.DELAY m) u := by
  obtain ⟨-, hwq⟩ := hinv
  have htaken := firingTaken_each (d - 64 * s.chip.get MOD.TRG.DELAY m) (boundSlots s.chip m) (firingSent (s.chip.at_ t) m d)
  refine ⟨_, ?_, htaken⟩
  have hgate : (s.chip.inRun && decide (d ≤ s.at_ t)) = true := by simp [hrun, hdue]
  have hfired : nextFiring (s.chip.at_ t).mod.fired = some (m, d) := hnext
  rw [exec_mtrigDelivery, execMtrigDelivery]
  refine run_of_chip_eq ?_ ((congrArg Pgm.wq (htaken.moves.pgm (by decide))).trans hwq)
  simp only [hfired]
  exact if_pos hgate

end

/-- Settles O33: the carrier's event reaches the generators, then the edge pair rule, then the port's sources, which leave what the rule
decides; a firing is taken by the bound slots one after the other. -/
theorem carriersAndTriggers : Obligations.CarriersAndTriggers := by
  unfold Obligations.CarriersAndTriggers
  refine ⟨fun s t p now v k hinv hrun hp hrel hv hnow hrefresh hmoved h5 hprio hk hA hB hperiod htrk => ?_,
    fun s t n hinv hrun hn harm hmode => carrierEvent_lane hinv hrun hn harm hmode,
    fun s t i lane hinv hrun => carrierEvent_waits hinv hrun lane i, fun s t m d hinv hrun hnext hdue => ?_,
    fun s t hinv h => mtrigDelivery_waits hinv h⟩
  · subst hv hnow hk
    have htaken := portCarrierEvent_taken (c := s.chip.at_ t) ⟨hA, hB, hperiod⟩ hrefresh hmoved h5 htrk
    have hexec := carrierEvent_port hinv hrun hp hrel htaken.moves (by decide)
    generalize (s.chip.at_ t).portCarrierEvent p = e at htaken hexec
    exact ⟨_, hexec, htaken.moves.now, htaken.moves.other, ⟨rfl, rfl, htaken.moves.moves.rest, htaken.moves.apart (by decide)⟩,
      htaken.moved, fun hlate hshort => htaken.suppressed hlate (shortUpper_iff.2 hshort),
      fun hlate hlong => htaken.executed hlate (Bool.eq_false_iff.2 (mt shortUpper_iff.1 hlong))⟩
  · obtain ⟨u, hexec, htaken⟩ := mtrigDelivery_delivers hinv hrun hnext hdue
    have hsent : Moves lostFields [.mod, .adc, .ctl] s.chip (firingSent (s.chip.at_ t) m d) := moves_refl.parts rfl rfl
    have hmoves := hsent.trans (htaken.moves.mono (fun _ h => h) (by decide))
    refine ⟨_, hexec, htaken.now, congrArg Chip.mod htaken.moves.rest, congrArg Chip.adc htaken.moves.rest, fun k => ?_, ?_, rfl, rfl,
      hmoves.rest, hmoves.fields⟩
    · refine (htaken.slots k).trans ?_
      exact if_congr (by rw [mem_boundSlots, and_assoc]; rfl) rfl rfl
    · rintro ⟨k, hk, hbound, hwaits⟩
      exact htaken.lost ⟨k, mem_boundSlots.2 ⟨hk, hbound⟩, hwaits⟩

end Sys2Proof.Scope
end

section
/-! CLAIM. Off-state checks of a lane (R239, R241). -/

namespace Sys2Proof.Scope

open Sys2Proof.Machine Sys2Proof.Machine.Reg Sys2Proof.Laws

/-! The request (R239) -/

/-- Lane n may be checked: it is in STANDBY, or in BLOCKED with lock. -/
def MayCheck (c : Chip) (n : Nat) : Prop := c.lstate n = lsStandby ∨ (c.lstate n = lsBlocked ∧ c.on LNK.STAT.LOCK n = true)

theorem odiag_not_refused_iff {c : Chip} {n : Nat} : (!c.odiagRefused n) = true ↔ MayCheck c n := by
  simp [Chip.odiagRefused, MayCheck]

theorem odiagStart_moves (c : Chip) (n : Nat) : LaneMoves n [GPR.LDIAG.ODRES] [.lnk] c (c.odiagStart n) :=
  (laneMoves_refl.setLane _ (by decide)).set 1 (by decide)

theorem lane_odiagStart (c : Chip) (n : Nat) : (c.odiagStart n).lane n = { c.lane n with odAt := some c.now, odSeen := false } :=
  lane_setLane_self _ _ _

theorem get_odiagStart (c : Chip) (n : Nat) : (c.odiagStart n).get GPR.LDIAG.ODRES n = 1 := get_set_self _ _ _ _

section

variable {s : State} (hinv : s.Inv) {t n : Nat}

include hinv

theorem odiagRequest_starts (hn : n < 192) (h : MayCheck s.chip n) :
    exec (.odiagRequest t n) s = .next { s with chip := (s.chip.at_ t).odiagStart n } := by
  have hgate : (decide (n < 192) && !(s.chip.at_ t).odiagRefused n) = true := by
    rw [Bool.and_eq_true, decide_eq_true_eq, odiag_not_refused_iff]
    exact ⟨hn, h⟩
  rw [exec_odiagRequest, execOdiagRequest]
  exact run_laneMoves hinv (if_pos hgate) (odiagStart_moves (s.chip.at_ t) n) (by decide)

theorem odiagRequest_waits (h : ¬MayCheck s.chip n) : exec (.odiagRequest t n) s = .next (s.waits t) := by
  have hgate : ¬(decide (n < 192) && !(s.chip.at_ t).odiagRefused n) = true := by
    rw [Bool.and_eq_true, odiag_not_refused_iff]
    exact fun hboth => h hboth.2
  rw [exec_odiagRequest, execOdiagRequest]
  exact run_waits hinv (if_neg hgate)

end

/-! The timeout (R241) -/

/-- The check of lane n is over, with result TIMEOUT. -/
def checkEnded (c : Chip) (n : Nat) : Chip := (c.setLane n { c.lane n with odAt := none }).set GPR.LDIAG.ODRES n 4

/-- Its failure is flagged and counted for arm a, its event yet to be raised. -/
def checkFailed (c : Chip) (n a : Nat) : Chip := ((checkEnded c n).flag GPR.EVT.ODFAIL a).inc GPR.CNT.ODFAIL a

/-- The fields that a failed check of lane n on arm a writes. -/
def checkFields (n a : Nat) : List (Fld × Nat) := [(GPR.LDIAG.ODRES, n), (GPR.EVT.ODFAIL, a), (GPR.CNT.ODFAIL, a)]

section

variable (c : Chip) (n a : Nat)

theorem checkEnded_moves : LaneMoves n [GPR.LDIAG.ODRES] [.lnk] c (checkEnded c n) :=
  (laneMoves_refl.setLane _ (by decide)).set 4 (by decide)

theorem checkFailed_moves : Moves (checkFields n a) [.lnk] c (checkFailed c n a) := by
  have hended : Moves (checkFields n a) [.lnk] c (checkEnded c n) := (checkEnded_moves c n).moves.mono (by simp [checkFields]) (by simp)
  exact (hended.flag (by simp [checkFields])).set _ (by simp [checkFields])

end

/-- e shows the check of lane n of c failed by TIMEOUT, for arm a. -/
structure CheckFails (c : Chip) (n a : Nat) (e : Chip) : Prop where
  now : e.now = c.now
  result : e.get GPR.LDIAG.ODRES n = 4
  flag : e.get GPR.EVT.ODFAIL a = 1
  count : e.get GPR.CNT.ODFAIL a = satN GPR.CNT.ODFAIL.width (c.get GPR.CNT.ODFAIL a + 1)
  lane : e.lane n = { c.lane n with odAt := none }
  other : ∀ m, m ≠ n → e.lane m = c.lane m
  flt : e.flt = { c.flt with raised := inFlight c 22 }
  moves : Moves (checkFields n a) [.lnk, .flt] c e

theorem checkFailed_fails (c : Chip) (n a : Nat) : CheckFails c n a ((checkFailed c n a).raise 22) := by
  have hended := checkEnded_moves c n
  have hlane : ∀ m, ((checkFailed c n a).raise 22).lane m = (checkEnded c n).lane m := lane_congr (raise_lnk _ 22)
  constructor
  case now => exact (raise_now ..).trans hended.now
  case result =>
    simp (disch := decide) only [checkFailed, raise_get, get_inc_fld, get_flag_fld]
    exact get_set_self _ _ _ _
  case flag => simp (disch := decide) only [checkFailed, raise_get, get_inc_fld, get_flag_self]
  case count =>
    simp (disch := decide) only [checkFailed, raise_get, get_inc_self, get_flag_fld]
    rw [hended.get (by decide)]
  case lane => exact (hlane n).trans (lane_setLane_self _ _ _)
  case other => exact fun m hm => (hlane m).trans (hended.other m hm)
  case flt =>
    have hfabric : (checkFailed c n a).fabric = c.fabric := by
      refine Eq.trans ?_ (hended.fabric (by decide))
      unfold checkFailed Chip.fabric Chip.bitOn
      rw [get_inc_fld _ _ _ (by decide), get_flag_fld _ _ _ (by decide)]
    rw [raise_flt, inFlight_congr hfabric rfl rfl]
    rfl
  case moves =>
    have hfailed := (checkFailed_moves c n a).mono (qs := [.lnk, .flt]) (fun _ h => h) (by decide)
    rw [raise_eq]
    exact hfailed.parts (by simp [takes]) rfl

section

variable {s : State} (hinv : s.Inv) {t n x : Nat} (hreq : (s.chip.lane n).odAt = some x)

include hinv hreq

theorem odiagTimeout_fails (hseen : (s.chip.lane n).odSeen = false) (hdue : x + 2 * msTaps ≤ s.at_ t) :
    exec (.odiagTimeout t n) s = .next { s with chip := (checkFailed (s.chip.at_ t) n (s.chip.laneArm n)).raise 22 } := by
  have hfails := checkFailed_fails (s.chip.at_ t) n (s.chip.laneArm n)
  have hreq : ((s.chip.at_ t).lane n).odAt = some x := hreq
  have hgate : ¬(((s.chip.at_ t).lane n).odSeen = true ∨ (s.chip.at_ t).now < x + 2 * msTaps) := by
    rintro (h | h)
    · exact absurd (h.symm.trans hseen) (by decide)
    · exact Nat.not_lt.2 hdue h
  obtain ⟨-, hwq⟩ := hinv
  rw [exec_odiagTimeout, execOdiagTimeout]
  refine run_of_chip_eq ?_ ((congrArg Pgm.wq (hfails.moves.pgm (by decide))).trans hwq)
  simp only [hreq]
  exact if_neg hgate

theorem odiagTimeout_waits (h : (s.chip.lane n).odSeen = true ∨ s.at_ t < x + 2 * msTaps) :
    exec (.odiagTimeout t n) s = .next (s.waits t) := by
  have hreq : ((s.chip.at_ t).lane n).odAt = some x := hreq
  rw [exec_odiagTimeout, execOdiagTimeout]
  refine run_waits hinv ?_
  simp only [hreq]
  exact if_pos h

end

/-- Settles O29: a request that R239 allows updates one lane; a check that times out ends on its lane, is flagged and counted for its arm,
and its event is raised; every other request or timeout finds nothing to do. -/
theorem offStateChecks : Obligations.OffStateChecks := by
  unfold Obligations.OffStateChecks
  refine ⟨fun s t n hinv hn => ⟨fun h => ?_, odiagRequest_waits hinv⟩, fun s t n x a hinv hreq ha hseen hdue => ?_,
    fun s t n x hinv hreq h => odiagTimeout_waits hinv hreq h⟩
  · have hmoves := odiagStart_moves (s.chip.at_ t) n
    exact ⟨_, odiagRequest_starts hinv hn h, hmoves.now, get_odiagStart _ n, lane_odiagStart _ n, hmoves.other,
      rfl, rfl, hmoves.moves.rest, hmoves.moves.fields⟩
  · subst ha
    have hfails := checkFailed_fails (s.chip.at_ t) n (s.chip.laneArm n)
    exact ⟨_, odiagTimeout_fails hinv hreq hseen hdue, hfails.now, hfails.result, hfails.flag, hfails.count, hfails.lane,
      hfails.other, hfails.flt, rfl, rfl, hfails.moves.rest, hfails.moves.fields⟩

end Sys2Proof.Scope
end

section
/-! SUPPORT. One bit of a field, and frames: one by fields gives one by attributes, one by attributes names the parts that stay. -/

namespace Sys2Proof.Scope

open Sys2Proof.Machine Sys2Proof.Machine.Reg Sys2Proof.Laws

/-! One bit of a field -/

theorem testBit_putBit (v j i : Nat) (b : Bool) : (putBit v j b).testBit i = if i = j then b else v.testBit i := by
  cases b with
  | false => by_cases h : i = j <;> simp [testBit_putBit_false, h]
  | true =>
    have hor : (putBit v j true).testBit i = (v.testBit i || decide (j = i)) := by
      rw [← Nat.testBit_two_pow, ← Nat.testBit_or]
      rfl
    rw [hor]
    by_cases h : i = j
    · simp [h]
    · simp [h, Ne.symm h]

section

variable (c : Chip) {f : Fld} (n : Nat) {i j : Nat} (b : Bool)

theorem testBit_setBit_self (h : i < f.width) : ((c.setBit f n i b).get f n).testBit i = b := by
  rw [Chip.setBit, get_set_self, Nat.testBit_mod_two_pow, testBit_putBit]
  simp [h]

theorem testBit_setBit_other (h : j ≠ i) : ((c.setBit f n i b).get f n).testBit j = (c.get f n % 2 ^ f.width).testBit j := by
  rw [Chip.setBit, get_set_self, Nat.testBit_mod_two_pow, testBit_putBit, Nat.testBit_mod_two_pow, if_neg h]

theorem get_setB_self (h : f.hi = f.lo) : (c.setB f n b).get f n = bit b := by
  rw [Chip.setB, get_set_self, Fld.width, h]
  cases b <;> simp [bit]

end

/-! Frames -/

section

variable {l : List (Fld × Nat)} {ids : List Nat} {ps : List Part} {a b c : Chip}

/-- An event raised is a step that changes the events in flight. -/
theorem Moves.raise (h : Moves l ps a b) (src : Nat) (hp : Part.flt ∈ ps) : Moves l ps a (b.raise src) := by
  rw [raise_eq]
  exact h.parts (by simp [takes, hp]) rfl

theorem Moves.inc {f : Fld} {n : Nat} (h : Moves l ps a b) (hf : (f, n) ∈ l) : Moves l ps a (b.inc f n) := h.set _ hf

/-- A field that shares its place with no listed field reads as before. -/
theorem Moves.get (h : Moves l ps a b) {f : Fld} (hf : (f.id, f.lo) ∉ fieldKeys (l.map Prod.fst)) (n : Nat) : b.get f n = a.get f n :=
  h.fields f n (by
    rintro ⟨e, he, hid, hlo, -⟩
    exact hf (List.mem_map.2 ⟨e.1, List.mem_map_of_mem he, by rw [hid, hlo]⟩))

/-- A part that is not listed is the same. -/
theorem Moves.part (h : Moves l ps a b) {p : Part} (hp : p ∉ ps) (hnow : p ≠ .now) : Part.same a b p := by
  rw [h.rest]
  cases p <;> first | exact absurd rfl hnow | exact if_neg hp

/-- A frame by fields is one by attributes when it leaves the time. -/
theorem Moves.keeps (h : Moves l ps a b) (hnow : b.now = a.now) (hl : ∀ e ∈ l, e.1.id ∈ ids) : Keeps ids ps a b :=
  ⟨fun f n hf => h.fields f n fun ⟨e, he, hid, _⟩ => hf (hid ▸ hl e he), fun p hp => by
    by_cases hp_now : p = .now
    · subst hp_now
      exact hnow
    · exact h.part hp hp_now⟩

/-- Every part that a frame by attributes does not name is the old one. -/
theorem takes_of_keeps (h : Keeps ids ps a b) : b = takes ps a b := by
  obtain ⟨-, hparts⟩ := h
  cases b
  simp only [takes, Chip.mk.injEq, true_and]
  refine ⟨?_, ?_, ?_, ?_, ?_, ?_, ?_, ?_, ?_, ?_, ?_, ?_, ?_, ?_, ?_, ?_, ?_, ?_, ?_, ?_, ?_, ?_⟩ <;> split <;>
    first | rfl | (rename_i hp; exact hparts _ hp)

theorem on_of_get {f : Fld} {n : Nat} (h : b.get f n = a.get f n) : b.on f n = a.on f n := congrArg (· != 0) h

/-- A command whose frame leaves the page manager writes no SRAM. -/
theorem run_keeps {s : State} (hinv : s.Inv) {f : Memory → Chip → Chip} {t : Nat} (hf : f s.sram s.chip = c)
    (hc : Keeps ids ps (s.chip.at_ t) c) (hps : Part.pgm ∉ ps) : run f s = .next { s with chip := c } := by
  obtain ⟨-, hwq⟩ := hinv
  exact run_of_chip_eq hf ((congrArg Pgm.wq (hc.parts .pgm hps)).trans hwq)

end

end Sys2Proof.Scope
end

section
/-! SUPPORT. The latch of a source (R252 to R255): what setting it shows, and that beside it only the holds change. -/

namespace Sys2Proof.Scope

open Sys2Proof.Machine Sys2Proof.Machine.Reg Sys2Proof.Laws

/-! Time stamps -/

/-- A stamp depends on the time and on the block TIM alone. -/
theorem stamp_now_congr {c d : Chip} (htim : d.tim = c.tim) (hnow : d.now = c.now) (hofs : d.get TIM.OFS.OFS = c.get TIM.OFS.OFS)
    (hrate : d.get TIM.RATE.RATE = c.get TIM.RATE.RATE) : d.stamp (d.raw d.now) = c.stamp (c.raw c.now) := by
  have hset : d.timeSet = c.timeSet := by simp only [Chip.timeSet, Chip.getI, htim, hofs, hrate]
  have hraw : d.raw d.now = c.raw c.now := by rw [Chip.raw, htim, hnow, ← Chip.raw]
  rw [Chip.stamp, Chip.corrected, Chip.setFor, hraw, hset, htim]
  rfl

/-! The latch and what is noted of it, before the holds follow -/

/-- MON.FIRST takes source j and this instant (R253). -/
def firstTaken (d : Chip) (j : Nat) : Chip :=
  let st := d.stamp (d.raw d.now)
  { ((d.set MON.FIRST.SRC 0 j).set MON.FIRST.TIME 0 st.1).set MON.FIRST.TAP 0 st.2 with mon := { d.mon with firstAt := some d.now } }

/-- Latch j is set, and MON.FIRST follows (R253). -/
def firstNoted (c : Chip) (j : Nat) : Chip :=
  if !c.on MON.LATCH.LATCH then firstTaken (c.setBit MON.LATCH.LATCH 0 j true) j
  else if c.mon.firstAt == some c.now && decide (j < c.get MON.FIRST.SRC) then
    (c.setBit MON.LATCH.LATCH 0 j true).set MON.FIRST.SRC 0 j
  else c.setBit MON.LATCH.LATCH 0 j true

/-- The event of a latch (R254). -/
def latchEvent (d : Chip) (j : Nat) : Chip := if j < 96 then (d.flag MON.EVT.TCOMP).raise 24 else (d.flag MON.EVT.TEXT).raise 25

/-- Latch j is set, noted, flagged and counted. -/
def latchNoted (c : Chip) (j : Nat) : Chip := (latchEvent (firstNoted c j) j).inc MON.CNT.LATCH j

/-- The fields that show it. -/
def latchFields (j : Nat) : List (Fld × Nat) :=
  [(MON.LATCH.LATCH, 0), (MON.FIRST.SRC, 0), (MON.FIRST.TIME, 0), (MON.FIRST.TAP, 0), (MON.EVT.TCOMP, 0), (MON.EVT.TEXT, 0),
    (MON.CNT.LATCH, j)]

/-- The same fields, of whatever source. -/
def latchFlds : List Fld :=
  [MON.LATCH.LATCH, MON.FIRST.SRC, MON.FIRST.TIME, MON.FIRST.TAP, MON.EVT.TCOMP, MON.EVT.TEXT, MON.CNT.LATCH]

section

variable (c : Chip) (j : Nat)

/-- Beside the latch only MON.FIRST changes. -/
theorem firstNoted_first : Moves [(MON.FIRST.SRC, 0), (MON.FIRST.TIME, 0), (MON.FIRST.TAP, 0)] [.mon]
    (c.setBit MON.LATCH.LATCH 0 j true) (firstNoted c j) := by
  refine Moves.ite (fun _ => ?_) fun _ => Moves.ite (fun _ => moves_refl.set _ (by simp)) fun _ => moves_refl
  exact (((moves_refl.set _ (by simp)).set _ (by simp)).set _ (by simp)).parts rfl rfl

theorem firstNoted_now : (firstNoted c j).now = c.now := by
  unfold firstNoted
  split
  · rfl
  · split <;> rfl

theorem firstNoted_mon : (firstNoted c j).mon = { c.mon with firstAt := (firstNoted c j).mon.firstAt } := by
  unfold firstNoted
  split
  · rfl
  · split <;> rfl

/-- The first latch of all is the first source, with its corrected time. -/
theorem firstNoted_none (h : c.get MON.LATCH.LATCH = 0) : (firstNoted c j).mon.firstAt = some c.now ∧
    (firstNoted c j).get MON.FIRST.SRC = j % 2 ^ MON.FIRST.SRC.width ∧
    (firstNoted c j).get MON.FIRST.TIME = (c.stamp (c.raw c.now)).1 % 2 ^ MON.FIRST.TIME.width ∧
    (firstNoted c j).get MON.FIRST.TAP = (c.stamp (c.raw c.now)).2 % 2 ^ MON.FIRST.TAP.width := by
  have hnone : (!c.on MON.LATCH.LATCH) = true := by simp [Chip.on, h]
  have hstamp := stamp_now_congr (c := c) (d := c.setBit MON.LATCH.LATCH 0 j true) rfl rfl (get_set_fld _ _ _ _ (by decide))
    (get_set_fld _ _ _ _ (by decide))
  rw [firstNoted, if_pos hnone, ← hstamp]
  refine ⟨rfl, ?_, ?_, get_set_self _ _ _ _⟩
  · exact (get_set_fld _ _ _ _ (by decide)).trans ((get_set_fld _ _ _ _ (by decide)).trans (get_set_self _ _ _ _))
  · exact (get_set_fld _ _ _ _ (by decide)).trans (get_set_self _ _ _ _)

/-- A later latch leaves the first source, but for a lower number at the same instant. -/
theorem firstNoted_later (h : c.get MON.LATCH.LATCH ≠ 0) : (firstNoted c j).mon.firstAt = c.mon.firstAt ∧
    (firstNoted c j).get MON.FIRST.SRC = (if c.mon.firstAt = some c.now ∧ j < c.get MON.FIRST.SRC then j % 2 ^ MON.FIRST.SRC.width
      else c.get MON.FIRST.SRC) ∧
    (firstNoted c j).get MON.FIRST.TIME = c.get MON.FIRST.TIME ∧ (firstNoted c j).get MON.FIRST.TAP = c.get MON.FIRST.TAP := by
  have hsome : ¬(!c.on MON.LATCH.LATCH) = true := by simp [Chip.on, h]
  have hbit : ∀ f : Fld, f.id = MON.FIRST.SRC.id → (c.setBit MON.LATCH.LATCH 0 j true).get f = c.get f :=
    fun f hf => get_set_other _ _ _ _ _ _ (fun e => absurd (hf.symm.trans e.1) (by decide))
  rw [firstNoted, if_neg hsome]
  by_cases hsame : c.mon.firstAt = some c.now ∧ j < c.get MON.FIRST.SRC
  · rw [if_pos (by simpa using hsame), if_pos hsame]
    exact ⟨rfl, get_set_self _ _ _ _, (get_set_fld _ _ _ _ (by decide)).trans (hbit _ rfl),
      (get_set_fld _ _ _ _ (by decide)).trans (hbit _ rfl)⟩
  · rw [if_neg (by simpa using hsame), if_neg hsame]
    exact ⟨rfl, hbit _ rfl, hbit _ rfl, hbit _ rfl⟩

theorem latchEvent_moves : Moves [(MON.EVT.TCOMP, 0), (MON.EVT.TEXT, 0)] [.flt] c (latchEvent c j) :=
  Moves.ite (fun _ => (moves_refl.flag (by simp)).raise _ (by decide)) fun _ => (moves_refl.flag (by simp)).raise _ (by decide)

theorem latchEvent_now : (latchEvent c j).now = c.now := by
  unfold latchEvent
  split <;> rw [raise_now] <;> rfl

theorem latchEvent_mon : (latchEvent c j).mon = c.mon := (latchEvent_moves c j).part (p := .mon) (by decide) (by decide)

/-- The event of a comparator's latch (R254). -/
theorem latchEvent_comparator {j : Nat} (hj : j < 96) : (latchEvent c j).get MON.EVT.TCOMP = 1 ∧
    (latchEvent c j).flt = { c.flt with raised := inFlight c 24 } := by
  have hfabric : (c.flag MON.EVT.TCOMP).fabric = c.fabric := congrArg (·.testBit 0) (get_flag_fld c 0 0 (by decide))
  rw [latchEvent, if_pos hj, raise_get, raise_flt, inFlight_congr hfabric rfl rfl]
  exact ⟨get_flag_self c 0 rfl, rfl⟩

theorem latchNoted_moves : Moves (latchFields j) [.mon, .flt] c (latchNoted c j) := by
  have hlatch : Moves (latchFields j) [.mon, .flt] c (c.setBit MON.LATCH.LATCH 0 j true) := moves_refl.set _ (by simp [latchFields])
  have hfirst := hlatch.trans ((firstNoted_first c j).mono (by simp [latchFields]) (by simp))
  exact (hfirst.trans ((latchEvent_moves _ j).mono (by simp [latchFields]) (by simp))).inc (by simp [latchFields])

theorem latchNoted_now : (latchNoted c j).now = c.now := (latchEvent_now _ j).trans (firstNoted_now c j)

theorem latchNoted_mon : (latchNoted c j).mon = (firstNoted c j).mon := latchEvent_mon _ j

/-- Behind MON.FIRST only the event and the count follow. -/
theorem get_latchNoted {f : Fld} (h : (f.id, f.lo) ∉ fieldKeys [MON.EVT.TCOMP, MON.EVT.TEXT, MON.CNT.LATCH]) (n : Nat) :
    (latchNoted c j).get f n = (firstNoted c j).get f n := by
  have hmoves : Moves [(MON.EVT.TCOMP, 0), (MON.EVT.TEXT, 0), (MON.CNT.LATCH, j)] [.flt] (firstNoted c j) (latchNoted c j) :=
    ((latchEvent_moves _ j).mono (by simp) (by simp)).inc (by simp)
  exact hmoves.get h n

theorem latch_latchNoted : (latchNoted c j).get MON.LATCH.LATCH = putBit (c.get MON.LATCH.LATCH) j true % 2 ^ MON.LATCH.LATCH.width := by
  rw [get_latchNoted c j (by decide), (firstNoted_first c j).get (by decide)]
  exact get_set_self _ _ _ _

theorem count_latchNoted : (latchNoted c j).get MON.CNT.LATCH j = satN MON.CNT.LATCH.width (c.get MON.CNT.LATCH j + 1) := by
  rw [latchNoted, get_inc_self, (latchEvent_moves _ j).get (by decide), (firstNoted_first c j).get (by decide)]
  exact congrArg (fun v => satN _ (v + 1)) (get_set_fld _ _ _ _ (by decide))

theorem comparator_latchNoted {j : Nat} (hj : j < 96) : (latchNoted c j).get MON.EVT.TCOMP = 1 ∧
    (latchNoted c j).flt = { c.flt with raised := inFlight c 24 } := by
  obtain ⟨hflag, hflt⟩ := latchEvent_comparator (firstNoted c j) hj
  have hfabric : (firstNoted c j).fabric = c.fabric :=
    congrArg (·.testBit 0) (((firstNoted_first c j).get (by decide) 0).trans (get_set_fld _ _ _ _ (by decide)))
  have hsame : (firstNoted c j).flt = c.flt := (firstNoted_first c j).part (p := .flt) (by decide) (by decide)
  refine ⟨(get_inc_fld _ _ _ (by decide)).trans hflag, Eq.trans hflt ?_⟩
  rw [inFlight_congr hfabric hsame (firstNoted_now c j), hsame]

end

/-! The holds follow (R255, R256) -/

/-- The attributes and the parts that a latch may change. -/
def latchIds : List Nat := [MON.LATCH.LATCH.id, MON.FIRST.SRC.id, MON.EVT.TCOMP.id, MON.CNT.LATCH.id] ++ MON.HOLD.HELD.id :: heldIds

def latchParts : List Part := [.mon, .flt] ++ heldParts

section

variable (c : Chip) (j m : Nat)

theorem addHolds_keeps : Keeps (MON.HOLD.HELD.id :: heldIds) heldParts c (c.addHolds m) :=
  keeps_holdsChanged (fun _ h => List.mem_cons_of_mem _ h) (fun _ h => h) (keeps_set keeps_refl List.mem_cons_self)

theorem held_addHolds : (c.addHolds m).get MON.HOLD.HELD = (c.get MON.HOLD.HELD ||| m) % 2 ^ MON.HOLD.HELD.width := by
  have hfollow : Keeps heldIds heldParts (c.set MON.HOLD.HELD 0 (c.get MON.HOLD.HELD ||| m)) (c.addHolds m) :=
    keeps_holdsChanged (fun _ h => h) (fun _ h => h) keeps_refl
  exact (hfollow.fields MON.HOLD.HELD 0 (by decide)).trans (get_set_self _ _ _ _)

theorem setLatch_unset (h : c.bitOn MON.LATCH.LATCH 0 j = false) :
    c.setLatch j = (latchNoted c j).addHolds ((latchNoted c j).route j) := if_neg (by simp [h])

theorem setLatch_cases : c.setLatch j = c ∨ c.setLatch j = (latchNoted c j).addHolds ((latchNoted c j).route j) := by
  cases h : c.bitOn MON.LATCH.LATCH 0 j with
  | true => exact .inl (if_pos h)
  | false => exact .inr (setLatch_unset c j h)

theorem setLatch_keeps : Keeps latchIds latchParts c (c.setLatch j) := by
  rcases setLatch_cases c j with h | h <;> rw [h]
  · exact keeps_refl
  · have hnoted : Keeps latchIds latchParts c (latchNoted c j) :=
      ((latchNoted_moves c j).mono (fun _ h => h) (by decide)).keeps (latchNoted_now c j) (by simp [latchFields]; decide)
    exact keeps_trans hnoted (keeps_mono (addHolds_keeps _ _) (by decide) (by decide))

/-- A field of the monitors that no latch shows reads as before. -/
theorem get_setLatch {f : Fld} (hkey : (f.id, f.lo) ∉ fieldKeys latchFlds)
    (hid : f.id ∉ MON.HOLD.HELD.id :: heldIds) (n : Nat) : (c.setLatch j).get f n = c.get f n := by
  rcases setLatch_cases c j with h | h <;> rw [h]
  exact ((addHolds_keeps _ _).fields f n hid).trans ((latchNoted_moves c j).get hkey n)

theorem mon_setLatch : (c.setLatch j).mon = { c.mon with firstAt := (c.setLatch j).mon.firstAt } := by
  rcases setLatch_cases c j with h | h <;> rw [h]
  have hmon : ((latchNoted c j).addHolds ((latchNoted c j).route j)).mon = (firstNoted c j).mon :=
    Eq.trans ((addHolds_keeps _ _).parts .mon (by decide)) (latchNoted_mon c j)
  rw [hmon]
  exact firstNoted_mon c j

theorem latch_setLatch (hj : j < 104) : ((c.setLatch j).get MON.LATCH.LATCH).testBit j = true := by
  cases h : c.bitOn MON.LATCH.LATCH 0 j with
  | true => rwa [show c.setLatch j = c from if_pos h]
  | false =>
    have hw : j < MON.LATCH.LATCH.width := hj
    rw [setLatch_unset c j h, (addHolds_keeps _ _).fields _ _ (by decide), latch_latchNoted, Nat.testBit_mod_two_pow, testBit_putBit]
    simp [hw]

end

end Sys2Proof.Scope
end

section
/-! SUPPORT. The decision of a source as MON.DEC and the latches see it (R215, R252, R254), and the DAC of a comparator (R245, R247). -/

namespace Sys2Proof.Scope

open Sys2Proof.Machine Sys2Proof.Machine.Reg Sys2Proof.Laws

/-! A latch is level-set (R252) -/

section

variable (c : Chip) (j : Nat)

theorem latchLevel_cases : c.latchLevel j = c ∨ c.latchLevel j = c.setLatch j := by
  unfold Chip.latchLevel
  split
  · exact .inr rfl
  · exact .inl rfl

theorem latchLevel_set (hdec : c.decision j = true) (hlen : c.on MON.ROUTE.LEN j = true) : c.latchLevel j = c.setLatch j :=
  if_pos (by simp [hdec, hlen])

theorem latchLevel_unused (hlen : c.on MON.ROUTE.LEN j = false) : c.latchLevel j = c := if_neg (by simp [hlen])

theorem latchLevel_keeps : Keeps latchIds latchParts c (c.latchLevel j) := by
  rcases latchLevel_cases c j with h | h <;> rw [h]
  · exact keeps_refl
  · exact setLatch_keeps c j

theorem get_latchLevel {f : Fld} (hkey : (f.id, f.lo) ∉ fieldKeys latchFlds)
    (hid : f.id ∉ MON.HOLD.HELD.id :: heldIds) (n : Nat) : (c.latchLevel j).get f n = c.get f n := by
  rcases latchLevel_cases c j with h | h <;> rw [h]
  exact get_setLatch c j hkey hid n

theorem mon_latchLevel : (c.latchLevel j).mon = { c.mon with firstAt := (c.latchLevel j).mon.firstAt } := by
  rcases latchLevel_cases c j with h | h <;> rw [h]
  exact mon_setLatch c j

end

/-! A decision as MON.DEC shows it -/

/-- MON.DEC and ACTIVE of comparator k show b; an activation is counted (R254). -/
def decided (c : Chip) (k : Nat) (b : Bool) : Chip :=
  if b && !c.bitOn MON.DEC.CMP 0 k then ((c.setBit MON.DEC.CMP 0 k b).setB MON.STAT.ACTIVE k b).inc MON.CNT.ACT k
  else (c.setBit MON.DEC.CMP 0 k b).setB MON.STAT.ACTIVE k b

/-- An active decision sets the latch. -/
def levelled (c : Chip) (k : Nat) (b : Bool) : Chip := if b then (decided c k b).latchLevel k else decided c k b

/-- The fields that show the decision of comparator k. -/
def decisionFields (k : Nat) : List (Fld × Nat) := [(MON.DEC.CMP, 0), (MON.STAT.ACTIVE, k), (MON.CNT.ACT, k)]

section

variable (c : Chip) (k : Nat) (b : Bool)

theorem decided_moves : Moves (decisionFields k) [] c (decided c k b) := by
  have hshown : Moves (decisionFields k) [] c ((c.setBit MON.DEC.CMP 0 k b).setB MON.STAT.ACTIVE k b) :=
    (moves_refl.set _ (by simp [decisionFields])).set _ (by simp [decisionFields])
  exact Moves.ite (fun _ => hshown.inc (by simp [decisionFields])) fun _ => hshown

theorem decided_now : (decided c k b).now = c.now := by
  unfold decided
  split <;> rfl

theorem decided_mon : (decided c k b).mon = c.mon := (decided_moves c k b).part (p := .mon) (by decide) (by decide)

/-- A field that shows no decision reads as before. -/
theorem get_decided {f : Fld} (h : (f.id, f.lo) ∉ fieldKeys [MON.DEC.CMP, MON.STAT.ACTIVE, MON.CNT.ACT]) (n : Nat) :
    (decided c k b).get f n = c.get f n := (decided_moves c k b).get h n

/-- Behind the decision only the activation's count follows. -/
theorem get_decided_shown {f : Fld} (h : (f.id, f.lo) ≠ (MON.CNT.ACT.id, MON.CNT.ACT.lo)) (n : Nat) :
    (decided c k b).get f n = ((c.setBit MON.DEC.CMP 0 k b).setB MON.STAT.ACTIVE k b).get f n := by
  unfold decided
  split
  · exact get_inc_fld _ _ _ h
  · rfl

theorem get_decided_cmp : (decided c k b).get MON.DEC.CMP = (c.setBit MON.DEC.CMP 0 k b).get MON.DEC.CMP :=
  (get_decided_shown c k b (by decide) 0).trans (get_set_fld _ _ _ _ (by decide))

theorem get_decided_active : (decided c k b).get MON.STAT.ACTIVE k = bit b :=
  (get_decided_shown c k b (by decide) k).trans (get_setB_self _ _ _ rfl)

theorem get_decided_count : (decided c k b).get MON.CNT.ACT k = if b = true ∧ (c.get MON.DEC.CMP).testBit k = false
    then satN MON.CNT.ACT.width (c.get MON.CNT.ACT k + 1) else c.get MON.CNT.ACT k := by
  have hshown : ((c.setBit MON.DEC.CMP 0 k b).setB MON.STAT.ACTIVE k b).get MON.CNT.ACT k = c.get MON.CNT.ACT k :=
    (get_set_fld _ _ _ _ (by decide)).trans (get_set_fld _ _ _ _ (by decide))
  unfold decided
  by_cases h : b = true ∧ (c.get MON.DEC.CMP).testBit k = false
  · rw [if_pos (by simpa [Chip.bitOn] using h), if_pos h, get_inc_self, hshown]
  · rw [if_neg (by simpa [Chip.bitOn] using h), if_neg h, hshown]

theorem decision_decided (hk : k < 96) : (decided c k b).decision k = b := by
  rw [Chip.decision, if_pos hk, Chip.bitOn, get_decided_cmp]
  exact testBit_setBit_self c 0 b hk

/-! The latch, then the ports that commutate by the decision (R215) -/

theorem levelled_quiet (h : b = false ∨ c.on MON.ROUTE.LEN k = false) : levelled c k b = decided c k b := by
  unfold levelled
  split
  · rename_i hb
    have hlen : (decided c k b).on MON.ROUTE.LEN k = c.on MON.ROUTE.LEN k := on_of_get (get_decided c k b (by decide) k)
    exact latchLevel_unused _ _ (hlen.trans (h.resolve_left (by simp [hb])))
  · rfl

theorem levelled_latched (hk : k < 96) (hlen : c.on MON.ROUTE.LEN k = true) : levelled c k true = (decided c k true).setLatch k :=
  latchLevel_set _ _ (decision_decided c k true hk) ((on_of_get (get_decided c k true (by decide) k)).trans hlen)

/-- After the decision and its latch only the ports follow. -/
theorem setDecision_ports : Keeps portIds [.dhb] (levelled c k b) (c.setDecision k b) := by
  show Keeps _ _ _ (if b != c.bitOn MON.DEC.CMP 0 k && (levelled c k b).on MOD.CMT.SRC then (levelled c k b).portsUpdate
    else levelled c k b)
  exact keeps_ite (fun _ => keeps_portsUpdate (fun _ h => h) (by simp) keeps_refl) fun _ => keeps_refl

/-- The attributes and the parts that a decision may change. -/
def decisionIds : List Nat := [MON.DEC.CMP.id, MON.STAT.ACTIVE.id, MON.CNT.ACT.id] ++ latchIds

theorem decided_keeps : Keeps decisionIds latchParts c (decided c k b) :=
  ((decided_moves c k b).mono (fun _ h => h) (by simp)).keeps (decided_now c k b) (by simp [decisionFields]; decide)

theorem levelled_keeps : Keeps decisionIds latchParts c (levelled c k b) :=
  keeps_ite (fun _ => keeps_trans (decided_keeps c k b) (keeps_mono (latchLevel_keeps _ _) (by decide) (by decide)))
    fun _ => decided_keeps c k b

theorem setDecision_keeps : Keeps decisionIds latchParts c (c.setDecision k b) :=
  keeps_trans (levelled_keeps c k b) (keeps_mono (setDecision_ports c k b) (by decide) (by decide))

/-- A decision that is not active sets no latch. -/
theorem setDecision_inactive_keeps :
    Keeps ([MON.DEC.CMP.id, MON.STAT.ACTIVE.id, MON.CNT.ACT.id] ++ portIds) [.dhb] c (c.setDecision k false) := by
  have hdecided : Keeps ([MON.DEC.CMP.id, MON.STAT.ACTIVE.id, MON.CNT.ACT.id] ++ portIds) [.dhb] c (levelled c k false) :=
    ((decided_moves c k false).mono (fun _ h => h) (by simp)).keeps (decided_now c k false) (by simp [decisionFields])
  exact keeps_trans hdecided (keeps_mono (setDecision_ports c k false) (fun _ h => List.mem_append_right _ h) (by simp))

/-- A field that neither a latch nor a port shows is that of the decision itself. -/
theorem get_setDecision {f : Fld} (hkey : (f.id, f.lo) ∉ fieldKeys latchFlds)
    (hid : f.id ∉ MON.HOLD.HELD.id :: heldIds) (n : Nat) : (c.setDecision k b).get f n = (decided c k b).get f n := by
  have hports : f.id ∉ portIds := fun h => hid (List.mem_cons_of_mem _ (by simp [heldIds, h]))
  refine ((setDecision_ports c k b).fields f n hports).trans ?_
  unfold levelled
  split
  · exact get_latchLevel _ _ hkey hid n
  · rfl

theorem mon_setDecision : (c.setDecision k b).mon = { c.mon with firstAt := (c.setDecision k b).mon.firstAt } := by
  have hports : (c.setDecision k b).mon = (levelled c k b).mon := (setDecision_ports c k b).parts .mon (by decide)
  have hlevel : (levelled c k b).mon = { c.mon with firstAt := (levelled c k b).mon.firstAt } := by
    unfold levelled
    split
    · rw [mon_latchLevel, decided_mon]
    · rw [decided_mon]
  rw [hports]
  exact hlevel

theorem latch_setDecision (hk : k < 96) (hlen : c.on MON.ROUTE.LEN k = true) :
    ((c.setDecision k true).get MON.LATCH.LATCH).testBit k = true := by
  rw [(setDecision_ports c k true).fields _ _ (by decide), levelled_latched c k hk hlen]
  exact latch_setLatch _ _ (by omega)

/-- Without commutation and without a latch only the decision shows. -/
theorem setDecision_quiet (hsrc : c.on MOD.CMT.SRC = false) (h : b = false ∨ c.on MON.ROUTE.LEN k = false) :
    c.setDecision k b = decided c k b := by
  have hstill : (levelled c k b).on MOD.CMT.SRC = false := (on_of_get ((levelled_keeps c k b).fields _ _ (by decide))).trans hsrc
  rw [← levelled_quiet c k b h]
  exact if_neg (by rw [Bool.and_eq_true]; exact fun hports => absurd (hports.2.symm.trans hstill) (by decide))

end

/-! A decision: what it shows, for a comparator -/

/-- e shows decision b of comparator k of c, its latch and the ports that follow. -/
structure Decides (c : Chip) (k : Nat) (b : Bool) (e : Chip) : Prop where
  mon : e.mon = { c.mon with firstAt := e.mon.firstAt }
  cmp : (e.get MON.DEC.CMP).testBit k = b
  other : ∀ j, j ≠ k → (e.get MON.DEC.CMP).testBit j = (c.get MON.DEC.CMP % 2 ^ MON.DEC.CMP.width).testBit j
  active : e.get MON.STAT.ACTIVE k = bit b
  count : e.get MON.CNT.ACT k = if b = true ∧ (c.get MON.DEC.CMP).testBit k = false
    then satN MON.CNT.ACT.width (c.get MON.CNT.ACT k + 1) else c.get MON.CNT.ACT k
  latch : b = true → c.on MON.ROUTE.LEN k = true → (e.get MON.LATCH.LATCH).testBit k = true
  get : ∀ (f : Fld) (n : Nat), (f.id, f.lo) ∉ fieldKeys ([MON.DEC.CMP, MON.STAT.ACTIVE, MON.CNT.ACT] ++ latchFlds) →
    f.id ∉ MON.HOLD.HELD.id :: heldIds → e.get f n = c.get f n
  keeps : Keeps decisionIds latchParts c e
  quiet : c.on MOD.CMT.SRC = false → b = false ∨ c.on MON.ROUTE.LEN k = false → Moves (decisionFields k) [] c e

theorem setDecision_decides (c : Chip) {k : Nat} (hk : k < 96) (b : Bool) : Decides c k b (c.setDecision k b) := by
  have hcmp : (c.setDecision k b).get MON.DEC.CMP = (c.setBit MON.DEC.CMP 0 k b).get MON.DEC.CMP :=
    (get_setDecision c k b (by decide) (by decide) 0).trans (get_decided_cmp c k b)
  constructor
  case mon => exact mon_setDecision c k b
  case cmp =>
    rw [hcmp]
    exact testBit_setBit_self c 0 b hk
  case other =>
    intro j hj
    rw [hcmp]
    exact testBit_setBit_other c 0 b hj
  case active => exact (get_setDecision c k b (by decide) (by decide) k).trans (get_decided_active c k b)
  case count => exact (get_setDecision c k b (by decide) (by decide) k).trans (get_decided_count c k b)
  case latch =>
    rintro rfl hlen
    exact latch_setDecision c k hk hlen
  case get =>
    intro f n hkey hid
    obtain ⟨hdecided, hlatch⟩ : (f.id, f.lo) ∉ fieldKeys [MON.DEC.CMP, MON.STAT.ACTIVE, MON.CNT.ACT] ∧ (f.id, f.lo) ∉ fieldKeys latchFlds := by
      rwa [fieldKeys, List.map_append, List.mem_append, not_or] at hkey
    exact (get_setDecision c k b hlatch hid n).trans (get_decided c k b hdecided n)
  case keeps => exact setDecision_keeps c k b
  case quiet =>
    intro hsrc h
    rw [setDecision_quiet c k b hsrc h]
    exact decided_moves c k b

/-- A decision after a change that shows in the monitors alone. -/
theorem Decides.frame {a c e : Chip} {k : Nat} {b : Bool} (h : Decides c k b e) (hc : Keeps decisionIds latchParts a c) :
    Keeps (latchShown ++ holdShown) latchParts a e := keeps_mono (keeps_trans hc h.keeps) (by decide) (fun _ h => h)

/-! Thresholds (R244, R245, R247, R250) -/

theorem clampInt_inside {lo hi v : Int} (h1 : lo ≤ v) (h2 : v ≤ hi) : clampInt lo hi v = v := by
  rw [clampInt, min_eq_right h2, max_eq_right h1]

theorem threshold_allowed {s : State} {t k : Nat} {th : Int} (h : s.mayThreshold t k th) : (s.chip.at_ t).threshold k th = th :=
  clampInt_inside h.1 h.2

theorem hyst_allowed {s : State} {t k : Nat} {h : Int} (hh : s.mayHysteresis k h) : (s.chip.at_ t).hyst k h = h :=
  clampInt_inside hh.1 hh.2

theorem decide_eq_sides (k : Nat) (was : Bool) (vd th h : Int) : decide_ (isHi k) was vd th h =
    if k % 2 = 0 then (if th < vd then true else if vd < th - h then false else was)
    else (if vd < th then true else if th + h < vd then false else was) := by
  simp [decide_, isHi]

/-- Beyond the threshold the decision is active, whatever the hysteresis. -/
theorem decide_beyond {k : Nat} {vd th : Int} (hbeyond : if k % 2 = 0 then th < vd else vd < th) (was : Bool) (h : Int) :
    decide_ (isHi k) was vd th h = true := by
  rw [decide_eq_sides]
  split at hbeyond
  · rw [if_pos ‹_›, if_pos hbeyond]
  · rw [if_neg ‹_›, if_pos hbeyond]

end Sys2Proof.Scope
end

section
/-! SUPPORT. The locator's records as a trip opens them (R412), and a trigger source of the capture (R303). -/

namespace Sys2Proof.Scope

open Sys2Proof.Machine Sys2Proof.Machine.Reg Sys2Proof.Laws

theorem tabGet_filter {κ α : Type} [DecidableEq κ] {p : κ × α → Bool} {k : κ} (h : ∀ v, p (k, v) = true) (d : α) (m : Tab κ α) :
    tabGet d (m.filter p) k = tabGet d m k := by
  induction m with
  | nil => rfl
  | cons e m ih =>
    obtain ⟨j, v⟩ := e
    by_cases hj : j = k
    · subst hj
      simp [h, tabGet]
    · by_cases hp : p (j, v) = true <;> simp [hp, tabGet, hj, ih]

/-- The attributes in which a trigger of the locator shows. -/
def recordIds : List Nat := [PMU.STAT.REC.id, PMU.TWARR.AMP.id, PMU.FREC.NUM.id, PMU.EVT.FLBUSY.id, PMU.CNT.FLBUSY.id]

/-- What record slot i and the arrivals held is gone. -/
def recordCleared (c : Chip) (i : Nat) : Chip :=
  { c with regs := c.regs.filter (fun e => !(e.1.id == 0x4812 && e.1.inst == i) && !(e.1.id == 0x4811)) }

section

variable (c : Chip) (src x : Nat)

theorem recordCleared_keeps (i : Nat) : Keeps recordIds [.pmu] c (recordCleared c i) := by
  refine ⟨fun f n hf => tabGet_filter (fun v => ?_) _ _, fun p _ => by cases p <;> rfl⟩
  obtain ⟨h2, h1⟩ : f.id ≠ 0x4812 ∧ f.id ≠ 0x4811 := ⟨fun e => hf (by rw [e]; decide), fun e => hf (by rw [e]; decide)⟩
  simp [h1, h2]

theorem openRecord_keeps (t16 : Int) (tw : Bool) : Keeps recordIds [.pmu] c (c.openRecord x t16 tw) := by
  have hcleared := recordCleared_keeps c (frecSlot c.pmu.num)
  unfold Chip.openRecord
  exact keeps_pmu (keeps_set (keeps_setB (keeps_set (keeps_set (keeps_set (keeps_set hcleared (by decide)) (by decide)) (by decide))
    (by decide)) (by decide)) (by decide)) (by decide)

theorem recordSource_keeps : Keeps recordIds [.pmu] c (c.recordSource src x) := by
  unfold Chip.recordSource
  refine keeps_ite (fun _ => keeps_refl) fun _ => keeps_ite (fun _ => keeps_set keeps_refl (by decide)) fun _ =>
    keeps_ite (fun _ => ?_) fun _ => openRecord_keeps _ _ _ _
  exact keeps_inc (keeps_flag keeps_refl (by decide)) (by decide)

theorem recordSource_other (h : c.get PMU.FLCFG.FSRC ≠ src) : c.recordSource src x = c := if_pos (.inr h)

/-- The trigger that source `src` sends to the page manager at raw instant x, when a ring can take it. -/
def sentTrigger : List (TrigSrc × Nat) :=
  if (upTo 32).any (fun r => decide (rsRun ≤ c.rstate r ∧ c.rstate r ≤ rsFrozen)) then [(TrigSrc.source src, x)] else []

theorem captureSource_eq : c.captureSource src x = { c with pgm := { c.pgm with trig := c.pgm.trig ++ sentTrigger c src x } } := by
  unfold Chip.captureSource sentTrigger
  split
  · rfl
  · simp

end

end Sys2Proof.Scope
end

section
/-! CLAIM. Comparators decide by threshold and hysteresis (R245 to R250); trip inputs (R251). -/

namespace Sys2Proof.Scope

open Sys2Proof.Machine Sys2Proof.Machine.Reg Sys2Proof.Laws

theorem cmpOn_lt {c : Chip} {k : Nat} (h : c.cmpOn k = true) : k < 96 := by
  simp only [Chip.cmpOn, Bool.and_eq_true, decide_eq_true_eq] at h
  exact h.1.1

/-! COMPARATOR_DECISION (R245) -/

/-- The decision of comparator k at instant t. -/
def judged (s : State) (t k : Nat) (vd th h : Int) : Bool :=
  decide_ (isHi k) (nget false s.chip.mon.raw k) vd ((s.chip.at_ t).threshold k th) ((s.chip.at_ t).hyst k h)

theorem setRaw_keeps (c : Chip) (k : Nat) (b : Bool) : Keeps [] [.mon] c (c.setRaw k b) := keeps_mon keeps_refl (by simp)

section

variable {s : State} (hinv : s.Inv) {t k : Nat} {vd th h : Int}

include hinv

theorem comparatorDecision_waits (hoff : s.chip.cmpOn k = false ∨ (nget none s.chip.mon.settle k).isSome = true) :
    exec (.comparatorDecision t k vd th h) s = .next (s.waits t) := by
  have hgate : ¬((s.chip.at_ t).cmpOn k && (nget none (s.chip.at_ t).mon.settle k).isNone) = true := by
    rw [Bool.and_eq_true, Option.isNone_iff_eq_none]
    rintro ⟨hon, hsettle⟩
    rcases hoff with h | h
    · exact absurd (hon.symm.trans h) (by decide)
    · rw [at_mon] at hsettle
      simp [hsettle] at h
  rw [exec_comparatorDecision, execComparatorDecision]
  exact run_waits hinv (if_neg hgate)

variable (hon : s.chip.cmpOn k = true) (hsettle : nget none s.chip.mon.settle k = none) (htest : s.chip.inTest k = false)

include hon hsettle htest

/-- The raw decision is what is judged; when it changes, the decision shows. -/
theorem comparatorDecision_judged {b : Bool} (hb : judged s t k vd th h = b) : exec (.comparatorDecision t k vd th h) s =
    .next { s with chip := if b != nget false s.chip.mon.raw k then ((s.chip.at_ t).setRaw k b).setDecision k b
      else (s.chip.at_ t).setRaw k b } := by
  have hgate : ((s.chip.at_ t).cmpOn k && (nget none (s.chip.at_ t).mon.settle k).isNone) = true := by
    rw [Bool.and_eq_true, Option.isNone_iff_eq_none]
    exact ⟨hon, hsettle⟩
  have hopen : ¬((s.chip.at_ t).setRaw k b).inTest k = true := fun h => absurd (h.symm.trans htest) (by decide)
  have hraw : Keeps decisionIds latchParts (s.chip.at_ t) ((s.chip.at_ t).setRaw k b) :=
    keeps_mono (setRaw_keeps _ k b) (by simp) (by decide)
  rw [exec_comparatorDecision, execComparatorDecision]
  subst hb
  exact run_keeps hinv ((if_pos hgate).trans (if_neg hopen))
    (keeps_ite (fun _ => keeps_trans hraw (setDecision_keeps _ _ _)) fun _ => hraw) (by decide)

theorem comparatorDecision_stays {b : Bool} (hb : judged s t k vd th h = b) (hsame : b = nget false s.chip.mon.raw k) :
    exec (.comparatorDecision t k vd th h) s = .next { s with chip := (s.chip.at_ t).setRaw k b } := by
  rw [comparatorDecision_judged hinv hon hsettle htest hb, if_neg (by simp [hsame])]

theorem comparatorDecision_turns {b : Bool} (hb : judged s t k vd th h = b) (hne : b ≠ nget false s.chip.mon.raw k) :
    exec (.comparatorDecision t k vd th h) s = .next { s with chip := ((s.chip.at_ t).setRaw k b).setDecision k b } := by
  rw [comparatorDecision_judged hinv hon hsettle htest hb, if_pos (by simpa using hne)]

end

theorem setRaw_moves (c : Chip) (k : Nat) (b : Bool) : Moves [] [.mon] c (c.setRaw k b) := moves_refl.parts rfl rfl

/-! COMPARATOR_FIRST_DECISION (R249) -/

/-- The settling of comparator k ends with decision b; INBAND is shown and flagged. -/
def firstShown (c : Chip) (k : Nat) (b band : Bool) : Chip :=
  let d := { c with mon := { c.mon with raw := nset false c.mon.raw k b, settle := nset none c.mon.settle k none } }
  let d := (d.set MON.STAT.SETTLE k 0).setB MON.STAT.INBAND k band
  if band then d.flag MON.EVT.INBAND else d

/-- Without hysteresis the threshold alone decides. -/
theorem decide_first (k : Nat) (vd th : Int) :
    decide_ (isHi k) false vd th 0 = if k % 2 = 0 then decide (th < vd) else decide (vd < th) := by
  rw [decide_eq_sides]
  split
  · by_cases h : th < vd <;> simp [h]
  · by_cases h : vd < th <;> simp [h]

section

variable (c : Chip) (k : Nat) (b band : Bool)

theorem firstShown_moves :
    Moves [(MON.STAT.SETTLE, k), (MON.STAT.INBAND, k), (MON.EVT.INBAND, 0)] [.mon] c (firstShown c k b band) := by
  let d := { c with mon := { c.mon with raw := nset false c.mon.raw k b, settle := nset none c.mon.settle k none } }
  have hmon : Moves [(MON.STAT.SETTLE, k), (MON.STAT.INBAND, k), (MON.EVT.INBAND, 0)] [.mon] c d := moves_refl.parts rfl rfl
  have hshown := (hmon.set (f := MON.STAT.SETTLE) (n := k) 0 (by simp)).set (f := MON.STAT.INBAND) (n := k) (bit band) (by simp)
  exact Moves.ite (fun _ => hshown.flag (by simp)) fun _ => hshown

/-- Whether another field is on is as before. -/
theorem firstShown_on {f : Fld} (h : (f.id, f.lo) ∉ fieldKeys [MON.STAT.SETTLE, MON.STAT.INBAND, MON.EVT.INBAND]) (n : Nat) :
    (firstShown c k b band).on f n = c.on f n := on_of_get ((firstShown_moves c k b band).get h n)

theorem firstShown_now : (firstShown c k b band).now = c.now := by
  unfold firstShown
  split <;> rfl

theorem firstShown_mon : (firstShown c k b band).mon =
    { c.mon with raw := nset false c.mon.raw k b, settle := nset none c.mon.settle k none } := by
  unfold firstShown
  split <;> rfl

theorem get_firstShown : (firstShown c k b band).get MON.STAT.SETTLE k = 0 ∧
    (firstShown c k b band).get MON.STAT.INBAND k = bit band ∧ (band = true → (firstShown c k b band).get MON.EVT.INBAND = 1) := by
  unfold firstShown
  split
  · refine ⟨?_, ?_, fun _ => get_flag_self _ _ rfl⟩
    · exact (get_flag_fld _ _ _ (by decide)).trans ((get_set_fld _ _ _ _ (by decide)).trans (get_set_self _ _ _ _))
    · exact (get_flag_fld _ _ _ (by decide)).trans (get_setB_self _ _ _ rfl)
  · refine ⟨?_, get_setB_self _ _ _ rfl, fun h => absurd h ‹_›⟩
    exact (get_set_fld _ _ _ _ (by decide)).trans (get_set_self _ _ _ _)

theorem firstShown_keeps : Keeps decisionIds latchParts c (firstShown c k b band) :=
  ((firstShown_moves c k b band).mono (fun _ h => h) (by decide)).keeps (firstShown_now c k b band) (by simp; decide)

end

section

variable {s : State} (hinv : s.Inv) {t k : Nat} {vd th h : Int}

include hinv

theorem comparatorFirstDecision_waits (hoff : s.chip.cmpOn k = false ∨ nget none s.chip.mon.settle k = none ∨
    ∃ e, nget none s.chip.mon.settle k = some e ∧ s.at_ t < e) :
    exec (.comparatorFirstDecision t k vd th h) s = .next (s.waits t) := by
  rw [exec_comparatorFirstDecision, execComparatorFirstDecision]
  refine run_waits hinv ?_
  cases hsettle : nget none s.chip.mon.settle k with
  | none =>
    simp only [at_mon, hsettle]
  | some e =>
    simp only [at_mon, hsettle]
    refine if_pos ?_
    rcases hoff with hon | hnone | ⟨x, hx, hlt⟩
    · exact .inr fun hrun => absurd (hrun.symm.trans hon) (by decide)
    · exact absurd (hnone.symm.trans hsettle) (by simp)
    · rw [hsettle] at hx
      exact .inl (Option.some.inj hx ▸ hlt)

theorem comparatorFirstDecision_decides {e : Nat} {b band : Bool} (hon : s.chip.cmpOn k = true)
    (hsettle : nget none s.chip.mon.settle k = some e) (hend : e ≤ s.at_ t) (hth : s.mayThreshold t k th)
    (hh : s.mayHysteresis k h) (hb : b = (if k % 2 = 0 then decide (th < vd) else decide (vd < th)))
    (hband : band = (!b && if k % 2 = 0 then decide (th - h < vd) else decide (vd < th + h))) :
    exec (.comparatorFirstDecision t k vd th h) s =
      .next { s with chip := (firstShown (s.chip.at_ t) k b band).setDecision k b } := by
  have hgate : ¬((s.chip.at_ t).now < e ∨ ¬(s.chip.at_ t).cmpOn k = true) := by
    rintro (h | h)
    · exact Nat.not_lt.2 hend h
    · exact h hon
  have hhi : (isHi k = true) = (k % 2 = 0) := by simp [isHi]
  rw [exec_comparatorFirstDecision, execComparatorFirstDecision]
  refine run_keeps hinv ?_ (keeps_trans (firstShown_keeps (s.chip.at_ t) k b band) (setDecision_keeps _ _ _)) (by decide)
  simp only [at_mon, hsettle]
  refine (if_neg hgate).trans ?_
  simp only [threshold_allowed hth, hyst_allowed hh, decide_first, hhi, ← hb, ← hband]
  rfl

end

/-! TRIP_INPUT (R251) -/

/-- Pin n is active. -/
def pinned (c : Chip) (n : Nat) : Chip := c.setBit MON.DEC.PIN 0 n true

/-- Its activation is counted (R254). -/
def pinCounted (c : Chip) (n : Nat) : Chip := (pinned c n).inc MON.CNT.ACT (96 + n)

/-- It is a trigger source for the capture and for the locator. -/
def pinTriggers (c : Chip) (n : Nat) : Chip :=
  ((pinCounted c n).captureSource (64 + n) (c.raw c.now)).recordSource (64 + n) (c.raw c.now)

/-- A trip at pin n is recognised; while the fabric is held only its level is kept. -/
def tripped (c : Chip) (n : Nat) : Chip := if ¬(pinned c n).fabric then pinned c n else (pinTriggers c n).latchLevel (96 + n)

/-- A pulse that may or may not be seen takes a free value. -/
def pulsed (c : Chip) (ps : Nat) : Chip := if 500 ≤ ps ∧ ps < 2000 then c.freeBit.2 else c

/-- A low pulse of ps picoseconds at pin n: one of 2 ns or more is seen, one below 0.5 ns is not. -/
def pulseTaken (c : Chip) (n ps : Nat) : Chip :=
  if (decide (2000 ≤ ps) || (decide (500 ≤ ps) && c.freeBit.1)) && !(pulsed c ps).bitOn MON.DEC.PIN 0 n then tripped (pulsed c ps) n
  else pulsed c ps

/-- The fields that show a trip at pin n. -/
def pinFields (n : Nat) : List (Fld × Nat) := [(MON.DEC.PIN, 0), (MON.CNT.ACT, 96 + n)]

/-- The attributes and the parts that a trip may change. -/
def tripIds : List Nat := [MON.DEC.PIN.id, MON.CNT.ACT.id] ++ recordIds ++ latchIds

def tripParts : List Part := [.pgm, .pmu] ++ latchParts

section

variable (c : Chip) (n : Nat)

theorem pinCounted_moves : Moves (pinFields n) [] c (pinCounted c n) :=
  (moves_refl.set (f := MON.DEC.PIN) _ (by simp [pinFields])).inc (by simp [pinFields])

theorem pinTriggers_keeps : Keeps recordIds [.pgm, .pmu] (pinCounted c n) (pinTriggers c n) := by
  have hcaptured : Keeps recordIds [.pgm, .pmu] (pinCounted c n) ((pinCounted c n).captureSource (64 + n) (c.raw c.now)) := by
    rw [captureSource_eq]
    exact keeps_pgm keeps_refl (by decide)
  exact keeps_trans hcaptured (keeps_mono (recordSource_keeps _ _ _) (by simp) (by decide))

theorem pinTriggers_pgm : (pinTriggers c n).pgm =
    { c.pgm with trig := c.pgm.trig ++ sentTrigger c (64 + n) (c.raw c.now) } := by
  have hrings : (pinCounted c n).rstate = c.rstate := funext fun r => (pinCounted_moves c n).get (by simp [pinFields]; decide) r
  have hrecord : (pinTriggers c n).pgm = ((pinCounted c n).captureSource (64 + n) (c.raw c.now)).pgm :=
    (recordSource_keeps _ _ _).parts .pgm (by decide)
  rw [hrecord, captureSource_eq, sentTrigger, hrings]
  rfl

theorem pinned_fabric : (pinned c n).fabric = c.fabric := congrArg (·.testBit 0) (get_set_fld c 0 0 _ (by decide))

theorem tripped_held (h : c.fabric = false) : tripped c n = pinned c n := if_pos (by simp [pinned_fabric, h])

theorem tripped_free (h : c.fabric = true) : tripped c n = (pinTriggers c n).latchLevel (96 + n) := if_neg (by simp [pinned_fabric, h])

/-- What the trip shows beside the latch, the capture and the locator is that its pin is active and counted. -/
theorem get_tripped (hfabric : c.fabric = true) {f : Fld} (hkey : (f.id, f.lo) ∉ fieldKeys latchFlds)
    (hid : f.id ∉ recordIds ++ MON.HOLD.HELD.id :: heldIds) (m : Nat) : (tripped c n).get f m = (pinCounted c n).get f m := by
  obtain ⟨hrecord, hheld⟩ := not_or.1 (mt List.mem_append.2 hid)
  rw [tripped_free c n hfabric, get_latchLevel _ _ hkey hheld, (pinTriggers_keeps c n).fields f m hrecord]

theorem pin_tripped : (tripped c n).get MON.DEC.PIN = (pinned c n).get MON.DEC.PIN := by
  cases hfabric : c.fabric with
  | true => exact (get_tripped c n hfabric (by decide) (by decide) 0).trans (get_inc_fld _ _ _ (by decide))
  | false => rw [tripped_held c n hfabric]

/-- The pin is active, the others are as they were. -/
theorem testBit_tripped (hn : n < 8) : ((tripped c n).get MON.DEC.PIN).testBit n = true ∧ ∀ j, j ≠ n →
    ((tripped c n).get MON.DEC.PIN).testBit j = (c.get MON.DEC.PIN % 2 ^ MON.DEC.PIN.width).testBit j := by
  rw [pin_tripped, pinned]
  exact ⟨testBit_setBit_self c 0 true hn, fun j hj => testBit_setBit_other c 0 true hj⟩

theorem count_tripped (hfabric : c.fabric = true) :
    (tripped c n).get MON.CNT.ACT (96 + n) = satN MON.CNT.ACT.width (c.get MON.CNT.ACT (96 + n) + 1) := by
  have hcount : (pinned c n).get MON.CNT.ACT (96 + n) = c.get MON.CNT.ACT (96 + n) := get_set_fld _ _ _ _ (by decide)
  rw [get_tripped c n hfabric (by decide) (by decide), pinCounted, get_inc_self, hcount]

theorem latch_tripped (hfabric : c.fabric = true) (hn : n < 8) (hlen : c.on MON.ROUTE.LEN (96 + n) = true) :
    ((tripped c n).get MON.LATCH.LATCH).testBit (96 + n) = true := by
  have hpin : (pinTriggers c n).get MON.DEC.PIN = (pinned c n).get MON.DEC.PIN :=
    ((pinTriggers_keeps c n).fields _ _ (by decide)).trans (get_inc_fld _ _ _ (by decide))
  have hdec : (pinTriggers c n).decision (96 + n) = true := by
    rw [Chip.decision, if_neg (by omega), Chip.bitOn, hpin, Nat.add_sub_cancel_left]
    exact testBit_setBit_self c 0 true hn
  have hroute : (pinTriggers c n).on MON.ROUTE.LEN (96 + n) = true :=
    (on_of_get (((pinTriggers_keeps c n).fields _ _ (by decide)).trans
      ((pinCounted_moves c n).get (by simp [pinFields]; decide) _))).trans hlen
  rw [tripped_free c n hfabric, latchLevel_set _ _ hdec hroute]
  exact latch_setLatch _ _ (by omega)

theorem pgm_tripped (hfabric : c.fabric = true) :
    (tripped c n).pgm = { c.pgm with trig := c.pgm.trig ++ sentTrigger c (64 + n) (c.raw c.now) } := by
  rw [tripped_free c n hfabric]
  exact Eq.trans ((latchLevel_keeps _ _).parts .pgm (by decide)) (pinTriggers_pgm c n)

theorem tripped_keeps : Keeps tripIds tripParts c (tripped c n) := by
  have hpin : Keeps tripIds tripParts c (pinned c n) := keeps_setBit keeps_refl (by decide)
  refine keeps_ite (fun _ => hpin) fun _ => ?_
  have hcounted : Keeps tripIds tripParts c (pinCounted c n) := keeps_inc hpin (by decide)
  exact keeps_trans (keeps_trans hcounted (keeps_mono (pinTriggers_keeps c n) (by decide) (by decide)))
    (keeps_mono (latchLevel_keeps _ _) (by decide) (by decide))

theorem tripped_wq : (tripped c n).pgm.wq = c.pgm.wq := by
  cases hfabric : c.fabric with
  | true => rw [pgm_tripped c n hfabric]
  | false =>
    rw [tripped_held c n hfabric]
    rfl

/-- A trip that sets no latch and is not the locator's source shows in its pin, its count and the capture. -/
theorem tripped_quiet (hfabric : c.fabric = true) (hlen : c.on MON.ROUTE.LEN (96 + n) = false)
    (hsrc : c.get PMU.FLCFG.FSRC ≠ 64 + n) : Moves (pinFields n) [.pgm] c (tripped c n) := by
  have hcounted := pinCounted_moves c n
  have hfsrc : ((pinCounted c n).captureSource (64 + n) (c.raw c.now)).get PMU.FLCFG.FSRC ≠ 64 + n := by
    rw [captureSource_eq]
    exact fun e => hsrc (((hcounted.get (by simp [pinFields]; decide) 0).symm.trans e))
  have htriggers : pinTriggers c n = (pinCounted c n).captureSource (64 + n) (c.raw c.now) := recordSource_other _ _ _ hfsrc
  have hroute : (pinTriggers c n).on MON.ROUTE.LEN (96 + n) = false := by
    rw [htriggers, captureSource_eq]
    exact (on_of_get (hcounted.get (by simp [pinFields]; decide) (96 + n))).trans hlen
  rw [tripped_free c n hfabric, latchLevel_unused _ _ hroute, htriggers, captureSource_eq]
  exact (hcounted.mono (fun _ h => h) (by simp)).parts rfl rfl

end

section

variable {c : Chip} {n ps : Nat}

theorem pulsed_sure (h : 2000 ≤ ps) : pulsed c ps = c := if_neg (by omega)

theorem pulseTaken_seen (h : 2000 ≤ ps) (hpin : (c.get MON.DEC.PIN).testBit n = false) : pulseTaken c n ps = tripped c n := by
  rw [pulseTaken, pulsed_sure h, if_pos (by simp [h, Chip.bitOn, hpin])]

theorem pulseTaken_active (h : 2000 ≤ ps) (hpin : (c.get MON.DEC.PIN).testBit n = true) : pulseTaken c n ps = c := by
  rw [pulseTaken, pulsed_sure h, if_neg (by simp [Chip.bitOn, hpin])]

theorem pulseTaken_short (h : ps < 500) : pulseTaken c n ps = c := by
  have hpulsed : pulsed c ps = c := if_neg (by omega)
  have h500 : ¬500 ≤ ps := by omega
  have h2000 : ¬2000 ≤ ps := by omega
  rw [pulseTaken, hpulsed, if_neg (by simp [h500, h2000])]

/-- Between the two a free bit decides. -/
theorem pulseTaken_open (h : 500 ≤ ps) (h' : ps < 2000) : pulseTaken c n ps = c.freeBit.2 ∨ pulseTaken c n ps = tripped c.freeBit.2 n := by
  have hpulsed : pulsed c ps = c.freeBit.2 := if_pos ⟨h, h'⟩
  rw [pulseTaken, hpulsed]
  split
  · exact .inr rfl
  · exact .inl rfl

end

section

variable {s : State} (hinv : s.Inv) {t n ps : Nat} (hn : n < 8)

include hinv hn

theorem tripInput_low {c : Chip} (hc : pulseTaken (s.chip.at_ t) n ps = c) (hpgm : c.pgm.wq = s.chip.pgm.wq) :
    exec (.tripInput t n true ps) s = .next { s with chip := c } := by
  obtain ⟨-, hwq⟩ := hinv
  rw [exec_tripInput, execTripInput]
  exact run_of_chip_eq ((if_neg (not_not.2 hn)).trans ((if_neg (by simp)).trans hc)) (hpgm.trans hwq)

theorem tripInput_trips (h : 2000 ≤ ps) (hpin : (s.chip.get MON.DEC.PIN).testBit n = false) :
    exec (.tripInput t n true ps) s = .next { s with chip := tripped (s.chip.at_ t) n } :=
  tripInput_low hinv hn (pulseTaken_seen (c := s.chip.at_ t) h hpin) (tripped_wq (s.chip.at_ t) n)

theorem tripInput_waits (h : ps < 500 ∨ 2000 ≤ ps ∧ (s.chip.get MON.DEC.PIN).testBit n = true) :
    exec (.tripInput t n true ps) s = .next (s.waits t) := by
  refine tripInput_low hinv hn (c := s.chip.at_ t) ?_ rfl
  rcases h with h | ⟨h, hpin⟩
  · exact pulseTaken_short h
  · exact pulseTaken_active h hpin

theorem tripInput_high : exec (.tripInput t n false ps) s =
    .next { s with chip := (s.chip.at_ t).setBit MON.DEC.PIN 0 n false } := by
  rw [exec_tripInput, execTripInput]
  exact run_keeps hinv ((if_neg (not_not.2 hn)).trans (if_pos rfl))
    (keeps_setBit (ids := [MON.DEC.PIN.id]) (ps := []) keeps_refl (by simp)) (by simp)

end

/-- Settles O34: what is judged is the raw decision, and a change of it shows through setDecision; a trip seen at an inactive pin
shows in its pin, its count, its triggers and its latch. -/
theorem comparatorsDecide : Obligations.ComparatorsDecide := by
  unfold Obligations.ComparatorsDecide
  refine ⟨fun s t k vd th h was b hinv hon hsettle htest hth hh hwas hb => ?_,
    fun s t k e vd th h b band hinv hon hsettle hend hth hh hb hband => ?_,
    fun s t k vd th h hinv => ⟨comparatorDecision_waits hinv, comparatorFirstDecision_waits hinv⟩,
    fun s t n ps hinv hn => ⟨fun hps hfabric hpin => ?_, fun hps hfabric hpin => ?_,
      fun hps => tripInput_waits hinv hn (.inl hps),
      fun hps hpin => tripInput_waits hinv hn (.inr ⟨hps, hpin⟩), fun hps hps' => ?_, ?_⟩⟩
  · have hjudged : judged s t k vd th h = b := by
      rw [judged, decide_eq_sides, threshold_allowed hth, hyst_allowed hh, ← hwas, hb]
    subst hwas
    have hraw := setRaw_moves (s.chip.at_ t) k b
    by_cases hsame : b = nget false s.chip.mon.raw k
    · refine ⟨_, comparatorDecision_stays hinv hon hsettle htest hjudged hsame, rfl, ?_, fun _ => ⟨rfl, rfl, hraw.rest, hraw.fields⟩,
        fun hne => absurd hsame hne⟩
      simp [Chip.setRaw, hsame]
    · have hexec := comparatorDecision_turns hinv hon hsettle htest hjudged hsame
      have hdec := setDecision_decides ((s.chip.at_ t).setRaw k b) (cmpOn_lt hon) b
      generalize ((s.chip.at_ t).setRaw k b).setDecision k b = e at hdec hexec
      have hframe := hdec.frame (keeps_mono (setRaw_keeps _ k b) (by simp) (by decide))
      refine ⟨_, hexec, hframe.parts .now (by decide), hdec.mon.trans (by simp [Chip.setRaw, hsame]), fun h => absurd h hsame,
        fun _ => ⟨hdec.cmp, hdec.active, hdec.other, hdec.count, hdec.latch,
          ⟨rfl, rfl, takes_of_keeps hframe, hframe.fields⟩, fun hsrc hquiet => ?_⟩⟩
      have hmoves := (hraw.mono (k := decisionFields k) (by simp) (fun _ h => h)).trans
        ((hdec.quiet hsrc hquiet).mono (fun _ h => h) (by simp))
      exact ⟨rfl, rfl, hmoves.rest, hmoves.fields⟩
  · have hexec := comparatorFirstDecision_decides hinv hon hsettle hend hth hh hb hband
    have hmoves := firstShown_moves (s.chip.at_ t) k b band
    have hkeeps := firstShown_keeps (s.chip.at_ t) k b band
    have hmon := firstShown_mon (s.chip.at_ t) k b band
    obtain ⟨hset, hin, hevt⟩ := get_firstShown (s.chip.at_ t) k b band
    have hdec := setDecision_decides (firstShown (s.chip.at_ t) k b band) (cmpOn_lt hon) b
    have hlen : (firstShown (s.chip.at_ t) k b band).on MON.ROUTE.LEN k = s.chip.on MON.ROUTE.LEN k := firstShown_on _ _ _ _ (by decide) k
    have hsrc : (firstShown (s.chip.at_ t) k b band).on MOD.CMT.SRC = s.chip.on MOD.CMT.SRC := firstShown_on _ _ _ _ (by decide) 0
    generalize firstShown (s.chip.at_ t) k b band = d at *
    generalize d.setDecision k b = u at hdec hexec
    have hframe := hdec.frame hkeeps
    refine ⟨_, hexec, hframe.parts .now (by decide), hdec.mon.trans (by rw [hmon]; rfl), (hdec.get _ _ (by decide) (by decide)).trans hset,
      (hdec.get _ _ (by decide) (by decide)).trans hin, hdec.active, hdec.cmp,
      fun h => (hdec.get _ _ (by decide) (by decide)).trans (hevt h), fun h hl => hdec.latch h (hlen.trans hl),
      ⟨rfl, rfl, takes_of_keeps hframe, hframe.fields⟩, fun hoff hquiet => ?_⟩
    have hquiet := (hmoves.mono (k := decisionFields k ++ _) (fun _ h => List.mem_append_right _ h) (fun _ h => h)).trans
      ((hdec.quiet (hsrc.trans hoff) (hquiet.imp_right hlen.trans)).mono (fun _ h => List.mem_append_left _ h) (by simp))
    have hall := hquiet.mono (k := [(MON.DEC.CMP, 0), (MON.STAT.ACTIVE, k), (MON.STAT.SETTLE, k), (MON.STAT.INBAND, k), (MON.CNT.ACT, k),
      (MON.EVT.INBAND, 0)]) (by simp [decisionFields]) (fun _ h => h)
    exact ⟨rfl, rfl, hall.rest, hall.fields⟩
  · have hframe : Keeps (latchShown ++ holdShown ++ [0x4810, 0x4811, 0x4812, PMU.EVT.FLBUSY.id, PMU.CNT.FLBUSY.id]) tripParts
        (s.chip.at_ t) (tripped (s.chip.at_ t) n) := keeps_mono (tripped_keeps _ n) (by decide) (fun _ h => h)
    have hexec := tripInput_trips hinv (t := t) hn hps hpin
    have hpins := testBit_tripped (s.chip.at_ t) n hn
    have hcount := count_tripped (s.chip.at_ t) n hfabric
    have hlatch := latch_tripped (s.chip.at_ t) n hfabric hn
    have hpgm := pgm_tripped (s.chip.at_ t) n hfabric
    have hquiet := tripped_quiet (s.chip.at_ t) n hfabric
    generalize tripped (s.chip.at_ t) n = e at *
    exact ⟨_, hexec, hframe.parts .now (by decide), hpins.1, hpins.2, hcount, hlatch, hpgm,
      ⟨rfl, rfl, takes_of_keeps hframe, hframe.fields⟩, fun hlen hsrc => ⟨rfl, rfl, (hquiet hlen hsrc).rest, (hquiet hlen hsrc).fields⟩⟩
  · have hmoves : Moves [(MON.DEC.PIN, 0)] [] (s.chip.at_ t) (pinned (s.chip.at_ t) n) := moves_refl.set _ (by simp)
    have hexec := tripInput_trips hinv (t := t) hn hps hpin
    rw [tripped_held (s.chip.at_ t) n hfabric] at hexec
    exact ⟨_, hexec, rfl, testBit_setBit_self _ 0 true hn, rfl, rfl, hmoves.rest, hmoves.fields⟩
  · rcases pulseTaken_open (c := s.chip.at_ t) (n := n) hps hps' with h | h
    · exact ⟨_, _, tripInput_low hinv hn h rfl, rfl, .inl rfl⟩
    · exact ⟨_, 0, tripInput_low hinv hn h (tripped_wq _ n), (tripped_keeps _ n).parts .free (by decide),
        .inr (testBit_tripped _ n hn).1⟩
  · have hmoves : Moves [(MON.DEC.PIN, 0)] [] (s.chip.at_ t) ((s.chip.at_ t).setBit MON.DEC.PIN 0 n false) := moves_refl.set _ (by simp)
    exact ⟨_, tripInput_high hinv hn, rfl, testBit_setBit_self _ 0 false hn, fun j hj => testBit_setBit_other _ 0 false hj,
      rfl, rfl, hmoves.rest, hmoves.fields⟩

end Sys2Proof.Scope
end

section
/-! CLAIM. An active decision latches (R252 to R255); holds without a latch end at a tick reference (R258). -/

namespace Sys2Proof.Scope

open Sys2Proof.Machine Sys2Proof.Machine.Reg Sys2Proof.Laws

/-! What a latch shows (R252 to R255) -/

/-- e shows the latch of comparator k set, noted, flagged, counted and raised, and its targets held, from c. -/
structure Latches (c : Chip) (k : Nat) (e : Chip) : Prop where
  latch : e.get MON.LATCH.LATCH = putBit (c.get MON.LATCH.LATCH) k true % 2 ^ MON.LATCH.LATCH.width
  flag : e.get MON.EVT.TCOMP = 1
  count : e.get MON.CNT.LATCH k = satN MON.CNT.LATCH.width (c.get MON.CNT.LATCH k + 1)
  flt : e.flt = { c.flt with raised := inFlight c 24 }
  held : e.get MON.HOLD.HELD = (c.get MON.HOLD.HELD ||| c.route k) % 2 ^ MON.HOLD.HELD.width
  first : c.get MON.LATCH.LATCH = 0 → e.mon.firstAt = some c.now ∧ e.get MON.FIRST.SRC = k ∧
    e.get MON.FIRST.TIME = (c.stamp (c.raw c.now)).1 % 2 ^ MON.FIRST.TIME.width ∧
    e.get MON.FIRST.TAP = (c.stamp (c.raw c.now)).2 % 2 ^ MON.FIRST.TAP.width
  later : c.get MON.LATCH.LATCH ≠ 0 → e.mon.firstAt = c.mon.firstAt ∧
    e.get MON.FIRST.SRC = (if c.mon.firstAt = some c.now ∧ k < c.get MON.FIRST.SRC then k else c.get MON.FIRST.SRC) ∧
    e.get MON.FIRST.TIME = c.get MON.FIRST.TIME ∧ e.get MON.FIRST.TAP = c.get MON.FIRST.TAP

section

variable {c d e : Chip} {k : Nat}

/-- Ports that follow show nothing of the latch itself. -/
theorem Latches.follow (h : Latches c k d) (hports : Keeps portIds [.dhb] d e) : Latches c k e := by
  have hget : ∀ f : Fld, f.id ∉ portIds → ∀ n, e.get f n = d.get f n := fun f hid n => hports.fields f n hid
  have hmon : e.mon = d.mon := hports.parts .mon (by decide)
  obtain ⟨hlatch, hflag, hcount, hraised, hheld, hfirst, hlater⟩ := h
  simp (disch := decide) only [← hget, ← hmon] at hlatch hflag hcount hheld hfirst hlater
  exact ⟨hlatch, hflag, hcount, Eq.trans (hports.parts .flt (by decide)) hraised, hheld, hfirst, hlater⟩

/-- A change that shows in the decision alone, before the latch. -/
theorem Latches.after_decided {b : Bool} (h : Latches (decided c k b) k e) : Latches c k e := by
  have hget : ∀ f : Fld, (f.id, f.lo) ∉ fieldKeys [MON.DEC.CMP, MON.STAT.ACTIVE, MON.CNT.ACT] → ∀ n, (decided c k b).get f n = c.get f n :=
    fun f hkey n => get_decided c k b hkey n
  have hmoves := decided_moves c k b
  have hmon : (decided c k b).mon = c.mon := decided_mon c k b
  have hflt : (decided c k b).flt = c.flt := hmoves.part (p := .flt) (by decide) (by decide)
  have hnow : (decided c k b).now = c.now := decided_now c k b
  have hfabric : (decided c k b).fabric = c.fabric := congrArg (·.testBit 0) (hget _ (by decide) 0)
  have hstamp : (decided c k b).stamp ((decided c k b).raw (decided c k b).now) = c.stamp (c.raw c.now) :=
    stamp_now_congr (hmoves.part (p := .tim) (by decide) (by decide)) hnow (hget _ (by decide) 0) (hget _ (by decide) 0)
  obtain ⟨hlatch, hflag, hcount, hraised, hheld, hfirst, hlater⟩ := h
  rw [inFlight_congr hfabric hflt hnow, hflt] at hraised
  rw [hstamp] at hfirst
  simp (disch := decide) only [hget, hmon, hnow, Chip.route] at hlatch hcount hheld hfirst hlater
  exact ⟨hlatch, hflag, hcount, hraised, hheld, hfirst, hlater⟩

theorem setLatch_latches (hk : k < 96) (h : c.bitOn MON.LATCH.LATCH 0 k = false) : Latches c k (c.setLatch k) := by
  have hfollow := addHolds_keeps (latchNoted c k) ((latchNoted c k).route k)
  have hheld := held_addHolds (latchNoted c k) ((latchNoted c k).route k)
  have hnoted : ∀ f : Fld, (f.id, f.lo) ∉ fieldKeys latchFlds → ∀ n, (latchNoted c k).get f n = c.get f n :=
    fun f hkey n => (latchNoted_moves c k).get hkey n
  rw [setLatch_unset c k h]
  generalize (latchNoted c k).addHolds ((latchNoted c k).route k) = e at hfollow hheld
  have hget : ∀ f : Fld, f.id ∉ MON.HOLD.HELD.id :: heldIds → ∀ n, e.get f n = (latchNoted c k).get f n :=
    fun f hid n => hfollow.fields f n hid
  have hmon : e.mon = (firstNoted c k).mon := Eq.trans (hfollow.parts .mon (by decide)) (latchNoted_mon c k)
  have hsmall : k % 2 ^ MON.FIRST.SRC.width = k := Nat.mod_eq_of_lt (lt_trans hk (by decide))
  obtain ⟨hflag, hflt⟩ := comparator_latchNoted c hk
  constructor
  case latch => exact (hget _ (by decide) 0).trans (latch_latchNoted c k)
  case flag => exact (hget _ (by decide) 0).trans hflag
  case count => exact (hget _ (by decide) k).trans (count_latchNoted c k)
  case flt => exact Eq.trans (hfollow.parts .flt (by decide)) hflt
  case held =>
    rw [hheld, hnoted _ (by decide)]
    simp (disch := decide) only [Chip.route, hnoted]
  case first =>
    intro hzero
    obtain ⟨hat, hsrc, htime, htap⟩ := firstNoted_none c k hzero
    rw [hsmall] at hsrc
    simp (disch := decide) only [hget, hmon, get_latchNoted]
    exact ⟨hat, hsrc, htime, htap⟩
  case later =>
    intro hsome
    obtain ⟨hat, hsrc, htime, htap⟩ := firstNoted_later c k hsome
    rw [hsmall] at hsrc
    simp (disch := decide) only [hget, hmon, get_latchNoted]
    exact ⟨hat, hsrc, htime, htap⟩

/-- A decision that turns active with LEN set latches. -/
theorem setDecision_latches (hk : k < 96) (hlen : c.on MON.ROUTE.LEN k = true) (h : (c.get MON.LATCH.LATCH).testBit k = false) :
    Latches c k (c.setDecision k true) := by
  have hclear : (decided c k true).bitOn MON.LATCH.LATCH 0 k = false := by rw [Chip.bitOn, get_decided c k true (by decide), h]
  have hlevel : Latches c k (levelled c k true) := by
    rw [levelled_latched c k hk hlen]
    exact (setLatch_latches hk hclear).after_decided
  exact hlevel.follow (setDecision_ports c k true)

theorem Latches.other (h : Latches c k e) {j : Nat} (hj : j < 104) (hne : j ≠ k) :
    (e.get MON.LATCH.LATCH).testBit j = (c.get MON.LATCH.LATCH).testBit j := by
  have hw : j < MON.LATCH.LATCH.width := hj
  rw [h.latch, Nat.testBit_mod_two_pow, testBit_putBit, if_neg hne]
  simp [hw]

end

/-! Holds end (R258) -/

/-- An arm that is released lets its lanes go, and no other. -/
theorem triphold_releaseArm (c : Chip) (a n : Nat) :
    (c.releaseArm a).get LNK.STAT.TRIPHOLD n = if n ∈ c.armLanes a then 0 else c.get LNK.STAT.TRIPHOLD n :=
  each_once (π := fun c => c.get LNK.STAT.TRIPHOLD n) (g := fun _ => 0) (fun c => get_set_self c _ _ _)
    (fun c _ h => get_set_other c _ _ _ _ _ fun e => h e.2.2.symm) (List.nodup_range.filter _) c

section

variable {n a : Nat} (hn : n < 192)

include hn

/-- A lane whose arm is among those released is held no more. -/
theorem triphold_released (l : List Nat) {c : Chip} (harm : c.laneArm n = a) (h : a ∈ l ∨ c.get LNK.STAT.TRIPHOLD n = 0) :
    (c.each l Chip.releaseArm).get LNK.STAT.TRIPHOLD n = 0 := by
  unfold Chip.each
  induction l generalizing c with
  | nil => exact h.resolve_left (by simp)
  | cons x l ih =>
    have hstays : (c.releaseArm x).laneArm n = a :=
      ((keeps_releaseArm (ids := holdIds) (ps := []) (fun _ h => h) keeps_refl).fields LNK.STATE.ARM n (by decide)).trans harm
    refine ih hstays ?_
    rw [triphold_releaseArm]
    rcases h with h | h
    · rcases List.mem_cons.1 h with rfl | h
      · exact .inr (if_pos (List.mem_filter.2 ⟨List.mem_range.2 hn, by simp [harm]⟩))
      · exact .inl h
    · exact .inr (by simp [h])

/-- Where the holds change, the lanes of an arm that was held and is held no more are let go. -/
theorem triphold_holdsChanged {c : Chip} {m : Nat} (harm : c.laneArm n = a) (ha : a < 6) (hbefore : m.testBit a = true)
    (hafter : c.heldMask.testBit a = false) : (c.holdsChanged m).get LNK.STAT.TRIPHOLD n = 0 := by
  let held := c.each ((upTo 6).filter (fun a => c.heldMask.testBit a && !m.testBit a)) Chip.holdArm
  have hheld : Keeps holdIds [.lnk, .arm] c held :=
    keeps_each (fun _ _ => keeps_holdArm (fun _ h => h) (by simp) (by simp) keeps_refl) keeps_refl
  have hports : Keeps (sdoIds ++ portIds) [.sio, .dhb]
      (held.each ((upTo 6).filter (fun a => m.testBit a && !c.heldMask.testBit a)) Chip.releaseArm) (c.holdsChanged m) :=
    keeps_refreshSdo (fun _ h => List.mem_append_left _ h) (by simp)
      (keeps_portsUpdate (fun _ h => List.mem_append_right _ h) (by simp) keeps_refl)
  refine (hports.fields LNK.STAT.TRIPHOLD n (by decide)).trans ?_
  refine triphold_released hn _ ((hheld.fields LNK.STATE.ARM n (by decide)).trans harm) (.inl ?_)
  exact List.mem_filter.2 ⟨List.mem_range.2 ha, by simp [hbefore, hafter]⟩

/-- At the end of holds, the lanes of an arm to which no latch routes and which no reaction holds are let go. -/
theorem triphold_endHolds {c : Chip} (hheld : c.laneHeld n = true) (harm : c.laneArm n < 6)
    (hfree : (c.latchedTargets % 2 ^ MON.HOLD.HELD.width ||| c.get FLT.HOLD.HELD).testBit (c.laneArm n) = false) :
    c.endHolds.get LNK.STAT.TRIPHOLD n = 0 := by
  have hbefore : c.heldMask.testBit (c.laneArm n) = true := by
    rw [Chip.heldMask, Nat.testBit_or]
    simpa [Chip.laneHeld, Chip.held, Chip.tripHeld, Chip.faultHeld, Chip.bitOn, harm] using hheld
  have hafter : (c.set MON.HOLD.HELD 0 c.latchedTargets).heldMask.testBit (c.laneArm n) = false := by
    rw [Chip.heldMask, get_set_self, get_set_fld _ _ _ _ (by decide)]
    exact hfree
  exact triphold_holdsChanged hn (get_set_fld _ _ _ _ (by decide)) harm hbefore hafter

end

section

variable {s : State} (hinv : s.Inv)

include hinv

theorem tripHoldEnd_ends (htick : s.chip.dev.ticking = true) :
    exec .tripHoldEnd s = .next { s with chip := (s.chip.at_ s.chip.dev.nextT0).endHolds } := by
  rw [exec_tripHoldEnd, execTripHoldEnd]
  exact run_keeps hinv (if_pos htick) (keeps_endHolds _) (by decide)

theorem tripHoldEnd_still (htick : s.chip.dev.ticking = false) : exec .tripHoldEnd s = .next s := by
  obtain ⟨-, hwq⟩ := hinv
  rw [exec_tripHoldEnd, execTripHoldEnd]
  exact run_of_chip_eq (if_neg (by simp [htick])) hwq

end

/-- Settles O35: the decision that turns active sets its latch, and what follows it shows in the holds and the ports alone; at the end of
holds the arms are released after the others are held. -/
theorem activeDecisionsLatch : Obligations.ActiveDecisionsLatch := by
  unfold Obligations.ActiveDecisionsLatch
  refine ⟨fun s t k vd th h hinv hon hsettle htest hth hlen hraw hbeyond hlatch => ?_, fun s hinv htick => ?_,
    fun s hinv htick => tripHoldEnd_still hinv htick⟩
  · have hjudged : judged s t k vd th h = true := by
      rw [judged, threshold_allowed hth]
      exact decide_beyond hbeyond _ _
    have hk := cmpOn_lt hon
    have hexec := comparatorDecision_turns hinv hon hsettle htest hjudged (by simp [hraw])
    have hframe := (setDecision_decides ((s.chip.at_ t).setRaw k true) hk true).frame (keeps_mono (setRaw_keeps _ k true) (by simp) (by decide))
    have hshows : Latches ((s.chip.at_ t).setRaw k true) k _ := setDecision_latches hk hlen hlatch
    generalize ((s.chip.at_ t).setRaw k true).setDecision k true = e at hexec hframe hshows
    refine ⟨_, hexec, hframe.parts .now (by decide), ?_, fun j hj hne => hshows.other hj hne, hshows.flag, hshows.count, hshows.flt,
      hshows.held, fun hzero => ?_, fun hsome => ?_, rfl, rfl, takes_of_keeps hframe, hframe.fields⟩
    · have hw : k < MON.LATCH.LATCH.width := lt_trans hk (by decide)
      rw [hshows.latch, Nat.testBit_mod_two_pow, testBit_putBit]
      simp [hw]
    · obtain ⟨hat, hsrc, htime, htap⟩ := hshows.first hzero
      exact ⟨hsrc, hat, htime, htap⟩
    · obtain ⟨hat, hsrc, htime, htap⟩ := hshows.later hsome
      exact ⟨hat, htime, htap, hsrc⟩
  · have hexec := tripHoldEnd_ends hinv htick
    have hkeeps : Keeps holdShown heldParts _ _ := keeps_mono (keeps_endHolds (s.chip.at_ s.chip.dev.nextT0)) (by decide) (fun _ h => h)
    have hheld := (held_endHolds (s.chip.at_ s.chip.dev.nextT0)).trans (congrArg (· % _) (latchedTargets_endHolds _))
    have hfree := fun n hn => triphold_endHolds (n := n) hn (c := s.chip.at_ s.chip.dev.nextT0)
    generalize (s.chip.at_ s.chip.dev.nextT0).endHolds = e at hexec hkeeps hheld hfree
    exact ⟨_, hexec, hkeeps.parts .now (by decide), hheld, hfree, rfl, rfl, takes_of_keeps hkeeps, hkeeps.fields⟩

end Sys2Proof.Scope
end

section
/-! SUPPORT. What a visit of a comparator by the in-service test changes beside the monitors (R537, R538, R544). -/

namespace Sys2Proof.Scope

open Sys2Proof.Machine Sys2Proof.Machine.Reg Sys2Proof.Laws

/-! The end of a pass (R543, R549) -/

/-- The end of a pass of check k is counted and its result shown. -/
def passCounted (c : Chip) (k : Nat) : Chip :=
  let d := (c.setBit IST.STAT.ACTIVE 0 (k - 1) false).inc IST.RES.PASSES (k - 1)
  (if c.ist.failed.contains k then d.inc IST.RES.FAILS (k - 1) else d).set IST.RES.LAST (k - 1)
    (if c.ist.failed.contains k then 2 else if c.ist.late.contains k then 3 else 1)

/-- The events of a pass that failed. -/
def passRaised (d : Chip) (k : Nat) (failed : Bool) : Chip :=
  let d := if failed && (k == 3 || k == 6) then (d.flag IST.EVT.FAIL).raise 60 else d
  if failed && k == 5 then d.raise 63 else d

/-- The pass of check k is over. -/
def passOver (c : Chip) (k : Nat) : Chip :=
  let d := passRaised (passCounted c k) k (c.ist.failed.contains k)
  { d with ist := { d.ist with late := d.ist.late.filter (fun j => j != k), next := nset 0 d.ist.next k 0 } }

theorem istEnd_eq (c : Chip) (k : Nat) : c.istEnd k =
    if (passOver c k).istHost k then ((passOver c k).istPaced k).istHostNext
    else if c.ist.late.contains k then ((passOver c k).istPaced k).istBegin k else passOver c k := rfl

/-- The attributes of the in-service test that passes change. -/
def istIds : List Nat := [IST.STAT.ACTIVE.id, IST.RES.PASSES.id]

theorem not_mem_istIds {f : Fld} (h : f.id / 1024 ≠ 20) : f.id ∉ istIds := fun hmem => by
  have hall : ∀ i ∈ istIds, i / 1024 = 20 := by decide
  exact h (hall _ hmem)

section

variable (c : Chip) (k : Nat)

theorem istPaced_keeps : Keeps istIds [.ist] c (c.istPaced k) := keeps_ist keeps_refl (by simp)

theorem istBegin_keeps : Keeps istIds [.ist] c (c.istBegin k) := keeps_ist (keeps_setBit keeps_refl (by decide)) (by simp)

theorem istFailUnit_keeps (unit : Option Nat) : Keeps istIds [.ist] c (c.istFailUnit k unit) := by
  have hfailed : Keeps istIds [.ist] c { c with ist := { c.ist with failed := k :: c.ist.failed.filter (fun j => j != k) } } :=
    keeps_ist keeps_refl (by simp)
  cases unit with
  | none => exact hfailed
  | some u => exact keeps_set hfailed (by decide)

theorem istHostNext_keeps : Keeps istIds [.ist] c c.istHostNext := by
  unfold Chip.istHostNext
  split
  · exact keeps_refl
  · exact keeps_set (keeps_set (keeps_ist keeps_refl (by simp)) (by decide)) (by decide)
  · exact keeps_trans (keeps_set (keeps_ist keeps_refl (by simp)) (by decide)) (istBegin_keeps _ _)

variable {k : Nat} (hk : k < 3)

include hk

/-- A pass of check 1 or 2 raises no event at its end. -/
theorem passRaised_quiet (failed : Bool) : passRaised c k failed = c := by
  have hother : (k == 3 || k == 6) = false ∧ (k == 5) = false := by
    constructor <;> simp <;> omega
  simp [passRaised, hother]

theorem passOver_keeps : Keeps istIds [.ist] c (passOver c k) := by
  have hactive : Keeps istIds [.ist] c ((c.setBit IST.STAT.ACTIVE 0 (k - 1) false).inc IST.RES.PASSES (k - 1)) :=
    keeps_inc (keeps_setBit keeps_refl (by decide)) (by decide)
  rw [passOver, passRaised_quiet _ hk]
  exact keeps_ist (keeps_set (keeps_ite (fun _ => keeps_inc hactive (by decide)) fun _ => hactive) (by decide)) (by simp)

theorem istEnd_keeps : Keeps istIds [.ist] c (c.istEnd k) := by
  have hpaced : Keeps istIds [.ist] c ((passOver c k).istPaced k) := keeps_trans (passOver_keeps c hk) (istPaced_keeps _ k)
  rw [istEnd_eq]
  exact keeps_ite (fun _ => keeps_trans hpaced (istHostNext_keeps _)) fun _ =>
    keeps_ite (fun _ => keeps_trans hpaced (istBegin_keeps _ k)) fun _ => passOver_keeps c hk

theorem istVisited_keeps (i : Nat) (bad : Bool) : Keeps istIds [.ist] c (c.istVisited k i bad) := by
  unfold Chip.istVisited
  have hfailed : Keeps istIds [.ist] c (if bad then c.istFailUnit k (some i) else c) :=
    keeps_ite (fun _ => istFailUnit_keeps c k _) fun _ => keeps_refl
  have hnext := keeps_ist (x := { (if bad then c.istFailUnit k (some i) else c).ist with
    next := nset 0 (if bad then c.istFailUnit k (some i) else c).ist.next k (i + 1) }) hfailed (by simp)
  exact keeps_ite (fun _ => hnext) fun _ => keeps_trans hnext (istEnd_keeps _ hk)

end

end Sys2Proof.Scope
end

section
/-! CLAIM. Self-test of a comparator and readback of its DAC (R261 to R266). -/

namespace Sys2Proof.Scope

open Sys2Proof.Machine Sys2Proof.Machine.Reg Sys2Proof.Laws

/-! The window opens (R261, R262) -/

/-- The window of comparator k opens over sample v. -/
def testOpened (c : Chip) (k : Nat) (v : Int) : Chip :=
  { c.set MON.STAT.TESTING k 1 with
    mon := { c.mon with test := some { cmp := k, start := c.now, code := (c.testCode k v).toNat } } }

theorem monTestStart_opens {c : Chip} {k : Nat} {v : Int} (hon : c.cmpOn k = true) (hen : c.on MON.TST.TSTEN = true)
    (hsettle : nget none c.mon.settle k = none) (htest : c.mon.test = none) (hidle : (c.get MON.DEC.CMP).testBit k = false)
    (hout : (c.outSlice (cmpGroup k)).isSome = true) (hsample : c.cmpSample k = some v) (hlo : 0 ≤ c.testCode k v)
    (hhi : c.testCode k v ≤ 1023) (hroom : 4 * (c.get MON.TST.GUARD : Int) ≤ if k % 2 = 0 then
      4 * (c.get MON.CFG.CODE k : Int) - (v + 2048) else v + 2048 - 4 * c.get MON.CFG.CODE k) :
    c.monTestStart k = testOpened c k v := by
  have hruns : ¬(!c.cmpOn k || !c.on MON.TST.TSTEN || (nget none c.mon.settle k).isSome || c.mon.test.isSome) = true := by
    simp [hon, hen, hsettle, htest]
  have hinactive : ¬c.bitOn MON.DEC.CMP 0 k = true := by simp [Chip.bitOn, hidle]
  have hslice : ¬(c.outSlice (cmpGroup k)).isNone = true := by
    rw [Option.isNone_iff_eq_none]
    exact Option.isSome_iff_ne_none.1 hout
  have hside : (isHi k = true) = (k % 2 = 0) := by simp [isHi]
  rw [Chip.monTestStart, if_neg hruns, if_neg hinactive, if_neg hslice]
  simp only [hsample, hside]
  exact if_neg (by omega)

section

variable {s : State} (hinv : s.Inv) {t : Nat}

include hinv

theorem comparatorSelfTest_opens {k : Nat} {v : Int} (hnext : s.chip.istNext 1 = some k) (hhost : s.chip.istHost 1 = true)
    (hactive : s.chip.istActive 1 = true) (htest : s.chip.mon.test = none)
    (hopens : ((s.chip.at_ t).istPaced 1).monTestStart k = testOpened ((s.chip.at_ t).istPaced 1) k v) :
    exec (.comparatorSelfTest t none) s = .next { s with chip := { testOpened (s.chip.at_ t) k v with
      ist := { ((s.chip.at_ t).istPaced 1).ist with foreign := false } } } := by
  have hnow : (s.chip.at_ t).istNext 1 = some k := hnext
  have hvisits : (s.chip.at_ t).istVisits 1 = true := (if_pos hhost).trans hactive
  have hpass : (s.chip.at_ t).istActive 1 = true := hactive
  have hwq := hinv.2
  rw [exec_comparatorSelfTest, execComparatorSelfTest]
  refine run_of_chip_eq ?_ hwq
  simp only [at_mon, htest, hnow]
  refine (if_pos hvisits).trans ?_
  simp only [hpass, if_true, hopens]
  exact if_pos rfl

end

/-! The window closes (R262 to R264) -/

/-- The window of comparator k is closed with result res. -/
def testClosed (c : Chip) (k res : Nat) : Chip :=
  (({ c with mon := { c.mon with test := none } }.setRaw k false).set MON.STAT.TESTING k 0).set MON.STAT.TRES k res

/-- The decision that it held, inactive, takes over. -/
def testEnded (c : Chip) (k res : Nat) : Chip := (testClosed c k res).setDecision k false

/-- The decision turned active and inactive again. -/
def testPassed (c : Chip) (k : Nat) : Chip := (testEnded c k 1).inc MON.CNT.TPASS k

/-- The decision never turned active. -/
def testFailed (c : Chip) (k : Nat) : Chip := (((testEnded c k 2).inc MON.CNT.TFAIL k).flag MON.EVT.TFAIL).raise 26

/-- A failure trips where FAILTRIP and LEN say so (R264). -/
def failTripped (c : Chip) (k : Nat) : Chip := if c.on MON.CFG.FAILTRIP k && c.on MON.ROUTE.LEN k then c.setLatch k else c

/-- The attributes that the end of a window may change. -/
def closedIds : List Nat := [MON.STAT.TRES.id, MON.DEC.CMP.id, MON.CNT.TPASS.id] ++ portIds

/-- The fields of the monitors that it shows in, but for its count. -/
def closedFlds : List Fld := [MON.STAT.TESTING, MON.STAT.TRES, MON.DEC.CMP, MON.STAT.ACTIVE, MON.CNT.ACT]

section

variable {c : Chip} {x : MonTest} (h : c.mon.test = some x) (smp : Int)

include h

theorem monTestEnd_passes : c.monTestEnd true false smp = testPassed c x.cmp := by
  unfold Chip.monTestEnd
  simp only [h]
  rfl

theorem monTestEnd_fails : c.monTestEnd false false smp = failTripped (testFailed c x.cmp) x.cmp := by
  unfold Chip.monTestEnd
  simp only [h]
  rfl

end

section

variable (c : Chip) (k res : Nat)

theorem testClosed_moves : Moves [(MON.STAT.TESTING, k), (MON.STAT.TRES, k)] [.mon] c (testClosed c k res) := by
  have hmon : Moves [(MON.STAT.TESTING, k), (MON.STAT.TRES, k)] [.mon] c ({ c with mon := { c.mon with test := none } }.setRaw k false) :=
    moves_refl.parts rfl rfl
  exact (hmon.set _ (by simp)).set _ (by simp)

theorem testEnded_keeps : Keeps closedIds [.mon, .dhb] c (testEnded c k res) := by
  have hclosed : Keeps closedIds [.mon, .dhb] c (testClosed c k res) :=
    ((testClosed_moves c k res).mono (fun _ h => h) (by simp)).keeps rfl (by simp [closedIds]; decide)
  exact keeps_trans hclosed (keeps_mono (setDecision_inactive_keeps _ k) (by decide) (by simp))

/-- Behind the result only the decision and the ports follow. -/
theorem get_testEnded_closed {f : Fld} (hkey : (f.id, f.lo) ∉ fieldKeys [MON.DEC.CMP, MON.STAT.ACTIVE, MON.CNT.ACT])
    (hid : f.id ∉ portIds) (n : Nat) : (testEnded c k res).get f n = (testClosed c k res).get f n := by
  refine ((setDecision_ports _ k false).fields f n hid).trans ?_
  rw [levelled_quiet _ k false (.inl rfl)]
  exact get_decided _ k false hkey n

/-- A field of the monitors that the end of a window does not show reads as before. -/
theorem get_testEnded {f : Fld} (hkey : (f.id, f.lo) ∉ fieldKeys closedFlds) (hid : f.id ∉ portIds) (n : Nat) :
    (testEnded c k res).get f n = c.get f n := by
  obtain ⟨hclosed, hdecided⟩ : (f.id, f.lo) ∉ fieldKeys [MON.STAT.TESTING, MON.STAT.TRES] ∧
      (f.id, f.lo) ∉ fieldKeys [MON.DEC.CMP, MON.STAT.ACTIVE, MON.CNT.ACT] :=
    not_or.1 (mt List.mem_append.2 hkey)
  exact (get_testEnded_closed c k res hdecided hid n).trans ((testClosed_moves c k res).get hclosed n)

theorem testEnded_shows : (testEnded c k res).mon.test = none ∧ (testEnded c k res).get MON.STAT.TESTING k = 0 ∧
    (testEnded c k res).get MON.STAT.TRES k = res % 2 ^ MON.STAT.TRES.width := by
  refine ⟨?_, ?_, ?_⟩
  · rw [testEnded, mon_setDecision]
    rfl
  · rw [get_testEnded_closed _ _ _ (by decide) (by decide)]
    exact (get_set_fld _ _ _ _ (by decide)).trans (get_set_self _ _ _ _)
  · rw [get_testEnded_closed _ _ _ (by decide) (by decide)]
    exact get_set_self _ _ _ _

theorem testPassed_keeps : Keeps closedIds [.mon, .dhb] c (testPassed c k) := keeps_inc (testEnded_keeps c k 1) (by decide)

theorem testFailed_keeps : Keeps (MON.EVT.TFAIL.id :: closedIds) [.flt, .mon, .dhb] c (testFailed c k) :=
  keeps_raise (keeps_flag (keeps_inc (keeps_mono (testEnded_keeps c k 2) (fun _ h => List.mem_cons_of_mem _ h) (by simp))
    (by decide)) (by decide)) (by simp)

theorem testFailed_moves : Moves [(MON.CNT.TFAIL, k), (MON.EVT.TFAIL, 0)] [.flt] (testEnded c k 2) (testFailed c k) :=
  ((moves_refl.inc (by simp)).flag (by simp)).raise _ (by simp)

theorem testFailed_flt : (testFailed c k).flt = { c.flt with raised := inFlight c 26 } := by
  have hflt : (testEnded c k 2).flt = c.flt := (testEnded_keeps c k 2).parts .flt (by decide)
  have hnow : (testEnded c k 2).now = c.now := (testEnded_keeps c k 2).parts .now (by decide)
  have hfabric : (((testEnded c k 2).inc MON.CNT.TFAIL k).flag MON.EVT.TFAIL).fabric = c.fabric := congrArg (·.testBit 0)
    ((get_flag_fld _ _ _ (by decide)).trans ((get_inc_fld _ _ _ (by decide)).trans ((testEnded_keeps c k 2).fields _ _ (by decide))))
  rw [testFailed, raise_flt, inFlight_congr hfabric hflt hnow]
  exact congrArg (fun x => { x with raised := inFlight c 26 }) hflt

/-- Behind the decision only the failure's count and event follow. -/
theorem get_testFailed_ended {f : Fld} (hkey : (f.id, f.lo) ∉ fieldKeys [MON.CNT.TFAIL, MON.EVT.TFAIL]) (n : Nat) :
    (testFailed c k).get f n = (testEnded c k 2).get f n := (testFailed_moves c k).get hkey n

/-- A field that neither the window's end nor its count shows reads as before. -/
theorem get_testFailed {f : Fld} (hkey : (f.id, f.lo) ∉ fieldKeys (closedFlds ++ [MON.CNT.TFAIL, MON.EVT.TFAIL])) (hid : f.id ∉ portIds)
    (n : Nat) : (testFailed c k).get f n = c.get f n := by
  obtain ⟨hclosed, hfailed⟩ : (f.id, f.lo) ∉ fieldKeys closedFlds ∧ (f.id, f.lo) ∉ fieldKeys [MON.CNT.TFAIL, MON.EVT.TFAIL] := by
    rwa [fieldKeys, List.map_append, List.mem_append, not_or] at hkey
  exact (get_testFailed_ended c k hfailed n).trans (get_testEnded c k 2 hclosed hid n)

theorem testPassed_shows : (testPassed c k).mon.test = none ∧ (testPassed c k).get MON.STAT.TRES k = 1 ∧
    (testPassed c k).get MON.STAT.TESTING k = 0 ∧
    (testPassed c k).get MON.CNT.TPASS k = satN MON.CNT.TPASS.width (c.get MON.CNT.TPASS k + 1) := by
  obtain ⟨htest, htesting, hres⟩ := testEnded_shows c k 1
  refine ⟨htest, (get_inc_fld _ _ _ (by decide)).trans hres, (get_inc_fld _ _ _ (by decide)).trans htesting, ?_⟩
  rw [testPassed, get_inc_self, get_testEnded c k 1 (by decide) (by decide)]

theorem testFailed_shows : (testFailed c k).mon.test = none ∧ (testFailed c k).get MON.STAT.TRES k = 2 ∧
    (testFailed c k).get MON.STAT.TESTING k = 0 ∧ (testFailed c k).get MON.EVT.TFAIL = 1 ∧
    (testFailed c k).get MON.CNT.TFAIL k = satN MON.CNT.TFAIL.width (c.get MON.CNT.TFAIL k + 1) := by
  obtain ⟨htest, htesting, hres⟩ := testEnded_shows c k 2
  have hmon : (testFailed c k).mon = (testEnded c k 2).mon := (testFailed_moves c k).part (p := .mon) (by decide) (by decide)
  refine ⟨(congrArg Mon.test hmon).trans htest, (get_testFailed_ended c k (by decide) k).trans hres,
    (get_testFailed_ended c k (by decide) k).trans htesting, ?_, ?_⟩
  · rw [testFailed, raise_get]
    exact get_flag_self _ _ rfl
  · rw [testFailed, raise_get, get_flag_fld _ _ _ (by decide), get_inc_self, get_testEnded c k 2 (by decide) (by decide)]

end

section

variable {c : Chip} {k : Nat}

theorem failTripped_off (h : c.on MON.CFG.FAILTRIP k = false ∨ c.on MON.ROUTE.LEN k = false) : failTripped c k = c :=
  if_neg (by rcases h with h | h <;> simp [h])

theorem failTripped_on (htrip : c.on MON.CFG.FAILTRIP k = true) (hlen : c.on MON.ROUTE.LEN k = true) :
    failTripped c k = c.setLatch k := if_pos (by simp [htrip, hlen])

theorem failTripped_keeps : Keeps latchIds latchParts c (failTripped c k) :=
  keeps_ite (fun _ => setLatch_keeps c k) fun _ => keeps_refl

theorem failTripped_test : (failTripped c k).mon.test = c.mon.test := by
  unfold failTripped
  split
  · rw [mon_setLatch]
  · rfl

theorem get_failTripped {f : Fld} (hkey : (f.id, f.lo) ∉ fieldKeys latchFlds) (hid : f.id ∉ MON.HOLD.HELD.id :: heldIds) (n : Nat) :
    (failTripped c k).get f n = c.get f n := by
  unfold failTripped
  split
  · exact get_setLatch c k hkey hid n
  · rfl

end

/-- A result closes the window; then the check goes on or ends. -/
theorem comparatorSelfTest_closes {s : State} (hinv : s.Inv) {t : Nat} {x : MonTest} (r : Bool × Bool × Int) {d : Chip}
    {ids : List Nat} {ps : List Part} (htest : s.chip.mon.test = some x)
    (hd : (s.chip.at_ t).monTestEnd r.1 r.2.1 r.2.2 = d) (hkeeps : Keeps ids ps (s.chip.at_ t) d) (hps : Part.pgm ∉ ps) :
    ∃ e, exec (.comparatorSelfTest t (some r)) s = .next { s with chip := e } ∧ Keeps istIds [.ist] d e := by
  have hpgm : d.pgm = s.chip.pgm := hkeeps.parts .pgm hps
  have hvisited : Keeps istIds [.ist] d (if d.ist.foreign then { d with ist := { d.ist with foreign := false } }
      else if d.istActive 1 then d.istVisited 1 x.cmp (d.get MON.STAT.TRES x.cmp == 2 || d.get MON.STAT.TRES x.cmp == 3) else d) :=
    keeps_ite (fun _ => keeps_ist keeps_refl (by simp)) fun _ =>
      keeps_ite (fun _ => istVisited_keeps d (by decide) _ _) fun _ => keeps_refl
  refine ⟨_, ?_, hvisited⟩
  rw [exec_comparatorSelfTest, execComparatorSelfTest]
  refine run_of_chip_eq ?_ ((congrArg Pgm.wq (Eq.trans (hvisited.parts .pgm (by decide)) hpgm)).trans hinv.2)
  simp only [at_mon, htest, hd]

/-- The frame of a failure, with its latch. -/
theorem failTripped_testFailed_keeps (c : Chip) (k : Nat) :
    Keeps (MON.EVT.TFAIL.id :: closedIds ++ latchIds) (.mon :: .dhb :: latchParts) c (failTripped (testFailed c k) k) :=
  keeps_trans (keeps_mono (testFailed_keeps c k) (fun _ h => List.mem_append_left _ h) (by decide))
    (keeps_mono failTripped_keeps (fun _ h => List.mem_append_right _ h) (by decide))

section

variable {s : State} (hinv : s.Inv) {t : Nat} {x : MonTest} (smp : Int) (htest : s.chip.mon.test = some x)

include hinv htest

theorem comparatorSelfTest_passes : ∃ e, exec (.comparatorSelfTest t (some (true, false, smp))) s = .next { s with chip := e } ∧
    Keeps istIds [.ist] (testPassed (s.chip.at_ t) x.cmp) e :=
  comparatorSelfTest_closes hinv (true, false, smp) htest (monTestEnd_passes (c := s.chip.at_ t) htest smp) (testPassed_keeps _ _) (by decide)

theorem comparatorSelfTest_fails : ∃ e, exec (.comparatorSelfTest t (some (false, false, smp))) s = .next { s with chip := e } ∧
    Keeps istIds [.ist] (failTripped (testFailed (s.chip.at_ t) x.cmp) x.cmp) e :=
  comparatorSelfTest_closes hinv (false, false, smp) htest (monTestEnd_fails (c := s.chip.at_ t) htest smp)
    (failTripped_testFailed_keeps _ _) (by decide)

end

/-! THRESHOLD_READBACK (R266) -/

/-- The expected and the measured DAC of comparator k. -/
def readbackShown (c : Chip) (k : Nat) (meas : Int) : Chip :=
  (c.setI MON.RB.EXP k (((c.get MON.CFG.CODE k : Int) - 512) * 4)).setI MON.RB.MEAS k meas

/-- A readback beyond RBTOL. -/
def readbackFailed (c : Chip) (k : Nat) (meas : Int) : Chip :=
  ((((readbackShown c k meas).set MON.STAT.RBFAIL k 1).flag MON.EVT.RBFAIL).inc MON.CNT.RBFAIL k).raise 27

/-- A readback within it. -/
def readbackPassed (c : Chip) (k : Nat) (meas : Int) : Chip := (readbackShown c k meas).set MON.STAT.RBFAIL k 0

/-- The readback is judged. -/
def readbackJudged (c : Chip) (k : Nat) (meas : Int) : Chip :=
  if c.get MON.TST.RBTOL < (meas - ((c.get MON.CFG.CODE k : Int) - 512) * 4).natAbs then readbackFailed c k meas
  else readbackPassed c k meas

/-- The attributes that a readback may change. -/
def readbackIds : List Nat := [MON.RB.EXP.id, MON.STAT.RBFAIL.id, MON.EVT.RBFAIL.id, MON.CNT.RBFAIL.id]

section

variable (c : Chip) (k : Nat) (meas : Int)

theorem monReadback_judges (hsettled : ∀ a lo hi, nget none c.mon.codeAt k = some (a, lo, hi) → a + usTaps ≤ c.now)
    (htest : c.inTest k = false) : c.monReadback k meas = readbackJudged c k meas := by
  have htol : (readbackShown c k meas).get MON.TST.RBTOL = c.get MON.TST.RBTOL :=
    (get_set_fld _ _ _ _ (by decide)).trans (get_set_fld _ _ _ _ (by decide))
  unfold Chip.monReadback readbackJudged
  refine (if_neg fun h => ?_).trans ?_
  · rw [htest, Bool.or_false] at h
    split at h
    · exact Nat.not_lt.2 (hsettled _ _ _ ‹_›) (of_decide_eq_true h)
    · exact absurd h (by decide)
  rw [← htol]
  exact ite_congr (propext Int.ofNat_lt) (fun _ => rfl) fun _ => rfl

theorem get_readbackShown {f : Fld} (hkey : (f.id, f.lo) ∉ fieldKeys [MON.RB.EXP, MON.RB.MEAS]) (n : Nat) :
    (readbackShown c k meas).get f n = c.get f n := by
  have hmoves : Moves [(MON.RB.EXP, k), (MON.RB.MEAS, k)] [] c (readbackShown c k meas) := (moves_refl.set _ (by simp)).set _ (by simp)
  exact hmoves.get hkey n

theorem readbackJudged_keeps : Keeps readbackIds [.flt] c (readbackJudged c k meas) := by
  have hshown : Keeps readbackIds [.flt] c (readbackShown c k meas) := keeps_setI (keeps_setI keeps_refl (by decide)) (by decide)
  refine keeps_ite (fun _ => ?_) fun _ => keeps_set hshown (by decide)
  exact keeps_raise (keeps_inc (keeps_flag (keeps_set hshown (by decide)) (by decide)) (by decide)) (by simp)

/-- Behind the values only the judgement follows. -/
theorem get_readbackJudged {f : Fld} (hkey : (f.id, f.lo) ∉ fieldKeys [MON.STAT.RBFAIL, MON.EVT.RBFAIL, MON.CNT.RBFAIL]) (n : Nat) :
    (readbackJudged c k meas).get f n = (readbackShown c k meas).get f n := by
  have hmoves : Moves [(MON.STAT.RBFAIL, k), (MON.EVT.RBFAIL, 0), (MON.CNT.RBFAIL, k)] [.flt] (readbackShown c k meas)
      (readbackJudged c k meas) :=
    Moves.ite (fun _ => (((moves_refl.set _ (by simp)).flag (by simp)).inc (by simp)).raise _ (by simp))
      fun _ => moves_refl.set _ (by simp)
  exact hmoves.get hkey n

end

theorem inTest_of_testsGroup {c : Chip} {k : Nat} (h : c.testsGroup (cmpGroup k) = false) : c.inTest k = false := by
  unfold Chip.testsGroup at h
  unfold Chip.inTest
  cases htest : c.mon.test with
  | none => rfl
  | some x =>
    rw [htest] at h
    exact beq_eq_false_iff_ne.2 fun hk => beq_eq_false_iff_ne.1 h (congrArg cmpGroup hk)

/-- In a host pass the DAC of the next comparator is read back and judged; then the check goes on or ends. -/
theorem thresholdReadback_judges {s : State} (hinv : s.Inv) {t k : Nat} (vd : Int)
    (hnext : s.chip.istNext 2 = some k) (hhost : s.chip.istHost 2 = true) (hactive : s.chip.istActive 2 = true)
    (hready : s.chip.adcReady (cmpGroup k) = true) (hfree : s.chip.serviceFree (cmpGroup k) true = true)
    (hcode : ∀ a lo hi, nget none s.chip.mon.codeAt k = some (a, lo, hi) → a + usTaps ≤ s.at_ t)
    (htests : s.chip.testsGroup (cmpGroup k) = false) : ∃ e, exec (.thresholdReadback t vd) s = .next { s with chip := e } ∧
      Keeps istIds [.ist] (readbackJudged ((s.chip.at_ t).istPaced 2) k (convert vd).1) e := by
  have hjudges := monReadback_judges ((s.chip.at_ t).istPaced 2) k (convert vd).1 hcode (inTest_of_testsGroup htests)
  have hkeeps := readbackJudged_keeps ((s.chip.at_ t).istPaced 2) k (convert vd).1
  generalize readbackJudged ((s.chip.at_ t).istPaced 2) k (convert vd).1 = d at *
  have hnow : (s.chip.at_ t).istNext 2 = some k := hnext
  have hpass : (s.chip.at_ t).istActive 2 = true := hactive
  have hvisits : ((s.chip.at_ t).istVisits 2 && (s.chip.at_ t).adcReady (cmpGroup k) && (s.chip.at_ t).serviceFree (cmpGroup k) true &&
      !(s.chip.at_ t).testsGroup (cmpGroup k)) = true := by
    have hvisits : (s.chip.at_ t).istVisits 2 = true := (if_pos hhost).trans hactive
    have hready : (s.chip.at_ t).adcReady (cmpGroup k) = true := hready
    have hfree : (s.chip.at_ t).serviceFree (cmpGroup k) true = true := hfree
    have htests : (s.chip.at_ t).testsGroup (cmpGroup k) = false := htests
    rw [hvisits, hready, hfree, htests]
    rfl
  have hvisited := istVisited_keeps d (k := 2) (by decide) k (decide ((s.chip.at_ t).get MON.CNT.RBFAIL k < d.get MON.CNT.RBFAIL k) ||
    decide ((s.chip.at_ t).flt.raised.length < d.flt.raised.length))
  have hpgm : d.pgm = s.chip.pgm := hkeeps.parts .pgm (by decide)
  refine ⟨_, ?_, hvisited⟩
  rw [exec_thresholdReadback, execThresholdReadback]
  refine run_of_chip_eq ?_ ((congrArg Pgm.wq (Eq.trans (hvisited.parts .pgm (by decide)) hpgm)).trans hinv.2)
  simp only [hnow]
  refine (if_pos hvisits).trans ?_
  simp only [hpass, if_true, hjudges]

section

variable (c : Chip) (k : Nat) (meas : Int)

theorem readbackJudged_shown : (readbackJudged c k meas).get MON.RB.MEAS k = ofSigned MON.RB.MEAS.width meas % 2 ^ MON.RB.MEAS.width ∧
    (readbackJudged c k meas).get MON.RB.EXP k =
      ofSigned MON.RB.EXP.width (((c.get MON.CFG.CODE k : Int) - 512) * 4) % 2 ^ MON.RB.EXP.width := by
  rw [get_readbackJudged c k meas (by decide), get_readbackJudged c k meas (by decide)]
  exact ⟨get_set_self _ _ _ _, (get_set_fld _ _ _ _ (by decide)).trans (get_set_self _ _ _ _)⟩

theorem readbackPassed_shows : (readbackPassed c k meas).get MON.STAT.RBFAIL k = 0 ∧ (readbackPassed c k meas).flt = c.flt :=
  ⟨get_set_self (readbackShown c k meas) MON.STAT.RBFAIL k 0, rfl⟩

theorem readbackFailed_shows : (readbackFailed c k meas).get MON.STAT.RBFAIL k = 1 ∧ (readbackFailed c k meas).get MON.EVT.RBFAIL = 1 ∧
    (readbackFailed c k meas).get MON.CNT.RBFAIL k = satN MON.CNT.RBFAIL.width (c.get MON.CNT.RBFAIL k + 1) ∧
    (readbackFailed c k meas).flt = { c.flt with raised := inFlight c 27 } := by
  have hcount : (((readbackShown c k meas).set MON.STAT.RBFAIL k 1).flag MON.EVT.RBFAIL).get MON.CNT.RBFAIL k = c.get MON.CNT.RBFAIL k :=
    (get_flag_fld _ _ _ (by decide)).trans ((get_set_fld _ _ _ _ (by decide)).trans (get_readbackShown c k meas (by decide) k))
  have hfabric : ((((readbackShown c k meas).set MON.STAT.RBFAIL k 1).flag MON.EVT.RBFAIL).inc MON.CNT.RBFAIL k).fabric = c.fabric :=
    congrArg (·.testBit 0) ((get_inc_fld _ _ _ (by decide)).trans ((get_flag_fld _ _ _ (by decide)).trans
      ((get_set_fld _ _ _ _ (by decide)).trans (get_readbackShown c k meas (by decide) 0))))
  simp only [readbackFailed, raise_get]
  refine ⟨?_, ?_, ?_, ?_⟩
  · exact (get_inc_fld _ _ _ (by decide)).trans ((get_flag_fld _ _ _ (by decide)).trans (get_set_self _ _ _ _))
  · exact (get_inc_fld _ _ _ (by decide)).trans (get_flag_self _ _ rfl)
  · rw [get_inc_self, hcount]
  · rw [raise_flt, inFlight_congr hfabric rfl rfl]
    rfl

end

/-- The blocks of what the end of a window shows: the half-bridge ports, the monitors and the in-service test. -/
theorem not_mem_closedIds {f : Fld} (h : f.id / 1024 ∉ [11, 13, 20]) : f.id ∉ MON.EVT.TFAIL.id :: closedIds := fun hmem => by
  have hall : ∀ i ∈ MON.EVT.TFAIL.id :: closedIds, i / 1024 ∈ [11, 13, 20] := by decide
  exact h (hall _ hmem)

/-- Settles O36: a window that opens or closes shows in the monitors and the ports, a readback in the monitors, and the visit that follows in
the in-service test alone. -/
theorem selfTestAndReadback : Obligations.SelfTestAndReadback := by
  unfold Obligations.SelfTestAndReadback
  refine ⟨fun s t k v hinv hnext hhost hactive hon hen hsettle htest hidle hout hsample hlo hhi hroom => ?_,
    fun s t x smp hinv htest _ => ⟨?_, ?_⟩,
    fun s t k vd d hinv hnext hhost hactive hready hfree hcode htests hd => ?_⟩
  · have hopens := monTestStart_opens (c := (s.chip.at_ t).istPaced 1) hon hen hsettle htest hidle hout hsample hlo hhi hroom
    have hmoves : Moves [(MON.STAT.TESTING, k)] [.mon, .ist] (s.chip.at_ t) { testOpened (s.chip.at_ t) k v with
        ist := { ((s.chip.at_ t).istPaced 1).ist with foreign := false } } :=
      (moves_refl.set (f := MON.STAT.TESTING) (n := k) 1 (by simp)).parts rfl rfl
    have htesting : (testOpened (s.chip.at_ t) k v).get MON.STAT.TESTING k = 1 := get_set_self (s.chip.at_ t) MON.STAT.TESTING k 1
    exact ⟨_, comparatorSelfTest_opens hinv hnext hhost hactive htest hopens, rfl, htesting, rfl,
      rfl, rfl, hmoves.rest, hmoves.fields⟩
  · have hkeeps := testPassed_keeps (s.chip.at_ t) x.cmp
    obtain ⟨htested, hres, htesting, hpass⟩ := testPassed_shows (s.chip.at_ t) x.cmp
    have hlatch : (testPassed (s.chip.at_ t) x.cmp).get MON.LATCH.LATCH = s.chip.get MON.LATCH.LATCH := hkeeps.fields _ _ (by decide)
    obtain ⟨e, hexec, hvisit⟩ := comparatorSelfTest_passes hinv (t := t) smp htest
    generalize testPassed (s.chip.at_ t) x.cmp = d at *
    have hget : ∀ f : Fld, f.id / 1024 ≠ 20 → ∀ n, e.get f n = d.get f n := fun f hf n => hvisit.fields f n (not_mem_istIds hf)
    have hmon : e.mon = d.mon := hvisit.parts .mon (by decide)
    refine ⟨_, hexec, Eq.trans (hvisit.parts .now (by decide)) (hkeeps.parts .now (by decide)), ?_, ?_, ?_, ?_, ?_,
      Eq.trans (hvisit.parts .flt (by decide)) (hkeeps.parts .flt (by decide)), rfl, fun f n hf => ?_⟩
    · exact (congrArg Mon.test hmon).trans htested
    · exact (hget _ (by decide) _).trans hres
    · exact (hget _ (by decide) _).trans htesting
    · exact (hget _ (by decide) _).trans hpass
    · exact (hget _ (by decide) _).trans hlatch
    · exact (hget f (fun h => hf (by simp [h])) n).trans
        (hkeeps.fields f n fun h => not_mem_closedIds hf (List.mem_cons_of_mem _ h))
  · have hfailed := testFailed_keeps (s.chip.at_ t) x.cmp
    have hshows := testFailed_shows (s.chip.at_ t) x.cmp
    have hflt := testFailed_flt (s.chip.at_ t) x.cmp
    have hsame : ∀ f : Fld, (f.id, f.lo) ∉ fieldKeys (closedFlds ++ [MON.CNT.TFAIL, MON.EVT.TFAIL]) → f.id ∉ portIds → ∀ n,
        (testFailed (s.chip.at_ t) x.cmp).get f n = s.chip.get f n := fun f hkey hid n => get_testFailed _ _ hkey hid n
    have hkeeps := failTripped_testFailed_keeps (s.chip.at_ t) x.cmp
    obtain ⟨e, hexec, hvisit⟩ := comparatorSelfTest_fails hinv (t := t) smp htest
    generalize testFailed (s.chip.at_ t) x.cmp = d at *
    obtain ⟨htested, hres, htesting, hevt, hcount⟩ := hshows
    have hget : ∀ f : Fld, f.id / 1024 ≠ 20 → (f.id, f.lo) ∉ fieldKeys latchFlds → f.id ∉ MON.HOLD.HELD.id :: heldIds → ∀ n,
        e.get f n = d.get f n := fun f hf hkey hid n => (hvisit.fields f n (not_mem_istIds hf)).trans (get_failTripped hkey hid n)
    have hmon : e.mon = (failTripped d x.cmp).mon := hvisit.parts .mon (by decide)
    refine ⟨_, hexec, Eq.trans (hvisit.parts .now (by decide)) (hkeeps.parts .now (by decide)), ?_, ?_, ?_, ?_, ?_, ?_, fun hoff => ?_,
      fun htrip hlen hk => ?_⟩
    · exact (congrArg Mon.test hmon).trans (failTripped_test.trans htested)
    · exact (hget _ (by decide) (by decide) (by decide) _).trans hres
    · exact (hget _ (by decide) (by decide) (by decide) _).trans htesting
    · exact (hget _ (by decide) (by decide) (by decide) _).trans hevt
    · exact (hget _ (by decide) (by decide) (by decide) _).trans hcount
    · exact (hget _ (by decide) (by decide) (by decide) _).trans (hsame _ (by decide) (by decide) _)
    · rw [failTripped_off (hoff.imp (on_of_get (hsame _ (by decide) (by decide) _)).trans
        (on_of_get (hsame _ (by decide) (by decide) _)).trans)] at hvisit
      refine ⟨Eq.trans (hvisit.parts .flt (by decide)) hflt, ?_, fun f n hf => ?_⟩
      · exact (hvisit.fields _ _ (by decide)).trans (hsame _ (by decide) (by decide) _)
      · exact (hvisit.fields f n (not_mem_istIds fun h => hf (by simp [h]))).trans (hfailed.fields f n (not_mem_closedIds hf))
    · rw [hvisit.fields _ _ (by decide), failTripped_on ((on_of_get (hsame _ (by decide) (by decide) _)).trans htrip)
        ((on_of_get (hsame _ (by decide) (by decide) _)).trans hlen)]
      exact latch_setLatch _ _ (by omega)
  · subst hd
    have hkeeps := readbackJudged_keeps ((s.chip.at_ t).istPaced 2) k (convert vd).1
    have hvalues := readbackJudged_shown ((s.chip.at_ t).istPaced 2) k (convert vd).1
    have hwithin : _ → readbackJudged ((s.chip.at_ t).istPaced 2) k (convert vd).1 = _ := fun h => if_neg (Nat.not_lt.2 h)
    have hbeyond : _ → readbackJudged ((s.chip.at_ t).istPaced 2) k (convert vd).1 = _ := fun h => if_pos h
    have hpassed := readbackPassed_shows ((s.chip.at_ t).istPaced 2) k (convert vd).1
    have hfailed := readbackFailed_shows ((s.chip.at_ t).istPaced 2) k (convert vd).1
    obtain ⟨e, hexec, hvisit⟩ := thresholdReadback_judges hinv vd hnext hhost hactive hready hfree hcode htests
    generalize readbackJudged ((s.chip.at_ t).istPaced 2) k (convert vd).1 = d at *
    generalize readbackPassed ((s.chip.at_ t).istPaced 2) k (convert vd).1 = d₀ at *
    generalize readbackFailed ((s.chip.at_ t).istPaced 2) k (convert vd).1 = d₁ at *
    have hget : ∀ f : Fld, f.id / 1024 ≠ 20 → ∀ n, e.get f n = d.get f n := fun f hf n => hvisit.fields f n (not_mem_istIds hf)
    have hflt : e.flt = d.flt := hvisit.parts .flt (by decide)
    refine ⟨_, hexec, Eq.trans (hvisit.parts .now (by decide)) (hkeeps.parts .now (by decide)),
      fun f n hf hid => (hget f hf n).trans (hkeeps.fields f n hid), (hget _ (by decide) k).trans hvalues.1,
      (hget _ (by decide) k).trans hvalues.2, fun h => ?_, fun h => ?_⟩
    · obtain ⟨hrb, hquiet⟩ := hpassed
      rw [hget _ (by decide), hflt, hwithin h]
      exact ⟨hrb, hquiet⟩
    · obtain ⟨hrb, hevt, hcount, hraised⟩ := hfailed
      rw [hget _ (by decide), hget _ (by decide), hget _ (by decide), hflt, hbeyond h]
      exact ⟨hrb, hevt, hcount, hraised⟩

end Sys2Proof.Scope
end

section
/-! CLAIM. One step from a sound state (R293). -/

namespace Sys2Proof.Scope

open Sys2Proof.Machine Sys2Proof.Laws

/-- SRAM writes entered one after the other keep the canonical form, and none is left (R293). -/
theorem flush_inv {s : State} (hwf : Memory.wf s.sram = true) : (flush s).Inv := ⟨writeWords_wf _ _ hwf, rfl⟩

/-- Every meaning has the one shape: the command leaves some chip, whose SRAM writes are then entered, and the queue as it was. -/
theorem exec_flushes (i : Instr) (s : State) : ∃ c, exec i s = .next (flush { s with chip := c }) := by
  cases i <;> exact ⟨_, rfl⟩

/-- Whatever a command does to the chip, it answers a sound state. -/
theorem exec_keeps_inv (i : Instr) {s : State} (hinv : s.Inv) : ∃ u, exec i s = .next u ∧ u.Inv ∧ u.pending = s.pending := by
  obtain ⟨hwf, -⟩ := hinv
  obtain ⟨c, hexec⟩ := exec_flushes i s
  exact ⟨_, hexec, flush_inv hwf, flush_pending _⟩

/-- Settles O2: every meaning is a `run`, which enters its SRAM writes one by one, each in canonical form, and leaves the queue alone; the
step has taken the front off it before. -/
theorem stepKeepsSoundState : Obligations.StepKeepsSoundState := by
  unfold Obligations.StepKeepsSoundState
  intro s hinv
  unfold step
  split
  next hempty => exact ⟨s, rfl, hinv, by rw [hempty, List.tail_nil]⟩
  next i rest hfront =>
    obtain ⟨u, hexec, hu, hpending⟩ := exec_keeps_inv i (s := { s with pending := rest }) hinv
    exact ⟨u, hexec, hu, by rw [hpending, hfront, List.tail_cons]⟩

end Sys2Proof.Scope
end

section
/-! CLAIM. PAGE_REQUEST, CAPTURE_TRIGGER and PAGE_RETIRE (R294, R303, R310): nothing bounds the numbers of the pages that a ring holds. -/

namespace Sys2Proof.Scope

open Sys2Proof.Machine Sys2Proof.Machine.Reg Sys2Proof.Laws

/-- A page far beyond the 2,048 of R293: by the rule of R310 its descriptor lies at the grid unit's CFG, its mark TRG at VBASE. -/
def strayPage : Nat := 256 * (GRD.CFG.VBASE.id - PGM.PDSC.TRG.id)

/-- Ring 0 is armed, and the stray page is open. -/
def strayFields : List (Fld × Nat × Nat) :=
  [(PGM.CAP.STATE, 0, rsArmed), (pdsc PGM.PDSC.PST strayPage, strayPage % 256, pstOpen)]

/-- Ring 0 holds the stray page, and a host trigger for it is in flight since instant 0. -/
def strayRing : State :=
  { chip := strayFields.foldl (fun c e => c.set e.1 e.2.1 e.2.2)
      { pgm := { rings := [(0, { pages := [strayPage] })], trig := [(.host 1, 0)] } }
    sram := []
    pending := [] }

theorem strayRing_inv : strayRing.Inv := ⟨rfl, rfl⟩

theorem strayRing_vbase : strayRing.chip.get GRD.CFG.VBASE ≠ 1 := by decide +kernel

/-- The trigger is the oldest whose instant has come. -/
theorem strayRing_trigger :
    strayRing.chip.pgm.trig.find? (fun y => decide (y.2 ≤ (strayRing.chip.at_ 0).raw (strayRing.at_ 0))) = some (.host 1, 0) := by
  decide +kernel

/-- The stray page is the trigger page: where its mark is set stands the grid unit's base voltage. -/
theorem captureTrigger_strayRing : ∃ u, exec (.captureTrigger 0) strayRing = .next u ∧ u.chip.get GRD.CFG.VBASE = 1 := by
  refine ⟨_, rfl, ?_⟩
  decide +kernel

/-- Refutes O40: the invariant does not bound the pages of a ring. Where an armed ring holds open page 507904, its trigger marks that
page's descriptor and so writes GRD.CFG.VBASE, which is no field of the page manager. -/
theorem not_pagesAndTriggers : ¬ Obligations.PagesAndTriggers := by
  unfold Obligations.PagesAndTriggers
  rintro ⟨-, -, -, htrigger, -, -⟩
  obtain ⟨v, hv, hmarked⟩ := captureTrigger_strayRing
  obtain ⟨u, hu, -, -, -, hframe, -⟩ := htrigger strayRing 0 0 (.host 1) strayRing_inv strayRing_trigger
  obtain rfl : v = u := Host.Outcome.next.inj (hv.symm.trans hu)
  have hsame : v.chip.get GRD.CFG.VBASE = strayRing.chip.get GRD.CFG.VBASE := hframe _ _ (by decide)
  exact strayRing_vbase (hsame.symm.trans hmarked)

end Sys2Proof.Scope
end

section
/-! SUPPORT. A command with its frame by fields. -/

namespace Sys2Proof.Scope

open Sys2Proof.Machine Sys2Proof.Machine.Reg Sys2Proof.Laws

/-- A command whose frame leaves the page manager writes no SRAM. -/
theorem run_moves {f : Memory → Chip → Chip} {s : State} {t : Nat} {l : List (Fld × Nat)} {ps : List Part} {c : Chip} (hinv : s.Inv)
    (hf : f s.sram s.chip = c) (hc : Moves l ps (s.chip.at_ t) c) (hps : Part.pgm ∉ ps) : run f s = .next { s with chip := c } := by
  obtain ⟨-, hwq⟩ := hinv
  exact run_of_chip_eq hf ((congrArg Pgm.wq (hc.pgm hps)).trans hwq)

end Sys2Proof.Scope
end

section
/-! SUPPORT. The delay-locked line and the reference clocks (R316 to R322): what each change shows, and its frame. -/

namespace Sys2Proof.Scope

open Sys2Proof.Machine Sys2Proof.Machine.Reg Sys2Proof.Laws

/-! The delay-locked line -/

/-- The line locks; after a loss the shadow chain takes over (R316, R319). -/
def lineLocked (c : Chip) : Chip :=
  { c with tim := { c.tim with
    unlockAt := none, chainB := if c.tim.unlockAt.isSome then !c.tim.chainB else c.tim.chainB } }.set TIM.STAT.DLLOCK 0 1

/-- The chains change places (R318). -/
def chainSwitched (c : Chip) : Chip := { c with tim := { c.tim with chainB := !c.tim.chainB } }

/-- Lock is lost (R319). -/
def lineUnlocked (c : Chip) : Chip :=
  (({ c with tim := { c.tim with unlockAt := some c.now } }.set TIM.STAT.DLLOCK 0 0).flag TIM.EVT.DLLUL).raise 40

section

variable (c : Chip)

theorem lineLocked_moves : Moves [(TIM.STAT.DLLOCK, 0)] [.tim] c (lineLocked c) :=
  moves_refl.set (f := TIM.STAT.DLLOCK) (n := 0) 1 (by simp) |>.parts rfl rfl

theorem tim_lineLocked : (lineLocked c).tim = { c.tim with unlockAt := none, chainB := c.tim.unlockAt.isSome != c.tim.chainB } := by
  have hchain : (if c.tim.unlockAt.isSome then !c.tim.chainB else c.tim.chainB) = (c.tim.unlockAt.isSome != c.tim.chainB) := by
    cases c.tim.unlockAt.isSome <;> simp
  rw [← hchain]
  rfl

theorem chainSwitched_moves : Moves [] [.tim] c (chainSwitched c) := moves_refl.parts rfl rfl

theorem lineUnlocked_moves : Moves [(TIM.STAT.DLLOCK, 0), (TIM.EVT.DLLUL, 0)] [.tim, .flt] c (lineUnlocked c) := by
  have htim : Moves [(TIM.STAT.DLLOCK, 0), (TIM.EVT.DLLUL, 0)] [.tim, .flt] c { c with tim := { c.tim with unlockAt := some c.now } } :=
    moves_refl.parts rfl rfl
  exact ((htim.set (f := TIM.STAT.DLLOCK) (n := 0) 0 (by simp)).flag (f := TIM.EVT.DLLUL) (n := 0) (by simp)).raise 40 (by simp)

theorem get_lineUnlocked : (lineUnlocked c).get TIM.STAT.DLLOCK = 0 ∧ (lineUnlocked c).get TIM.EVT.DLLUL = 1 :=
  ⟨(raise_get _ _ _ _ _ _).trans ((get_flag_fld _ _ _ (by decide)).trans (get_set_self _ _ _ _)),
    (raise_get _ _ _ _ _ _).trans (get_flag_self _ _ rfl)⟩

theorem flt_lineUnlocked : (lineUnlocked c).flt = { c.flt with raised := inFlight c 40 } := by
  have hfabric : (({ c with tim := { c.tim with unlockAt := some c.now } }.set TIM.STAT.DLLOCK 0 0).flag TIM.EVT.DLLUL).fabric =
      c.fabric := congrArg (·.testBit 0) ((get_flag_fld _ _ _ (by decide)).trans (get_set_fld _ _ _ _ (by decide)))
  exact (raise_flt _ _).trans (by rw [inFlight_congr (c := c) hfabric rfl rfl]; rfl)

end

section

variable {s : State} (hinv : s.Inv) (t : Nat)

include hinv

theorem dllLock_locks (hrel : s.chip.released 1 = true) (hoff : s.chip.on TIM.STAT.DLLOCK = false) :
    exec (.dllLock t) s = .next { s with chip := lineLocked (s.chip.at_ t) } := by
  rw [exec_dllLock, execDllLock]
  exact run_moves hinv (if_pos ⟨hrel, ne_true_of_eq_false hoff⟩) (lineLocked_moves (s.chip.at_ t)) (by decide)

theorem dllChainSwitch_switches (hrel : s.chip.released 1 = true) (hon : s.chip.on TIM.STAT.DLLOCK = true) :
    exec (.dllChainSwitch t) s = .next { s with chip := chainSwitched (s.chip.at_ t) } := by
  rw [exec_dllChainSwitch, execDllChainSwitch]
  exact run_moves hinv (if_pos ⟨hrel, hon⟩) (chainSwitched_moves (s.chip.at_ t)) (by decide)

theorem dllUnlock_unlocks (hrel : s.chip.released 1 = true) (hon : s.chip.on TIM.STAT.DLLOCK = true) :
    exec (.dllUnlock t) s = .next { s with chip := lineUnlocked (s.chip.at_ t) } := by
  rw [exec_dllUnlock, execDllUnlock]
  exact run_moves hinv (if_pos ⟨hrel, hon⟩) (lineUnlocked_moves (s.chip.at_ t)) (by decide)

theorem dll_waits (hrel : s.chip.released 1 = false) : exec (.dllLock t) s = .next (s.waits t) ∧
    exec (.dllChainSwitch t) s = .next (s.waits t) ∧ exec (.dllUnlock t) s = .next (s.waits t) := by
  rw [exec_dllLock, execDllLock, exec_dllChainSwitch, execDllChainSwitch, exec_dllUnlock, execDllUnlock]
  exact ⟨run_waits hinv (if_neg fun h => ne_true_of_eq_false hrel h.1), run_waits hinv (if_neg fun h => ne_true_of_eq_false hrel h.1),
    run_waits hinv (if_neg fun h => ne_true_of_eq_false hrel h.1)⟩

end

/-! The state of an input (R320) -/

/-- The field that shows the state of REFCLKA or REFCLKB. -/
def clkField (b : Bool) : Fld := if b then TIM.STAT.CLKB else TIM.STAT.CLKA

section

variable (c : Chip) (b : Bool) (v : Nat)

theorem setClk_moves : Moves [(clkField b, 0)] [.tim] c (c.setClk b v) :=
  (moves_refl.set (f := clkField b) v (by simp)).parts rfl rfl

theorem clk_setClk {v : Nat} (h : v < 4) : (c.setClk b v).clk b = v := by
  refine (get_set_self c (clkField b) 0 v).trans ?_
  cases b <;> exact Nat.mod_eq_of_lt h

theorem clk_setClk_not : (c.setClk b v).clk (!b) = c.clk (!b) := by
  cases b <;> exact get_set_fld c 0 0 v (by decide)

theorem clkField_ne {g : Fld} (ha : (g.id, g.lo) ≠ (TIM.STAT.CLKA.id, TIM.STAT.CLKA.lo))
    (hb : (g.id, g.lo) ≠ (TIM.STAT.CLKB.id, TIM.STAT.CLKB.lo)) : (g.id, g.lo) ≠ ((clkField b).id, (clkField b).lo) := by
  cases b
  · exact ha
  · exact hb

theorem get_setClk_other {g : Fld} (n : Nat) (ha : (g.id, g.lo) ≠ (TIM.STAT.CLKA.id, TIM.STAT.CLKA.lo))
    (hb : (g.id, g.lo) ≠ (TIM.STAT.CLKB.id, TIM.STAT.CLKB.lo)) : (c.setClk b v).get g n = c.get g n :=
  get_set_fld c 0 n v (clkField_ne b ha hb)

theorem tim_setClk_bad {v : Nat} (h : v ≠ 0) : (c.setClk b v).tim = { c.tim with
    goodAt := nset none c.tim.goodAt (bit b) none, badAt := nset 0 c.tim.badAt (bit b) c.now } := by
  simp [Chip.setClk, h]

end

/-! The switch to the other input (R321) -/

/-- The fields in which the switch shows. -/
def switchFields : List (Fld × Nat) := [(TIM.STAT.SEL, 0), (TIM.EVT.CLKSW, 0), (TIM.CNT.CLKSW, 0)]

section

variable (c : Chip)

theorem switchClk_moves : Moves switchFields [.flt] c c.switchClk :=
  (((moves_refl.set (f := TIM.STAT.SEL) (n := 0) _ (by simp [switchFields])).flag (f := TIM.EVT.CLKSW) (n := 0)
    (by simp [switchFields])).inc (f := TIM.CNT.CLKSW) (n := 0) (by simp [switchFields])).raise 7 (by simp)

theorem switchClk_now : c.switchClk.now = c.now := raise_now _ _ _ _

theorem get_switchClk {g : Fld} (h : (g.id, g.lo) ∉ fieldKeys [TIM.STAT.SEL, TIM.EVT.CLKSW, TIM.CNT.CLKSW]) (n : Nat) :
    c.switchClk.get g n = c.get g n := (switchClk_moves c).get h n

theorem flt_switchClk : c.switchClk.flt = { c.flt with raised := inFlight c 7 } := by
  have hfabric : (((c.setB TIM.STAT.SEL 0 (!c.selB)).flag TIM.EVT.CLKSW).inc TIM.CNT.CLKSW).fabric = c.fabric :=
    congrArg (·.testBit 0) ((get_inc_fld _ _ _ (by decide)).trans ((get_flag_fld _ _ _ (by decide)).trans (get_set_fld _ _ _ _ (by decide))))
  exact (raise_flt _ _).trans (by rw [inFlight_congr (c := c) hfabric rfl rfl]; rfl)

theorem switchClk_shows : c.switchClk.selB = !c.selB ∧ c.switchClk.get TIM.EVT.CLKSW = 1 ∧
    c.switchClk.get TIM.CNT.CLKSW = satN TIM.CNT.CLKSW.width (c.get TIM.CNT.CLKSW + 1) := by
  refine ⟨?_, ?_, ?_⟩
  · have hsel : c.switchClk.get TIM.STAT.SEL = bit (!c.selB) := (raise_get _ _ _ _ _ _).trans ((get_inc_fld _ _ _ (by decide)).trans
      ((get_flag_fld _ _ _ (by decide)).trans (get_setB_self _ _ _ rfl)))
    rw [Chip.selB, Chip.on, hsel]
    cases c.selB <;> rfl
  · exact (raise_get _ _ _ _ _ _).trans ((get_inc_fld _ _ _ (by decide)).trans (get_flag_self _ _ rfl))
  · refine (raise_get _ _ _ _ _ _).trans ((get_inc_self _ _ _).trans ?_)
    rw [get_flag_fld _ _ _ (by decide), Chip.setB, get_set_fld _ _ _ _ (by decide)]

end

/-! An input has failed (R322) -/

/-- The failure of an input is noted. -/
def failNoted (c : Chip) (b : Bool) : Chip := { c with tim := { c.tim with failRaised := nset 0 c.tim.failRaised (bit b) 1 } }

section

variable (c : Chip) (b : Bool)

theorem clkFail_again (h : nget 0 c.tim.failRaised (bit b) = 1) : c.clkFail b = c := if_pos h

theorem clkFail_first (h : nget 0 c.tim.failRaised (bit b) ≠ 1) : c.clkFail b = (failNoted c b).raise 6 := if_neg h

theorem failNoted_moves : Moves [] [.tim, .flt] c (failNoted c b) := moves_refl.parts rfl rfl

theorem clkFail_moves : Moves [] [.tim, .flt] c (c.clkFail b) :=
  Moves.ite (fun _ => moves_refl) fun _ => (failNoted_moves c b).raise 6 (by simp)

theorem clkFail_now : (c.clkFail b).now = c.now := by
  unfold Chip.clkFail
  split
  · rfl
  · exact raise_now _ _ _ _

theorem get_clkFail (g : Fld) (n : Nat) : (c.clkFail b).get g n = c.get g n := (clkFail_moves c b).get List.not_mem_nil n

/-- What an input's failure raises: REFCLK_FAIL once per episode. -/
def failEvents (c : Chip) (b : Bool) : List Raised := if nget 0 c.tim.failRaised (bit b) = 1 then [] else [⟨6, 0, c.now, false⟩]

theorem clkFail_shows (hfabric : c.fabric = true) : (c.clkFail b).tim = { c.tim with failRaised := (c.clkFail b).tim.failRaised } ∧
    nget 0 (c.clkFail b).tim.failRaised (bit b) = 1 ∧ (c.clkFail b).flt = { c.flt with raised := c.flt.raised ++ failEvents c b } := by
  by_cases h : nget 0 c.tim.failRaised (bit b) = 1
  · rw [clkFail_again c b h, failEvents, if_pos h, List.append_nil]
    exact ⟨rfl, h, rfl⟩
  · have htim : ((failNoted c b).raise 6).tim = (failNoted c b).tim := by rw [raise_eq]
    have hraised : inFlight (failNoted c b) 6 = c.flt.raised ++ [⟨6, 0, c.now, false⟩] := if_pos hfabric
    rw [clkFail_first c b h, failEvents, if_neg h, htim, raise_flt, hraised]
    exact ⟨rfl, nget_nset_self 0 c.tim.failRaised (bit b) 1, rfl⟩

end

end Sys2Proof.Scope
end

section
/-! SUPPORT. The reference clocks' commands (R320 to R322). -/

namespace Sys2Proof.Scope

open Sys2Proof.Machine Sys2Proof.Machine.Reg Sys2Proof.Laws

/-! An input is GOOD again (R320) -/

/-- Input b is GOOD, and an episode of failure has ended. -/
def clkGood (c : Chip) (b : Bool) : Chip :=
  { c.setClk b 0 with tim := { (c.setClk b 0).tim with failRaised := nset 0 (c.setClk b 0).tim.failRaised (bit b) 0 } }

theorem clkGood_moves (c : Chip) (b : Bool) : Moves [(clkField b, 0)] [.tim] c (clkGood c b) := (setClk_moves c b 0).parts rfl rfl

section

variable {s : State} (hinv : s.Inv) (t : Nat) (b : Bool)

include hinv

theorem refclkGood_good (hbad : s.chip.clk b ≠ 0) (hdue : nget 0 s.chip.tim.badAt (bit b) + 100 * msTaps ≤ s.at_ t) :
    exec (.refclkGood t b) s = .next { s with chip := clkGood (s.chip.at_ t) b } := by
  rw [exec_refclkGood, execRefclkGood]
  exact run_moves hinv (if_pos ⟨hbad, hdue⟩) (clkGood_moves (s.chip.at_ t) b) (by decide)

theorem refclkGood_waits (h : s.chip.clk b = 0 ∨ s.at_ t < nget 0 s.chip.tim.badAt (bit b) + 100 * msTaps) :
    exec (.refclkGood t b) s = .next (s.waits t) := by
  rw [exec_refclkGood, execRefclkGood]
  exact run_waits hinv (if_neg fun ⟨hbad, hdue⟩ => h.elim hbad (Nat.not_lt.2 hdue))

end

/-! An input fails (R320 to R322) -/

/-- The command takes input b to LOSS (code 1), or to DRIFT (code 2) beyond FTOL. -/
def InputFails (s : State) (t ppb code : Nat) (b : Bool) (i : Instr) : Prop :=
  (i = .refclkLoss t b ∧ code = 1) ∨ (i = .refclkDrift t ⟨b, ppb⟩ ∧ 1000 * s.chip.get TIM.CLK.FTOL < ppb ∧ code = 2)

section

variable (c : Chip) (b : Bool) (code : Nat)

theorem released_setClk (i : Nat) : (c.setClk b code).released i = c.released i :=
  congrArg (·.testBit i) (get_setClk_other c b code 0 (by decide) (by decide))

theorem selB_setClk : (c.setClk b code).selB = c.selB := on_of_get (get_setClk_other c b code 0 (by decide) (by decide))

theorem clkBad_held (hrel : c.released 1 = false) : c.clkBad b code = c.setClk b code :=
  if_pos (ne_true_of_eq_false ((released_setClk c b code 1).trans hrel))

theorem clkBad_selected (hrel : c.released 1 = true) (hsel : c.selB = b) (hother : c.clk (!b) = 0) :
    c.clkBad b code = (c.setClk b code).switchClk.clkFail b := by
  refine (if_neg (not_not.2 ((released_setClk c b code 1).trans hrel))).trans
    ((if_pos (beq_iff_eq.2 ((selB_setClk c b code).trans hsel))).trans (if_pos ((clk_setClk_not c b code).trans hother)))

theorem clkBad_other (hrel : c.released 1 = true) (hsel : c.selB ≠ b) : c.clkBad b code = (c.setClk b code).clkFail b :=
  (if_neg (not_not.2 ((released_setClk c b code 1).trans hrel))).trans
    (if_neg fun h => hsel ((selB_setClk c b code).symm.trans (beq_iff_eq.1 h)))

end

section

variable {s : State} (hinv : s.Inv) {t ppb code : Nat} {b : Bool} {i : Instr}

include hinv

theorem inputFails_exec (h : InputFails s t ppb code b i) {l : List (Fld × Nat)} {ps : List Part} {c : Chip}
    (hc : (s.chip.at_ t).clkBad b code = c) (hmoves : Moves l ps (s.chip.at_ t) c) (hps : Part.pgm ∉ ps) :
    exec i s = .next { s with chip := c } := by
  rcases h with ⟨rfl, rfl⟩ | ⟨rfl, hfar, rfl⟩
  · rw [exec_refclkLoss, execRefclkLoss]
    exact run_moves hinv hc hmoves hps
  · rw [exec_refclkDrift, execRefclkDrift]
    exact run_moves hinv ((if_pos hfar).trans hc) hmoves hps

theorem refclkDrift_waits (hnear : ppb ≤ 1000 * s.chip.get TIM.CLK.FTOL) : exec (.refclkDrift t ⟨b, ppb⟩) s = .next (s.waits t) := by
  rw [exec_refclkDrift, execRefclkDrift]
  exact run_waits hinv (if_neg (Nat.not_lt.2 hnear))

omit hinv in
theorem InputFails.code_lt (h : InputFails s t ppb code b i) : code < 4 ∧ code ≠ 0 := by
  rcases h with ⟨-, rfl⟩ | ⟨-, -, rfl⟩ <;> decide

end

/-- What the failure of input b shows, when the device may go on with the other. -/
structure InputFailed (c : Chip) (b : Bool) (code : Nat) (e : Chip) : Prop where
  moves : Moves ((clkField b, 0) :: switchFields) [.tim, .flt] c e
  now : e.now = c.now
  clk : e.clk b = code
  other : e.clk (!b) = c.clk (!b)
  sel : e.selB = if c.selB = b then !b else c.selB
  count : e.get TIM.CNT.CLKSW = if c.selB = b then satN TIM.CNT.CLKSW.width (c.get TIM.CNT.CLKSW + 1) else c.get TIM.CNT.CLKSW
  tim : e.tim = { c.tim with
    goodAt := nset none c.tim.goodAt (bit b) none, badAt := nset 0 c.tim.badAt (bit b) c.now, failRaised := e.tim.failRaised }
  noted : nget 0 e.tim.failRaised (bit b) = 1
  flt : e.flt = { c.flt with raised :=
    c.flt.raised ++ (if c.selB = b then [⟨7, 0, c.now, false⟩] else []) ++ failEvents c b }

section

variable {c : Chip} {b : Bool} {code : Nat} (hfabric : c.fabric = true) (hcode : code < 4 ∧ code ≠ 0)

include hfabric hcode

/-- A failure reported after a change that shows in the switch alone. -/
theorem clkFail_failed {d : Chip} {ev : List Raised} (hsel : d.selB = if c.selB = b then !b else c.selB)
    (hcount : d.get TIM.CNT.CLKSW = if c.selB = b then satN TIM.CNT.CLKSW.width (c.get TIM.CNT.CLKSW + 1) else c.get TIM.CNT.CLKSW)
    (hev : ev = if c.selB = b then [⟨7, 0, c.now, false⟩] else []) (hflt : d.flt = { c.flt with raised := c.flt.raised ++ ev })
    (hd : Moves switchFields [.flt] (c.setClk b code) d) (hnow : d.now = c.now) : InputFailed c b code (d.clkFail b) := by
  obtain ⟨hlt, hbad⟩ := hcode
  have hclk : ∀ x : Bool, d.clk x = (c.setClk b code).clk x := fun x => by cases x <;> exact hd.get (by decide) 0
  have htim : d.tim = (c.setClk b code).tim := hd.part (p := .tim) (by decide) (by decide)
  have hfabric' : d.fabric = true :=
    (congrArg (·.testBit 0) ((hd.get (by decide) 0).trans (get_setClk_other c b code 0 (by decide) (by decide)))).trans hfabric
  obtain ⟨hft, hnoted, hff⟩ := clkFail_shows d b hfabric'
  have hevents : failEvents d b = failEvents c b := by rw [failEvents, htim, tim_setClk_bad _ _ hbad, hnow, ← failEvents]
  exact
    { moves := ((setClk_moves c b code).mono (by simp) (by simp)).trans ((hd.mono (fun _ h => List.mem_cons_of_mem _ h) (by simp)).trans
        ((clkFail_moves d b).mono (by simp) (by simp)))
      now := (clkFail_now d b).trans hnow
      clk := (get_clkFail d b _ _).trans ((hclk b).trans (clk_setClk c b hlt))
      other := (get_clkFail d b _ _).trans ((hclk (!b)).trans (clk_setClk_not c b code))
      sel := (on_of_get (get_clkFail d b _ _)).trans hsel
      count := (get_clkFail d b _ _).trans hcount
      tim := by rw [hft, htim, tim_setClk_bad _ _ hbad]
      noted := hnoted
      flt := by rw [hff, hflt, hevents, hev] }

theorem clkBad_fails (hrel : c.released 1 = true) (hother : c.selB = b → c.clk (!b) = 0) : InputFailed c b code (c.clkBad b code) := by
  have hcount : (c.setClk b code).get TIM.CNT.CLKSW = c.get TIM.CNT.CLKSW := get_setClk_other c b code 0 (by decide) (by decide)
  by_cases h : c.selB = b
  · obtain ⟨hsel, -, hsw⟩ := switchClk_shows (c.setClk b code)
    have hraised : inFlight (c.setClk b code) 7 = c.flt.raised ++ [⟨7, 0, c.now, false⟩] :=
      if_pos ((released_setClk c b code 0).trans hfabric)
    rw [clkBad_selected c b code hrel h (hother h)]
    exact clkFail_failed hfabric hcode (by rw [hsel, selB_setClk, if_pos h, h]) (by rw [hsw, hcount, if_pos h]) (if_pos h).symm
      ((flt_switchClk _).trans (by rw [hraised]; rfl)) (switchClk_moves _) (switchClk_now _)
  · rw [clkBad_other c b code hrel h]
    exact clkFail_failed hfabric hcode (by rw [selB_setClk, if_neg h]) (by rw [hcount, if_neg h]) (if_neg h).symm
      (by rw [List.append_nil]; rfl) moves_refl rfl

end

/-! The preferred input (R321) -/

/-- PREF is written, and takes effect. -/
def prefSet (c : Chip) (b : Bool) : Chip := (c.setB TIM.CLK.PREF 0 b).prefWritten

/-- Both inputs are GOOD while TB is released: the device follows PREF. -/
def Follows (c : Chip) : Prop := c.released 1 = true ∧ c.clk false = 0 ∧ c.clk true = 0

section

variable (c : Chip) (b : Bool)

theorem pref_setB_other {f : Fld} (h : (f.id, f.lo) ≠ (TIM.CLK.PREF.id, TIM.CLK.PREF.lo)) (n : Nat) :
    (c.setB TIM.CLK.PREF 0 b).get f n = c.get f n := get_set_fld _ _ _ _ h

theorem prefWritten_iff : ((c.setB TIM.CLK.PREF 0 b).released 1 && (c.setB TIM.CLK.PREF 0 b).clk false == 0 &&
    (c.setB TIM.CLK.PREF 0 b).clk true == 0 && (c.setB TIM.CLK.PREF 0 b).selB != (c.setB TIM.CLK.PREF 0 b).on TIM.CLK.PREF) = true ↔
    Follows c ∧ c.selB ≠ b := by
  have hrel : (c.setB TIM.CLK.PREF 0 b).released 1 = c.released 1 := congrArg (·.testBit 1) (pref_setB_other c b (by decide) 0)
  have ha : (c.setB TIM.CLK.PREF 0 b).clk false = c.clk false := pref_setB_other c b (by decide) 0
  have hb : (c.setB TIM.CLK.PREF 0 b).clk true = c.clk true := pref_setB_other c b (by decide) 0
  have hsel : (c.setB TIM.CLK.PREF 0 b).selB = c.selB := on_of_get (pref_setB_other c b (by decide) 0)
  have hpref : (c.setB TIM.CLK.PREF 0 b).on TIM.CLK.PREF = b := by
    rw [Chip.on, get_setB_self _ _ _ rfl]
    cases b <;> rfl
  simp only [hrel, ha, hb, hsel, hpref, Follows, Bool.and_eq_true, beq_iff_eq, bne_iff_ne, and_assoc]

theorem prefSet_switches (h : Follows c) (hne : c.selB ≠ b) : prefSet c b = (c.setB TIM.CLK.PREF 0 b).switchClk :=
  if_pos ((prefWritten_iff c b).2 ⟨h, hne⟩)

theorem prefSet_stays (h : ¬Follows c ∨ c.selB = b) : prefSet c b = c.setB TIM.CLK.PREF 0 b :=
  if_neg fun hcond => by
    obtain ⟨hf, hne⟩ := (prefWritten_iff c b).1 hcond
    exact h.elim (· hf) hne

theorem prefSet_moves : Moves ((TIM.CLK.PREF, 0) :: switchFields) [.flt] c (prefSet c b) := by
  have hset : Moves ((TIM.CLK.PREF, 0) :: switchFields) [.flt] c (c.setB TIM.CLK.PREF 0 b) := moves_refl.set _ (by simp)
  exact Moves.ite (fun _ => hset.trans ((switchClk_moves _).mono (fun _ h => List.mem_cons_of_mem _ h) (by simp))) fun _ => hset

theorem prefSet_now : (prefSet c b).now = c.now := by
  unfold prefSet Chip.prefWritten
  split
  · exact switchClk_now _
  · rfl

theorem get_prefSet_pref : (prefSet c b).get TIM.CLK.PREF = bit b := by
  unfold prefSet Chip.prefWritten
  split
  · exact (get_switchClk _ (by decide) 0).trans (get_setB_self _ _ _ rfl)
  · exact get_setB_self _ _ _ rfl

/-- The device follows PREF at once; a switch is reported. -/
theorem prefSet_follows (h : Follows c) : (prefSet c b).selB = b ∧
    (prefSet c b).flt = if c.selB = b then c.flt else { c.flt with raised := inFlight c 7 } := by
  have hsel : (c.setB TIM.CLK.PREF 0 b).selB = c.selB := on_of_get (pref_setB_other c b (by decide) 0)
  by_cases hb : c.selB = b
  · rw [prefSet_stays c b (.inr hb), if_pos hb]
    exact ⟨hsel.trans hb, rfl⟩
  · have hfabric : (c.setB TIM.CLK.PREF 0 b).fabric = c.fabric := congrArg (·.testBit 0) (pref_setB_other c b (by decide) 0)
    obtain ⟨hsw, -, -⟩ := switchClk_shows (c.setB TIM.CLK.PREF 0 b)
    rw [prefSet_switches c b h hb, if_neg hb, hsw, hsel, flt_switchClk, inFlight_congr (c := c) hfabric rfl rfl]
    exact ⟨Bool.not_eq.2 hb, rfl⟩

theorem prefSet_keeps_input (h : ¬Follows c) : (prefSet c b).selB = c.selB ∧ (prefSet c b).flt = c.flt := by
  rw [prefSet_stays c b (.inl h)]
  exact ⟨on_of_get (pref_setB_other c b (by decide) 0), rfl⟩

end

section

variable {s : State} (hinv : s.Inv) (t : Nat)

include hinv

theorem refclkPrefWrite_writes (b : Bool) (hfabric : s.chip.fabric = true) :
    exec (.refclkPrefWrite t b) s = .next { s with chip := prefSet (s.chip.at_ t) b } := by
  rw [exec_refclkPrefWrite, execRefclkPrefWrite]
  exact run_moves hinv (if_pos hfabric) (prefSet_moves (s.chip.at_ t) b) (by decide)

theorem refclkPrefWrite_waits (b : Bool) (hfabric : s.chip.fabric = false) : exec (.refclkPrefWrite t b) s = .next (s.waits t) := by
  rw [exec_refclkPrefWrite, execRefclkPrefWrite]
  exact run_waits hinv (if_neg (ne_true_of_eq_false hfabric))

variable {x : Nat} (hgood : nget none s.chip.tim.goodAt (bit (s.chip.on TIM.CLK.PREF)) = some x)

include hgood

theorem refclkRevert_switches (hrel : s.chip.released 1 = true) (hrevert : s.chip.on TIM.CLK.REVERT = true)
    (hsel : s.chip.selB ≠ s.chip.on TIM.CLK.PREF) (hclk : s.chip.clk (s.chip.on TIM.CLK.PREF) = 0) (hdue : x + 10 * secTaps ≤ s.at_ t) :
    exec (.refclkRevert t) s = .next { s with chip := (s.chip.at_ t).switchClk } := by
  rw [exec_refclkRevert, execRefclkRevert]
  refine run_moves hinv ?_ (switchClk_moves (s.chip.at_ t)) (by decide)
  have hgood' : nget none (s.chip.at_ t).tim.goodAt (bit ((s.chip.at_ t).on TIM.CLK.PREF)) = some x := hgood
  simp only [hgood']
  exact if_pos ⟨hrel, hrevert, hsel, hclk, hdue⟩

theorem refclkRevert_waits (h : s.chip.on TIM.CLK.REVERT = false ∨ s.at_ t < x + 10 * secTaps) :
    exec (.refclkRevert t) s = .next (s.waits t) := by
  rw [exec_refclkRevert, execRefclkRevert]
  refine run_waits hinv ?_
  have hgood' : nget none (s.chip.at_ t).tim.goodAt (bit ((s.chip.at_ t).on TIM.CLK.PREF)) = some x := hgood
  simp only [hgood']
  exact if_neg fun ⟨_, hrevert, _, _, hdue⟩ => h.elim (fun hoff => ne_true_of_eq_false hoff hrevert) (Nat.not_lt.2 hdue)

end

end Sys2Proof.Scope
end

section
/-! SUPPORT. The reset after a lost lock (R319, R488, R492, R495): the fields of the reset unit behind a reset of level L1 or L2. -/

namespace Sys2Proof.Scope

open Sys2Proof.Machine Sys2Proof.Machine.Reg Sys2Proof.Laws

/-! What leaves the reset unit's own fields -/

/-- d has the time of c, and the fields of the reset unit as c has them. -/
structure RstKept (c d : Chip) : Prop where
  now : d.now = c.now
  fields : ∀ (f : Fld) (n : Nat), f.id / 1024 = 3 → d.get f n = c.get f n

section

variable {b c d : Chip}

theorem RstKept.trans (h : RstKept b c) (g : RstKept c d) : RstKept b d :=
  ⟨g.now.trans h.now, fun f n hf => (g.fields f n hf).trans (h.fields f n hf)⟩

theorem rstKept_of_keeps {ids : List Nat} {ps : List Part} (h : Keeps ids ps c d) (hids : ∀ k ∈ ids, k / 1024 ≠ 3) (hps : Part.now ∉ ps) :
    RstKept c d := ⟨h.parts .now hps, fun f n hf => h.fields f n fun hmem => hids _ hmem hf⟩

/-- Fields of other blocks are dropped, and parts of the chip replaced. -/
theorem rstKept_filter {p : Key × Nat → Bool} (hp : ∀ k v, k.id / 1024 = 3 → p (k, v) = true) (hnow : d.now = c.now)
    (hregs : d.regs = c.regs.filter p) : RstKept c d :=
  ⟨hnow, fun f n hf => (get_eq d f n).trans (by rw [hregs]; exact tabGet_filter (fun v => hp _ v hf) _ _)⟩

end

section

variable (c : Chip)

theorem setValid_moves (tv hold : Bool) : Moves [(TIM.STAT.TVALID, 0), (TIM.STAT.HOLD, 0)] [.pmu] c (c.setValid tv hold) := by
  have hset : Moves [(TIM.STAT.TVALID, 0), (TIM.STAT.HOLD, 0)] [.pmu] c ((c.setB TIM.STAT.TVALID 0 tv).setB TIM.STAT.HOLD 0 hold) :=
    (moves_refl.set (f := TIM.STAT.TVALID) (n := 0) _ (by simp)).set _ (by simp)
  exact Moves.ite (fun _ => hset.parts rfl rfl) fun _ => hset

theorem setValid_now (tv hold : Bool) : (c.setValid tv hold).now = c.now := by
  unfold Chip.setValid
  dsimp only
  split <;> rfl

theorem resetTim_rstKept : RstKept c c.resetTim := by
  have hvalid : Keeps [TIM.STAT.TVALID.id] [.pmu] c (c.setValid false false) :=
    (setValid_moves c false false).keeps (setValid_now c false false) (by decide)
  refine (rstKept_of_keeps hvalid (by decide) (by decide)).trans (rstKept_filter (fun k v hk => ?_) rfl rfl)
  have h0 : k.id ≠ 0x1410 := by omega
  have h3 : k.id ≠ 0x1413 := by omega
  have h4 : k.id ≠ 0x1414 := by omega
  have h5 : k.id ≠ 0x1415 := by omega
  have h6 : k.id ≠ 0x1416 := by omega
  simp [h0, h3, h4, h5, h6]

theorem gstat_keeps (g : Nat) : Keeps [ADC.GSTAT.READY.id] [.adc] c (c.gstat g) := by
  unfold Chip.gstat
  have hcur : Keeps [ADC.GSTAT.READY.id] [.adc] c (match (c.group g).cur with
      | some r => (c.set ADC.GSTAT.RUNNING g 1).set ADC.GSTAT.RUNQ g r.q
      | none => c.set ADC.GSTAT.RUNNING g 0) := by
    split
    · exact keeps_set (keeps_set keeps_refl (by decide)) (by decide)
    · exact keeps_set keeps_refl (by decide)
  dsimp only
  split
  · exact keeps_set (keeps_set hcur (by decide)) (by decide)
  · exact keeps_set hcur (by decide)

theorem abandonSequences_keeps : Keeps [ADC.GSTAT.READY.id] [.adc] c c.abandonSequences :=
  keeps_adc (keeps_each (fun d g => keeps_trans (keeps_adc keeps_refl (by decide)) (gstat_keeps _ g)) keeps_refl) (by decide)

theorem resetSmp_rstKept : RstKept c c.resetSmp :=
  rstKept_of_keeps (keeps_adc (keeps_each (fun _ _ => keeps_set keeps_refl (by decide)) (abandonSequences_keeps c)) (by decide) :
    Keeps [ADC.GSTAT.READY.id] [.adc] c c.resetSmp) (by decide) (by decide)

/-- The attributes in which the state of a lane shows. -/
def laneIds : List Nat := [LNK.STATE.STATE.id, GPR.LDIAG.ODRES.id, LNK.STAT.TRIPHOLD.id]

theorem setLaneState_keeps (n st : Nat) : Keeps laneIds [.lnk, .arm] c (c.setLaneState n st) := by
  have hshown : Keeps laneIds [.lnk, .arm] c (stateShown c n st) :=
    (stateShown_moves (l := [(LNK.STATE.STATE, n), (GPR.LDIAG.ODRES, n), (LNK.STATE.STEP, n)]) (by simp) (by simp) (by simp)).keeps
      stateShown_now (by simp; decide)
  exact keeps_ite (fun _ => keeps_refl) fun _ => keeps_ite (fun _ => keeps_setB (keeps_setLane (by decide) hshown) (by decide)) fun _ =>
    keeps_ite (fun _ => keeps_setSched (by decide) (keeps_set (keeps_setLane (by decide) hshown) (by decide))) fun _ =>
      keeps_setLane (by decide) hshown

theorem resetLnk_rstKept : RstKept c (c.resetLnk true) := by
  have hoff : Keeps laneIds [.lnk, .arm] c c.lanesOff := keeps_each (fun d n => setLaneState_keeps d n lsOff) keeps_refl
  refine rstKept_of_keeps (ids := laneIds) (ps := [.lnk, .arm]) ?_ (by decide) (by decide)
  exact keeps_each (fun _ _ => keeps_set keeps_refl (by decide)) (keeps_lnk hoff (by decide))

theorem resetPins_rstKept : RstKept c c.resetPins :=
  rstKept_filter (fun k v hk => by
    have h : k.id ≠ 0x2C10 := by omega
    simp [h]) rfl rfl

theorem resetEth_rstKept : RstKept c c.resetEth := ⟨rfl, fun _ _ _ => rfl⟩

theorem resetHpp_rstKept : RstKept c c.resetHpp :=
  rstKept_filter (fun k v hk => by
    simp only [Bool.not_eq_true', decide_eq_false_iff_not]
    omega) rfl rfl

theorem burstLanes_keeps (l : List Nat) : Keeps [] [.lnk] c (c.burstLanes l) := keeps_each (fun _ _ => keeps_burst (by decide) keeps_refl) keeps_refl

theorem drives_keeps : Keeps [] [.sio] c (c.each (upTo 4) (fun c j => c.drive j false false)) :=
  keeps_each (fun _ _ => keeps_drive (by decide) keeps_refl) keeps_refl

theorem gate_keeps (ds : List Nat) (lvl : Nat) (gapped : Bool) : Keeps [RST.DOM.REL.id] [.rst] c (c.gate ds lvl gapped) :=
  keeps_ite (fun _ => keeps_refl) fun _ =>
    keeps_rst (keeps_each (fun _ _ => keeps_setBit (keeps_setBit keeps_refl (by decide)) (by decide)) keeps_refl) (by decide)

theorem gate_regs (ds : List Nat) (lvl : Nat) (gapped : Bool) (h : ds.isEmpty = false) : (c.gate ds lvl gapped).regs =
    (c.each ds (fun c d => (c.setBit RST.DOM.REL 0 d false).setBit RST.DOM.HELD 0 d false)).regs := by
  unfold Chip.gate
  rw [if_neg (ne_true_of_eq_false h)]

/-- TB is among the domains that a reset of level L2 gates. -/
theorem gate_holds_tb (lvl : Nat) (gapped : Bool) : (c.gate [1, 2, 3, 4, 5, 6, 7] lvl gapped).released 1 = false := by
  have hrel (d : Chip) (k : Nat) : ((d.setBit RST.DOM.REL 0 k false).setBit RST.DOM.HELD 0 k false).released 1 =
      ((d.setBit RST.DOM.REL 0 k false).get RST.DOM.REL).testBit 1 := congrArg (·.testBit 1) (get_set_fld _ _ _ _ (by decide))
  have hother (d : Chip) (k : Nat) (hk : k ≠ 1) :
      ((d.setBit RST.DOM.REL 0 k false).setBit RST.DOM.HELD 0 k false).released 1 = d.released 1 := by
    rw [hrel, testBit_setBit_other d 0 false hk.symm, Nat.testBit_mod_two_pow]
    exact Bool.true_and _
  have hself (d : Chip) : ((d.setBit RST.DOM.REL 0 1 false).setBit RST.DOM.HELD 0 1 false).released 1 = false :=
    (hrel d 1).trans (testBit_setBit_self d (f := RST.DOM.REL) 0 false (by decide))
  have hheld := each_once (π := fun d => d.released 1) (g := fun _ => false) (l := [1, 2, 3, 4, 5, 6, 7])
    (f := fun c d => (c.setBit RST.DOM.REL 0 d false).setBit RST.DOM.HELD 0 d false) hself hother (by decide) c
  rw [if_pos (by decide)] at hheld
  rw [Chip.released, Chip.bitOn, get_congr (gate_regs c _ lvl gapped rfl)]
  exact hheld

end

/-! What the reset of a domain leaves (R488, R509) -/

/-- The reset has come to pass: TB is held, the time and the fields RST.STAT and RST.CNT are those of c. -/
structure ResetPassed (c e : Chip) : Prop where
  now : e.now = c.now
  fields : ∀ (f : Fld) (n : Nat), f.id = RST.STAT.LASTSRC.id ∨ f.id = RST.CNT.CLK.id → e.get f n = c.get f n
  held : e.released 1 = false

section

variable (c : Chip)

/-- The domains are reset at level L2, before they are gated. -/
def domainsReset (c : Chip) : Chip :=
  let d := c.each (upTo 4) (fun c j => c.drive j false false)
  ((((d.resetTim.resetSmp.resetLnk true).resetPins).resetEth).resetHpp).burstLanes c.lanesInUse

theorem domainsReset_rstKept : RstKept c (domainsReset c) :=
  (rstKept_of_keeps (drives_keeps c) (by simp) (by simp)).trans ((resetTim_rstKept _).trans ((resetSmp_rstKept _).trans
    ((resetLnk_rstKept _).trans ((resetPins_rstKept _).trans ((resetEth_rstKept _).trans ((resetHpp_rstKept _).trans
      (rstKept_of_keeps (burstLanes_keeps _ _) (by simp) (by simp))))))))

theorem startReset_l2_eq (blk : Nat) : c.startReset 3 blk =
    ({ domainsReset c with dev := { (domainsReset c).dev with resetReq := none } }.gate [1, 2, 3, 4, 5, 6, 7] 3 false).refreshSdo := by
  unfold Chip.startReset
  rw [if_neg (by decide), if_pos rfl]
  rfl

/-- A reset of level L2 (code 3). -/
theorem startReset_l2 (blk : Nat) : ResetPassed c (c.startReset 3 blk) := by
  have he := domainsReset_rstKept c
  rw [startReset_l2_eq]
  generalize domainsReset c = e at he
  have hdev : RstKept c { e with dev := { e.dev with resetReq := none } } := he.trans ⟨rfl, fun _ _ _ => rfl⟩
  generalize ({ e with dev := { e.dev with resetReq := none } } : Chip) = d at hdev
  have hgate := gate_keeps d [1, 2, 3, 4, 5, 6, 7] 3 false
  have hheld := gate_holds_tb d 3 false
  generalize d.gate [1, 2, 3, 4, 5, 6, 7] 3 false = g at hgate hheld
  have hsdo : Keeps sdoIds [.sio] g g.refreshSdo := keeps_refreshSdo (fun _ h => h) (by decide) keeps_refl
  refine ⟨Eq.trans (hsdo.parts .now (by decide)) (Eq.trans (hgate.parts .now (by decide)) hdev.now), fun f n hf => ?_,
    (congrArg (·.testBit 1) (hsdo.fields _ _ (by decide))).trans hheld⟩
  obtain ⟨hunit, hrel, hout⟩ : f.id / 1024 = 3 ∧ f.id ∉ [RST.DOM.REL.id] ∧ f.id ∉ sdoIds := by
    rcases hf with h | h <;> rw [h] <;> decide
  exact (hsdo.fields f n hout).trans ((hgate.fields f n hrel).trans (hdev.fields f n hunit))

theorem tabGet_filter_none {κ α : Type} [DecidableEq κ] {p : κ × α → Bool} {k : κ} (h : ∀ v, p (k, v) = false) (d : α) (m : Tab κ α) :
    tabGet d (m.filter p) k = d := by
  induction m with
  | nil => rfl
  | cons e m ih =>
    obtain ⟨j, v⟩ := e
    by_cases hj : j = k
    · subst hj
      simp [h, ih]
    · by_cases hp : p (j, v) = true <;> simp [hp, tabGet, hj, ih]

/-- RST.STAT and RST.CNT survive every reset of the main domain (R488, R509). -/
theorem survives_of_id {k : Key} (fuse : Bool) (h : k.id = RST.STAT.LASTSRC.id ∨ k.id = RST.CNT.CLK.id) : survives fuse k = true := by
  rcases h with h | h <;> simp [survives, h, RST.STAT.LASTSRC, RST.CNT.CLK]

theorem dom_rel_does_not_survive (n : Nat) : survives true (RST.DOM.REL.key n) = false := by
  simp [survives, Fld.key, RST.DOM.REL]

/-- The main domain is reset at level L1, and its sequence begins. -/
def mainReset (c : Chip) : Chip :=
  let d := (c.coreReset true).burstLanes c.lanesInUse
  { d with rst := { d.rst with
    seq := some ⟨2, false⟩, fails := 0, clkStart := false, queue := [], blocks := [], gapped := true, shadow := d.rst.shadow } }

theorem startReset_l1_eq (blk : Nat) : c.startReset 2 blk = if (mainReset c).rst.pinLow then mainReset c else (mainReset c).releaseFabric := by
  unfold Chip.startReset
  rw [if_neg (by decide), if_neg (by decide)]
  rfl

/-- While no fuse load has failed, the release of the fabric reports nothing and leaves TB as it is. -/
theorem releaseFabric_releases {d : Chip} (h : d.rst.fails = 0) : Keeps [RST.DOM.REL.id] [.rst] d d.releaseFabric ∧
    d.releaseFabric.released 1 = d.released 1 := by
  have hfails : ¬0 < d.rst.fails := Nat.not_lt.2 (Nat.le_of_eq h)
  have heq : d.releaseFabric = { d.setBit RST.DOM.REL 0 0 true with
      rst := { d.rst with queue := [1, 2, 3, 4, 5, 6, 7], from_ := d.now, gapped := true } } := if_neg hfails
  rw [heq]
  refine ⟨keeps_rst (keeps_setBit keeps_refl (by decide)) (by decide), (testBit_setBit_other d 0 true (by decide)).trans ?_⟩
  rw [Nat.testBit_mod_two_pow]
  exact Bool.true_and _

/-- A reset of level L1 (code 2), with the fuse shadow kept. -/
theorem startReset_l1 (blk : Nat) : ResetPassed c (c.startReset 2 blk) := by
  have hburst := burstLanes_keeps (c.coreReset true) c.lanesInUse
  have hmain : ResetPassed c (mainReset c) :=
    ⟨hburst.parts .now (by decide), fun f n hf => (hburst.fields f n (by simp)).trans (tabGet_filter (fun v => survives_of_id true hf) _ _),
      (congrArg (·.testBit 1) ((hburst.fields RST.DOM.REL 0 (by simp)).trans
        (tabGet_filter_none (fun v => dom_rel_does_not_survive 0) _ _))).trans (by decide)⟩
  have hfails : (mainReset c).rst.fails = 0 := rfl
  rw [startReset_l1_eq]
  generalize mainReset c = d at hmain hfails
  split
  · exact hmain
  · obtain ⟨hrel, htb⟩ := releaseFabric_releases hfails
    refine ⟨Eq.trans (hrel.parts .now (by decide)) hmain.now, fun f n hf => (hrel.fields f n ?_).trans (hmain.fields f n hf), htb.trans hmain.held⟩
    rcases hf with h | h <;> rw [h] <;> decide

end

/-! DLL_RELOCK_TIMEOUT (R319) -/

/-- The level of the reset after a lost lock, as the fuses give it. -/
def lockLevel (c : Chip) : Nat := if c.on RST.FLVL.DLLL then 2 else 3

/-- RST.STAT names a reset of a level and its source. -/
def resetNamed (c : Chip) (lvl src : Nat) : Chip :=
  ((c.set RST.STAT.LASTSRC 0 src).set RST.STAT.LASTLVL 0 (lvl - 1)).set RST.STAT.LASTBLK 0 0

section

variable (c : Chip)

theorem lockLevel_cases : lockLevel c = 2 ∨ lockLevel c = 3 := by
  unfold lockLevel
  split
  · exact .inl rfl
  · exact .inr rfl

theorem get_resetNamed {lvl src : Nat} (hlvl : lvl - 1 < 4) (hsrc : src < 16) : (resetNamed c lvl src).get RST.STAT.LASTSRC = src ∧
    (resetNamed c lvl src).get RST.STAT.LASTLVL = lvl - 1 ∧ (resetNamed c lvl src).get RST.STAT.LASTBLK = 0 :=
  ⟨(get_set_fld _ _ _ _ (by decide)).trans ((get_set_fld _ _ _ _ (by decide)).trans ((get_set_self _ _ _ _).trans (Nat.mod_eq_of_lt hsrc))),
    (get_set_fld _ _ _ _ (by decide)).trans ((get_set_self _ _ _ _).trans (Nat.mod_eq_of_lt hlvl)), get_set_self _ _ _ _⟩

theorem startReset_lockLevel (d : Chip) (blk : Nat) : ResetPassed d (d.startReset (lockLevel c) blk) := by
  rcases lockLevel_cases c with h | h <;> rw [h]
  · exact startReset_l1 d blk
  · exact startReset_l2 d blk

/-- No graver reset runs: RST.STAT names the reset, and it comes to pass. -/
theorem beginReset_starts {lvl src : Nat} (hseq : ∀ q, c.rst.seq = some q → lvl ≤ q.level) :
    c.beginReset lvl src 0 = (resetNamed c lvl src).startReset lvl 0 := by
  unfold Chip.beginReset resetNamed
  rw [ite_self]
  cases hq : c.rst.seq with
  | none => exact if_neg Bool.false_ne_true
  | some q => exact if_neg (ne_true_of_eq_false (decide_eq_false (Nat.not_lt.2 (hseq q hq))))

theorem beginReset_absorbed {lvl src : Nat} {q : ResetSeq} (hseq : c.rst.seq = some q) (hlvl : q.level < lvl) :
    c.beginReset lvl src 0 = c.inc RST.CNT.MERGED := by
  unfold Chip.beginReset
  simp [hseq, hlvl]

end

section

variable {s : State} (hinv : s.Inv) (t : Nat) {x : Nat} (hunlock : s.chip.tim.unlockAt = some x)

include hinv

theorem dllRelockTimeout_waits (h : (∀ x, s.chip.tim.unlockAt = some x → s.at_ t < x + msTaps) ∨ s.chip.on TIM.STAT.DLLOCK = true) :
    exec (.dllRelockTimeout t) s = .next (s.waits t) := by
  rw [exec_dllRelockTimeout, execDllRelockTimeout]
  refine run_waits hinv ?_
  dsimp only [at_tim]
  split
  next x hx =>
    refine if_neg fun ⟨_, hoff, hdue⟩ => ?_
    exact h.elim (fun hlate => Nat.not_lt.2 hdue (hlate x hx)) hoff
  next => rfl

include hunlock

omit hinv in
theorem dllRelockTimeout_eq (hrel : s.chip.released 1 = true) (hoff : s.chip.on TIM.STAT.DLLOCK = false) (hdue : x + msTaps ≤ s.at_ t) :
    exec (.dllRelockTimeout t) s =
      .next (flush { s with chip := ((s.chip.at_ t).inc RST.CNT.CLK).beginReset (lockLevel s.chip) 5 0 }) := by
  rw [exec_dllRelockTimeout, execDllRelockTimeout]
  refine run_flush ?_
  have hunlock' : (s.chip.at_ t).tim.unlockAt = some x := hunlock
  simp only [hunlock']
  exact if_pos ⟨hrel, ne_true_of_eq_false hoff, hdue⟩

end

end Sys2Proof.Scope
end

section
/-! CLAIM. The delay-locked line and the reference clocks (R316, R318 to R322, R492). -/

namespace Sys2Proof.Scope

open Sys2Proof.Machine Sys2Proof.Machine.Reg Sys2Proof.Laws

section

variable {s : State} {t x : Nat} (hunlock : s.chip.tim.unlockAt = some x) (hrel : s.chip.released 1 = true)
  (hoff : s.chip.on TIM.STAT.DLLOCK = false) (hdue : x + msTaps ≤ s.at_ t)

include hunlock hrel hoff hdue

/-- No graver reset runs: the reset of the fused level comes to pass, and TB with it. -/
theorem dllRelockTimeout_resets (h : ¬Absorbed s (lockLevel s.chip)) : ∃ u, exec (.dllRelockTimeout t) s = .next u ∧ u.chip.now = s.at_ t ∧
    u.chip.get RST.CNT.CLK = satN RST.CNT.CLK.width (s.chip.get RST.CNT.CLK + 1) ∧ u.chip.get RST.STAT.LASTSRC = 5 ∧
    u.chip.get RST.STAT.LASTLVL = lockLevel s.chip - 1 ∧ u.chip.get RST.STAT.LASTBLK = 0 ∧ u.chip.released 1 = false := by
  have hexec := dllRelockTimeout_eq t hunlock hrel hoff hdue
  have hstart := beginReset_starts (src := 5) ((s.chip.at_ t).inc RST.CNT.CLK) (fun q hq => Nat.not_lt.1 fun hlt => h ⟨q, hq, hlt⟩)
  have hpassed := startReset_lockLevel s.chip (resetNamed ((s.chip.at_ t).inc RST.CNT.CLK) (lockLevel s.chip) 5) 0
  have hlvl : lockLevel s.chip - 1 < 4 := by rcases lockLevel_cases s.chip with h | h <;> rw [h] <;> decide
  obtain ⟨hsrc, hlast, hblk⟩ := get_resetNamed ((s.chip.at_ t).inc RST.CNT.CLK) hlvl (src := 5) (by decide)
  have hcount : (resetNamed ((s.chip.at_ t).inc RST.CNT.CLK) (lockLevel s.chip) 5).get RST.CNT.CLK =
      satN RST.CNT.CLK.width (s.chip.get RST.CNT.CLK + 1) :=
    (get_set_fld _ _ _ _ (by decide)).trans ((get_set_fld _ _ _ _ (by decide)).trans ((get_set_fld _ _ _ _ (by decide)).trans
      (get_inc_self (s.chip.at_ t) _ _)))
  rw [hstart] at hexec
  exact ⟨_, hexec, hpassed.now, (hpassed.fields _ _ (.inr rfl)).trans hcount, (hpassed.fields _ _ (.inl rfl)).trans hsrc,
    (hpassed.fields RST.STAT.LASTLVL 0 (.inl rfl)).trans hlast,
    (hpassed.fields RST.STAT.LASTBLK 0 (.inl rfl)).trans hblk, hpassed.held⟩

/-- While a graver reset runs, the one that the lost lock asks for is counted as merged with it. -/
theorem dllRelockTimeout_merges (hinv : s.Inv) (h : Absorbed s (lockLevel s.chip)) :
    exec (.dllRelockTimeout t) s = .next { s with chip := ((s.chip.at_ t).inc RST.CNT.CLK).inc RST.CNT.MERGED } := by
  obtain ⟨-, hwq⟩ := hinv
  obtain ⟨q, hq, hlt⟩ := h
  rw [dllRelockTimeout_eq t hunlock hrel hoff hdue, beginReset_absorbed ((s.chip.at_ t).inc RST.CNT.CLK) hq hlt]
  exact congrArg Host.Outcome.next (flush_of_wq_nil hwq)

end

/-- Settles O41: each event makes one change of the block TIM, whose frame gives what it leaves; after a lost lock the level the fuses
give begins, behind which RST.STAT and RST.CNT stand. -/
theorem clocksSwitch : Obligations.ClocksSwitch := by
  unfold Obligations.ClocksSwitch
  refine ⟨fun s t hinv hrel => ⟨fun hoff => ?_, fun hon => ⟨?_, ?_⟩⟩, fun s t hinv hrel => dll_waits hinv t hrel,
    fun s t b hinv h => refclkGood_waits hinv t b h, fun s t b hinv hbad hdue => ?_,
    fun s t ppb b hinv hnear => refclkDrift_waits hinv hnear, fun s t ppb code b i hinv hrel hi => ?_,
    fun s t ppb code b i hinv hfabric hrel hi hother => ?_, fun s t x p hinv hp hgood hrel hsel hclk => ?_,
    fun s t b hinv hfabric => ?_, fun s t b hinv hfabric => refclkPrefWrite_waits hinv t b hfabric,
    fun s t hinv => ⟨fun x hunlock hrel hoff hdue => ?_, dllRelockTimeout_waits hinv t⟩⟩
  · have hmoves := lineLocked_moves (s.chip.at_ t)
    exact ⟨_, dllLock_locks hinv t hrel hoff, rfl, get_set_self _ _ _ _, tim_lineLocked _, rfl, rfl, hmoves.rest, hmoves.fields⟩
  · have hmoves := chainSwitched_moves (s.chip.at_ t)
    exact ⟨_, dllChainSwitch_switches hinv t hrel hon, rfl, rfl, rfl, rfl, hmoves.rest, hmoves.fields⟩
  · have hmoves := lineUnlocked_moves (s.chip.at_ t)
    obtain ⟨hlock, hflag⟩ := get_lineUnlocked (s.chip.at_ t)
    have htim : (lineUnlocked (s.chip.at_ t)).tim = { s.chip.tim with unlockAt := some (s.at_ t) } := by rw [lineUnlocked, raise_eq]; rfl
    exact ⟨_, dllUnlock_unlocks hinv t hrel hon, raise_now _ _ _ _, hlock, hflag, htim, flt_lineUnlocked _, rfl, rfl, hmoves.rest,
      hmoves.fields⟩
  · have hmoves := clkGood_moves (s.chip.at_ t) b
    exact ⟨_, refclkGood_good hinv t b hbad hdue, rfl, clk_setClk (s.chip.at_ t) b (by decide), rfl,
      nget_nset_self none s.chip.tim.goodAt (bit b) (some (s.at_ t)), nget_nset_self 0 s.chip.tim.failRaised (bit b) 0, rfl, rfl, hmoves.rest, hmoves.fields⟩
  · obtain ⟨hlt, hbad⟩ := InputFails.code_lt hi
    have hmoves := setClk_moves (s.chip.at_ t) b code
    exact ⟨_, inputFails_exec hinv hi (clkBad_held (s.chip.at_ t) b code hrel) hmoves (by decide), rfl, clk_setClk _ b hlt,
      tim_setClk_bad _ b hbad, rfl, rfl, hmoves.rest, hmoves.fields⟩
  · have hfailed := clkBad_fails (c := s.chip.at_ t) hfabric (InputFails.code_lt hi) hrel hother
    have hexec := inputFails_exec hinv hi rfl hfailed.moves (by decide)
    generalize (s.chip.at_ t).clkBad b code = e at hfailed hexec
    exact ⟨_, hexec, hfailed.now, hfailed.clk, hfailed.other, hfailed.sel, hfailed.count, hfailed.tim, hfailed.noted, hfailed.flt,
      rfl, rfl, hfailed.moves.rest, hfailed.moves.fields⟩
  · subst hp
    refine ⟨fun hrevert hdue => ?_, refclkRevert_waits hinv t hgood⟩
    have hne : s.chip.selB ≠ s.chip.on TIM.CLK.PREF := by simp [hsel]
    have hmoves := switchClk_moves (s.chip.at_ t)
    obtain ⟨hsw, hflag, hcount⟩ := switchClk_shows (s.chip.at_ t)
    exact ⟨_, refclkRevert_switches hinv t hgood hrel hrevert hne hclk hdue, switchClk_now _, hsw.trans (Bool.not_eq.2 hne),
      hflag, hcount, flt_switchClk _, rfl, rfl, hmoves.rest, hmoves.fields⟩
  · have hmoves := prefSet_moves (s.chip.at_ t) b
    refine ⟨_, refclkPrefWrite_writes hinv t b hfabric, prefSet_now _ b, get_prefSet_pref _ b,
      fun hrel ha hb => prefSet_follows (s.chip.at_ t) b ⟨hrel, ha, hb⟩, fun h => prefSet_keeps_input (s.chip.at_ t) b ?_,
      rfl, rfl, hmoves.rest, hmoves.fields⟩
    rintro ⟨hrel, ha, hb⟩
    rcases h with h | h | h
    · exact ne_true_of_eq_false h hrel
    · exact h ha
    · exact h hb
  · by_cases h : Absorbed s (lockLevel s.chip)
    · have hmoves : Moves [(RST.CNT.CLK, 0), (RST.CNT.MERGED, 0)] [] (s.chip.at_ t)
          (((s.chip.at_ t).inc RST.CNT.CLK).inc RST.CNT.MERGED) := (moves_refl.inc (by simp)).inc (by simp)
      exact ⟨_, dllRelockTimeout_merges hunlock hrel hoff hdue hinv h, rfl,
        (get_inc_fld _ _ _ (by decide)).trans (get_inc_self (s.chip.at_ t) _ _), fun hnot => absurd h hnot,
        fun _ => ⟨(get_inc_self _ _ _).trans (by rw [get_inc_fld _ _ _ (by decide)]; rfl), rfl, rfl, hmoves.rest, hmoves.fields⟩⟩
    · obtain ⟨u, hexec, hnow, hcount, hshown⟩ := dllRelockTimeout_resets hunlock hrel hoff hdue h
      exact ⟨u, hexec, hnow, hcount, fun _ => hshown, fun habs => absurd habs h⟩

end Sys2Proof.Scope
end

section
/-! SUPPORT. An item for a ring (R295, R301, R304): what it may change lies in the page manager, whatever pages the ring holds. -/

namespace Sys2Proof.Scope

open Sys2Proof.Machine Sys2Proof.Machine.Reg Sys2Proof.Laws

/-- The fields of the blocks below the page manager: no page number reaches them (R310). -/
abbrev BelowPages (f : Fld) : Prop := f.id < 0x3C00

/-- d differs from c in the page manager and the events in flight alone, and in no field below the page manager's. -/
structure RingMoves (c d : Chip) : Prop where
  rest : d = takes [.pgm, .flt] c d
  now : d.now = c.now
  fields : ∀ (f : Fld) (n : Nat), BelowPages f → d.get f n = c.get f n

section

variable {b c d : Chip}

theorem ringMoves_refl : RingMoves c c := ⟨takes_self _ c, rfl, fun _ _ _ => rfl⟩

theorem RingMoves.trans (h : RingMoves b c) (g : RingMoves c d) : RingMoves b d :=
  ⟨g.rest.trans ((congrArg (takes [.pgm, .flt] · d) h.rest).trans (takes_takes _ b c d)), g.now.trans h.now,
    fun f n hf => (g.fields f n hf).trans (h.fields f n hf)⟩

theorem RingMoves.set {f : Fld} {n v : Nat} (h : RingMoves b c) (hf : ¬BelowPages f) : RingMoves b (c.set f n v) :=
  h.trans ⟨by simp [takes, Chip.set], rfl, fun g k hg => get_set_other _ _ _ _ _ _ fun e => hf (show f.id < 0x3C00 from e.1 ▸ hg)⟩

theorem RingMoves.flag {f : Fld} {n : Nat} (h : RingMoves b c) (hf : ¬BelowPages f) : RingMoves b (c.flag f n) :=
  (h.set (f := f) (n := n) (v := 1) hf).trans ⟨takes_self _ _, rfl, fun _ _ _ => rfl⟩

theorem RingMoves.setPd {f : Fld} {p v : Nat} (h : RingMoves b c) (hf : ¬BelowPages f) : RingMoves b (c.setPd f p v) :=
  h.set fun hlt => hf (lt_of_le_of_lt (Nat.le_add_right f.id (p / 256)) hlt)

theorem RingMoves.pgm (h : RingMoves b c) (x : Pgm) : RingMoves b { c with pgm := x } := h.trans ⟨rfl, rfl, fun _ _ _ => rfl⟩

theorem RingMoves.setRing (h : RingMoves b c) (r : Nat) (v : Ring) : RingMoves b (c.setRing r v) := h.pgm _

theorem RingMoves.raise (h : RingMoves b c) (src : Nat) : RingMoves b (c.raise src) :=
  h.trans (by rw [raise_eq]; exact ⟨rfl, rfl, fun _ _ _ => rfl⟩)

theorem RingMoves.each {α : Type} {f : Chip → α → Chip} (hf : ∀ d x, RingMoves d (f d x)) (h : RingMoves b c) (l : List α) :
    RingMoves b (c.each l f) := by
  unfold Chip.each
  induction l generalizing c with
  | nil => exact h
  | cons x l ih => exact ih (h.trans (hf c x))

theorem RingMoves.ite {q : Prop} [Decidable q] (h : RingMoves b c) (g : RingMoves b d) : RingMoves b (if q then c else d) := by
  split
  · exact h
  · exact g

end

section

variable (c : Chip) (r p : Nat)

theorem sramWrites_moves (w : Nat) (l : List Nat) : RingMoves c (c.sramWrites p w l) := by
  induction l generalizing c w with
  | nil => exact ringMoves_refl
  | cons v l ih => exact (ringMoves_refl.pgm _).trans (ih (c.sramWrite p w v) (w + 1))

theorem closeOpen_moves : RingMoves c (c.closeOpen r) := by
  unfold Chip.closeOpen
  split
  · exact ringMoves_refl
  next p _ => exact ((((sramWrites_moves c p _ _).setPd (by decide)).setPd (by decide)).pgm _).setRing _ _

theorem holdItem_moves : RingMoves c (c.holdItem r) := (ringMoves_refl.setRing _ _ |>.set (by decide)).ite (ringMoves_refl.setRing _ _)

theorem toFrozen_moves : RingMoves c (c.toFrozen r) := by
  have hclosed : RingMoves c (((c.closeOpen r).set PGM.CAP.STATE r rsFrozen).flag PGM.EVT.FROZEN) :=
    ((closeOpen_moves c r).set (by decide)).flag (by decide)
  unfold Chip.toFrozen
  dsimp only
  split
  · exact ((hclosed.setPd (by decide)).pgm _).each (fun d _ => holdItem_moves d r) _
  · exact (hclosed.pgm _).each (fun d _ => holdItem_moves d r) _

theorem closePage_moves : RingMoves c (c.closePage r) := ((closeOpen_moves c r).trans (toFrozen_moves _ r)).ite (closeOpen_moves c r)

theorem putWords_moves (l : List Nat) : RingMoves c (c.putWords r p l) := ((sramWrites_moves c p _ _).setPd (by decide)).setRing _ _

theorem setSamples_moves (n half : Nat) : RingMoves c (c.setSamples r n half) := ringMoves_refl.setRing _ _

theorem place_moves {it : Item} {d : Chip} (h : c.place it = some d) : RingMoves c d := by
  unfold Chip.place at h
  split at h
  · exact absurd h (by simp)
  · dsimp only at h
    split at h <;> split at h
    · obtain rfl := Option.some.inj h
      exact (ringMoves_refl.pgm _).trans (putWords_moves _ _ _ _)
    · exact absurd h (by simp)
    · obtain rfl := Option.some.inj h
      exact (putWords_moves _ _ _ _).trans (setSamples_moves _ _ _ _)
    · split at h
      · split at h
        · obtain rfl := Option.some.inj h
          exact setSamples_moves _ _ _ _
        · obtain rfl := Option.some.inj h
          exact (putWords_moves _ _ _ _).trans (setSamples_moves _ _ _ _)
      · exact absurd h (by simp)

theorem placeOrWait_moves (it : Item) : RingMoves c (c.placeOrWait it) := by
  unfold Chip.placeOrWait
  split
  next d hd => exact ((place_moves c hd).trans (closePage_moves d _)).ite (place_moves c hd)
  next => exact ((closePage_moves c _).trans (holdItem_moves _ _)).ite ((closePage_moves c _).pgm _)

theorem loseItem_moves : RingMoves c (c.loseItem r) := by
  have hcounted : RingMoves c ((c.inc PGM.RCNT.LOST r).flag PGM.EVT.LOST) := (ringMoves_refl.set (by decide)).flag (by decide)
  exact hcounted.ite ((hcounted.setRing _ _).raise 35)

/-- An item handed to a ring leaves every field below the page manager's, and all parts but the page manager and the events. -/
theorem ringItem_moves (it : Item) : RingMoves c (c.ringItem it) := by
  have hlost : RingMoves c (c.loseOldest it.ring) := (ringMoves_refl.pgm _).trans (loseItem_moves _ _)
  unfold Chip.ringItem
  exact ringMoves_refl.ite ((holdItem_moves c _).ite ((placeOrWait_moves c it).ite (RingMoves.pgm (ringMoves_refl.ite hlost) _)))

end

end Sys2Proof.Scope
end

section
/-! SUPPORT. Stamp units (R339, R340), holdover and the servo (R328, R330, R333): what each change shows, and its frame. -/

namespace Sys2Proof.Scope

open Sys2Proof.Machine Sys2Proof.Machine.Reg Sys2Proof.Laws

/-! The conversion of a raw instant -/

section

variable {c d : Chip}

theorem corrected_congr (hold : d.tim.old = c.tim.old) (hx0 : d.tim.x0 = c.tim.x0) (hraw : d.raw d.now = c.raw c.now)
    (hofs : d.get TIM.OFS.OFS = c.get TIM.OFS.OFS) (hrate : d.get TIM.RATE.RATE = c.get TIM.RATE.RATE) (x : Nat) :
    d.corrected x = c.corrected x := by
  have hset : d.timeSet = c.timeSet := by simp only [Chip.timeSet, Chip.getI, hx0, hofs, hrate]
  rw [Chip.corrected, Chip.setFor, hraw, hset, hold, ← Chip.setFor, ← Chip.corrected]

end

/-! An edge (R339) -/

/-- An edge too close to the last one is counted and flagged. -/
def edgeOverrun (c : Chip) : Chip := (c.inc TIM.CNT.TSIOVR).flag TIM.EVT.TSIOVR

/-- The edge is numbered and shown. -/
def edgeShown (c : Chip) (u x : Nat) (rise : Bool) : Chip :=
  let d := { c with tim := { c.tim with lastEdge := nset none c.tim.lastEdge u (some x) } }
  (((d.incMod TIM.TSV.NUM u).setB TIM.TSV.RISE u rise).set TIM.TSV.TIME u (c.stamp x).1).set TIM.TSV.TAP u (c.stamp x).2

/-- The fields that show an edge of unit u. -/
def stampFields (u : Nat) : List (Fld × Nat) := [(TIM.TSV.NUM, u), (TIM.TSV.RISE, u), (TIM.TSV.TIME, u), (TIM.TSV.TAP, u)]

/-- An edge of unit u at raw instant x comes less than 128 taps after the last. -/
def Near (c : Chip) (u x : Nat) : Prop := ∃ y, nget none c.tim.lastEdge u = some y ∧ x < y + 128

section

variable (c : Chip) (u x : Nat) (rise : Bool)

theorem edgeLost_iff : c.edgeLost u x = true ↔ Near c u x := by
  unfold Chip.edgeLost Near
  cases nget none c.tim.lastEdge u <;> simp

theorem edgeOverrun_moves : Moves [(TIM.EVT.TSIOVR, 0), (TIM.CNT.TSIOVR, 0)] [] c (edgeOverrun c) :=
  Moves.flag (f := TIM.EVT.TSIOVR) (n := 0) (Moves.inc (f := TIM.CNT.TSIOVR) (n := 0) moves_refl (by simp)) (by simp)

theorem get_edgeOverrun : (edgeOverrun c).get TIM.EVT.TSIOVR = 1 ∧
    (edgeOverrun c).get TIM.CNT.TSIOVR = satN TIM.CNT.TSIOVR.width (c.get TIM.CNT.TSIOVR + 1) :=
  ⟨get_flag_self _ _ rfl, (get_flag_fld _ _ _ (by decide)).trans (get_inc_self _ _ _)⟩

theorem edgeShown_moves : Moves (stampFields u) [.tim] c (edgeShown c u x rise) := by
  have htim : Moves (stampFields u) [.tim] c { c with tim := { c.tim with lastEdge := nset none c.tim.lastEdge u (some x) } } :=
    moves_refl.parts rfl rfl
  exact (((htim.set (f := TIM.TSV.NUM) (n := u) _ (by simp [stampFields])).set (f := TIM.TSV.RISE) (n := u) _ (by simp [stampFields])).set
    (f := TIM.TSV.TIME) (n := u) _ (by simp [stampFields])).set (f := TIM.TSV.TAP) (n := u) _ (by simp [stampFields])

theorem get_edgeShown : (edgeShown c u x rise).get TIM.TSV.NUM u = (c.get TIM.TSV.NUM u + 1) % 2 ^ TIM.TSV.NUM.width ∧
    (edgeShown c u x rise).get TIM.TSV.RISE u = bit rise ∧
    (edgeShown c u x rise).get TIM.TSV.TIME u = (c.stamp x).1 % 2 ^ TIM.TSV.TIME.width ∧
    (edgeShown c u x rise).get TIM.TSV.TAP u = (c.stamp x).2 % 2 ^ TIM.TSV.TAP.width :=
  ⟨(get_set_fld _ _ _ _ (by decide)).trans ((get_set_fld _ _ _ _ (by decide)).trans ((get_set_fld _ _ _ _ (by decide)).trans
      (get_set_self _ _ _ _))),
    (get_set_fld _ _ _ _ (by decide)).trans ((get_set_fld _ _ _ _ (by decide)).trans (get_setB_self _ _ _ rfl)),
    (get_set_fld _ _ _ _ (by decide)).trans (get_set_self _ _ _ _), get_set_self _ _ _ _⟩

theorem stampEdge_near (h : Near c u x) : c.stampEdge u x rise = edgeOverrun c := if_pos ((edgeLost_iff c u x).2 h)

section

variable (h : ¬Near c u x)

include h

/-- Without a ring the edge is shown and no more. -/
theorem stampEdge_noRing (hring : c.on TIM.TSI.RINGEN u = false) : c.stampEdge u x rise = edgeShown c u x rise := by
  have hsame : (edgeShown c u x rise).on TIM.TSI.RINGEN u = c.on TIM.TSI.RINGEN u :=
    on_of_get ((edgeShown_moves c u x rise).get (by simp [stampFields]; decide) u)
  exact (if_neg (mt (edgeLost_iff c u x).1 h)).trans (if_neg (ne_true_of_eq_false (hsame.trans hring)))

/-- With one, its record follows. -/
theorem stampEdge_shown : RingMoves (edgeShown c u x rise) (c.stampEdge u x rise) := by
  have heq : c.stampEdge u x rise = if (edgeShown c u x rise).on TIM.TSI.RINGEN u then
      (edgeShown c u x rise).ringItem { ring := (edgeShown c u x rise).get TIM.TSI.RING u, words := [2 ^ 28 * 3 + 2 ^ 23 * u + 2 ^ 22 * bit rise +
        (edgeShown c u x rise).get TIM.TSV.NUM u, (c.stamp x).2, (c.stamp x).1 % 2 ^ 32, (c.stamp x).1 / 2 ^ 32] }
      else edgeShown c u x rise := if_neg (mt (edgeLost_iff c u x).1 h)
  rw [heq]
  exact (ringItem_moves _ _).ite ringMoves_refl

end

end

/-- An edge that is not lost leaves the time base's conversion, and every field below the page manager that does not show it. -/
structure EdgeTaken (c : Chip) (u x : Nat) (d : Chip) : Prop where
  now : d.now = c.now
  tim : d.tim = { c.tim with lastEdge := nset none c.tim.lastEdge u (some x) }
  dev : d.dev = c.dev
  fields : ∀ (f : Fld) (n : Nat), BelowPages f → (f.id, f.lo) ∉ fieldKeys [TIM.TSV.NUM, TIM.TSV.RISE, TIM.TSV.TIME, TIM.TSV.TAP] →
    d.get f n = c.get f n

section

variable {c : Chip} {u x : Nat}

theorem stampEdge_taken (rise : Bool) (h : ¬Near c u x) : EdgeTaken c u x (c.stampEdge u x rise) := by
  have hshown := edgeShown_moves c u x rise
  have hring := stampEdge_shown c u x rise h
  exact
    { now := hring.now
      tim := (congrArg Chip.tim hring.rest).trans rfl
      dev := (congrArg Chip.dev hring.rest).trans rfl
      fields := fun f n hbelow hf => (hring.fields f n hbelow).trans (hshown.get hf n) }

variable {d : Chip} (hd : EdgeTaken c u x d)

include hd

theorem EdgeTaken.raw : d.raw d.now = c.raw c.now := by rw [Chip.raw, hd.tim, hd.now, ← Chip.raw]

theorem EdgeTaken.corrected (y : Nat) : d.corrected y = c.corrected y :=
  corrected_congr (by rw [hd.tim]) (by rw [hd.tim]) hd.raw (hd.fields _ _ (by decide) (by decide)) (hd.fields _ _ (by decide) (by decide)) y

end

/-! TVALID, HOLD and holdover (R330) -/

section

variable (c : Chip) (tv hold : Bool)

theorem setValid_tim : (c.setValid tv hold).tim = c.tim := (setValid_moves c tv hold).part (p := .tim) (by decide) (by decide)

theorem get_setValid : (c.setValid tv hold).get TIM.STAT.TVALID = bit tv ∧ (c.setValid tv hold).get TIM.STAT.HOLD = bit hold := by
  have hset : ((c.setB TIM.STAT.TVALID 0 tv).setB TIM.STAT.HOLD 0 hold).get TIM.STAT.TVALID = bit tv :=
    (get_set_fld _ _ _ _ (by decide)).trans (get_setB_self _ _ _ rfl)
  have hhold : ((c.setB TIM.STAT.TVALID 0 tv).setB TIM.STAT.HOLD 0 hold).get TIM.STAT.HOLD = bit hold := get_setB_self _ _ _ rfl
  unfold Chip.setValid
  dsimp only
  split
  · exact ⟨hset, hhold⟩
  · exact ⟨hset, hhold⟩

/-- In holdover time is no longer good, and no instant is noted. -/
theorem setValid_held (h : c.on TIM.STAT.HOLD = true) :
    c.setValid tv hold = (c.setB TIM.STAT.TVALID 0 tv).setB TIM.STAT.HOLD 0 hold := if_neg (by simp [h])

/-- Holdover begins. -/
def holdEntered (c : Chip) : Chip :=
  { c.setValid (c.on TIM.STAT.TVALID) true with tim := { c.tim with holdAt := c.now, goodRun := 0 } }

/-- Its beginning is flagged and counted. -/
def holdCounted (c : Chip) : Chip := ((holdEntered c).flag TIM.EVT.HOLDIN).inc TIM.CNT.HOLD

/-- The fields in which the beginning of holdover shows. -/
def holdFields : List (Fld × Nat) := [(TIM.STAT.HOLD, 0), (TIM.STAT.TVALID, 0), (TIM.EVT.HOLDIN, 0), (TIM.CNT.HOLD, 0)]

theorem holdEntered_moves : Moves holdFields [.tim, .flt, .pmu] c (holdEntered c) :=
  ((setValid_moves c (c.on TIM.STAT.TVALID) true).mono (by simp [holdFields]) (by simp)).parts
    (by rw [holdEntered, ← setValid_tim c (c.on TIM.STAT.TVALID) true]; rfl) rfl

theorem holdCounted_moves : Moves holdFields [.tim, .flt, .pmu] c (holdCounted c) :=
  Moves.inc (f := TIM.CNT.HOLD) (n := 0) (Moves.flag (f := TIM.EVT.HOLDIN) (n := 0) (holdEntered_moves c) (by simp [holdFields]))
    (by simp [holdFields])

theorem get_holdCounted : (holdCounted c).get TIM.STAT.HOLD = 1 ∧ (holdCounted c).get TIM.STAT.TVALID = bit (c.on TIM.STAT.TVALID) ∧
    (holdCounted c).get TIM.EVT.HOLDIN = 1 ∧ (holdCounted c).get TIM.CNT.HOLD = satN TIM.CNT.HOLD.width (c.get TIM.CNT.HOLD + 1) := by
  obtain ⟨htv, hhold⟩ := get_setValid c (c.on TIM.STAT.TVALID) true
  have hcnt : (holdEntered c).get TIM.CNT.HOLD = c.get TIM.CNT.HOLD := (setValid_moves c _ true).get (by decide) 0
  refine ⟨?_, ?_, ?_, ?_⟩
  · exact (get_inc_fld _ _ _ (by decide)).trans ((get_flag_fld _ _ _ (by decide)).trans hhold)
  · exact (get_inc_fld _ _ _ (by decide)).trans ((get_flag_fld _ _ _ (by decide)).trans htv)
  · exact (get_inc_fld _ _ _ (by decide)).trans (get_flag_self _ _ rfl)
  · exact (get_inc_self _ _ _).trans (by rw [get_flag_fld _ _ _ (by decide), hcnt])

theorem enterHold_enters (hcorr : c.tim.corrections ≠ 0) (hhold : c.on TIM.STAT.HOLD = false) (hsrc : c.get TIM.CFG.SRC ≠ 0) :
    c.enterHold = (holdCounted c).raise 41 := by
  refine if_neg ?_
  rintro (h | h | h)
  · exact hcorr h
  · exact ne_true_of_eq_false hhold h
  · exact hsrc h

theorem flt_enterHold : ((holdCounted c).raise 41).flt = { c.flt with raised := inFlight c 41 } := by
  have hfabric : (holdCounted c).fabric = c.fabric := congrArg (·.testBit 0) ((holdCounted_moves c).get (by decide) 0)
  have hnow : (holdCounted c).now = c.now := setValid_now c _ _
  have hflt : (holdCounted c).flt = c.flt := (setValid_moves c _ true).part (p := .flt) (by decide) (by decide)
  rw [raise_flt, inFlight_congr hfabric hflt hnow, hflt]

end

/-! A correction of the servo (R328, R333) -/

/-- One correction has been made, the time and the fields that do not show it are as before, and holdover has ended. -/
structure Corrected (c d : Chip) : Prop where
  now : d.now = c.now
  corrections : d.tim.corrections = c.tim.corrections + 1
  ppsInAt : d.tim.ppsInAt = c.tim.ppsInAt
  hold : d.get TIM.STAT.HOLD = 0
  bad : d.get TIM.CNT.PPSBAD = c.get TIM.CNT.PPSBAD

theorem corrected_of_setValid {c d : Chip} (tv : Bool) (hnow : d.now = c.now) (hcorr : d.tim.corrections = c.tim.corrections + 1)
    (hpps : d.tim.ppsInAt = c.tim.ppsInAt) (hbad : d.get TIM.CNT.PPSBAD = c.get TIM.CNT.PPSBAD) : Corrected c (d.setValid tv false) := by
  have htim := setValid_tim d tv false
  obtain ⟨-, hhold⟩ := get_setValid d tv false
  exact ⟨(setValid_now d tv false).trans hnow, by rw [htim, hcorr], by rw [htim, hpps], hhold,
    ((setValid_moves d tv false).get (by decide) 0).trans hbad⟩

theorem Corrected.withTim {c d : Chip} (h : Corrected c d) {x : Tim} (hcorr : x.corrections = c.tim.corrections + 1)
    (hpps : x.ppsInAt = c.tim.ppsInAt) : Corrected c { d with tim := x } := ⟨h.now, hcorr, hpps, h.hold, h.bad⟩

/-- The servo counts a correction. -/
def correcting (c : Chip) : Chip := { c with tim := { c.tim with corrections := c.tim.corrections + 1 } }

/-- A correction by a step of the offset. -/
def servoStepped (c : Chip) (offset : Int) : Chip := ((correcting c).stepOfs (-offset)).flag TIM.EVT.STEP

/-- A correction by a new rate, behind which so many offsets in a row were small. -/
def servoRated (c : Chip) (r : Int) (small : Nat) : Chip :=
  { (correcting c).newRate r with tim := { ((correcting c).newRate r).tim with goodRun := small } }

section

variable (c : Chip) (offset : Int)

/-- A correction is a step, after which time is not valid, or a new rate, after which it may be. -/
theorem servo_cases : c.servo offset =
      { (servoStepped c offset).setValid false false with tim := { (servoStepped c offset).tim with goodRun := 0 } } ∨
    ∃ r small tv, c.servo offset = (servoRated c r small).setValid tv false := by
  unfold Chip.servo
  dsimp only
  split
  · exact .inl rfl
  · split
    · exact .inr ⟨_, _, _, rfl⟩
    · exact .inr ⟨_, _, _, rfl⟩

theorem get_servoRated_bad (r : Int) (small : Nat) : (servoRated c r small).get TIM.CNT.PPSBAD = c.get TIM.CNT.PPSBAD :=
  (get_congr (show (servoRated c r small).regs = ((correcting c).newRate r).regs from rfl) _ _).trans
    ((newRate_moves (correcting c) r).get (by decide) 0)

theorem get_servoStepped_bad : (servoStepped c offset).get TIM.CNT.PPSBAD = c.get TIM.CNT.PPSBAD :=
  (get_flag_fld _ _ _ (by decide)).trans ((stepOfs_moves (correcting c) (-offset)).get (by decide) 0)

theorem servoStepped_now : (servoStepped c offset).now = c.now := rfl

theorem servoStepped_tim : (servoStepped c offset).tim.corrections = c.tim.corrections + 1 ∧
    (servoStepped c offset).tim.ppsInAt = c.tim.ppsInAt := ⟨rfl, rfl⟩

theorem servoRated_now (r : Int) (small : Nat) : (servoRated c r small).now = c.now := rfl

theorem servoRated_tim (r : Int) (small : Nat) : (servoRated c r small).tim.corrections = c.tim.corrections + 1 ∧
    (servoRated c r small).tim.ppsInAt = c.tim.ppsInAt := ⟨rfl, rfl⟩

theorem servo_corrects : Corrected c (c.servo offset) := by
  rcases servo_cases c offset with h | ⟨r, small, tv, h⟩ <;> rw [h]
  · obtain ⟨hcorr, hpps⟩ := servoStepped_tim c offset
    exact (corrected_of_setValid false (servoStepped_now c offset) hcorr hpps (get_servoStepped_bad c offset)).withTim hcorr hpps
  · obtain ⟨hcorr, hpps⟩ := servoRated_tim c r small
    exact corrected_of_setValid tv (servoRated_now c r small) hcorr hpps (get_servoRated_bad c r small)

end

end Sys2Proof.Scope
end

section
/-! CLAIM. Stamp inputs, PPS and SYNC pins, missing seconds and the end of holdover (R330, R332, R333, R335, R336, R339). -/

namespace Sys2Proof.Scope

open Sys2Proof.Machine Sys2Proof.Machine.Reg Sys2Proof.Laws

/-! Edges (R339) -/

section

variable {s : State} (hinv : s.Inv) {t u ps : Nat} {rise : Bool}

include hinv

theorem timestampInput_stamps {l : List (Fld × Nat)} {ps' : List Part} {c : Chip} (hrel : s.chip.released 1 = true) (hu : u < 16)
    (hps : 4000 ≤ ps) (hedge : (s.chip.get TIM.TSI.EDGE u).testBit (if rise then 0 else 1) = true)
    (hc : (s.chip.at_ t).stampEdge u (s.chip.raw (s.at_ t)) rise = c) (hmoves : Moves l ps' (s.chip.at_ t) c) (hpgm : Part.pgm ∉ ps') :
    exec (.timestampInput t u ⟨rise, ps⟩) s = .next { s with chip := c } := by
  rw [exec_timestampInput, execTimestampInput]
  refine run_moves hinv ((if_pos ?_).trans hc) hmoves hpgm
  rw [Bool.and_eq_true, Bool.and_eq_true, decide_eq_true_eq]
  exact ⟨⟨hrel, hu, hps⟩, hedge⟩

/-- A level that does not last for 4 ns is not seen. -/
theorem pulse_waits (hps : ps < 4000) : exec (.timestampInput t u ⟨rise, ps⟩) s = .next (s.waits t) ∧
    exec (.ppsInEdge ⟨t, ps⟩) s = .next (s.waits t) ∧ exec (.syncInEdge ⟨t, ps⟩) s = .next (s.waits t) := by
  rw [exec_timestampInput, execTimestampInput, exec_ppsInEdge, execPpsInEdge, exec_syncInEdge, execSyncInEdge]
  refine ⟨run_waits hinv (if_neg ?_), run_waits hinv (if_pos (.inr hps)), run_waits hinv (if_pos (.inr hps))⟩
  rw [Bool.and_eq_true, Bool.and_eq_true, decide_eq_true_eq]
  rintro ⟨⟨-, -, hlong⟩, -⟩
  exact Nat.not_lt.2 hlong hps

end

/-! PPS_OUT (R332) -/

section

variable {s : State} (hinv : s.Inv) {t : Nat} {tc : Int} (htc : tc = (s.chip.at_ t).corrected (s.chip.raw (s.at_ t)))

include hinv

include htc in
theorem ppsOutPulse_rises (hrel : s.chip.released 1 = true) (hoen : s.chip.on TIM.PPS.OEN = true)
    (hvalid : s.chip.on TIM.STAT.TVALID = true ∨ s.chip.on TIM.PPS.FREE = true) (hlow : s.chip.tim.ppsHigh = false)
    (hsec : tc % (secTaps : Int) < 8) (hnext : s.chip.tim.ppsNext ≤ tc / (secTaps : Int)) :
    exec (.ppsOutPulse t) s = .next { s with chip := { s.chip.at_ t with
      tim := { s.chip.tim with ppsHigh := true, ppsAt := s.at_ t, ppsNext := tc / (secTaps : Int) + 1 } } } := by
  subst htc
  rw [exec_ppsOutPulse, execPpsOutPulse]
  exact run_moves hinv (l := []) (ps := [.tim]) (if_pos ⟨hrel, hoen, hvalid, ne_true_of_eq_false hlow, hsec, hnext⟩)
    (moves_refl.parts rfl rfl) (by decide)

include htc in
theorem ppsOutPulse_waits (h : s.chip.on TIM.PPS.OEN = false ∨ tc / (secTaps : Int) < s.chip.tim.ppsNext ∨
    (s.chip.on TIM.STAT.TVALID = false ∧ s.chip.on TIM.PPS.FREE = false)) : exec (.ppsOutPulse t) s = .next (s.waits t) := by
  subst htc
  rw [exec_ppsOutPulse, execPpsOutPulse]
  refine run_waits hinv (if_neg ?_)
  rintro ⟨-, hoen, hvalid, -, -, hnext⟩
  rcases h with hoff | hserved | ⟨hbad, hbound⟩
  · exact ne_true_of_eq_false hoff hoen
  · exact not_lt.2 hnext hserved
  · exact hvalid.elim (ne_true_of_eq_false hbad) (ne_true_of_eq_false hbound)

theorem ppsOutEnd_falls (hhigh : s.chip.tim.ppsHigh = true) (hdue : s.chip.tim.ppsAt + s.chip.get TIM.PPS.WIDTH * msTaps ≤ s.at_ t) :
    exec (.ppsOutEnd t) s = .next { s with chip := { s.chip.at_ t with tim := { s.chip.tim with ppsHigh := false } } } := by
  rw [exec_ppsOutEnd, execPpsOutEnd]
  exact run_moves hinv (l := []) (ps := [.tim]) (if_pos ⟨hhigh, hdue⟩) (moves_refl.parts rfl rfl) (by decide)

theorem ppsOutEnd_waits (h : s.chip.tim.ppsHigh = false ∨ s.at_ t < s.chip.tim.ppsAt + s.chip.get TIM.PPS.WIDTH * msTaps) :
    exec (.ppsOutEnd t) s = .next (s.waits t) := by
  rw [exec_ppsOutEnd, execPpsOutEnd]
  exact run_waits hinv (if_neg fun ⟨hhigh, hdue⟩ => h.elim (fun hlow => ne_true_of_eq_false hlow hhigh) (Nat.not_lt.2 hdue))

end

/-! PPS_IN (R330, R333) -/

/-- PPS_IN at an instant, its edge stamped. -/
def ppsStamped (s : State) (t : Nat) : Chip := (s.chip.at_ t).stampEdge 16 (s.chip.raw (s.at_ t)) true

/-- The distance of a stamped edge from the nearest second. -/
def ppsOffset (s : State) (t : Nat) : Int :=
  nearSecond ((s.chip.at_ t).corrected (s.chip.raw (s.at_ t)) - s.chip.get TIM.PPS.INDLY)

/-- The edge disciplines the time base. -/
def ppsServed (c : Chip) (offset : Int) : Chip := { c with tim := { c.tim with ppsInAt := some c.now } }.servo offset

/-- What a stamped edge of the selected pin does. -/
def ppsTaken (s : State) (t : Nat) : Chip :=
  if s.chip.on TIM.STAT.TVALID = true ∧ 10 * usTaps < (ppsOffset s t).natAbs then (ppsStamped s t).inc TIM.CNT.PPSBAD
  else ppsServed (ppsStamped s t) (ppsOffset s t)

/-- No stamp is lost where each edge comes 128 taps or more after the last. -/
theorem not_near {c : Chip} {u x : Nat} (h : ∀ y, nget none c.tim.lastEdge u = some y → y + 128 ≤ x) : ¬Near c u x := by
  rintro ⟨y, hy, hlt⟩
  exact Nat.not_lt.2 (h y hy) hlt

section

variable {s : State} {t ps : Nat} (hrel : s.chip.released 1 = true) (hps : 4000 ≤ ps)

include hrel hps

theorem ppsInEdge_near (hinv : s.Inv) (hnear : Near (s.chip.at_ t) 16 (s.chip.raw (s.at_ t))) :
    exec (.ppsInEdge ⟨t, ps⟩) s = .next { s with chip := edgeOverrun (s.chip.at_ t) } := by
  rw [exec_ppsInEdge, execPpsInEdge]
  refine run_moves hinv ((if_neg ?_).trans ((if_pos (.inr ((edgeLost_iff _ _ _).2 hnear))).trans (stampEdge_near _ _ _ _ hnear)))
    (edgeOverrun_moves (s.chip.at_ t)) (by decide)
  exact not_or.2 ⟨not_not.2 hrel, Nat.not_lt.2 hps⟩

variable (hnear : ¬Near (s.chip.at_ t) 16 (s.chip.raw (s.at_ t))) (hsrc : s.chip.get TIM.CFG.SRC = 2)

include hnear hsrc

theorem ppsInEdge_stamped : exec (.ppsInEdge ⟨t, ps⟩) s = .next (flush { s with chip := ppsTaken s t }) := by
  have htaken : EdgeTaken (s.chip.at_ t) 16 (s.chip.raw (s.at_ t)) (ppsStamped s t) := stampEdge_taken true hnear
  have hsrc' : (ppsStamped s t).get TIM.CFG.SRC = 2 := (htaken.fields _ _ (by decide) (by decide)).trans hsrc
  have hvalid : (ppsStamped s t).on TIM.STAT.TVALID = s.chip.on TIM.STAT.TVALID := on_of_get (htaken.fields _ _ (by decide) (by decide))
  have hoff : nearSecond ((ppsStamped s t).corrected (s.chip.raw (s.at_ t)) - (ppsStamped s t).get TIM.PPS.INDLY) = ppsOffset s t := by
    rw [htaken.corrected, htaken.fields TIM.PPS.INDLY 0 (by decide) (by decide)]
    rfl
  have hgate : ¬(¬(s.chip.at_ t).released 1 = true ∨ ps < levelMin) := not_or.2 ⟨not_not.2 hrel, Nat.not_lt.2 hps⟩
  have hlost : ¬((ppsStamped s t).get TIM.CFG.SRC ≠ 2 ∨ (s.chip.at_ t).edgeLost 16 (s.chip.raw (s.at_ t)) = true) :=
    not_or.2 ⟨not_not.2 hsrc', mt (edgeLost_iff _ _ _).1 hnear⟩
  rw [exec_ppsInEdge, execPpsInEdge]
  refine run_flush ((if_neg hgate).trans ((if_neg hlost).trans ?_))
  rw [ppsTaken, ← hvalid, ← hoff]
  rfl

end

section

variable {s : State} {t : Nat} (hnear : ¬Near (s.chip.at_ t) 16 (s.chip.raw (s.at_ t)))

include hnear

/-- An edge far from a second while time is valid is only counted. -/
theorem ppsTaken_bad (hvalid : s.chip.on TIM.STAT.TVALID = true) (hfar : 10 * usTaps < (ppsOffset s t).natAbs) :
    (ppsTaken s t).now = s.at_ t ∧ (ppsTaken s t).get TIM.CNT.PPSBAD = satN TIM.CNT.PPSBAD.width (s.chip.get TIM.CNT.PPSBAD + 1) ∧
    (ppsTaken s t).tim.corrections = s.chip.tim.corrections ∧ (ppsTaken s t).get TIM.RATE.RATE = s.chip.get TIM.RATE.RATE ∧
    (ppsTaken s t).get TIM.OFS.OFS = s.chip.get TIM.OFS.OFS := by
  have htaken : EdgeTaken (s.chip.at_ t) 16 (s.chip.raw (s.at_ t)) (ppsStamped s t) := stampEdge_taken true hnear
  rw [show ppsTaken s t = (ppsStamped s t).inc TIM.CNT.PPSBAD from if_pos ⟨hvalid, hfar⟩]
  refine ⟨htaken.now, (get_inc_self _ _ _).trans ?_, (congrArg Tim.corrections htaken.tim).trans rfl,
    (get_inc_fld _ _ _ (by decide)).trans (htaken.fields _ _ (by decide) (by decide)),
    (get_inc_fld _ _ _ (by decide)).trans (htaken.fields _ _ (by decide) (by decide))⟩
  rw [htaken.fields TIM.CNT.PPSBAD 0 (by decide) (by decide)]
  rfl

/-- Any other corrects the time base. -/
theorem ppsTaken_corrects (h : s.chip.on TIM.STAT.TVALID = false ∨ (ppsOffset s t).natAbs ≤ 10 * usTaps) :
    (ppsTaken s t).now = s.at_ t ∧ (ppsTaken s t).tim.corrections = s.chip.tim.corrections + 1 ∧
    (ppsTaken s t).tim.ppsInAt = some (s.at_ t) ∧ (ppsTaken s t).get TIM.CNT.PPSBAD = s.chip.get TIM.CNT.PPSBAD ∧
    (ppsTaken s t).get TIM.STAT.HOLD = 0 := by
  have htaken : EdgeTaken (s.chip.at_ t) 16 (s.chip.raw (s.at_ t)) (ppsStamped s t) := stampEdge_taken true hnear
  have hserved : Corrected { ppsStamped s t with tim := { (ppsStamped s t).tim with ppsInAt := some (ppsStamped s t).now } }
      (ppsServed (ppsStamped s t) (ppsOffset s t)) := servo_corrects _ _
  have hcond : ¬(s.chip.on TIM.STAT.TVALID = true ∧ 10 * usTaps < (ppsOffset s t).natAbs) := fun ⟨hvalid, hfar⟩ =>
    h.elim (fun hoff => ne_true_of_eq_false hoff hvalid) (Nat.not_le.2 hfar)
  rw [show ppsTaken s t = ppsServed (ppsStamped s t) (ppsOffset s t) from if_neg hcond]
  have hcorr : (ppsStamped s t).tim.corrections = s.chip.tim.corrections := (congrArg Tim.corrections htaken.tim).trans rfl
  exact ⟨hserved.now.trans htaken.now, hserved.corrections.trans (congrArg (· + 1) hcorr),
    hserved.ppsInAt.trans (congrArg some htaken.now), hserved.bad.trans (htaken.fields TIM.CNT.PPSBAD 0 (by decide) (by decide)),
    hserved.hold⟩

end

section

variable {s : State} (hinv : s.Inv) {t a : Nat} (hsrc : s.chip.get TIM.CFG.SRC = 2) (ha : s.chip.tim.ppsInAt = some a)

include hinv

theorem ppsInMissing_eq {l : List (Fld × Nat)} {ps : List Part} {c : Chip}
    (hc : (if s.chip.get TIM.CFG.SRC = 2 ∧ a + 3 * secTaps ≤ s.at_ t then (s.chip.at_ t).enterHold else s.chip.at_ t) = c)
    (ha : s.chip.tim.ppsInAt = some a) (hmoves : Moves l ps (s.chip.at_ t) c) (hps : Part.pgm ∉ ps) :
    exec (.ppsInMissing t) s = .next { s with chip := c } := by
  rw [exec_ppsInMissing, execPpsInMissing]
  have ha' : (s.chip.at_ t).tim.ppsInAt = some a := ha
  refine run_moves hinv ?_ hmoves hps
  simp only [ha']
  exact hc

include ha in
theorem ppsInMissing_waits (h : s.at_ t < a + 3 * secTaps) : exec (.ppsInMissing t) s = .next (s.waits t) :=
  ppsInMissing_eq hinv (if_neg fun hdue => Nat.not_lt.2 hdue.2 h) ha (moves_refl (l := []) (ps := [])) (by decide)

include hsrc ha in
theorem ppsInMissing_holds (h : a + 3 * secTaps ≤ s.at_ t) (hcorr : s.chip.tim.corrections ≠ 0) (hhold : s.chip.on TIM.STAT.HOLD = false) :
    exec (.ppsInMissing t) s = .next { s with chip := (holdCounted (s.chip.at_ t)).raise 41 } :=
  ppsInMissing_eq hinv ((if_pos ⟨hsrc, h⟩).trans (enterHold_enters (s.chip.at_ t) hcorr hhold fun h0 => by
    have hsame : s.chip.get TIM.CFG.SRC = 0 := h0
    omega)) ha ((holdCounted_moves _).raise 41 (by decide)) (by decide)

end

section

variable {s : State} (hinv : s.Inv) {t : Nat}

include hinv

theorem holdoverTimeout_ends (hhold : s.chip.on TIM.STAT.HOLD = true)
    (hdue : s.chip.tim.holdAt + s.chip.get TIM.CFG.HOLDMAX * secTaps ≤ s.at_ t) :
    exec (.holdoverTimeout t) s = .next { s with chip := (s.chip.at_ t).setValid false true } := by
  rw [exec_holdoverTimeout, execHoldoverTimeout]
  exact run_moves hinv (if_pos ⟨hhold, hdue⟩) (setValid_moves (s.chip.at_ t) false true) (by decide)

theorem holdoverTimeout_waits (h : s.at_ t < s.chip.tim.holdAt + s.chip.get TIM.CFG.HOLDMAX * secTaps) :
    exec (.holdoverTimeout t) s = .next (s.waits t) := by
  rw [exec_holdoverTimeout, execHoldoverTimeout]
  exact run_waits hinv (if_neg fun hdue => Nat.not_lt.2 hdue.2 h)

end

/-! SYNC_IN (R335, R336) -/

/-- SYNC_IN at an instant, its edge stamped. -/
def syncStamped (s : State) (t : Nat) : Chip := (s.chip.at_ t).stampEdge 17 (s.chip.raw (s.at_ t)) true

/-- The first edge places the ticks: y is its raw instant less the pin's delay. -/
def ticksPlaced (c : Chip) (y : Nat) : Chip :=
  let d := (c.set TIM.STAT.PHI 0 (y % 64)).set TIM.STAT.WAITSYNC 0 0
  { d with
    tim := { c.tim with phi := y % 64 }
    dev := { c.dev with ticking := true, nextT0 := c.tim.c0 + 64 * (y / 64) } }.placeCarriers

/-- The distance of a later edge from the tick that was predicted. -/
def syncError (s : State) (y : Nat) : Int :=
  let p : Int := s.chip.period
  ((y : Int) + s.chip.tim.c0 - s.chip.tim.phi - s.chip.dev.nextT0 + p / 2) % p - p / 2

/-- A later edge is compared with the prediction. -/
def syncCompared (c : Chip) (d : Int) : Chip := if c.get TIM.SYNC.STOL < d.natAbs then (c.flag TIM.EVT.SYNCERR).raise 43 else c

theorem get_ticksPlaced (c : Chip) (y : Nat) : (ticksPlaced c y).get TIM.STAT.PHI = y % 64 ∧ (ticksPlaced c y).get TIM.STAT.WAITSYNC = 0 := by
  have hregs : (ticksPlaced c y).regs = ((c.set TIM.STAT.PHI 0 (y % 64)).set TIM.STAT.WAITSYNC 0 0).regs := rfl
  have hphi : (c.set TIM.STAT.PHI 0 (y % 64)).get TIM.STAT.PHI = y % 64 :=
    (get_set_self _ _ _ _).trans (Nat.mod_eq_of_lt (Nat.mod_lt y (by decide)))
  exact ⟨(get_congr hregs _ _).trans ((get_set_fld _ _ _ _ (by decide)).trans hphi), (get_congr hregs _ _).trans (get_set_self _ _ _ _)⟩

/-- What a stamped edge does for a follower in RUN. -/
def syncTaken (s : State) (t y : Nat) : Chip :=
  if s.chip.dev.ticking = true then syncCompared (syncStamped s t) (syncError s y) else ticksPlaced (syncStamped s t) y

section

variable {s : State} {t ps y : Nat} (hrel : s.chip.released 1 = true) (hrun : s.chip.inRun = true) (hsrc : s.chip.get TIM.CFG.TICKSRC = 2)
  (hps : 4000 ≤ ps) (hnear : ¬Near (s.chip.at_ t) 17 (s.chip.raw (s.at_ t))) (hy : y = s.chip.raw (s.at_ t) - s.chip.get TIM.SYNC.SDLY)

include hrel hrun hsrc hps hnear hy

theorem syncInEdge_stamped : exec (.syncInEdge ⟨t, ps⟩) s = .next (flush { s with chip := syncTaken s t y }) := by
  have htaken : EdgeTaken (s.chip.at_ t) 17 (s.chip.raw (s.at_ t)) (syncStamped s t) := stampEdge_taken true hnear
  have hsrc' : (syncStamped s t).get TIM.CFG.TICKSRC = 2 := (htaken.fields _ _ (by decide) (by decide)).trans hsrc
  have hrun' : (syncStamped s t).inRun = true := (congrArg (· == stRun) (htaken.fields _ _ (by decide) (by decide))).trans hrun
  have hticking : (syncStamped s t).dev.ticking = s.chip.dev.ticking := by rw [htaken.dev]; rfl
  have hperiod : (syncStamped s t).period = s.chip.period := congrArg (64 * ·) (htaken.fields DEV.TICK.PERIOD 0 (by decide) (by decide))
  have herror : ((y : Int) + (syncStamped s t).tim.c0 - (syncStamped s t).tim.phi - (syncStamped s t).dev.nextT0 +
      (syncStamped s t).period / 2) % (syncStamped s t).period - (syncStamped s t).period / 2 = syncError s y := by
    rw [hperiod, htaken.tim, htaken.dev]
    rfl
  have hgate : ¬(¬(s.chip.at_ t).released 1 = true ∨ ps < levelMin) := not_or.2 ⟨not_not.2 hrel, Nat.not_lt.2 hps⟩
  have hlost : ¬((s.chip.at_ t).edgeLost 17 (s.chip.raw (s.at_ t)) = true ∨ ¬(syncStamped s t).inRun = true ∨
      (syncStamped s t).get TIM.CFG.TICKSRC ≠ 2) :=
    not_or.2 ⟨mt (edgeLost_iff _ _ _).1 hnear, not_or.2 ⟨not_not.2 hrun', not_not.2 hsrc'⟩⟩
  have hsdly : s.chip.raw (s.at_ t) - (syncStamped s t).get TIM.SYNC.SDLY = y := by
    rw [hy, htaken.fields TIM.SYNC.SDLY 0 (by decide) (by decide)]
    rfl
  rw [exec_syncInEdge, execSyncInEdge]
  refine run_flush ((if_neg hgate).trans ((if_neg hlost).trans ?_))
  rw [syncTaken, ← hticking, ← herror, ← hsdly]
  exact ite_not _ _ _

end

section

variable {s : State} {t y : Nat} (hnear : ¬Near (s.chip.at_ t) 17 (s.chip.raw (s.at_ t)))

include hnear

/-- The first edge of a follower places its ticks. -/
theorem syncTaken_placed (hoff : s.chip.dev.ticking = false) : syncTaken s t y = ticksPlaced (syncStamped s t) y ∧
    (syncStamped s t).now = s.at_ t ∧ (syncStamped s t).tim.c0 = s.chip.tim.c0 := by
  have htaken : EdgeTaken (s.chip.at_ t) 17 (s.chip.raw (s.at_ t)) (syncStamped s t) := stampEdge_taken true hnear
  exact ⟨if_neg (ne_true_of_eq_false hoff), htaken.now, (congrArg Tim.c0 htaken.tim).trans rfl⟩

/-- A later one is compared. -/
theorem syncTaken_compared (hon : s.chip.dev.ticking = true) (hring : s.chip.on TIM.TSI.RINGEN 17 = false) :
    syncTaken s t y = syncCompared (edgeShown (s.chip.at_ t) 17 (s.chip.raw (s.at_ t)) true) (syncError s y) :=
  (if_pos hon).trans (congrArg (syncCompared · _) (stampEdge_noRing _ _ _ _ hnear hring))

end

section

variable (s : State) (t : Nat) {d : Int}

theorem edgeShown_sync_get (f : Fld) (n : Nat) (hf : (f.id, f.lo) ∉ fieldKeys ((stampFields 17).map Prod.fst)) :
    (edgeShown (s.chip.at_ t) 17 (s.chip.raw (s.at_ t)) true).get f n = s.chip.get f n :=
  (edgeShown_moves (s.chip.at_ t) 17 (s.chip.raw (s.at_ t)) true).get hf n

/-- Beyond STOL of the prediction the edge is flagged and raises source 43. -/
theorem syncCompared_beyond (h : s.chip.get TIM.SYNC.STOL < d.natAbs) :
    syncCompared (edgeShown (s.chip.at_ t) 17 (s.chip.raw (s.at_ t)) true) d =
      ((edgeShown (s.chip.at_ t) 17 (s.chip.raw (s.at_ t)) true).flag TIM.EVT.SYNCERR).raise 43 :=
  if_pos (by rw [edgeShown_sync_get s t _ _ (by decide)]; exact h)

theorem syncCompared_within (h : d.natAbs ≤ s.chip.get TIM.SYNC.STOL) :
    syncCompared (edgeShown (s.chip.at_ t) 17 (s.chip.raw (s.at_ t)) true) d = edgeShown (s.chip.at_ t) 17 (s.chip.raw (s.at_ t)) true :=
  if_neg (by rw [edgeShown_sync_get s t _ _ (by decide)]; exact Nat.not_lt.2 h)

theorem flt_syncBeyond : (((edgeShown (s.chip.at_ t) 17 (s.chip.raw (s.at_ t)) true).flag TIM.EVT.SYNCERR).raise 43).flt =
    { s.chip.flt with raised := s.raised t 43 } := by
  have hfabric : ((edgeShown (s.chip.at_ t) 17 (s.chip.raw (s.at_ t)) true).flag TIM.EVT.SYNCERR).fabric = (s.chip.at_ t).fabric :=
    congrArg (·.testBit 0) ((get_flag_fld _ _ _ (by decide)).trans (edgeShown_sync_get s t _ _ (by decide)))
  refine (raise_flt _ _).trans ?_
  rw [inFlight_congr hfabric rfl rfl]
  rfl

end

/-- Settles O42: an edge that is not lost leaves the conversion of time and the fields the pins are judged by, so that what a pin does
is read off the state before it. -/
theorem stampsAndSeconds : Obligations.StampsAndSeconds := by
  unfold Obligations.StampsAndSeconds
  refine ⟨fun s t u ps rise hinv hrel hu hps hedge => ⟨fun hnear => ?_, fun hnear hring => ?_⟩,
    fun s t u ps rise hinv hps => pulse_waits hinv hps, fun s t tc hinv htc => ⟨fun hrel hoen hvalid hlow hsec hnext => ?_,
      ppsOutPulse_waits hinv htc, fun hhigh hdue => ?_, ppsOutEnd_waits hinv⟩,
    fun s t ps y hinv hrel hps hy hlt => ?_, fun s t ps off hinv hrel hsrc hps hfar hoff => ?_,
    fun s t a hinv hsrc ha => ⟨ppsInMissing_waits hinv ha, fun hdue hcorr hhold => ?_⟩,
    fun s t hinv hhold => ⟨fun hdue => ?_, holdoverTimeout_waits hinv⟩,
    fun s t ps y hinv hrel hrun hsrc hps hfar hy => ⟨fun hticking => ?_, fun hticking hring => ?_⟩⟩
  · have hmoves := edgeOverrun_moves (s.chip.at_ t)
    obtain ⟨hflag, hcount⟩ := get_edgeOverrun (s.chip.at_ t)
    exact ⟨_, timestampInput_stamps hinv hrel hu hps hedge (stampEdge_near _ _ _ _ hnear) hmoves (by decide), rfl, hflag, hcount,
      rfl, rfl, hmoves.rest, hmoves.fields⟩
  · have hmoves := edgeShown_moves (s.chip.at_ t) u (s.chip.raw (s.at_ t)) rise
    obtain ⟨hnum, hrise, htime, htap⟩ := get_edgeShown (s.chip.at_ t) u (s.chip.raw (s.at_ t)) rise
    exact ⟨_, timestampInput_stamps hinv hrel hu hps hedge (stampEdge_noRing _ _ _ _ hnear hring) hmoves (by decide), rfl, hnum, hrise,
      htime, htap, rfl, rfl, rfl, hmoves.rest, hmoves.fields⟩
  · exact ⟨_, ppsOutPulse_rises hinv htc hrel hoen hvalid hlow hsec hnext, rfl, rfl, rfl, rfl, rfl, fun f n _ => rfl⟩
  · exact ⟨_, ppsOutEnd_falls hinv hhigh hdue, rfl, rfl, rfl, rfl, rfl, fun f n _ => rfl⟩
  · have hmoves := edgeOverrun_moves (s.chip.at_ t)
    obtain ⟨hflag, hcount⟩ := get_edgeOverrun (s.chip.at_ t)
    exact ⟨_, ppsInEdge_near hrel hps hinv ⟨y, hy, hlt⟩, rfl, hflag, hcount, rfl, rfl, hmoves.rest, hmoves.fields⟩
  · have hnear : ¬Near (s.chip.at_ t) 16 (s.chip.raw (s.at_ t)) := not_near hfar
    subst hoff
    by_cases h : s.chip.on TIM.STAT.TVALID = true ∧ 10 * usTaps < (ppsOffset s t).natAbs
    · obtain ⟨hnow, hcount, hcorr, hrate, hofs⟩ := ppsTaken_bad hnear h.1 h.2
      exact ⟨_, ppsInEdge_stamped hrel hps hnear hsrc, hnow, fun _ _ => ⟨hcount, hcorr, hrate, hofs⟩, fun hnot =>
        hnot.elim (fun hoff => absurd h.1 (ne_true_of_eq_false hoff)) (fun hle => absurd h.2 (Nat.not_lt.2 hle))⟩
    · have hnot : s.chip.on TIM.STAT.TVALID = false ∨ (ppsOffset s t).natAbs ≤ 10 * usTaps := by
        rwa [not_and_or, Bool.not_eq_true, Nat.not_lt] at h
      obtain ⟨hnow, hcorr, hat, hcount, hheld⟩ := ppsTaken_corrects hnear hnot
      exact ⟨_, ppsInEdge_stamped hrel hps hnear hsrc, hnow, fun hvalid hfar => absurd ⟨hvalid, hfar⟩ h,
        fun _ => ⟨hcorr, hat, hcount, hheld⟩⟩
  · have hmoves := (holdCounted_moves (s.chip.at_ t)).raise 41 (by decide)
    obtain ⟨hheld, htv, hflag, hcount⟩ := get_holdCounted (s.chip.at_ t)
    have htim : ((holdCounted (s.chip.at_ t)).raise 41).tim = { s.chip.tim with holdAt := s.at_ t, goodRun := 0 } := by rw [raise_eq]; rfl
    exact ⟨_, ppsInMissing_holds hinv hsrc ha hdue hcorr hhold, (raise_now _ _ _ _).trans (setValid_now _ _ _), (raise_get _ _ _ _ _ _).trans hheld,
      (raise_get _ _ _ _ _ _).trans htv, (raise_get _ _ _ _ _ _).trans hflag, (raise_get _ _ _ _ _ _).trans hcount, htim,
      flt_enterHold _, rfl, rfl, hmoves.rest, hmoves.fields⟩
  · have hmoves : Moves [(TIM.STAT.TVALID, 0), (TIM.STAT.HOLD, 0)] [] (s.chip.at_ t) ((s.chip.at_ t).setValid false true) := by
      rw [setValid_held (s.chip.at_ t) _ _ hhold]
      exact (moves_refl.set (f := TIM.STAT.TVALID) (n := 0) _ (by simp)).set (f := TIM.STAT.HOLD) (n := 0) _ (by simp)
    obtain ⟨htv, hheld⟩ := get_setValid (s.chip.at_ t) false true
    exact ⟨_, holdoverTimeout_ends hinv hhold hdue, setValid_now _ _ _, htv, hheld, rfl, rfl, hmoves.rest, hmoves.fields⟩
  · have hnear : ¬Near (s.chip.at_ t) 17 (s.chip.raw (s.at_ t)) := not_near hfar
    obtain ⟨hplaced, hnow, hc0⟩ := syncTaken_placed (y := y) hnear hticking
    have hexec := syncInEdge_stamped hrel hrun hsrc hps hnear hy
    rw [hplaced] at hexec
    obtain ⟨hphi, hwait⟩ := get_ticksPlaced (syncStamped s t) y
    have hnext : (ticksPlaced (syncStamped s t) y).dev.nextT0 = s.chip.tim.c0 + 64 * (y / 64) := by rw [← hc0]; rfl
    exact ⟨_, hexec, hnow, hphi, rfl, hwait, rfl, hnext, rfl⟩
  · have hnear : ¬Near (s.chip.at_ t) 17 (s.chip.raw (s.at_ t)) := not_near hfar
    have hexec := syncInEdge_stamped hrel hrun hsrc hps hnear hy
    rw [syncTaken_compared hnear hticking hring] at hexec
    by_cases h : s.chip.get TIM.SYNC.STOL < (syncError s y).natAbs
    · rw [syncCompared_beyond s t h] at hexec
      exact ⟨_, hexec, raise_now _ _ _ _, (congrArg Chip.dev (raise_eq _ _ _ _)).trans rfl,
        fun _ => ⟨(raise_get _ _ _ _ _ _).trans (get_flag_self _ _ rfl), flt_syncBeyond s t⟩, fun hle => absurd h (Nat.not_lt.2 hle)⟩
    · rw [syncCompared_within s t (Nat.not_lt.1 h)] at hexec
      exact ⟨_, hexec, rfl, rfl, fun hlt => absurd hlt h, fun _ => ⟨edgeShown_sync_get s t _ _ (by decide), rfl⟩⟩

end Sys2Proof.Scope
end

section
/-! SUPPORT. The ports of PTP: their enables (R323) and the port that the servo follows (R327). -/

namespace Sys2Proof.Scope

open Sys2Proof.Machine Sys2Proof.Machine.Reg Sys2Proof.Laws

/-! One port's record -/

section

variable (c : Chip) (i : Nat) (v : PtpPort)

theorem ptp_setPtp : (c.setPtp i v).ptp i = v := nget_nset_self _ _ _ _

theorem ptp_setPtp_other {j : Nat} (h : j ≠ i) : (c.setPtp i v).ptp j = c.ptp j := nget_nset_other _ _ _ _ _ _ h

theorem setPtp_moves {l : List (Fld × Nat)} : Moves l [.tim] c (c.setPtp i v) := moves_refl.parts rfl rfl

end

theorem ptp_congr {c d : Chip} (h : d.tim.ports = c.tim.ports) (i : Nat) : d.ptp i = c.ptp i := by rw [Chip.ptp, h, ← Chip.ptp]

/-- Whether a port takes part in PTP is read off its enable and the releases. -/
theorem ptpOn_congr {c d : Chip} {i : Nat} (hpen : d.get TIM.PORT.PEN i = c.get TIM.PORT.PEN i) (hrel : d.get RST.DOM.REL = c.get RST.DOM.REL) :
    d.ptpOn i = c.ptpOn i := by
  have hdom (k : Nat) : d.released k = c.released k := congrArg (·.testBit k) hrel
  rw [Chip.ptpOn, on_of_get hpen, hdom, hdom, ← Chip.ptpOn]

theorem lt_two_of_ptpOn {c : Chip} {i : Nat} (h : c.ptpOn i = true) : i < 2 := by
  simp only [Chip.ptpOn, Bool.and_eq_true, decide_eq_true_eq] at h
  exact h.1.1.1

/-! Ports that follow their enables -/

/-- A port follows its enable. -/
def refreshPort (c : Chip) (i : Nat) : Chip :=
  if c.ptpOn i then (if c.get TIM.PSTAT.PSTATE i = psDisabled then c.set TIM.PSTAT.PSTATE i psListening else c)
  else (c.setPtp i {}).set TIM.PSTAT.PSTATE i psDisabled

theorem ptpRefresh_eq (c : Chip) : c.ptpRefresh = refreshPort (refreshPort c 0) 1 := rfl

/-- Port i follows its enable already. -/
def PortSettled (c : Chip) (i : Nat) : Prop :=
  if c.ptpOn i then c.get TIM.PSTAT.PSTATE i ≠ psDisabled
  else c.get TIM.PSTAT.PSTATE i = psDisabled ∧ nset {} c.tim.ports i {} = c.tim.ports

/-- The fields that do not all reset to one value. -/
def instFields : List Fld := [MON.CFG.CODE, FLT.SCFG.CLASS, FLT.SCFG.ESC, FLT.SRC.CUR, PGM.PDSC.PST, TIM.TSI.EDGE]

/-- Every other field resets to what its name and its place say. -/
theorem fieldReset_congr {f g : Fld} (n : Nat) (hf : f.id ∉ instFields.map Fld.id) (hid : g.id = f.id) (hlo : g.lo = f.lo) :
    fieldReset g n = fieldReset f n := by
  have hnone {e : Fld} (he : e.id ∉ instFields.map Fld.id) : instReset e n = none := by
    have hne (x : Fld) (hx : x ∈ instFields) : e ≠ x := fun h => he (h ▸ List.mem_map_of_mem hx)
    have hsrc : ¬(e = FLT.SCFG.CLASS ∨ e = FLT.SCFG.ESC ∨ e = FLT.SRC.CUR) :=
      not_or.2 ⟨hne _ (by decide), not_or.2 ⟨hne _ (by decide), hne _ (by decide)⟩⟩
    rw [instReset, if_neg (hne _ (by decide)), if_neg hsrc, if_neg (hne _ (by decide)), if_neg (hne _ (by decide))]
  rw [fieldReset, fieldReset, hnone hf, hnone (hid ▸ hf), hid, hlo]

/-- A field set to the value it has. -/
theorem set_same_moves {c : Chip} {f : Fld} {n v : Nat} (hf : f.id ∉ instFields.map Fld.id) (h : c.get f n = v % 2 ^ f.width) :
    Moves [] [] c (c.set f n v) := by
  refine ⟨rfl, fun g k _ => ?_⟩
  by_cases hkey : g.id = f.id ∧ g.lo = f.lo ∧ k = n
  · obtain ⟨hid, hlo, rfl⟩ := hkey
    have hget (e : Chip) : e.get g k = e.get f k := by rw [Chip.get, Chip.get, regGet, regGet, fieldReset_congr k hf hid hlo, hid, hlo]
    rw [hget, hget, get_set_self, h]
  · exact get_set_other _ _ _ _ _ _ hkey

section

variable {c d : Chip} {i : Nat}

theorem PortSettled.congr (h : PortSettled c i) (hpen : d.get TIM.PORT.PEN i = c.get TIM.PORT.PEN i)
    (hrel : d.get RST.DOM.REL = c.get RST.DOM.REL) (hstate : d.get TIM.PSTAT.PSTATE i = c.get TIM.PSTAT.PSTATE i)
    (hports : d.tim.ports = c.tim.ports) : PortSettled d i := by
  rwa [PortSettled, ptpOn_congr hpen hrel, hstate, hports, ← PortSettled]

theorem PortSettled.of_moves (h : PortSettled c i) (hd : Moves [] [] c d) : PortSettled d i := by
  have hget (f : Fld) (n : Nat) : d.get f n = c.get f n := hd.get (by simp [fieldKeys]) n
  have htim : d.tim = c.tim := hd.part (p := .tim) (by decide) (by decide)
  exact h.congr (hget _ _) (hget _ _) (hget _ _) (congrArg Tim.ports htim)

theorem PortSettled.refreshPort_moves (h : PortSettled c i) : Moves [] [] c (refreshPort c i) ∧ (refreshPort c i).now = c.now := by
  unfold PortSettled at h
  unfold refreshPort
  by_cases hon : c.ptpOn i = true
  · rw [if_pos hon] at h
    rw [if_pos hon, if_neg h]
    exact ⟨moves_refl, rfl⟩
  · rw [if_neg hon] at h
    obtain ⟨hstate, hports⟩ := h
    have hsame : c.setPtp i {} = c := by rw [Chip.setPtp, hports]
    rw [if_neg hon, hsame]
    exact ⟨set_same_moves (by decide) hstate, rfl⟩

/-- Where both ports follow their enables nothing changes. -/
theorem ptpRefresh_moves (h0 : PortSettled c 0) (h1 : PortSettled c 1) : Moves [] [] c c.ptpRefresh ∧ c.ptpRefresh.now = c.now := by
  obtain ⟨hm0, hn0⟩ := h0.refreshPort_moves
  obtain ⟨hm1, hn1⟩ := (h1.of_moves hm0).refreshPort_moves
  rw [ptpRefresh_eq]
  exact ⟨hm0.trans hm1, hn1.trans hn0⟩

/-! A chip that the refresh leaves has its ports settled -/

theorem refreshPort_fields : Moves [(TIM.PSTAT.PSTATE, i)] [.tim] c (refreshPort c i) :=
  Moves.ite (fun _ => Moves.ite (fun _ => moves_refl.set (f := TIM.PSTAT.PSTATE) (n := i) _ (by simp)) fun _ => moves_refl)
    fun _ => (setPtp_moves c i _).set (f := TIM.PSTAT.PSTATE) (n := i) _ (by simp)

theorem refreshPort_on (k : Nat) : (refreshPort c i).ptpOn k = c.ptpOn k :=
  ptpOn_congr (refreshPort_fields.get (by simp [fieldKeys]; decide) _) (refreshPort_fields.get (by simp [fieldKeys]; decide) _)

theorem get_refreshPort : (c.ptpOn i = true → (refreshPort c i).get TIM.PSTAT.PSTATE i ≠ psDisabled) ∧
    (c.ptpOn i = false → (refreshPort c i).get TIM.PSTAT.PSTATE i = psDisabled ∧
      (refreshPort c i).tim.ports = nset {} c.tim.ports i {}) := by
  refine ⟨fun hon => ?_, fun hoff => ?_⟩
  · rw [refreshPort, if_pos hon]
    split
    · rw [get_set_self]
      decide
    · assumption
  · rw [refreshPort, if_neg (ne_true_of_eq_false hoff)]
    exact ⟨get_set_self _ _ _ _, rfl⟩

theorem refreshPort_tim (hon : c.ptpOn i = true) : (refreshPort c i).tim = c.tim := by
  rw [refreshPort, if_pos hon]
  split
  · rfl
  · rfl

/-- With one port taking part, a chip that the refresh leaves has both ports settled. -/
theorem settled_of_ptpRefresh (hon : c.ptpOn i = true) (h : c.ptpRefresh = c) : PortSettled c 0 ∧ PortSettled c 1 := by
  rw [ptpRefresh_eq] at h
  have hone : c.ptpOn 0 = true ∨ c.ptpOn 1 = true := by
    have hi := lt_two_of_ptpOn hon
    interval_cases i
    · exact .inl hon
    · exact .inr hon
  obtain ⟨hon0, hoff0⟩ := get_refreshPort (c := c) (i := 0)
  obtain ⟨hon1, hoff1⟩ := get_refreshPort (c := refreshPort c 0) (i := 1)
  rw [refreshPort_on, h] at hon1 hoff1
  have hstate : (refreshPort c 0).get TIM.PSTAT.PSTATE 0 = c.get TIM.PSTAT.PSTATE 0 := by
    conv_rhs => rw [← h]
    exact (refreshPort_fields.fields _ _ (by simp [Listed])).symm
  refine ⟨?_, ?_⟩ <;> unfold PortSettled
  · split
    case isTrue hp => exact hstate ▸ hon0 hp
    case isFalse hp =>
      obtain ⟨hst, hports⟩ := hoff0 (Bool.not_eq_true _ ▸ hp)
      have htim := refreshPort_tim (c := refreshPort c 0) ((refreshPort_on 1).trans (hone.resolve_left hp))
      rw [h] at htim
      exact ⟨hstate ▸ hst, by rw [← hports, ← htim]⟩
  · split
    case isTrue hp => exact hon1 hp
    case isFalse hp =>
      obtain ⟨hst, hports⟩ := hoff1 (Bool.not_eq_true _ ▸ hp)
      rw [refreshPort_tim (hone.resolve_right hp)] at hports
      exact ⟨hst, hports.symm⟩

end

/-! The port that the servo follows (R327) -/

/-- The fields of TIM.PARENT. -/
def parentFields : List (Fld × Nat) := [(TIM.PARENT.GMPRIO1, 0), (TIM.PARENT.GMCLASS, 0), (TIM.PARENT.GMACC, 0), (TIM.PARENT.GMID, 0),
  (TIM.PARENT.STEPS, 0), (TIM.PARENT.UTCOFS, 0), (TIM.PARENT.LEAP59, 0), (TIM.PARENT.LEAP61, 0), (TIM.PARENT.TRACE, 0)]

/-- The fields in which the choice of a port shows. -/
def roleFields : List (Fld × Nat) := [(TIM.PSTAT.PSTATE, 0), (TIM.PSTAT.PSTATE, 1)] ++ parentFields

/-- What a port with a master shows, when the servo follows port i. -/
def roleOf (c : Chip) (i : Option Nat) (j : Nat) : Nat :=
  if some j = i then (if (c.ptp j).valid then psSlave else psUncalibrated) else (if (c.ptp j).valid then psPassive else psUncalibrated)

/-- A port with a master shows its role. -/
def showRole (i : Option Nat) (c : Chip) (j : Nat) : Chip :=
  if (c.ptp j).parent.isNone then c else c.set TIM.PSTAT.PSTATE j (roleOf c i j)

/-- The servo follows a port, which the ports do not show yet. -/
def servoAt (c : Chip) (i : Option Nat) : Chip := { c with tim := { c.tim with servoPort := i } }

/-- Both ports show their roles. -/
def rolesShown (c : Chip) (i : Option Nat) : Chip := (servoAt c i).each (upTo 2) (showRole i)

section

variable (c : Chip) (i : Option Nat) (d : List Nat)

theorem setParent_moves : Moves parentFields [.pmu] c (c.setParent d) ∧ (c.setParent d).now = c.now := by
  have hset : Moves parentFields [.pmu] c (((((((((c.set TIM.PARENT.GMPRIO1 0 (d.getD 0 0)).set TIM.PARENT.GMCLASS 0 (d.getD 1 0)).set
      TIM.PARENT.GMACC 0 (d.getD 2 0)).set TIM.PARENT.GMID 0 (d.getD 5 0)).set TIM.PARENT.STEPS 0 (d.getD 6 0)).set TIM.PARENT.UTCOFS 0
      (d.getD 7 0)).set TIM.PARENT.LEAP59 0 (d.getD 8 0)).set TIM.PARENT.LEAP61 0 (d.getD 9 0)).set TIM.PARENT.TRACE 0 (d.getD 10 0)) := by
    refine ((((((((moves_refl.set _ ?_).set _ ?_).set _ ?_).set _ ?_).set _ ?_).set _ ?_).set _ ?_).set _ ?_).set _ ?_ <;> decide
  unfold Chip.setParent
  dsimp only
  split
  · exact ⟨hset.parts rfl rfl, rfl⟩
  · exact ⟨hset, rfl⟩

/-- The servo follows a port: the roles, then the data of its master. -/
theorem followPtp_cases : c.followPtp i = rolesShown c i ∨ ∃ d, c.followPtp i = (rolesShown c i).setParent d := by
  have hroles : c.followPtp i = match i with
      | some j =>
        match ((rolesShown c i).ptp j).parent with
        | some (_, d) => (rolesShown c i).setParent d
        | none => rolesShown c i
      | none => rolesShown c i := rfl
  rw [hroles]
  split
  · split
    · exact .inr ⟨_, rfl⟩
    · exact .inl rfl
  · exact .inl rfl

/-- The roles show in PSTATE alone. -/
theorem showRole_moves (j : Nat) : Moves [(TIM.PSTAT.PSTATE, j)] [] c (showRole i c j) :=
  Moves.ite (fun _ => moves_refl) fun _ => moves_refl.set (f := TIM.PSTAT.PSTATE) (n := j) _ (by simp)

theorem rolesShown_tim : (rolesShown c i).tim = { c.tim with servoPort := i } :=
  each_same (π := Chip.tim) (fun d j => (showRole_moves d i j).part (p := .tim) (by decide) (by decide)) _ _

theorem rolesShown_now : (rolesShown c i).now = c.now := by
  refine each_same (π := Chip.now) (fun d j => ?_) _ _
  unfold showRole
  split
  · rfl
  · rfl

theorem rolesShown_moves : Moves [(TIM.PSTAT.PSTATE, 0), (TIM.PSTAT.PSTATE, 1)] [.tim] c (rolesShown c i) := by
  refine Moves.each (fun j hj e => (showRole_moves e i j).mono ?_ (by simp)) (moves_refl.parts rfl rfl)
  have hlt := mem_upTo.1 hj
  interval_cases j
  · simp
  · simp

theorem get_showRole_self (j : Nat) : (showRole i c j).get TIM.PSTAT.PSTATE j =
    if (c.ptp j).parent.isNone then c.get TIM.PSTAT.PSTATE j else roleOf c i j % 2 ^ TIM.PSTAT.PSTATE.width := by
  unfold showRole
  split
  · rfl
  · exact get_set_self _ _ _ _

theorem get_showRole_other {j k : Nat} (h : k ≠ j) : (showRole i c j).get TIM.PSTAT.PSTATE k = c.get TIM.PSTAT.PSTATE k :=
  (showRole_moves c i j).fields _ _ (by simpa [Listed] using h)

/-- A port with a master shows its role, another what it showed. -/
theorem get_rolesShown {j : Nat} (hj : j < 2) : (rolesShown c i).get TIM.PSTAT.PSTATE j =
    if (c.ptp j).parent.isNone then c.get TIM.PSTAT.PSTATE j else roleOf c i j % 2 ^ TIM.PSTAT.PSTATE.width := by
  have heq : rolesShown c i = showRole i (showRole i (servoAt c i) 0) 1 := rfl
  have hptp : (showRole i (servoAt c i) 0).tim = (servoAt c i).tim :=
    (showRole_moves (servoAt c i) i 0).part (p := .tim) (by decide) (by decide)
  have hone : (showRole i (servoAt c i) 0).ptp 1 = c.ptp 1 := 
    ptp_congr ((congrArg Tim.ports hptp).trans rfl) 1
  rw [heq]
  interval_cases j
  · exact (get_showRole_other _ i (by decide)).trans (get_showRole_self _ i 0)
  · rw [get_showRole_self, roleOf, hone, get_showRole_other _ i (by decide)]
    rfl

theorem followPtp_moves : Moves roleFields [.tim, .pmu] c (c.followPtp i) := by
  have hroles : Moves roleFields [.tim, .pmu] c (rolesShown c i) := (rolesShown_moves c i).mono (by simp [roleFields]) (by simp)
  rcases followPtp_cases c i with h | ⟨d, h⟩ <;> rw [h]
  · exact hroles
  · obtain ⟨hparent, -⟩ := setParent_moves (rolesShown c i) d
    exact hroles.trans (hparent.mono (fun e he => List.mem_append_right _ he) (by simp))

theorem followPtp_tim : (c.followPtp i).tim = { c.tim with servoPort := i } := by
  rcases followPtp_cases c i with h | ⟨d, h⟩ <;> rw [h]
  · exact rolesShown_tim c i
  · obtain ⟨hparent, -⟩ := setParent_moves (rolesShown c i) d
    exact (hparent.part (p := .tim) (by decide) (by decide)).trans (rolesShown_tim c i)

theorem followPtp_now : (c.followPtp i).now = c.now := by
  rcases followPtp_cases c i with h | ⟨d, h⟩ <;> rw [h]
  · exact rolesShown_now c i
  · obtain ⟨-, hnow⟩ := setParent_moves (rolesShown c i) d
    exact hnow.trans (rolesShown_now c i)

theorem get_followPtp {j : Nat} (hj : j < 2) : (c.followPtp i).get TIM.PSTAT.PSTATE j =
    if (c.ptp j).parent.isNone then c.get TIM.PSTAT.PSTATE j else roleOf c i j % 2 ^ TIM.PSTAT.PSTATE.width := by
  rcases followPtp_cases c i with h | ⟨d, h⟩ <;> rw [h]
  · exact get_rolesShown c i hj
  · obtain ⟨hparent, -⟩ := setParent_moves (rolesShown c i) d
    exact (hparent.get (by decide) j).trans (get_rolesShown c i hj)

end

end Sys2Proof.Scope
end

section
/-! SUPPORT. A message at a PTP port (R323, R324, R327, R328): what the port does with it. -/

namespace Sys2Proof.Scope

open Sys2Proof.Machine Sys2Proof.Machine.Reg Sys2Proof.Laws

/-! A frame received -/

/-- A frame is counted, and ends a silence of its port. -/
def frameTaken (c : Chip) (i : Nat) : Chip := ((c.rxValid i).inc NET.PCNT.RXOK i).ptpRefresh

/-- What a frame received at port i changes where the ports follow their enables. -/
structure Received (c : Chip) (i : Nat) (d : Chip) : Prop where
  moves : Moves [(NET.PCNT.RXOK, i), (NET.PSTAT.SILENT, i)] [.net] c d
  now : d.now = c.now
  net : d.net = { c.net with rxAt := nset 0 c.net.rxAt i c.now }
  count : d.get NET.PCNT.RXOK i = satN NET.PCNT.RXOK.width (c.get NET.PCNT.RXOK i + 1)
  silent : d.get NET.PSTAT.SILENT i = 0

/-- A field that a frame received does not show in reads as before. -/
theorem get_frameMoves {c d : Chip} {i n : Nat} {ps : List Part} {f : Fld}
    (h : Moves [(NET.PCNT.RXOK, i), (NET.PSTAT.SILENT, i)] ps c d) (hf : f.id ∉ [NET.PCNT.RXOK.id, NET.PSTAT.SILENT.id]) :
    d.get f n = c.get f n := h.fields f n (by
  rintro ⟨e, he, hid, -⟩
  rw [hid] at hf
  simp only [List.mem_cons, List.not_mem_nil, or_false] at he
  rcases he with rfl | rfl
  · exact hf (by simp)
  · exact hf (by simp))

theorem frameTaken_shows {c : Chip} {i : Nat} (hon : c.ptpOn i = true) (h : c.ptpRefresh = c) : Received c i (frameTaken c i) := by
  have hrx : Moves [(NET.PCNT.RXOK, i), (NET.PSTAT.SILENT, i)] [.net] c (c.rxValid i) :=
    (moves_refl.set (f := NET.PSTAT.SILENT) (n := i) _ (by simp)).parts rfl rfl
  have hinc : Moves [(NET.PCNT.RXOK, i), (NET.PSTAT.SILENT, i)] [.net] c ((c.rxValid i).inc NET.PCNT.RXOK i) :=
    hrx.inc (f := NET.PCNT.RXOK) (n := i) (by simp)
  have hsettled {k : Nat} (hk : PortSettled c k) : PortSettled ((c.rxValid i).inc NET.PCNT.RXOK i) k :=
    hk.congr (get_frameMoves hinc (by decide)) (get_frameMoves hinc (by decide)) (get_frameMoves hinc (by decide)) rfl
  obtain ⟨h0, h1⟩ := settled_of_ptpRefresh hon h
  obtain ⟨hsame, hnow⟩ := ptpRefresh_moves (hsettled h0) (hsettled h1)
  have hfield (f : Fld) (n : Nat) : (frameTaken c i).get f n = ((c.rxValid i).inc NET.PCNT.RXOK i).get f n :=
    hsame.get (by simp [fieldKeys]) n
  refine
    { moves := hinc.trans (hsame.mono (by simp) (by simp))
      now := hnow
      net := hsame.part (p := .net) (by decide) (by decide)
      count := (hfield _ _).trans ((get_inc_self _ _ _).trans ?_)
      silent := (hfield _ _).trans ((get_inc_fld _ _ _ (by decide)).trans (get_set_self c NET.PSTAT.SILENT i 0)) }
  exact congrArg (fun v => satN NET.PCNT.RXOK.width (v + 1)) 
    (get_set_fld (f := NET.PSTAT.SILENT) (g := NET.PCNT.RXOK) c i i 0 (by decide))

section

variable {c d : Chip} {i : Nat} (h : Received c i d)

include h

theorem Received.tim : d.tim = c.tim := h.moves.part (p := .tim) (by decide) (by decide)

theorem Received.ptp : d.ptp i = c.ptp i := ptp_congr (congrArg Tim.ports h.tim) i

theorem Received.get (f : Fld) (n : Nat) (hf : f.id ∉ [NET.PCNT.RXOK.id, NET.PSTAT.SILENT.id]) : d.get f n = c.get f n :=
  get_frameMoves h.moves hf

theorem Received.corrected (x : Nat) : d.corrected x = c.corrected x :=
  corrected_congr (by rw [h.tim]) (by rw [h.tim]) (by rw [Chip.raw, h.tim, h.now, ← Chip.raw]) (h.get _ _ (by decide))
    (h.get _ _ (by decide)) x

end

/-! What the port makes of it -/

section

variable {c : Chip} {i x : Nat} {m : PtpMsg}

theorem ptpReceive_otherDomain (h : m.domain ≠ c.get TIM.PTP.DOMAIN) : c.ptpReceive i x m = c.inc TIM.CNT.PDROP := if_pos h

variable (hd : m.domain = c.get TIM.PTP.DOMAIN)

include hd

/-- The one-step answer to the port's request. -/
theorem ptpReceive_answer {q : Nat} {t1 : Int} (hkind : m.kind = .pdelayResp) (hreq : (c.ptp i).req = some (q, t1)) (hme : m.toMe = true)
    (hseq : m.seq = q) (htwo : m.twoStep = false) : c.ptpReceive i x m =
      (c.setPtp i { c.ptp i with req := none }).setMpd i (c.corrected x - c.get TIM.PORT.RXLAT i - t1 - corrTaps m.corr) := by
  simp only [Chip.ptpReceive, hd, hkind, hreq, hme, hseq, htwo, ne_eq, not_true_eq_false, if_false, and_self, Bool.false_eq_true]

/-- The port notes a Sync. -/
def syncNoted (c : Chip) (i x : Nat) (m : PtpMsg) : Chip :=
  c.setPtp i { c.ptp i with
    syncAt := c.now, syncLog := m.logInt, sync := some ⟨m.seq, c.corrected x - c.get TIM.PORT.RXLAT i, m.corr, m.ts⟩ }

/-- A one-step Sync of the port's master. -/
theorem ptpReceive_sync {e : List Nat} (hkind : m.kind = .sync) (hparent : (c.ptp i).parent = some (m.src, e)) (htwo : m.twoStep = false)
    (hlo : -4 ≤ m.logInt) (hhi : m.logInt ≤ 1) : c.ptpReceive i x m =
      (syncNoted c i x m).ptpOffset i ((syncNoted c i x m).syncOffset i (c.corrected x - c.get TIM.PORT.RXLAT i) m.ts m.corr) := by
  have hint : ¬(m.logInt < -4 ∨ 1 < m.logInt) := by omega
  have hfrom : (c.ptp i).from_ m = true := by simp [PtpPort.from_, hparent]
  simp only [Chip.ptpReceive, hd, hkind, hint, hfrom, htwo, ne_eq, not_true_eq_false, if_false, Bool.not_true, Bool.false_eq_true]
  rfl

end

/-! An offset from the master (R327, R328) -/

/-- The offset is shown, and the port is valid. -/
def offsetShown (c : Chip) (i : Nat) (off : Int) : Chip :=
  (c.setSat TIM.PSTAT.OFFSET i off).setPtp i { c.ptp i with valid := true, failed := false, offset := off, sync := none }

section

variable (c : Chip) (i : Nat) (off : Int)

theorem offsetShown_moves : Moves [(TIM.PSTAT.OFFSET, i)] [.tim] c (offsetShown c i off) :=
  (moves_refl.set (f := TIM.PSTAT.OFFSET) (n := i) _ (by simp)).trans (setPtp_moves _ i _)

theorem ptp_offsetShown : (offsetShown c i off).ptp i = { c.ptp i with valid := true, failed := false, offset := off, sync := none } :=
  ptp_setPtp _ i _

theorem servoPort_offsetShown : (offsetShown c i off).tim.servoPort = c.tim.servoPort := rfl

/-- The servo has no use for the port unless the one it follows has failed, and is another. -/
theorem servoIdle_offsetShown : (offsetShown c i off).servoIdle = (c.servoIdle && c.tim.servoPort != some i) := by
  unfold Chip.servoIdle
  rw [servoPort_offsetShown]
  cases hp : c.tim.servoPort with
  | none => rfl
  | some j =>
    by_cases hj : j = i
    · subst hj
      simp [ptp_offsetShown]
    · have hother : (offsetShown c i off).ptp j = c.ptp j := ptp_setPtp_other _ i _ hj
      simp [hother, hj]

/-- The servo takes the port, or not. -/
def offsetFollowed (c : Chip) (i : Nat) (off : Int) : Chip :=
  if (offsetShown c i off).servoIdle then (offsetShown c i off).followPtp (some i) else offsetShown c i off

theorem get_offsetFollowed {f : Fld} (hf : (f.id, f.lo) ∉ fieldKeys (TIM.PSTAT.OFFSET :: roleFields.map Prod.fst)) (n : Nat) :
    (offsetFollowed c i off).get f n = c.get f n := by
  have hshown : Moves ((TIM.PSTAT.OFFSET, i) :: roleFields) [.tim, .pmu] c (offsetShown c i off) :=
    (offsetShown_moves c i off).mono (by simp) (by simp)
  have hmoves : Moves ((TIM.PSTAT.OFFSET, i) :: roleFields) [.tim, .pmu] c (offsetFollowed c i off) :=
    Moves.ite (fun _ => hshown.trans ((followPtp_moves _ _).mono (fun e he => List.mem_cons_of_mem _ he) (by simp))) fun _ => hshown
  exact hmoves.get hf n

/-- The port shows whether the servo follows it. -/
def offsetTaken (c : Chip) (i : Nat) (off : Int) : Chip :=
  (offsetFollowed c i off).set TIM.PSTAT.PSTATE i (if (offsetFollowed c i off).tim.servoPort == some i then psSlave else psPassive)

theorem ptpOffset_eq : c.ptpOffset i off =
    if ((offsetFollowed c i off).tim.servoPort == some i && (offsetTaken c i off).get TIM.CFG.SRC == 1) = true then
      (offsetTaken c i off).servo off else offsetTaken c i off := rfl

/-- Without PTP as the source of time the offset is only shown. -/
theorem ptpOffset_noServo (hsrc : c.get TIM.CFG.SRC ≠ 1) : c.ptpOffset i off = offsetTaken c i off := by
  have hsame : (offsetTaken c i off).get TIM.CFG.SRC = c.get TIM.CFG.SRC :=
    (get_set_fld _ _ _ _ (by decide)).trans (get_offsetFollowed c i off (by decide) 0)
  rw [ptpOffset_eq, hsame, beq_eq_false_iff_ne.2 hsrc, Bool.and_false]
  exact if_neg Bool.false_ne_true

end

section

variable {c : Chip} {i : Nat} {off : Int}

/-- Where the servo follows this port, or another that works, the offset is all there is. -/
theorem offsetTaken_kept (h : c.tim.servoPort = some i ∨ c.servoIdle = false) : offsetTaken c i off =
    (offsetShown c i off).set TIM.PSTAT.PSTATE i (if c.tim.servoPort = some i then psSlave else psPassive) := by
  have hbusy : (offsetShown c i off).servoIdle = false := by
    rw [servoIdle_offsetShown]
    rcases h with h | h <;> simp [h]
  have hsame : offsetFollowed c i off = offsetShown c i off := if_neg (ne_true_of_eq_false hbusy)
  rw [offsetTaken, hsame, servoPort_offsetShown]
  simp only [beq_iff_eq]

/-- Where it follows none that works it takes this port. -/
theorem offsetTaken_followed (hne : c.tim.servoPort ≠ some i) (hidle : c.servoIdle = true) : offsetTaken c i off =
    ((offsetShown c i off).followPtp (some i)).set TIM.PSTAT.PSTATE i psSlave := by
  have hfree : (offsetShown c i off).servoIdle = true := by simp [servoIdle_offsetShown, hidle, hne]
  have hfollowed : offsetFollowed c i off = (offsetShown c i off).followPtp (some i) := if_pos hfree
  rw [offsetTaken, hfollowed, followPtp_tim]
  simp only [beq_self_eq_true, if_true]

end

/-! An offset, as the port shows it -/

section

variable (c : Chip) (i : Nat) (off : Int)

theorem offsetFollowed_cases : offsetFollowed c i off = offsetShown c i off ∨
    offsetFollowed c i off = (offsetShown c i off).followPtp (some i) := by
  unfold offsetFollowed
  split
  · exact .inr rfl
  · exact .inl rfl

/-- The port's record, whether the servo takes the port or not. -/
theorem offsetTaken_shows : (offsetTaken c i off).now = c.now ∧
    (offsetTaken c i off).ptp i = { c.ptp i with valid := true, failed := false, offset := off, sync := none } ∧
    Moves ((TIM.PSTAT.OFFSET, i) :: (TIM.PSTAT.PSTATE, i) :: roleFields) [.tim, .pmu] c (offsetTaken c i off) := by
  have hshown : Moves ((TIM.PSTAT.OFFSET, i) :: (TIM.PSTAT.PSTATE, i) :: roleFields) [.tim, .pmu] c (offsetShown c i off) :=
    (offsetShown_moves c i off).mono (by simp) (by simp)
  have hfollow : (offsetFollowed c i off).now = c.now ∧ (offsetFollowed c i off).tim.ports = (offsetShown c i off).tim.ports ∧
      Moves ((TIM.PSTAT.OFFSET, i) :: (TIM.PSTAT.PSTATE, i) :: roleFields) [.tim, .pmu] c (offsetFollowed c i off) := by
    rcases offsetFollowed_cases c i off with h | h <;> rw [h]
    · exact ⟨rfl, rfl, hshown⟩
    · exact ⟨followPtp_now _ _, (congrArg Tim.ports (followPtp_tim _ _)).trans rfl,
        hshown.trans ((followPtp_moves _ _).mono (fun e he => List.mem_cons_of_mem _ (List.mem_cons_of_mem _ he)) (fun p hp => hp))⟩
  obtain ⟨hnow, hports, hmoves⟩ := hfollow
  exact ⟨hnow, (ptp_congr hports i).trans (ptp_offsetShown c i off), hmoves.set (f := TIM.PSTAT.PSTATE) (n := i) _ (by simp)⟩

end

/-! The offset of a Sync -/

section

variable {c d : Chip} {i x : Nat} {m : PtpMsg} {off : Int} (hrec : Received c i d)

theorem servoPort_syncNoted : (syncNoted d i x m).tim.servoPort = d.tim.servoPort := rfl

theorem ptp_syncNoted : ((syncNoted d i x m).ptp i).syncAt = d.now ∧ ((syncNoted d i x m).ptp i).parent = (d.ptp i).parent ∧
    ((syncNoted d i x m).ptp i).failed = (d.ptp i).failed := by
  rw [syncNoted, ptp_setPtp]
  exact ⟨rfl, rfl, rfl⟩

theorem servoIdle_syncNoted (htim : d.tim = c.tim) : (syncNoted d i x m).servoIdle = c.servoIdle := by
  have hfailed (j : Nat) : ((syncNoted d i x m).ptp j).failed = (c.ptp j).failed := by
    have hsame : d.ptp j = c.ptp j := ptp_congr (congrArg Tim.ports htim) j
    by_cases hj : j = i
    · subst hj
      obtain ⟨-, -, hfailed⟩ := ptp_syncNoted (d := d) (i := j) (x := x) (m := m)
      exact hfailed.trans (congrArg PtpPort.failed hsame)
    · exact congrArg PtpPort.failed ((ptp_setPtp_other d i _ hj).trans hsame)
  unfold Chip.servoIdle
  rw [servoPort_syncNoted, htim]
  cases c.tim.servoPort with
  | none => rfl
  | some j => exact hfailed j

include hrec

/-- The servo keeps to its port: the offset and the role are shown. -/
theorem sync_kept (h : c.tim.servoPort = some i ∨ c.servoIdle = false) :
    (offsetTaken (syncNoted d i x m) i off).tim.servoPort = c.tim.servoPort ∧
    (offsetTaken (syncNoted d i x m) i off).get TIM.PSTAT.PSTATE i = (if c.tim.servoPort = some i then psSlave else psPassive) ∧
    Moves [(TIM.PSTAT.OFFSET, i), (TIM.PSTAT.PSTATE, i), (NET.PCNT.RXOK, i), (NET.PSTAT.SILENT, i)] [.tim, .net] c
      (offsetTaken (syncNoted d i x m) i off) := by
  have hport : (syncNoted d i x m).tim.servoPort = c.tim.servoPort :=
    servoPort_syncNoted.trans (congrArg Tim.servoPort hrec.tim)
  have h' : (syncNoted d i x m).tim.servoPort = some i ∨ (syncNoted d i x m).servoIdle = false :=
    h.imp hport.trans (servoIdle_syncNoted hrec.tim).trans
  rw [offsetTaken_kept h', hport]
  refine ⟨hport, (get_set_self _ _ _ _).trans ?_, ?_⟩
  · split
    · rfl
    · rfl
  · refine Moves.set (f := TIM.PSTAT.PSTATE) (n := i) (Moves.trans (b := syncNoted d i x m) (Moves.trans (b := d) ?_ ?_) ?_) _ (by simp)
    · exact hrec.moves.mono (by simp) (by simp)
    · exact (setPtp_moves d i _).mono (fun e he => he) (by simp)
    · exact (offsetShown_moves _ i off).mono (by simp) (by simp)

/-- The servo takes the port. -/
theorem sync_followed (hne : c.tim.servoPort ≠ some i) (hidle : c.servoIdle = true) :
    (offsetTaken (syncNoted d i x m) i off).tim.servoPort = some i ∧
    (offsetTaken (syncNoted d i x m) i off).get TIM.PSTAT.PSTATE i = psSlave := by
  have hport : (syncNoted d i x m).tim.servoPort = c.tim.servoPort :=
    servoPort_syncNoted.trans (congrArg Tim.servoPort hrec.tim)
  rw [offsetTaken_followed (hport ▸ hne) ((servoIdle_syncNoted hrec.tim).trans hidle)]
  have htaken := followPtp_tim (offsetShown (syncNoted d i x m) i off) (some i)
  generalize (offsetShown (syncNoted d i x m) i off).followPtp (some i) = e at htaken
  exact ⟨congrArg Tim.servoPort htaken, get_set_self e TIM.PSTAT.PSTATE i psSlave⟩

end

end Sys2Proof.Scope
end

section
/-! SUPPORT. A message that a PTP port sends (R323 to R326, R441), and a master that falls silent (R327, R330). -/

namespace Sys2Proof.Scope

open Sys2Proof.Machine Sys2Proof.Machine.Reg Sys2Proof.Laws

/-! A message sent -/

/-- The frame in which a message leaves port i. -/
def sentFrame (c : Chip) (i : Nat) (x : PtpSent) : PtpSent := { x with
  dst := if peerKind x.kind then 0x0180C200000E else 0x011B19000000
  domain := c.get TIM.PTP.DOMAIN
  vlan := if c.on TIM.PTP.VTAG then some (c.get TIM.PTP.PCP, c.get TIM.PTP.VID) else none
  ann := if x.kind = .announce then c.announced else []
  rct := if c.on TIM.PTP.RCT && c.on NET.CFG.MODE then
      some { seq := c.net.prpSeq, lan := if i = 0 then 0xA else 0xB, size := ptpOctets x.kind + 6 }
    else none }

/-- Octets of the frame of a message, the delimiter and the gap left out. -/
def frameOctets (c : Chip) (x : PtpSent) : Nat :=
  Nat.max 60 (ptpOctets x.kind + (if c.on TIM.PTP.VTAG then 18 else 14) + (if c.on TIM.PTP.RCT && c.on NET.CFG.MODE then 6 else 0))

section

variable (c : Chip) (i : Nat) (x : PtpSent)

theorem ptpSent_moves (own : Bool) : Moves [(NET.PCNT.TXOK, i)] [.tim, .net] c (c.ptpSent i x own) := by
  unfold Chip.ptpSent
  dsimp only
  refine Moves.inc (f := NET.PCNT.TXOK) (n := i) ?_ (by simp)
  exact moves_refl.parts rfl rfl

theorem ptp_ptpSent : (c.ptpSent i x true).ptp i = { c.ptp i with
    sent := some (sentFrame c i x), txSeq := nset 0 (c.ptp i).txSeq (kindNo x.kind) ((x.seq + 1) % 65536) } := by
  have hports : (c.ptpSent i x true).tim.ports = (c.setPtp i { c.ptp i with
      sent := some (sentFrame c i x), txSeq := nset 0 (c.ptp i).txSeq (kindNo x.kind) ((x.seq + 1) % 65536) }).tim.ports := rfl
  exact (ptp_congr hports i).trans (ptp_setPtp _ _ _)

theorem get_ptpSent (own : Bool) : (c.ptpSent i x own).get NET.PCNT.TXOK i = satN NET.PCNT.TXOK.width (c.get NET.PCNT.TXOK i + 1) :=
  get_inc_self _ _ _

theorem octetTaps_pos : 0 < c.octetTaps i := by
  unfold Chip.octetTaps
  split <;> decide

/-- The port is held beyond the present instant. -/
theorem busy_ptpSent (own : Bool) : c.now < nget 0 (c.ptpSent i x own).net.busy i := by
  have hbusy : (c.ptpSent i x own).net.busy = nset 0 c.net.busy i (c.now + (frameOctets c x + 24) * c.octetTaps i) := rfl
  rw [hbusy, nget_nset_self]
  exact Nat.lt_add_of_pos_right (Nat.mul_pos (Nat.succ_pos _) (octetTaps_pos c i))

/-- The port notes the request that it sends. -/
def requestNoted (c : Chip) (i : Nat) : Chip := c.setPtp i { c.ptp i with
  req := some ((c.ptp i).next .pdelayReq, c.corrected (c.raw c.now) + c.get TIM.PORT.TXLAT i), resp := none }

/-- A Pdelay_Req without its frame. -/
def request (c : Chip) (i : Nat) : PtpSent := { kind := .pdelayReq, seq := (c.ptp i).next .pdelayReq, ts := 0, corr := 0 }

theorem ptpSend_request : c.ptpSend i .pdelayReq = (requestNoted c i).ptpSent i (request c i) true := rfl

theorem ptp_requestNoted : (requestNoted c i).ptp i = { c.ptp i with
    req := some ((c.ptp i).next .pdelayReq, c.corrected (c.raw c.now) + c.get TIM.PORT.TXLAT i), resp := none } := ptp_setPtp _ _ _

end

/-! A master that falls silent -/

/-- The port's master has failed: the port keeps it or not, and starts over. -/
def portFailed (c : Chip) (i : Nat) (announce : Bool) : Chip :=
  (c.setPtp i { c.ptp i with
    parent := if announce then none else (c.ptp i).parent, valid := false, failed := !announce, sync := none, annAt := c.now
    syncAt := c.now }).set TIM.PSTAT.PSTATE i (if announce then psListening else psUncalibrated)

/-- Without a port to follow the servo follows none, or the one it followed. -/
def servoFreed (c : Chip) (announce : Bool) : Chip := if announce then { c with tim := { c.tim with servoPort := none } } else c

/-- No port is left to the servo: holdover begins when PTP is the source of time. -/
def servoLeft (c : Chip) (announce : Bool) : Chip :=
  if (servoFreed c announce).get TIM.CFG.SRC = 1 then (servoFreed c announce).enterHold else servoFreed c announce

/-- A servo that followed the port takes the other one when that works. -/
def servoMoved (c : Chip) (i : Nat) (announce : Bool) : Chip :=
  if c.tim.servoPort ≠ some i then c
  else if c.ptpOn (1 - i) && (c.ptp (1 - i)).valid then (c.followPtp (some (1 - i))).raise 42 else servoLeft c announce

/-- Without any master the ports that take part become masters. -/
def mastersMade (c : Chip) : Chip := (c.each ((upTo 2).filter c.ptpOn) (fun c j => c.set TIM.PSTAT.PSTATE j psMaster)).setGm true

theorem masterLost_eq (c : Chip) (i : Nat) (announce : Bool) : c.masterLost i announce =
    if announce && !(servoMoved (portFailed c i announce) i announce).on TIM.PTP.SONLY &&
        ((servoMoved (portFailed c i announce) i announce).ptp 0).parent.isNone &&
        ((servoMoved (portFailed c i announce) i announce).ptp 1).parent.isNone then
      mastersMade (servoMoved (portFailed c i announce) i announce)
    else servoMoved (portFailed c i announce) i announce := rfl

/-- The fields that a port's failure may move. -/
def silenceFields : List (Fld × Nat) := roleFields ++ holdFields

section

variable (c : Chip) (i : Nat) (announce : Bool)

theorem portFailed_moves : Moves [(TIM.PSTAT.PSTATE, i)] [.tim] c (portFailed c i announce) :=
  (setPtp_moves c i _).set (f := TIM.PSTAT.PSTATE) (n := i) _ (by simp)

theorem ptp_portFailed : (portFailed c i announce).ptp i = { c.ptp i with
    parent := if announce then none else (c.ptp i).parent, valid := false, failed := !announce, sync := none, annAt := c.now
    syncAt := c.now } := ptp_setPtp c i _

theorem get_portFailed : (portFailed c i announce).get TIM.PSTAT.PSTATE i = if announce then psListening else psUncalibrated := by
  refine (get_set_self _ _ _ _).trans ?_
  cases announce <;> rfl

/-- What the servo may leave of a chip: the ports, the time and the fields beside those in which its move shows. -/
structure ServoMoved (c d : Chip) : Prop where
  now : d.now = c.now
  ports : d.tim.ports = c.tim.ports
  moves : Moves silenceFields [.tim, .pmu, .flt] c d

variable {c}

theorem servoMoved_refl : ServoMoved c c := ⟨rfl, rfl, moves_refl⟩

theorem enterHold_cases : c.enterHold = c ∨ c.enterHold = (holdCounted c).raise 41 := by
  unfold Chip.enterHold
  split
  · exact .inl rfl
  · exact .inr rfl

theorem enterHold_moves : Moves holdFields [.tim, .flt, .pmu] c c.enterHold := by
  rcases enterHold_cases (c := c) with h | h <;> rw [h]
  · exact moves_refl
  · exact (holdCounted_moves c).raise 41 (by decide)

theorem enterHold_servoMoved : ServoMoved c c.enterHold := by
  have hmoves := enterHold_moves (c := c)
  rcases enterHold_cases (c := c) with h | h <;> rw [h] at hmoves ⊢
  · exact servoMoved_refl
  · exact
      { now := (raise_now _ _ _ _).trans (setValid_now _ _ _)
        ports := by rw [raise_eq]; rfl
        moves := hmoves.mono (fun e he => List.mem_append_right roleFields he) (by simp) }

theorem servoLeft_cases : servoLeft c announce = servoFreed c announce ∨ servoLeft c announce = (servoFreed c announce).enterHold := by
  unfold servoLeft
  split
  · exact .inr rfl
  · exact .inl rfl

theorem servoFreed_regs : (servoFreed c announce).regs = c.regs := by
  unfold servoFreed
  split
  · rfl
  · rfl

theorem servoFreed_moved : ServoMoved c (servoFreed c announce) := by
  unfold servoFreed
  split
  · exact ⟨rfl, rfl, moves_refl.parts rfl rfl⟩
  · exact servoMoved_refl

theorem servoLeft_moved : ServoMoved c (servoLeft c announce) := by
  have hfreed := servoFreed_moved (c := c) announce
  rcases servoLeft_cases (c := c) announce with h | h <;> rw [h]
  · exact hfreed
  · have hhold : ServoMoved (servoFreed c announce) (servoFreed c announce).enterHold := enterHold_servoMoved
    exact ⟨hhold.now.trans hfreed.now, hhold.ports.trans hfreed.ports, hfreed.moves.trans hhold.moves⟩

theorem get_servoLeft (n : Nat) : (servoLeft c announce).get TIM.PSTAT.PSTATE n = c.get TIM.PSTAT.PSTATE n := by
  have hfreed := get_congr (servoFreed_regs (c := c) announce) TIM.PSTAT.PSTATE n
  rcases servoLeft_cases (c := c) announce with h | h <;> rw [h]
  · exact hfreed
  · exact (enterHold_moves.get (by decide) n).trans hfreed

theorem servoMoved_moves : ServoMoved c (servoMoved c i announce) := by
  unfold servoMoved
  split
  · exact servoMoved_refl
  · split
    · have hmoves : Moves roleFields [.tim, .pmu, .flt] c ((c.followPtp (some (1 - i))).raise 42) :=
        ((followPtp_moves c _).mono (fun e he => he) (by simp)).raise 42 (by decide)
      exact
        { now := (raise_now _ _ _ _).trans (followPtp_now c _)
          ports := by rw [raise_eq]; exact (congrArg Tim.ports (followPtp_tim c _)).trans rfl
          moves := hmoves.mono (fun e he => List.mem_append_left holdFields he) (fun p hp => hp) }
    · exact servoLeft_moved announce

/-- A port without a master, and one that is no longer valid and shows it, show the same after the servo's move. -/
theorem get_servoMoved (hi : i < 2) (h : (c.ptp i).parent = none ∨
    ((c.ptp i).valid = false ∧ c.get TIM.PSTAT.PSTATE i = psUncalibrated)) :
    (servoMoved c i announce).get TIM.PSTAT.PSTATE i = c.get TIM.PSTAT.PSTATE i := by
  unfold servoMoved
  split
  · rfl
  · split
    · refine (raise_get _ _ _ _ _ _).trans ((get_followPtp c _ hi).trans ?_)
      rcases h with h | ⟨hvalid, hstate⟩
      · exact if_pos (by rw [h]; rfl)
      · have hrole : roleOf c (some (1 - i)) i = psUncalibrated := by simp [roleOf, hvalid]
        rw [hrole, hstate]
        exact ite_self _
    · exact get_servoLeft announce i

/-! The ports become masters -/

theorem noSource_cases : c.noSource = c ∨ ∃ tv, c.noSource = c.setValid tv false := by
  unfold Chip.noSource
  split
  · exact .inr ⟨_, rfl⟩
  · exact .inl rfl

/-- Each port that takes part shows that it is a master. -/
def mastersShown (c : Chip) : Chip := c.each ((upTo 2).filter c.ptpOn) (fun c j => c.set TIM.PSTAT.PSTATE j psMaster)

/-- The device is grandmaster. -/
def grandmaster (c : Chip) : Chip := { c with tim := { c.tim with gm := true } }

theorem mastersMade_cases : mastersMade c = grandmaster (mastersShown c) ∨
    ∃ tv, mastersMade c = (grandmaster (mastersShown c)).setValid tv false := noSource_cases

theorem mastersShown_tim : (mastersShown c).tim = c.tim := 
  each_same (π := Chip.tim) (fun d j => show (d.set TIM.PSTAT.PSTATE j psMaster).tim = d.tim from rfl) _ _

theorem mastersShown_now : (mastersShown c).now = c.now := 
  each_same (π := Chip.now) (fun d j => show (d.set TIM.PSTAT.PSTATE j psMaster).now = d.now from rfl) _ _

theorem get_mastersShown (hon : c.ptpOn i = true) : (mastersShown c).get TIM.PSTAT.PSTATE i = psMaster := by
  have hmem : i ∈ (upTo 2).filter c.ptpOn := List.mem_filter.2 ⟨mem_upTo.2 (lt_two_of_ptpOn hon), hon⟩
  refine (each_once (π := fun d => d.get TIM.PSTAT.PSTATE i) (g := fun _ => psMaster) (i := i) (fun d => get_set_self _ _ _ _)
    (fun d k hk => get_set_other _ _ _ _ _ _ fun h => hk h.2.2.symm) ((upTo_nodup 2).filter _) c).trans (if_pos hmem)

theorem mastersMade_shows : (mastersMade c).now = c.now ∧ (mastersMade c).tim = { c.tim with gm := true } ∧
    (c.ptpOn i = true → (mastersMade c).get TIM.PSTAT.PSTATE i = psMaster) := by
  have hnow : (grandmaster (mastersShown c)).now = c.now := mastersShown_now
  have htim : (grandmaster (mastersShown c)).tim = { c.tim with gm := true } := by rw [grandmaster, mastersShown_tim]
  have hstate (hon : c.ptpOn i = true) : (grandmaster (mastersShown c)).get TIM.PSTAT.PSTATE i = psMaster := get_mastersShown i hon
  rcases mastersMade_cases (c := c) with h | ⟨tv, h⟩ <;> rw [h]
  · exact ⟨hnow, htim, hstate⟩
  · exact ⟨(setValid_now _ _ _).trans hnow, (setValid_tim _ _ _).trans htim,
      fun hon => ((setValid_moves _ tv false).get (by decide) i).trans (hstate hon)⟩

end

/-! A lost master -/

/-- The port has failed and the servo has moved. -/
def portLost (c : Chip) (i : Nat) (announce : Bool) : Chip := servoMoved (portFailed c i announce) i announce

section

variable (c : Chip) {i : Nat} (announce : Bool)

theorem portLost_now : (portLost c i announce).now = c.now := (servoMoved_moves (c := portFailed c i announce) i announce).now

theorem ptp_portLost (k : Nat) : (portLost c i announce).ptp k = (portFailed c i announce).ptp k :=
  ptp_congr (servoMoved_moves (c := portFailed c i announce) i announce).ports k

theorem get_portLost {f : Fld} (hf : (f.id, f.lo) ∉ fieldKeys (silenceFields.map Prod.fst)) (hstate : f.id ≠ TIM.PSTAT.PSTATE.id) (n : Nat) :
    (portLost c i announce).get f n = c.get f n :=
  ((servoMoved_moves (c := portFailed c i announce) i announce).moves.get hf n).trans
    ((portFailed_moves c i announce).fields f n fun ⟨e, he, hid, _⟩ => hstate (by rw [hid, List.mem_singleton.1 he]))

/-- A port without a master listens; one that keeps it is uncalibrated. -/
theorem state_portLost (hi : i < 2) : (portLost c i announce).get TIM.PSTAT.PSTATE i = if announce then psListening else psUncalibrated := by
  refine (get_servoMoved i announce hi ?_).trans (get_portFailed c i announce)
  rw [ptp_portFailed, get_portFailed]
  cases announce
  · exact .inr ⟨rfl, rfl⟩
  · exact .inl rfl

theorem masterLost_keeps (h : announce = false ∨ c.on TIM.PTP.SONLY = true) : c.masterLost i announce = portLost c i announce := by
  have hsonly : (portLost c i announce).on TIM.PTP.SONLY = c.on TIM.PTP.SONLY := on_of_get (get_portLost c announce (by decide) (by decide) 0)
  refine (masterLost_eq c i announce).trans (if_neg ?_)
  rw [← portLost, hsonly]
  rcases h with h | h <;> simp [h]

/-- Without slave-only and without any master the ports become masters. -/
theorem masterLost_makes (hi : i < 2) (hsonly : c.on TIM.PTP.SONLY = false) (hother : (c.ptp (1 - i)).parent = none) :
    c.masterLost i true = mastersMade (portLost c i true) := by
  have hsonly' : (portLost c i true).on TIM.PTP.SONLY = false :=
    (on_of_get (get_portLost c true (by decide) (by decide) 0)).trans hsonly
  have hmine : ((portLost c i true).ptp i).parent = none := by rw [ptp_portLost, ptp_portFailed]; rfl
  have hyours : ((portLost c i true).ptp (1 - i)).parent = none := by
    rw [ptp_portLost, ← hother]
    exact congrArg PtpPort.parent (ptp_setPtp_other c i _ (by omega))
  refine (masterLost_eq c i true).trans (if_pos ?_)
  rw [← portLost, hsonly']
  interval_cases i
  · simp [hmine, hyours]
  · simp [hmine, hyours]

/-- Whatever becomes of the device, the port's record is that of a failed port. -/
theorem masterLost_shows : (c.masterLost i announce).now = c.now ∧ (c.masterLost i announce).ptp i = (portFailed c i announce).ptp i := by
  rw [masterLost_eq]
  split
  · obtain ⟨hnow, htim, -⟩ := mastersMade_shows (c := portLost c i announce) i
    exact ⟨hnow.trans (portLost_now c announce), (ptp_congr ((congrArg Tim.ports htim).trans rfl) i).trans (ptp_portLost c announce i)⟩
  · exact ⟨portLost_now c announce, ptp_portLost c announce i⟩

end

/-! A request sent -/

section

variable (c : Chip) (i : Nat)

/-- A request as it leaves: its frame (R323), its number and its departure. -/
theorem request_sent : ((c.ptpSend i .pdelayReq).ptp i).sent = some (sentFrame c i (request c i)) ∧
    ((c.ptpSend i .pdelayReq).ptp i).req =
      some ((c.ptp i).next .pdelayReq, c.corrected (c.raw c.now) + c.get TIM.PORT.TXLAT i) ∧
    ((c.ptpSend i .pdelayReq).ptp i).resp = none ∧
    ((c.ptpSend i .pdelayReq).ptp i).next .pdelayReq = ((c.ptp i).next .pdelayReq + 1) % 65536 := by
  have hptp := (congrArg (·.ptp i) (ptpSend_request c i)).trans (ptp_ptpSent (requestNoted c i) i (request c i))
  have hnoted := ptp_requestNoted c i
  refine ⟨(congrArg PtpPort.sent hptp).trans rfl, (congrArg PtpPort.req hptp).trans (congrArg PtpPort.req hnoted),
    (congrArg PtpPort.resp hptp).trans (congrArg PtpPort.resp hnoted), ?_⟩
  exact (congrArg (fun p : PtpPort => p.next .pdelayReq) hptp).trans (nget_nset_self _ _ _ _)

theorem rct_request : (sentFrame c i (request c i)).rct.isSome = (c.on TIM.PTP.RCT && c.on NET.CFG.MODE) ∧
    ∀ r, (sentFrame c i (request c i)).rct = some r → r.seq = c.net.prpSeq := by
  have hrct : (sentFrame c i (request c i)).rct = if c.on TIM.PTP.RCT && c.on NET.CFG.MODE then
      some { seq := c.net.prpSeq, lan := if i = 0 then 0xA else 0xB, size := ptpOctets .pdelayReq + 6 } else none := rfl
  rw [hrct]
  cases c.on TIM.PTP.RCT && c.on NET.CFG.MODE
  · exact ⟨rfl, fun r hr => nomatch hr⟩
  · exact ⟨rfl, fun r hr => by rw [← Option.some.inj hr]⟩

end

end Sys2Proof.Scope
end

section
/-! CLAIM. The ports of PTP (R323 to R328, R330, R438, R441). -/

namespace Sys2Proof.Scope

open Sys2Proof.Machine Sys2Proof.Machine.Reg Sys2Proof.Laws

/-! Messages -/

section

variable {s : State} (hinv : s.Inv) {t i : Nat} {m : PtpMsg} {l : List (Fld × Nat)} {ps : List Part} {c : Chip}
  (hon : s.chip.ptpOn i = true)

include hinv hon

theorem ptpMessage_received (hlink : s.chip.on NET.PSTAT.LINK i = true)
    (hc : (frameTaken (s.chip.at_ t) i).ptpReceive i (s.chip.raw (s.at_ t)) m = c) (hmoves : Moves l ps (s.chip.at_ t) c)
    (hps : Part.pgm ∉ ps) : exec (.ptpMessage t i m) s = .next { s with chip := c } := by
  have hon' : ¬(!(s.chip.at_ t).ptpOn i) = true := Bool.not_not_eq.2 hon
  have hlink' : ¬(!(s.chip.at_ t).on NET.PSTAT.LINK i) = true := Bool.not_not_eq.2 hlink
  rw [exec_ptpMessage, execPtpMessage]
  exact run_moves hinv ((if_neg hon').trans ((if_neg hlink').trans hc)) hmoves hps

theorem ptpTransmit_sends {k : PtpKind} (hlink : s.chip.on NET.PSTAT.LINK i = true) (hmay : (s.chip.at_ t).ptpMaySend i k = true)
    (hc : (s.chip.at_ t).ptpRefresh.ptpSend i k = c) (hmoves : Moves l ps (s.chip.at_ t) c) (hps : Part.pgm ∉ ps) :
    exec (.ptpTransmit t i k) s = .next { s with chip := c } := by
  have hgo : ¬(!((s.chip.at_ t).ptpOn i && (s.chip.at_ t).ptpMaySend i k)) = true := Bool.not_not_eq.2 (Bool.and_eq_true_iff.2 ⟨hon, hmay⟩)
  have hlink' : ¬(!(s.chip.at_ t).on NET.PSTAT.LINK i) = true := Bool.not_not_eq.2 hlink
  rw [exec_ptpTransmit, execPtpTransmit]
  exact run_moves hinv ((if_neg hgo).trans ((if_neg hlink').trans hc)) hmoves hps

/-- Without link a message is lost. -/
theorem ptpMessage_lost (hlink : s.chip.on NET.PSTAT.LINK i = false) :
    exec (.ptpMessage t i m) s = .next { s with chip := (s.chip.at_ t).inc NET.PCNT.RXCRC i } := by
  have hon' : ¬(!(s.chip.at_ t).ptpOn i) = true := Bool.not_not_eq.2 hon
  have hlink' : (!(s.chip.at_ t).on NET.PSTAT.LINK i) = true := (Bool.not_eq_true' _).mpr hlink
  rw [exec_ptpMessage, execPtpMessage]
  exact run_moves hinv (l := [(NET.PCNT.RXCRC, i)]) (ps := []) ((if_neg hon').trans (if_pos hlink')) (moves_refl.inc (by simp)) (by decide)

theorem ptpTransmit_lost {k : PtpKind} (hlink : s.chip.on NET.PSTAT.LINK i = false) (hmay : (s.chip.at_ t).ptpMaySend i k = true) :
    exec (.ptpTransmit t i k) s = .next { s with chip := (s.chip.at_ t).inc NET.PCNT.TXDROP i } := by
  have hgo : ¬(!((s.chip.at_ t).ptpOn i && (s.chip.at_ t).ptpMaySend i k)) = true := Bool.not_not_eq.2 (Bool.and_eq_true_iff.2 ⟨hon, hmay⟩)
  have hlink' : (!(s.chip.at_ t).on NET.PSTAT.LINK i) = true := (Bool.not_eq_true' _).mpr hlink
  rw [exec_ptpTransmit, execPtpTransmit]
  exact run_moves hinv (l := [(NET.PCNT.TXDROP, i)]) (ps := []) ((if_neg hgo).trans (if_pos hlink')) (moves_refl.inc (by simp)) (by decide)

end

/-- A port that may not send does not, and one that takes no part does nothing. -/
theorem ptpTransmit_waits {s : State} (hinv : s.Inv) {t i : Nat} {k : PtpKind}
    (h : s.chip.ptpOn i = false ∨ (s.chip.at_ t).ptpMaySend i k = false) : exec (.ptpTransmit t i k) s = .next (s.waits t) := by
  rw [exec_ptpTransmit, execPtpTransmit]
  refine run_waits hinv (if_pos ?_)
  rw [Bool.not_eq_true', Bool.and_eq_false_iff]
  exact h

theorem ptpMessage_waits {s : State} (hinv : s.Inv) {t i : Nat} {m : PtpMsg} (h : s.chip.ptpOn i = false) :
    exec (.ptpMessage t i m) s = .next (s.waits t) := by
  rw [exec_ptpMessage, execPtpMessage]
  exact run_waits hinv (if_pos ((Bool.not_eq_true' _).mpr h))

/-! Timeouts -/

section

variable {s : State} {t i : Nat}

theorem ptpAnnounceTimeout_loses (hon : s.chip.ptpOn i = true) (hparent : (s.chip.ptp i).parent.isSome = true)
    (hdue : (s.chip.ptp i).annAt + 3 * logTaps (s.chip.ptp i).annLog ≤ s.at_ t) :
    exec (.ptpAnnounceTimeout t i) s = .next (flush { s with chip := (s.chip.at_ t).masterLost i true }) := by
  rw [exec_ptpAnnounceTimeout, execPtpAnnounceTimeout]
  refine run_flush (if_pos ?_)
  rw [Bool.and_eq_true, Bool.and_eq_true, Bool.or_eq_true, decide_eq_true_eq]
  exact ⟨⟨hon, .inl hparent⟩, hdue⟩

theorem ptpAnnounceTimeout_waits (hinv : s.Inv)
    (h : s.chip.ptpOn i = false ∨ s.at_ t < (s.chip.ptp i).annAt + 3 * logTaps (s.chip.ptp i).annLog) :
    exec (.ptpAnnounceTimeout t i) s = .next (s.waits t) := by
  rw [exec_ptpAnnounceTimeout, execPtpAnnounceTimeout]
  refine run_waits hinv (if_neg ?_)
  rw [Bool.and_eq_true, Bool.and_eq_true, decide_eq_true_eq]
  rintro ⟨⟨hon, -⟩, hdue⟩
  exact h.elim (fun hoff => ne_true_of_eq_false hoff hon) (Nat.not_lt.2 hdue)

theorem ptpSyncTimeout_loses (hon : s.chip.ptpOn i = true) (hparent : (s.chip.ptp i).parent.isSome = true)
    (hvalid : (s.chip.ptp i).valid = true) (hdue : (s.chip.ptp i).syncAt + 3 * logTaps (s.chip.ptp i).syncLog ≤ s.at_ t) :
    exec (.ptpSyncTimeout t i) s = .next (flush { s with chip := (s.chip.at_ t).masterLost i false }) := by
  rw [exec_ptpSyncTimeout, execPtpSyncTimeout]
  refine run_flush (if_pos ?_)
  rw [Bool.and_eq_true, Bool.and_eq_true, Bool.and_eq_true, decide_eq_true_eq]
  exact ⟨⟨⟨hon, hparent⟩, hvalid⟩, hdue⟩

theorem ptpSyncTimeout_waits (hinv : s.Inv)
    (h : s.chip.ptpOn i = false ∨ s.at_ t < (s.chip.ptp i).syncAt + 3 * logTaps (s.chip.ptp i).syncLog) :
    exec (.ptpSyncTimeout t i) s = .next (s.waits t) := by
  rw [exec_ptpSyncTimeout, execPtpSyncTimeout]
  refine run_waits hinv (if_neg ?_)
  rw [Bool.and_eq_true, Bool.and_eq_true, Bool.and_eq_true, decide_eq_true_eq]
  rintro ⟨⟨⟨hon, -⟩, -⟩, hdue⟩
  exact h.elim (fun hoff => ne_true_of_eq_false hoff hon) (Nat.not_lt.2 hdue)

end

/-! One message -/

section

variable {s : State} {t i : Nat} {m : PtpMsg} {d : Chip} (hexec : ∀ (l : List (Fld × Nat)) (ps : List Part) (c : Chip),
    d.ptpReceive i (s.chip.raw (s.at_ t)) m = c → Moves l ps (s.chip.at_ t) c → Part.pgm ∉ ps →
    exec (.ptpMessage t i m) s = .next { s with chip := c })
  (hrec : Received (s.chip.at_ t) i d)

include hexec hrec

/-- A message of another domain is counted and dropped. -/
theorem ptpMessage_drops (hd : m.domain ≠ s.chip.get TIM.PTP.DOMAIN) : ∃ u, exec (.ptpMessage t i m) s = .next u ∧
    u.chip.now = s.at_ t ∧ u.chip.get TIM.CNT.PDROP = satN TIM.CNT.PDROP.width (s.chip.get TIM.CNT.PDROP + 1) ∧
    u.chip.get NET.PCNT.RXOK i = satN NET.PCNT.RXOK.width (s.chip.get NET.PCNT.RXOK i + 1) ∧ u.chip.get NET.PSTAT.SILENT i = 0 ∧
    u.chip.net = { s.chip.net with rxAt := nset 0 s.chip.net.rxAt i (s.at_ t) } ∧
    Only s u [(TIM.CNT.PDROP, 0), (NET.PCNT.RXOK, i), (NET.PSTAT.SILENT, i)] (fun a b => { a with net := b.net }) := by
  have hmoves : Moves [(TIM.CNT.PDROP, 0), (NET.PCNT.RXOK, i), (NET.PSTAT.SILENT, i)] [.net] (s.chip.at_ t) (d.inc TIM.CNT.PDROP) :=
    Moves.inc (f := TIM.CNT.PDROP) (n := 0) (hrec.moves.mono (by simp) (by simp)) (by simp)
  have hd' : m.domain ≠ d.get TIM.PTP.DOMAIN := fun h => hd (h.trans (hrec.get TIM.PTP.DOMAIN 0 (by decide)))
  refine ⟨_, hexec _ _ _ (ptpReceive_otherDomain hd') hmoves (by decide), hrec.now, (get_inc_self _ _ _).trans ?_,
    (get_inc_fld _ _ _ (by decide)).trans hrec.count, (get_inc_fld _ _ _ (by decide)).trans hrec.silent, hrec.net, rfl, rfl, hmoves.rest,
    hmoves.fields⟩
  rw [hrec.get TIM.CNT.PDROP 0 (by decide)]
  rfl

variable (hd : m.domain = s.chip.get TIM.PTP.DOMAIN)

include hd

/-- The answer to a request ends it, with half of the round trip less corrections. -/
theorem ptpMessage_answers {q : Nat} {t1 rx : Int} (hkind : m.kind = .pdelayResp) (hreq : (s.chip.ptp i).req = some (q, t1))
    (hme : m.toMe = true) (hseq : m.seq = q) (htwo : m.twoStep = false)
    (hrx : rx = (s.chip.at_ t).corrected (s.chip.raw (s.at_ t)) - s.chip.get TIM.PORT.RXLAT i) :
    ∃ u, exec (.ptpMessage t i m) s = .next u ∧ u.chip.now = s.at_ t ∧ u.chip.ptp i = { s.chip.ptp i with req := none } ∧
      u.chip.get TIM.PSTAT.MPD i =
        (Min.min (Max.max 0 ((rx - t1 - corrTaps m.corr) / 2)) (2 ^ 24 - 1)).toNat % 2 ^ TIM.PSTAT.MPD.width ∧
      Only s u [(TIM.PSTAT.MPD, i), (NET.PCNT.RXOK, i), (NET.PSTAT.SILENT, i)] (fun a b => { a with tim := b.tim, net := b.net }) := by
  have hd' : m.domain = d.get TIM.PTP.DOMAIN := hd.trans (hrec.get TIM.PTP.DOMAIN 0 (by decide)).symm
  have hptp : d.ptp i = s.chip.ptp i := hrec.ptp
  have hanswer := ptpReceive_answer (x := s.chip.raw (s.at_ t)) hd' hkind ((congrArg PtpPort.req hptp).trans hreq) hme hseq htwo
  have hmoves : Moves [(TIM.PSTAT.MPD, i), (NET.PCNT.RXOK, i), (NET.PSTAT.SILENT, i)] [.tim, .net] (s.chip.at_ t)
      ((d.setPtp i { s.chip.ptp i with req := none }).setMpd i (rx - t1 - corrTaps m.corr)) := by
    refine Moves.set (f := TIM.PSTAT.MPD) (n := i) (Moves.trans (b := d) ?_ ?_) _ (by simp)
    · exact hrec.moves.mono (by simp) (by simp)
    · exact (setPtp_moves d i _).mono (fun e he => he) (by simp)
  rw [hptp, hrec.corrected, hrec.get TIM.PORT.RXLAT i (by decide)] at hanswer
  subst hrx
  exact ⟨_, hexec _ _ _ hanswer hmoves (by decide), hrec.now, ptp_setPtp d i _, get_set_self _ _ _ _, rfl, rfl, hmoves.rest, hmoves.fields⟩

/-- A one-step Sync of the port's master gives its offset. -/
theorem ptpMessage_synced {e : List Nat} {off : Int} (hkind : m.kind = .sync) (hparent : (s.chip.ptp i).parent = some (m.src, e))
    (htwo : m.twoStep = false) (hlo : -4 ≤ m.logInt) (hhi : m.logInt ≤ 1) (hsrc : s.chip.get TIM.CFG.SRC ≠ 1)
    (hoff : off = (s.chip.at_ t).corrected (s.chip.raw (s.at_ t)) - s.chip.get TIM.PORT.RXLAT i - 8 * m.ts - corrTaps m.corr -
      s.chip.get TIM.PSTAT.MPD i - s.chip.getI TIM.PORT.ASYM i) :
    exec (.ptpMessage t i m) s = .next { s with chip := offsetTaken (syncNoted d i (s.chip.raw (s.at_ t)) m) i off } := by
  have hd' : m.domain = d.get TIM.PTP.DOMAIN := hd.trans (hrec.get TIM.PTP.DOMAIN 0 (by decide)).symm
  have hsync := ptpReceive_sync (x := s.chip.raw (s.at_ t)) hd' hkind ((congrArg PtpPort.parent hrec.ptp).trans hparent) htwo hlo hhi
  have hoffset : (syncNoted d i (s.chip.raw (s.at_ t)) m).syncOffset i (d.corrected (s.chip.raw (s.at_ t)) - d.get TIM.PORT.RXLAT i) m.ts
      m.corr = off := by
    have hregs : (syncNoted d i (s.chip.raw (s.at_ t)) m).regs = d.regs := rfl
    rw [Chip.syncOffset, Chip.getI, get_congr hregs, get_congr hregs, hrec.corrected, hrec.get TIM.PORT.RXLAT i (by decide),
      hrec.get TIM.PSTAT.MPD i (by decide), hrec.get TIM.PORT.ASYM i (by decide), hoff]
    rfl
  have hsrc' : (syncNoted d i (s.chip.raw (s.at_ t)) m).get TIM.CFG.SRC ≠ 1 := fun h => hsrc ((hrec.get TIM.CFG.SRC 0 (by decide)).symm.trans h)
  rw [hoffset, ptpOffset_noServo _ _ _ hsrc'] at hsync
  obtain ⟨-, -, hmoves⟩ := offsetTaken_shows (syncNoted d i (s.chip.raw (s.at_ t)) m) i off
  have hnoted : Moves ((NET.PCNT.RXOK, i) :: (NET.PSTAT.SILENT, i) :: (TIM.PSTAT.OFFSET, i) :: (TIM.PSTAT.PSTATE, i) :: roleFields)
      [.tim, .pmu, .net] (s.chip.at_ t) (syncNoted d i (s.chip.raw (s.at_ t)) m) :=
    (hrec.moves.mono (by simp) (by simp)).trans ((setPtp_moves d i _).mono (fun e he => he) (by simp))
  exact hexec _ _ _ hsync (hnoted.trans (hmoves.mono (fun e he => List.mem_cons_of_mem _ (List.mem_cons_of_mem _ he)) (by simp))) (by decide)

/-- What a one-step Sync of the port's master shows. -/
theorem ptpMessage_syncs {e : List Nat} {off : Int} (hkind : m.kind = .sync)
    (hparent : (s.chip.ptp i).parent = some (m.src, e)) (htwo : m.twoStep = false) (hlo : -4 ≤ m.logInt) (hhi : m.logInt ≤ 1)
    (hsrc : s.chip.get TIM.CFG.SRC ≠ 1)
    (hoff : off = (s.chip.at_ t).corrected (s.chip.raw (s.at_ t)) - s.chip.get TIM.PORT.RXLAT i - 8 * m.ts - corrTaps m.corr -
      s.chip.get TIM.PSTAT.MPD i - s.chip.getI TIM.PORT.ASYM i) :
    ∃ u, exec (.ptpMessage t i m) s = .next u ∧ u.chip.now = s.at_ t ∧ (u.chip.ptp i).valid = true ∧ (u.chip.ptp i).offset = off ∧
      (u.chip.ptp i).syncAt = s.at_ t ∧ (u.chip.ptp i).parent = (s.chip.ptp i).parent ∧
      (s.chip.tim.servoPort = some i ∨ s.chip.servoIdle = false → u.chip.tim.servoPort = s.chip.tim.servoPort ∧
        u.chip.get TIM.PSTAT.PSTATE i = (if s.chip.tim.servoPort = some i then psSlave else psPassive) ∧
        Only s u [(TIM.PSTAT.OFFSET, i), (TIM.PSTAT.PSTATE, i), (NET.PCNT.RXOK, i), (NET.PSTAT.SILENT, i)]
          (fun a b => { a with tim := b.tim, net := b.net })) ∧
      (s.chip.tim.servoPort ≠ some i → s.chip.servoIdle = true → u.chip.tim.servoPort = some i ∧
        u.chip.get TIM.PSTAT.PSTATE i = psSlave) := by
  obtain ⟨hnow, hptp, -⟩ := offsetTaken_shows (syncNoted d i (s.chip.raw (s.at_ t)) m) i off
  obtain ⟨hat, hkeep, -⟩ := ptp_syncNoted (d := d) (i := i) (x := s.chip.raw (s.at_ t)) (m := m)
  refine ⟨_, ptpMessage_synced hexec hrec hd hkind hparent htwo hlo hhi hsrc hoff, hnow.trans hrec.now, congrArg PtpPort.valid hptp,
    congrArg PtpPort.offset hptp, (congrArg PtpPort.syncAt hptp).trans (hat.trans hrec.now),
    (congrArg PtpPort.parent hptp).trans (hkeep.trans (congrArg PtpPort.parent hrec.ptp)), fun h => ?_,
    fun hne hidle => sync_followed hrec hne hidle⟩
  obtain ⟨hport, hstate, hmoves⟩ := sync_kept (off := off) (m := m) (x := s.chip.raw (s.at_ t)) hrec h
  exact ⟨hport, hstate, rfl, rfl, hmoves.rest, hmoves.fields⟩

end

/-- Settles O43: where the ports follow their enables a frame received leaves them, so that what a port does with a message is read off
the state before it; a lost master goes through the port, the servo and the device in turn. -/
theorem ptpPortsTalk : Obligations.PtpPortsTalk := by
  unfold Obligations.PtpPortsTalk
  refine ⟨fun s t i m hinv hon hlink href => ⟨fun hd => ?_, fun q t1 hd hkind hreq hme hseq htwo => ?_,
      fun e off hd hkind hparent htwo hlo hhi hsrc hoff => ?_⟩,
    fun s t i hinv hon hlink href hfree => ?_,
    fun s t i m k hinv hon hlink => ⟨?_, fun hmay => ?_, fun hmay => ptpTransmit_waits hinv (.inr hmay)⟩,
    fun s t i hinv hon hparent => ⟨fun hdue => ?_, fun hlt => ptpAnnounceTimeout_waits hinv (.inr hlt), fun hvalid hdue => ?_,
      fun hlt => ptpSyncTimeout_waits hinv (.inr hlt)⟩,
    fun s t i m k hinv hoff => ⟨ptpMessage_waits hinv hoff, ptpTransmit_waits hinv (.inl hoff), ptpAnnounceTimeout_waits hinv (.inl hoff),
      ptpSyncTimeout_waits hinv (.inl hoff)⟩⟩
  · exact ptpMessage_drops (fun _ _ _ => ptpMessage_received hinv hon hlink) (frameTaken_shows hon href) hd
  · exact ptpMessage_answers (fun _ _ _ => ptpMessage_received hinv hon hlink) (frameTaken_shows hon href) hd hkind hreq hme hseq htwo rfl
  · have hrec : Received (s.chip.at_ t) i (frameTaken (s.chip.at_ t) i) := frameTaken_shows hon href
    exact ptpMessage_syncs (fun _ _ _ => ptpMessage_received hinv hon hlink) hrec hd hkind hparent htwo hlo hhi hsrc hoff
  · have hmay : (s.chip.at_ t).ptpMaySend i .pdelayReq = true := Bool.and_eq_true_iff.2 ⟨decide_eq_true hfree, rfl⟩
    have hmoves : Moves [(NET.PCNT.TXOK, i)] [.tim, .net] (s.chip.at_ t) ((s.chip.at_ t).ptpSend i .pdelayReq) :=
      ((setPtp_moves (s.chip.at_ t) i _).mono (fun e he => he) (by simp)).trans (ptpSent_moves (requestNoted (s.chip.at_ t) i) i _ true)
    obtain ⟨hsent, hreq, hresp, hnext⟩ := request_sent (s.chip.at_ t) i
    obtain ⟨hrct, hseq⟩ := rct_request (s.chip.at_ t) i
    exact ⟨_, ptpTransmit_sends hinv hon hlink hmay (congrArg (·.ptpSend i .pdelayReq) href) hmoves (by decide), rfl, hreq, hresp,
      ⟨_, hsent, rfl, rfl, rfl, rfl, rfl, rfl, rfl, rfl, hrct, hseq⟩, busy_ptpSent (requestNoted (s.chip.at_ t) i) i _ true, hnext,
      get_ptpSent (requestNoted (s.chip.at_ t) i) i _ true, rfl, rfl, hmoves.rest, hmoves.fields⟩
  · have hmoves : Moves [(NET.PCNT.RXCRC, i)] [] (s.chip.at_ t) ((s.chip.at_ t).inc NET.PCNT.RXCRC i) := moves_refl.inc (by simp)
    exact ⟨_, ptpMessage_lost hinv hon hlink, get_inc_self (s.chip.at_ t) _ _, rfl, rfl, hmoves.rest, hmoves.fields⟩
  · have hmoves : Moves [(NET.PCNT.TXDROP, i)] [] (s.chip.at_ t) ((s.chip.at_ t).inc NET.PCNT.TXDROP i) := moves_refl.inc (by simp)
    exact ⟨_, ptpTransmit_lost hinv hon hlink hmay, get_inc_self (s.chip.at_ t) _ _, rfl, rfl, hmoves.rest, hmoves.fields⟩
  · have hi : i < 2 := lt_two_of_ptpOn hon
    obtain ⟨hnow, hptp⟩ := masterLost_shows (s.chip.at_ t) (i := i) true
    rw [ptp_portFailed] at hptp
    refine ⟨_, ptpAnnounceTimeout_loses hon hparent hdue, hnow, congrArg PtpPort.parent hptp, congrArg PtpPort.valid hptp, fun hsonly => ?_,
      fun hsonly hother => ?_⟩
    · exact (congrArg (·.get TIM.PSTAT.PSTATE i) (masterLost_keeps (s.chip.at_ t) true (.inr hsonly))).trans (state_portLost _ true hi)
    · have hon' : (portLost (s.chip.at_ t) i true).ptpOn i = true := (ptpOn_congr (get_portLost (s.chip.at_ t) true (by decide) (by decide) i)
        (get_portLost (s.chip.at_ t) true (by decide) (by decide) 0)).trans hon
      obtain ⟨-, htim, hstate⟩ := mastersMade_shows (c := portLost (s.chip.at_ t) i true) i
      have hmade := masterLost_makes (s.chip.at_ t) hi hsonly hother
      exact ⟨(congrArg (·.get TIM.PSTAT.PSTATE i) hmade).trans (hstate hon'),
        (congrArg (·.tim.gm) hmade).trans (congrArg Tim.gm htim)⟩
  · obtain ⟨hnow, hptp⟩ := masterLost_shows (s.chip.at_ t) (i := i) false
    rw [ptp_portFailed] at hptp
    exact ⟨_, ptpSyncTimeout_loses hon hparent hvalid hdue, hnow, (congrArg PtpPort.parent hptp).trans rfl, congrArg PtpPort.valid hptp,
      (congrArg (·.get TIM.PSTAT.PSTATE i) (masterLost_keeps (s.chip.at_ t) false (.inl rfl))).trans
        (state_portLost _ false (lt_two_of_ptpOn hon))⟩

end Sys2Proof.Scope
end
